-- ==== Sys2Proof/Word.lean ====
section
/-! DEFINITION. The word types of the block: a byte of memory, a 32-bit CSR, a 64-bit
quantity (R5, R7) and a 48-bit accumulator (R63). Sizes and counts are `Nat`. -/

namespace Sys2Proof

/-- One byte of memory (R5). -/
abbrev Byte := BitVec 8

/-- One CSR, or one 32-bit float word (R7, R57). -/
abbrev Word := BitVec 32

/-- A 64-bit quantity held in two CSRs (R7), such as the plumb count (R299). -/
abbrev Dword := BitVec 64

/-- An accumulator entry: 48-bit two's complement (R63). -/
abbrev Acc := BitVec 48

end Sys2Proof
end

