-- ==== Sys2Proof/Syntax.lean ====
section
/-! DEFINITION. The commands the block takes: one constructor per row of the table of
operations and events. A host command is named by its queue and queue sequence number, its
512-byte entry having been placed by CMD or SEND (R324, R327); a packet row carries the
packet; an event of the outside or of a fault carries what the outside supplies. -/

namespace Sys2Proof

/-- The errors a port's link has counted since the frame before (R270, R349): FEC codewords corrected and
uncorrectable, frames that failed their FCS, and whether the pre-FEC bit error ratio of its last 10 s lies above
2.4 × 10^−4. -/
structure LinkErrs where
  corr   : Nat
  uncorr : Nat
  fcs    : Nat
  ber    : Bool
deriving DecidableEq, Repr

/-- A packet as it leaves the port's own checks: the port it arrived on (6 is SP), the
sender's and the receiver's addresses, whether its IP header is plain (no options, extension headers or
fragments), the UDP ports and checksum, the ECN field's CE mark, the UDP payload from its first header byte on,
and the errors its link has counted. -/
structure Packet where
  port    : Nat
  mac     : List Byte
  src     : List Byte
  dst     : List Byte
  plain   : Bool
  sport   : Nat
  dport   : Nat
  sum     : Nat
  ce      : Bool
  payload : List Byte
  link    : LinkErrs
deriving DecidableEq, Repr

/-- What the spot checker of R345 found in an operation: every checked block agreed; one
datapath was outvoted at a block; or all three results differed there. -/
inductive SpotCheck where
  | agree
  | outvoted (block : Nat) (first : Bool)
  | differ (block : Nat)
deriving DecidableEq, Repr

/-- A fault that strikes an array while it works (R90–R92, R104, R126): at an engine, at a
position of the stage's issue order (or a tile row, for a drain), with the column concerned
and the error added to a sum there; KIND as in ENG_TT_FAIL_LO (R82), with 4 for an error in the outlier
lane's contribution (R104) and 5 for a Screed write whose parity fails (R126); the word and syndrome of a
SECDED error, or the byte lanes of a parity error (R353). -/
structure ArrayFault where
  engine : Nat
  pos    : Nat
  column : Nat
  delta  : Int
  kind   : Nat
  word   : Nat
  syn    : Nat
deriving DecidableEq, Repr

/-- An error that meets a stage's data outside the arrays (R34, R344): a SECDED error in a word of the
core buffer, of the cluster buffer, or (one bit, corrected) of an engine's operand-buffer bank or
accumulator tile, named by its sub-unit (R28); or bytes whose parity fails on their way to a unit of the
core. -/
inductive Upset where
  | core (word syn : Nat) (double : Bool)
  | cluster (word syn : Nat) (double : Bool)
  | engine (eng sub word syn : Nat)
  | path (sub lanes : Nat)
deriving DecidableEq, Repr

/-- What strikes a stage of a RUN while it works. -/
structure StageEvents where
  arrays : List ArrayFault
  upsets : List Upset
  spot   : SpotCheck
deriving DecidableEq, Repr

/-- Where a stage is worked, and what strikes it there: the logical core and the errors. -/
structure StageAt where
  core : Nat
  ev   : StageEvents
deriving DecidableEq, Repr

/-- A packet of a collective's data, with what the agent that applies it meets (R344): 0 nothing, 1 a wrong
residue of its sums, 2 a parity error. -/
structure CollPacket where
  packet : Packet
  agent  : Nat
deriving DecidableEq, Repr

/-- The kernel and the pass of it that a patch test ended with (R353, R358). -/
structure PatchPass where
  kernel : Nat
  pass   : Nat
deriving DecidableEq, Repr

/-- A parity error of a Topcoat (R191, R344): the stack, whether its program store fails or a path of its
datapath, the byte lanes that fail, and whether the UPDATE meets it again when it is executed again. -/
structure TopParity where
  stack : Nat
  store : Bool
  lanes : Nat
  again : Bool
deriving DecidableEq, Repr

/-- What strikes an UPDATE while the Topcoats work on it. -/
structure TopEvents where
  spot   : SpotCheck
  parity : Option TopParity
deriving DecidableEq, Repr

/-- A re-run of a suppressed pass or a row read again (R350, R351): whether it passed its
own check, and the sums or entries it gave. -/
structure ReRun where
  passed : Bool
  sums   : List Int
deriving DecidableEq, Repr

/-- The regulator's answer to a poll (R371), with the STATUS_WORD its records carry (R380). -/
structure RegPoll where
  vout : Nat
  iout : Nat
  temp : Int
  status : Nat
deriving DecidableEq, Repr

/-- One 100 µs reading of the sensors (R387): the hottest sensor of CD0–CD3 and the hub die,
each Undercoat, and each stack's case estimate, in 1/16 °C. -/
structure TempSample where
  dieT   : List Int
  stackT : List Int
  caseT  : List Int
deriving DecidableEq, Repr

/-- What the start-up tests found before release (R399): the physical cores that failed
their self-test, the other units that failed training or their test, and the capacity controllers trained, as a mask. -/
structure BootReport where
  badCores : List Nat
  badUnits : List Nat
  trained  : Nat
deriving DecidableEq, Repr

/-- The rows of the table of operations and events. -/
inductive Instr where
  /-- IDENTIFY (R335). Returns firmware version, grade, enabled clusters, device ID and job and READY state in the completion. -/
  | identify (q qseq : Nat)
  /-- READ_CSR (R335). Reads 1 to 256 consecutive registers in ascending address order, into RESULT or to DEST. -/
  | readCsr (q qseq : Nat)
  /-- WRITE_CSR (R335). Writes one register's RW, W1C or WO fields and ignores its RO fields; names no register or a register with no writable field are refused. -/
  | writeCsr (q qseq : Nat)
  /-- QUEUE_SETUP (R336). Moves a command queue's ring and completion ring into interleaved space, clears its duplicate history and sets N to 0. -/
  | queueSetup (q qseq : Nat)
  /-- QUEUE_SETUP_QP (R336). Writes, replaces or destroys a RoCEv2 queue-pair context bound to a command queue. -/
  | queueSetupQp (q qseq : Nat)
  /-- JOB_OPEN (R333). Opens a job: sets HUB_JOB, loads the step count, tables, versions and slot records, and leaves the step state COMMITTED. -/
  | jobOpen (q qseq : Nat)
  /-- JOB_CLOSE (R333). Releases every tile, invalidates the job's regions, windows, keys and QPs, clears its tables and leaves step state IDLE. -/
  | jobClose (q qseq : Nat)
  /-- REGION_MAP (R340). Applies a list of region entries whole or not at all, checked against placement and the parameter table. -/
  | regionMap (q qseq : Nat)
  /-- FILL (R340). Writes a 32-byte pattern repeatedly over a memory range at class 2. -/
  | fill (q qseq : Nat)
  /-- COPY (R340). Copies a memory range at class 2 and counts a hub tally when it completes. -/
  | copy (q qseq : Nat)
  /-- WINDOW_MAP (R263). Maps, replaces or removes host windows in the host-window aperture. -/
  | windowMap (q qseq : Nat)
  /-- STENCIL_LOAD (R226). Loads a validated program image into a Stencil channel's program store. -/
  | stencilLoad (q qseq : Nat)
  /-- STREAM_START (R222). Starts the named loaded channels of a Stencil block, each of which completes on its own. -/
  | streamStart (q qseq : Nat)
  /-- STREAM_STOP (R222). Makes each named channel finish its instruction and its parcels, complete with STOPPED and return to LOADED. -/
  | streamStop (q qseq : Nat)
  /-- STREAM_RESUME (R242). Restarts every HALTED channel of a block from the start of its saved MOVE. -/
  | streamResume (q qseq : Nat)
  /-- RUN (R343). Runs a chain of one to eight stages on every logical core of its mask, after resolving versions and taking its tiles. -/
  | run (q qseq : Nat)
  /-- RUN_LEVEL (R115). Runs a RUN in Level mode, with I8 operands formed from the hi16 view and every digit fed. -/
  | runLevel (q qseq : Nat)
  /-- STEP_BEGIN (R147). Checks the expected step and attempt numbers and moves the step state from IDLE to OPEN. -/
  | stepBegin (q qseq : Nat)
  /-- STEP_SEAM (R168). Performs the seam actions in order and returns the step state to IDLE. -/
  | stepSeam (q qseq : Nat)
  /-- STEP_COMMIT (R165). Fences the step and waits for the fenced commands and begun UPDATEs and collectives before the commit vote. -/
  | stepCommit (q qseq : Nat)
  /-- STEP_SKIP (R166). Enters the vote with HOST_SKIP set; with EARLY it completes unstarted fenced commands at once as STEP_SKIPPED. -/
  | stepSkip (q qseq : Nat)
  /-- FENCE_REACHED (R165). When the fence's commands have completed, the state becomes DECIDING and the commit vote starts. -/
  | fenceReached
  /-- COMMIT_VOTE (R165). On completion of the OR of vote words, commits by flipping selectors and incrementing STEPS, or skips. -/
  | commitVote
  /-- TOPCOAT_LOAD (R176). Loads a validated optimizer program into Topcoat slot 4 to 15. -/
  | topcoatLoad (q qseq : Nat)
  /-- UPDATE (R172). Begins an optimizer update of one tensor and waits for WAIT_OP, its scale UPDATE and previous-version readers. -/
  | update (q qseq : Nat)
  /-- UPDATE_TAKES_TENSOR (R160). After its waits end, the UPDATE makes the tensor's other slot pending and Topcoat processes its groups. -/
  | updateTakesTensor (op : Nat) (ev : TopEvents)
  /-- UPDATE_COMPLETE (R172). The UPDATE completes when all eight Topcoats have finished its last group. -/
  | updateComplete (op : Nat)
  /-- TOPCOAT_ADD (R178). Topcoat instruction ADD writes A + B to D in F32. -/
  | topcoatAdd (stack : Nat)
  /-- TOPCOAT_SUB (R178). Topcoat instruction SUB writes A − B to D. -/
  | topcoatSub (stack : Nat)
  /-- TOPCOAT_MUL (R178). Topcoat instruction MUL writes A × B to D. -/
  | topcoatMul (stack : Nat)
  /-- TOPCOAT_FMA (R178). Topcoat instruction FMA writes A × B + C rounded once. -/
  | topcoatFma (stack : Nat)
  /-- TOPCOAT_DIV (R178). Topcoat instruction DIV writes A ÷ B. -/
  | topcoatDiv (stack : Nat)
  /-- TOPCOAT_SQRT (R178). Topcoat instruction SQRT writes √A. -/
  | topcoatSqrt (stack : Nat)
  /-- TOPCOAT_RSQRT (R178). Topcoat instruction RSQRT writes 1 ÷ √A rounded once. -/
  | topcoatRsqrt (stack : Nat)
  /-- TOPCOAT_MAX (R178). Topcoat instruction MAX writes the larger of A and B. -/
  | topcoatMax (stack : Nat)
  /-- TOPCOAT_MIN (R178). Topcoat instruction MIN writes the smaller of A and B. -/
  | topcoatMin (stack : Nat)
  /-- TOPCOAT_ABS (R178). Topcoat instruction ABS writes |A|. -/
  | topcoatAbs (stack : Nat)
  /-- TOPCOAT_NEG (R178). Topcoat instruction NEG writes −A. -/
  | topcoatNeg (stack : Nat)
  /-- TOPCOAT_SIGN (R178). Topcoat instruction SIGN writes +1, −1 or +0 by the sign of A. -/
  | topcoatSign (stack : Nat)
  /-- TOPCOAT_CLAMP (R178). Topcoat instruction CLAMP writes min(max(A, B), C). -/
  | topcoatClamp (stack : Nat)
  /-- TOPCOAT_LDK (R178). Topcoat instruction LDK loads constant c_K into D. -/
  | topcoatLdk (stack : Nat)
  /-- TOPCOAT_MULK (R178). Topcoat instruction MULK writes A × c_K. -/
  | topcoatMulk (stack : Nat)
  /-- TOPCOAT_ADDK (R178). Topcoat instruction ADDK writes A + c_K. -/
  | topcoatAddk (stack : Nat)
  /-- TOPCOAT_FMAK (R178). Topcoat instruction FMAK writes A × c_K + B rounded once. -/
  | topcoatFmak (stack : Nat)
  /-- TOPCOAT_ROWACC (R180). Topcoat instruction ROWACC adds A to the parameter's row factor sum. -/
  | topcoatRowacc (stack : Nat)
  /-- TOPCOAT_COLACC (R180). Topcoat instruction COLACC adds A to the parameter's column factor sum. -/
  | topcoatColacc (stack : Nat)
  /-- TOPCOAT_LDROW (R180). Topcoat instruction LDROW loads the updated row factor. -/
  | topcoatLdrow (stack : Nat)
  /-- TOPCOAT_LDCOL (R180). Topcoat instruction LDCOL loads the updated column factor. -/
  | topcoatLdcol (stack : Nat)
  /-- TOPCOAT_LDRSUM (R180). Topcoat instruction LDRSUM loads the sum of updated row factors. -/
  | topcoatLdrsum (stack : Nat)
  /-- TOPCOAT_PHASE (R180). Topcoat instruction PHASE ends phase 1, after which the factors are updated over the whole shard. -/
  | topcoatPhase (stack : Nat)
  /-- TOPCOAT_END (R179). Topcoat instruction END writes f0 as the master and f2 and f3 as the moments into pending slots. -/
  | topcoatEnd (stack : Nat)
  /-- REDUCE_SCATTER (R286). Reduces G16B32 or G4B32 contributions exactly over one axis, each member keeping its chunk. -/
  | reduceScatter (q qseq : Nat)
  /-- ALL_GATHER (R289). Sends each member's bytes to its offset in DST on every member. -/
  | allGather (q qseq : Nat)
  /-- ALL_REDUCE (R290). Runs reduce-scatter and all-gather phases per named axis in the order C, B, A with SUM, OR or MAX. -/
  | allReduce (q qseq : Nat)
  /-- BROADCAST (R289). Sends bytes from the root to every member, phase by phase over the named axes. -/
  | broadcast (q qseq : Nat)
  /-- ALL_TO_ALL (R291). Sends each member's segment j to rank j, cut to CAP, and writes received byte counts. -/
  | allToAll (q qseq : Nat)
  /-- PERMUTE (R294). Admits and holds a layout change to the next epoch until a seam meets its conditions. -/
  | permute (q qseq : Nat)
  /-- PERMUTE_VOTE (R295). After the moves, an OR vote over the job installs the new shape, tables and epoch everywhere or nowhere. -/
  | permuteVote
  /-- MAP_SET (R275). With INITIAL, sets device ID, shape, epoch, collective region and optionally the peer table. -/
  | mapSet (q qseq : Nat)
  /-- MAP_SET_REMAP (R277). Places spare devices at the coordinates of retired devices without changing the epoch. -/
  | mapSetRemap (q qseq : Nat)
  /-- ACQUIRE (R304). PLUMB_SYNC_CFG mode ACQUIRE sets the parent, source and depth and enters ACQUIRING. -/
  | acquire (q qseq : Nat)
  /-- REPARENT (R306). PLUMB_SYNC_CFG mode REPARENT changes parent, source and port without stepping the count. -/
  | reparent (q qseq : Nat)
  /-- ROOT (R304). PLUMB_SYNC_CFG mode ROOT makes the device the plumb tree's root. -/
  | root (q qseq : Nat)
  /-- LAUNCH_AT (R308). Holds the head of each named queue until a given plumb tick. -/
  | launchAt (q qseq : Nat)
  /-- PLUMB_READ (R309). Returns the plumb count on the tick of execution, with PLB_STATUS and PLB_OFFSET. -/
  | plumbRead (q qseq : Nat)
  /-- PATCH_TEST (R360). Makes a unit's patch test due, optionally at the next seam, and completes with its result. -/
  | patchTest (q qseq : Nat)
  /-- SNAG_READ (R356). Copies Snag-list ring records, counter entries or the summary from the hub's RAM image to memory. -/
  | snagRead (q qseq : Nat)
  /-- RETIRE (R356). Retires a named unit at the next seam and writes a permanent record. -/
  | retire (q qseq : Nat)
  /-- REPLAY (R367). Aborts open commands and restores committed state at seam M from own slots or own mirror half, entering REPLAYING. -/
  | replay (q qseq : Nat)
  /-- TAKEOVER (R367). Makes a spare device restore a failed device's state from its mirror half and ledger copy at the buddy. -/
  | takeover (q qseq : Nat)
  /-- MIRROR_CFG (R363). Turns the Dust-sheet mirror on or off and sets its interval and planes. -/
  | mirrorCfg (q qseq : Nat)
  /-- TEL_SAMPLE (R340). Writes a telemetry record with OUTCOME 0x0 to DST without clearing counters. -/
  | telSample (q qseq : Nat)
  /-- CLOCK_SELECT (R384). Switches a clock domain between its PLL and oscillator bypass without a glitch. -/
  | clockSelect (q qseq : Nat)
  /-- GATE (R385). Turns the clock gate of a gate-tree node on or off under the parent and child rules. -/
  | gate (q qseq : Nat)
  /-- CLKOUT_CFG (R386). Enables or disables the CLKOUT pair with a chosen domain and divider. -/
  | clkoutCfg (q qseq : Nat)
  /-- POWER_CFG (R373). Sets AVS by firmware or a fixed VDD_CORE setpoint, and the package power cap. -/
  | powerCfg (q qseq : Nat)
  /-- MARGIN (R214). Measures lane margins of one pseudo-channel in EYE or STRESS mode and writes the lane records. -/
  | margin (q qseq : Nat)
  /-- ATTEST (R408). Writes a 512-byte report with the nonce, signed under the identity key. -/
  | attest (q qseq : Nat)
  /-- IDENTITY_READ (R407). Writes the identity public key and its Kilulare certificate. -/
  | identityRead (q qseq : Nat)
  /-- IMAGE_STAGE_BEGIN (R403). Clears the target slot's VALID bit, erases it and opens staging. -/
  | imageStageBegin (q qseq : Nat)
  /-- IMAGE_STAGE_DATA (R403). Programs a range of image bytes into the target slot. -/
  | imageStageData (q qseq : Nat)
  /-- IMAGE_STAGE_FINISH (R403). Reads back and verifies the staged slot, making it valid and preferred on success, and closes staging. -/
  | imageStageFinish (q qseq : Nat)
  /-- IMAGE_STAGE_ABORT (R403). Closes staging and leaves the target slot invalid. -/
  | imageStageAbort (q qseq : Nat)
  /-- CMD (R327). A Scrim CMD entry is placed in its queue, refused or treated as duplicate, and answered ACK. -/
  | cmd (p : Packet)
  /-- SEND (R266). A RoCEv2 SEND of whole 512-byte entries places them in the QP's bound queue and is acknowledged. -/
  | send (p : Packet)
  /-- PUT (R256). An inbound Scrim PUT is executed once under the duplicate window and answered ACK or NACK after every sector is written. -/
  | put (p : Packet)
  /-- GET (R264). An inbound Scrim GET is answered with GET_REPLY data, converted for converting regions, or a NACK. -/
  | get (p : Packet)
  /-- ACC (R264). An inbound Scrim ACC is performed by the memory-side adders and answered after each sector or block is added. -/
  | acc (p : Packet)
  /-- GET_REPLY (R258). A GET_REPLY for the device's own GET completes the operation when the whole reply has arrived. -/
  | getReply (p : Packet)
  /-- ACK (R258). A Scrim ACK acknowledges a packet and decides the operation OK when every packet is acknowledged. -/
  | ack (p : Packet)
  /-- NACK (R258). A Scrim NACK decides its operation FAILED with the given reason. -/
  | nack (p : Packet)
  /-- SYNC_REQUEST (R302). A parent stamps a child's SYNC REQUEST, takes or keeps a child-table entry and answers with a RESPONSE. -/
  | syncRequest (p : Packet) (t2 : Int)
  /-- SYNC_RESPONSE (R303). A child stamps the RESPONSE, computes offset and delay, and slews or steps its count by the filtered offset. -/
  | syncResponse (p : Packet) (t4 : Int)
  /-- RDMA_WRITE (R266). A RoCEv2 RDMA WRITE is checked against its R_Key and written to local memory. -/
  | rdmaWrite (p : Packet)
  /-- RDMA_READ_REQUEST (R265). A RoCEv2 RDMA READ Request is checked against its R_Key and answered with READ Responses. -/
  | rdmaReadRequest (p : Packet)
  /-- ARP_REQUEST (R248). An ARP request for the device's own IPv4 address is answered. -/
  | arpRequest (port : Nat) (frame : List Byte)
  /-- NEIGHBOUR_SOLICITATION (R248). An IPv6 neighbour solicitation for the device's own address is answered. -/
  | neighbourSolicitation (port : Nat) (frame : List Byte)
  /-- ICMP_ECHO_REQUEST (R248). An ICMP echo request is answered at class 5. -/
  | icmpEchoRequest (port : Nat) (frame : List Byte)
  /-- PAUSE_FRAME (R246). A PAUSE, PFC, LLDP or other unsupported frame is discarded and counted in SCR_RX_DROP. -/
  | pauseFrame (port : Nat) (frame : List Byte)
  /-- PORT_UP (R270). A port's link comes up and it becomes usable for PORTS choices. -/
  | portUp (port lanes : Nat)
  /-- PORT_DOWN (R270). A port's link goes down, drops out of every PORTS choice, and a plumb source on it falls back to LOCAL. -/
  | portDown (port : Nat)
  /-- PACKET_RETRY (R259). A sequenced packet with no answer within INTERVAL_US is sent again with ATTEMPT increased, up to RETRIES. -/
  | packetRetry (op idx : Nat)
  /-- OPERATION_TIMEOUT (R258). An operation whose window ends undecided is decided TIMEOUT. -/
  | operationTimeout (op : Nat)
  /-- CHANNEL_EVICTION (R257). A receive-channel source pair with no arrival for 150 ms is evicted. -/
  | channelEviction (src : Nat)
  /-- READY (R283). A READY record from a collective member lets this member send its exponent plane or data to it. -/
  | ready (p : Packet)
  /-- GO (R283). A GO record lets a SUM member send its data to the sender. -/
  | go (p : Packet)
  /-- DONE (R283). A DONE record is noted; with DONE from every member the output is formed and the collective completes. -/
  | done (p : Packet)
  /-- COLLECTIVE_DATA (R286). A collective data or exponent packet is applied: stored, or aligned and added exactly into the A48 accumulators. -/
  | collectiveData (d : CollPacket)
  /-- COLLECTIVE_TIMEOUT (R285). A collective with no progress for its inactivity window ends with TIMEOUT. -/
  | collectiveTimeout (op : Nat)
  /-- LATH_CELL_ARRIVAL (R237). A router places arriving cells by ejection, preferred output or deflection, and injects local cells into free outputs. -/
  | lathCellArrival (plane die node : Nat) (bad : List Nat)
  /-- ADD_ASSEMBLY_TIMEOUT (R238). An ADD assembly buffer with no progress for one retry budget is freed without applying anything. -/
  | addAssemblyTimeout (node src win : Nat)
  /-- CELL_ACK (R239). An owner receives a parcel's ACK, frees its window slot and counts its tally. -/
  | cellAck (block : Nat)
  /-- CELL_REPLY (R229). An owner places a read reply's cells and counts the tally when the reply is complete. -/
  | cellReply (block : Nat)
  /-- CELL_NACK (R239). A NACK fails the owner's parcel and raises a bus error. -/
  | cellNack (block : Nat)
  /-- LATH_PARCEL_RETRY (R239). An unanswered parcel is resent after the retry interval, and fails when retries are exhausted. -/
  | lathParcelRetry (block win : Nat)
  /-- ALL_STOP (R240). After outstanding parcels settle, the block classes its bus errors PAGE or ACCESS, halts or aborts its channels and writes a record. -/
  | allStop (block : Nat)
  /-- MERGE_HOLD_EXPIRY (R231). A held unsent parcel is sent after 8 Lath cycles if nothing joined it. -/
  | mergeHoldExpiry (block win : Nat)
  /-- SECTOR_GRANT (R195). A pseudo-channel scheduler grants an access, which reads, writes or adds its whole sector. -/
  | sectorGrant (stack pc : Nat)
  /-- CAPACITY_ACCESS (R216). A capacity controller reads or writes a tier group with its check sector and group-index check. -/
  | capacityAccess (ctl : Nat)
  /-- REFRESH (R212). A pseudo-channel performs a per-bank refresh at class 0. -/
  | refresh (stack pc bank : Nat)
  /-- PATROL_SCRUB (R206). The patrol scrubber reads the next sector in a refresh slot. -/
  | patrolScrub (stack pc : Nat) (flips : List (Nat × Nat))
  /-- PSEUDO_CHANNEL_RETIREMENT (R207). A failing pseudo-channel is copied into a tier remap slot and served from there. -/
  | pseudoChannelRetirement (stack pc : Nat)
  /-- HAWK_MIGRATION (R156). Class 4 migration copies overflow units of Hawk frames into HBM staging ahead of their UNSTASH. -/
  | hawkMigration (mb unit staging : Nat)
  /-- BASE (R225). Stencil instruction BASE sets an operand cursor's base and space. -/
  | baseOp (block chan : Nat)
  /-- STRIDE (R225). Stencil instruction STRIDE sets an operand's stride at a loop level. -/
  | stride (block chan : Nat)
  /-- LOOP (R227). Stencil instruction LOOP opens a loop level with its counter at 0. -/
  | loopOp (block chan : Nat)
  /-- ENDL (R227). Stencil instruction ENDL increments the loop counter and returns until COUNT is reached. -/
  | endl (block chan : Nat)
  /-- MOVE (R230). Stencil instruction MOVE computes its addresses and issues its transfer as parcels. -/
  | move (block chan : Nat)
  /-- SCATTER_ADD (R208). Stencil instruction ADD issues an add transfer to memory-side adders as parcels. -/
  | scatterAdd (block chan : Nat)
  /-- WAITP (R228). Stencil instruction WAITP waits until ANCHOR + Δ. -/
  | waitp (block chan : Nat)
  /-- WAITT (R228). Stencil instruction WAITT waits until a tally reaches a threshold. -/
  | waitt (block chan : Nat)
  /-- WAITC (R228). Stencil instruction WAITC waits until another channel's signal count reaches a threshold. -/
  | waitc (block chan : Nat)
  /-- SIGNAL (R228). Stencil instruction SIGNAL adds 1 to the channel's signal count. -/
  | signal (block chan : Nat)
  /-- SETT (R229). Stencil instruction SETT writes a tally. -/
  | sett (block chan : Nat)
  /-- PEER (R225). Stencil instruction PEER directs later hub transfers over Scrim to a device or back to this one. -/
  | peer (block chan : Nat)
  /-- END (R222). Stencil instruction END completes the channel and raises its signal count. -/
  | endChan (block chan : Nat)
  /-- WAITP_DUE (R228). The plumb count reaches ANCHOR + Δ, ANCHOR advances and the channel continues. -/
  | waitpDue (block chan : Nat)
  /-- WAIT_SATISFIED (R228). A tally or signal count reaches a waiting channel's threshold and the channel continues. -/
  | waitSatisfied (block chan : Nat)
  /-- WAIT_TIMEOUT (R228). A WAITT or WAITC whose window ends completes the channel with TIMEOUT. -/
  | waitTimeout (block chan : Nat)
  /-- LOAD (R151). A LOAD stage fills the core buffer from prefetched data or by its own class 2 reads. -/
  | loadStage (op : Nat) (work : StageAt)
  /-- QUANTISE (R99). A QUANTISE stage scales, rotates, extracts outliers and quantises each group with metering and fall-back. -/
  | quantise (op core : Nat) (ev : StageEvents)
  /-- MULTIPLY (R77). A MULTIPLY stage issues passes of stationary blocks and vectors into one tile of each engine. -/
  | multiply (op core : Nat) (ev : StageEvents)
  /-- SCREED (R121). A SCREED stage drains the tile after the last add and converts each entry with a single rounding. -/
  | screed (op core : Nat) (ev : StageEvents) (writes : List ArrayFault)
  /-- RETURN (R111). A RETURN stage inverse-rotates and rescales F32 output and may form scale-gradient partials. -/
  | returnStage (op : Nat) (work : StageAt)
  /-- STORE (R148). A STORE stage moves core-buffer bytes to memory unconverted. -/
  | storeStage (op : Nat) (work : StageAt)
  /-- STASH (R155). A STASH stage reserves a frame at the top of its Hawk stack and writes its header and planes. -/
  | stash (op : Nat) (work : StageAt)
  /-- UNSTASH (R155). An UNSTASH stage reads the top frame and lowers the stack pointer. -/
  | unstash (op : Nat) (work : StageAt)
  /-- VEC_COPY (R133). Vector function COPY converts input format to output format. -/
  | vecCopy (op : Nat) (work : StageAt)
  /-- VEC_ADD (R133). Vector function ADD adds main and second input element-wise. -/
  | vecAdd (op : Nat) (work : StageAt)
  /-- VEC_SUB (R133). Vector function SUB subtracts the second input element-wise. -/
  | vecSub (op : Nat) (work : StageAt)
  /-- VEC_MUL (R133). Vector function MUL multiplies element-wise. -/
  | vecMul (op : Nat) (work : StageAt)
  /-- ACT (R133). Vector function ACT writes an element function of each input. -/
  | act (op core : Nat) (ev : StageEvents)
  /-- ACT_BWD (R133). Vector function ACT_BWD writes dy times the derivative at the stored pre-activation. -/
  | actBwd (op : Nat) (work : StageAt)
  /-- SM_STATS (R134). Vector function SM_STATS updates a row's softmax maximum and sum for one piece. -/
  | smStats (op : Nat) (work : StageAt)
  /-- SM_NORM (R134). Vector function SM_NORM writes normalised softmax values. -/
  | smNorm (op : Nat) (work : StageAt)
  /-- SM_BWD_SUM (R135). Vector function SM_BWD_SUM accumulates the row sum of dy times y. -/
  | smBwdSum (op : Nat) (work : StageAt)
  /-- SM_BWD (R135). Vector function SM_BWD writes the softmax input gradient. -/
  | smBwd (op : Nat) (work : StageAt)
  /-- LN_STATS (R136). Vector function LN_STATS accumulates layer-norm statistics and stores mean and r at LAST. -/
  | lnStats (op : Nat) (work : StageAt)
  /-- RMS_STATS (R136). Vector function RMS_STATS accumulates root-mean-square statistics. -/
  | rmsStats (op : Nat) (work : StageAt)
  /-- NORM_APPLY (R136). Vector function NORM_APPLY normalises and applies gamma and beta. -/
  | normApply (op : Nat) (work : StageAt)
  /-- NORM_BWD_SUM (R137). Vector function NORM_BWD_SUM accumulates G1 and G2 over the row. -/
  | normBwdSum (op : Nat) (work : StageAt)
  /-- NORM_BWD (R137). Vector function NORM_BWD writes dx and accumulates gamma and beta gradient partials. -/
  | normBwd (op : Nat) (work : StageAt)
  /-- TOPK (R138). Vector function TOPK merges a piece into the row's ranked list of K values and positions. -/
  | topk (op : Nat) (work : StageAt)
  /-- SEGSUM (R139). Vector function SEGSUM writes one record per run of equal segment IDs. -/
  | segsum (op : Nat) (work : StageAt)
  /-- TAKE_TILES (R85). On a tile release, the first held command whose tiles are all available takes them. -/
  | takeTiles (core : Nat)
  /-- TILE_CONFLICT (R86). A held command whose tile-hold limit runs out completes with TILE_CONFLICT. -/
  | tileConflict (q qseq : Nat)
  /-- RUN_COMPLETE (R150). A RUN completes once every core has finished and released its tiles, with the highest-precedence status. -/
  | runComplete (op : Nat)
  /-- PASS_MISMATCH_DECISION (R350). After two re-runs, the fault manager decides by vote what is added and which unit is counted or retired. -/
  | passMismatchDecision (eng : Nat) (runA runB : ReRun)
  /-- ARRAY_EVENT_DECISION (R351). The fault manager decides a drain mismatch, cell parity or uncorrectable SECDED event. -/
  | arrayEventDecision (eng : Nat) (again : List ReRun)
  /-- PATCH_TEST_DUE (R358). A unit becomes due for a patch test INTERVAL_MIN minutes after its last pass. -/
  | patchTestDue (unit : Nat)
  /-- PATCH_TEST_COMPLETE (R360). A finished patch test passes, or is rerun once and decided transient or permanent. -/
  | patchTestComplete (unit result : Nat) (last : PatchPass)
  /-- MIRROR_COMPLETE (R362). When all mirror PUTs and the ledger copy are acknowledged, the half's header is written complete. -/
  | mirrorComplete
  /-- SNAG_FLASH_COMMIT (R354). Pending Snag-list records are committed to both flash copies, retrying after 1 s on failure. -/
  | snagFlashCommit (ok : Bool)
  /-- SEND_SYNC_REQUEST (R303). A child sends a SYNC REQUEST to its parent on its staggered tick every 100 µs. -/
  | sendSyncRequest
  /-- CHILD_ENTRY_EXPIRY (R302). A child-table entry whose device sent no REQUEST for 10 ms is freed. -/
  | childEntryExpiry (dev : Nat)
  /-- HOLDOVER_ENTRY (R304). No usable exchange for 1 ms, or loss of the frequency source, moves LOCKED to HOLDOVER. -/
  | holdoverEntry
  /-- UNLOCKED_ENTRY (R304). HOLDOVER lasting 10 s moves the state to UNLOCKED and writes a record. -/
  | unlockedEntry
  /-- LAUNCH (R308). A command with a header launch count begins on its tick, or late if it was passed. -/
  | launch (q qseq : Nat)
  /-- LAUNCH_AT_DUE (R308). LAUNCH_AT completes on its tick and releases the held queues. -/
  | launchAtDue (op : Nat)
  /-- WINDOW_START (R310). A background window starts and its traffic is arbitrated as class 3. -/
  | windowStart (w : Nat)
  /-- WINDOW_END (R310). A background window ends and its traffic returns to class 5. -/
  | windowEnd (w : Nat)
  /-- PLUMB_ALIGNED_POINT (R307). At the first tick with count mod 4,096 = 0 after a trigger, S1 or S2 entry or return takes effect. -/
  | plumbAlignedPoint
  /-- SAG_SAMPLE (R374). VDD_CORE sensors are sampled every 10 ns and shed levels beyond their thresholds are entered. -/
  | sagSample (mv : Nat)
  /-- S5_QUIESCE_END (R379). At the end of the S5 sequence, FAULT_N is asserted, READY deasserted and ports taken down. -/
  | s5QuiesceEnd
  /-- DROOP_N (R374). DROOP_N falling at the ball enters S3. -/
  | droopN
  /-- SHED_RETURN (R376). After the sag stays below the threshold minus 1 % for 1 ms, the device returns one shed level. -/
  | shedReturn
  /-- RAIL_OUT_OF_WINDOW (R370). A fixed rail outside its ±5 % window is recorded, and below −10 % for 1 µs enters S5. -/
  | railOutOfWindow (rail : Nat) (mv : Nat) (below : Bool)
  /-- REGULATOR_POLL (R371). Every 1 ms the power controller reads VOUT, IOUT and temperature, setting REG_LOST after three failures. -/
  | regulatorPoll (reply : Option RegPoll)
  /-- AVS_SETPOINT_MOVE (R373). Under AVS by firmware, the setpoint moves by at most 5 mV per 1 ms. -/
  | avsSetpointMove (want : Nat)
  /-- POWER_CAP (R373). The 10 ms package power average above or below the cap steps array clocks down or releases them. -/
  | powerCap (watts : Nat)
  /-- OSC_LOSS (R383). Loss or drift of the 156.25 MHz input clears OSC_OK and enters S5. -/
  | oscLoss
  /-- THERMAL_SAMPLE (R387). Every 100 µs all sensors are read; thresholds step clocks, trip to S5, or set HOT and CASE. -/
  | thermalSample (t : TempSample)
  /-- THERMAL_STEP_DOWN (R388). Tj still at 100 °C 10 ms after the step to 1.8 GHz steps the array clock to 1.2 GHz. -/
  | thermalStepDown (die : Nat)
  /-- THERMAL_STEP_UP (R388). Tj below 95 °C for 10 ms steps the array clock one step back up. -/
  | thermalStepUp (die : Nat)
  /-- POWER_GOOD (R391). PWRGD and RESET_N both high restart the plumb count at 0 and begin start-up with fuse load. -/
  | powerGood
  /-- RESET (R391). A fall of PWRGD or RESET_N stops start-up or a released device and returns it to reset. -/
  | reset (pin : Bool)
  /-- IMAGE_VERIFIED (R397). The fetched image slot is verified, falling back to the other slot or entering the safe state. -/
  | imageVerified
  /-- PHASE_LIMIT (R392). A start-up phase not ended by its limit sends the device to the safe state with cause 0x3. -/
  | phaseLimit
  /-- RELEASE (R400). After start-up work completes, ports are enabled, queues opened, step state IDLE and READY asserted. -/
  | release (rep : BootReport)
  /-- SMBUS_READ (R423). The SMBus target returns a coherent snapshot of a fixed health value. -/
  | smbusRead (code : Nat)
  /-- SMBUS_WRITE (R423). An SMBus write or unknown command code is NACKed. -/
  | smbusWrite (code : Nat) (data : List Byte)
  /-- TAP_INSTRUCTION (R424). A TAP instruction acts as boundary scan while RESET_N is low, and otherwise as BYPASS. -/
  | tapInstruction (ir : Nat)
  /-- LOCKSTEP_DIVERGENCE (R344). A divergence between management-processor cores 0 and 1 at a retired instruction stops the hub, asserts FAULT_N and loses the device. -/
  | lockstepDivergence (pc : Nat)
  /-- DROOP_COMPARATOR (R374). An on-die droop comparator crossing −7 % enters S3 within 2 ns. -/
  | droopComparator (die : Nat)
  /-- DROOP_N_DEASSERTED (R376). DROOP_N rising at the ball allows the S3 return hold to start once the sag is below −6 %. -/
  | droopNDeasserted
  /-- FUSE_LOAD_END (R392). Fuse load finishes, the identity key is formed, the fixed rails are checked and phase 3 starts the SPI NOR read. -/
  | fuseLoadEnd (railsOk : Bool)
  /-- FIXED_RAIL_IN_WINDOW (R417). A fixed rail that was outside its window when fuse load ended enters its window, and start-up leaves its wait in phase 2. -/
  | fixedRailInWindow (rail : Nat)
  /-- ATOMIC_OPERATION (R267). A received RoCEv2 atomic request is answered with NAK Invalid Request. -/
  | atomicOperation (p : Packet)
deriving DecidableEq, Repr

end Sys2Proof
end

