-- ==== Sys2Proof/Decode.lean ====
section
/-! DEFINITION. The command a word of the table's bits spells. The table gives no row any bits:
its commands come as queue entries, packets and events, not as encoded words. -/

namespace Sys2Proof

/-- No row of the table has an encoding in bits, so no word spells a command. -/
def decodeTableWord (_nbits _w : Nat) : Option Instr := none

end Sys2Proof
end

