-- ==== Sys2Proof/Machine/Bits.lean ====
section
/-! DEFINITION. Bit fields, sign extension and byte order: the device's own structures are
little-endian (R6), wire headers are in network byte order (R6). -/

namespace Sys2Proof.Machine

/-- Bits `[hi:lo]` of a number (R4: bit 0 is least significant). -/
def fieldOf (n hi lo : Nat) : Nat := (n >>> lo) % 2 ^ (hi + 1 - lo)

/-- Bit `i` of a number as a truth value. -/
def bitOf (n i : Nat) : Bool := n.testBit i

/-- `n` with bits `[hi:lo]` replaced by `v`. -/
def putField (n hi lo v : Nat) : Nat :=
  let w := 2 ^ (hi + 1 - lo)
  (n >>> (hi + 1)) <<< (hi + 1) + (v % w) <<< lo + n % 2 ^ lo

/-- A truth value as bit 0 or 1. -/
def boolNat (b : Bool) : Nat := if b then 1 else 0

/-- Two's complement reading of the low `w` bits of `n`. -/
def sextNat (w n : Nat) : Int :=
  let m := n % 2 ^ w
  if 2 * m < 2 ^ w then (m : Int) else (m : Int) - (2 ^ w : Nat)

/-- The low `w` bits of a signed number, as two's complement. -/
def wrapInt (w : Nat) (i : Int) : Nat := (i % ((2 ^ w : Nat) : Int)).toNat

/-- The number a little-endian byte string spells (R6). -/
def leNat : List Byte → Nat
  | [] => 0
  | b :: r => b.toNat + 256 * leNat r

/-- `n` bytes of a number, least significant first (R6). -/
def leBytes : Nat → Nat → List Byte
  | 0, _ => []
  | k + 1, v => BitVec.ofNat 8 v :: leBytes k (v / 256)

/-- The number a byte string in network order spells (R6). -/
def beNat (bs : List Byte) : Nat := leNat bs.reverse

/-- `n` bytes of a number, most significant first (R6). -/
def beBytes (n v : Nat) : List Byte := (leBytes n v).reverse

/-- Bytes `[off, off + n)` of a string; bytes past its end read as 0. -/
def sliceB (bs : List Byte) (off n : Nat) : List Byte :=
  let t := (bs.drop off).take n
  t ++ List.replicate (n - t.length) 0

/-- The little-endian number in bytes `[off, off + n)` of a string. -/
def leAt (bs : List Byte) (off n : Nat) : Nat := leNat (sliceB bs off n)

/-- The network-order number in bytes `[off, off + n)` of a string. -/
def beAt (bs : List Byte) (off n : Nat) : Nat := beNat (sliceB bs off n)

/-- Whether bytes `[off, off + n)` of a string are all 0 (reserved bytes, R11). -/
def zeroAt (bs : List Byte) (off n : Nat) : Bool := (sliceB bs off n).all (· == 0)

/-- A byte from a number. -/
def byteOf (n : Nat) : Byte := BitVec.ofNat 8 n

/-- Saturating addition of a counter of `w` bits. -/
def satAdd (w a b : Nat) : Nat := min (a + b) (2 ^ w - 1)

/-- Clamp to `[lo, hi]` (the `sat` of R48). -/
def satInt (n lo hi : Int) : Int := if n < lo then lo else if hi < n then hi else n

/-- Integer quotient rounded to nearest, ties to even, for `b > 0`. -/
def rneDiv (a b : Nat) : Nat :=
  let q := a / b
  let r := a % b
  if 2 * r < b then q else if b < 2 * r then q + 1 else if q % 2 = 0 then q else q + 1

/-- Quotient rounded up, for `b > 0`. -/
def ceilDiv (a b : Nat) : Nat := (a + b - 1) / b

/-- `a · 2^k` for a non-negative `k`, and the number rounded down otherwise. -/
def shiftInt (a : Nat) (k : Int) : Nat := if 0 ≤ k then a <<< k.toNat else a >>> (-k).toNat

/-- Integer square root, one bit a step: the greatest `r` with `r² ≤ n` among those that
agree with `r` above bit `k`. -/
def isqrtFrom (n : Nat) : Nat → Nat → Nat
  | 0, r => r
  | k + 1, r => let t := r + 2 ^ k; isqrtFrom n k (if t * t ≤ n then t else r)

/-- Integer square root. -/
def isqrt (n : Nat) : Nat := isqrtFrom n (n.log2 / 2 + 1) 0

/-- A list cut into pieces of `k` (`k > 0`); `fuel` bounds the number of pieces. -/
def chunksOf {α : Type} (k : Nat) : Nat → List α → List (List α)
  | 0, _ => []
  | _ + 1, [] => []
  | fuel + 1, l => l.take k :: chunksOf k fuel (l.drop k)

/-- Element `i` of a list, or a default. -/
def nthD {α : Type} (l : List α) (i : Nat) (d : α) : α := (l[i]?).getD d

end Sys2Proof.Machine
end

