-- ==== Sys2Proof/Machine/Crc.lean ====
section
/-! DEFINITION. The cyclic checks: CRC-16 of a Lath cell (R235) and CRC-32C of a Scrim packet
(R249); and SHA3 (FIPS 202), which the ledger (R318), the boot record (R395), the image
(R397) and attestation (R406, R408) use. -/

namespace Sys2Proof.Machine

/-- One bit of a CRC shifted most significant bit first. -/
def crcBitUp (w poly c : Nat) : Nat :=
  if bitOf c (w - 1) then ((c <<< 1) ^^^ poly) % 2 ^ w else (c <<< 1) % 2 ^ w

/-- Eight such shifts. -/
def crcByteUp (w poly c b : Nat) : Nat :=
  (List.range 8).foldl (fun c _ => crcBitUp w poly c) (c ^^^ (b <<< (w - 8)))

/-- CRC-16 with polynomial 0x1021, initial value 0xFFFF, no reflection, no inversion (R235). -/
def crc16 (bs : List Byte) : Nat := bs.foldl (fun c b => crcByteUp 16 0x1021 c b.toNat) 0xFFFF

/-- One bit of a reflected CRC. -/
def crcBitDown (poly c : Nat) : Nat := if bitOf c 0 then (c >>> 1) ^^^ poly else c >>> 1

/-- A reflected CRC-32 over bytes from a register's value; the match makes each byte's step be
evaluated before the next. -/
def crcDown (poly : Nat) : List Byte → Nat → Nat
  | [], c => c
  | b :: l, 0 => crcDown poly l ((List.range 8).foldl (fun c _ => crcBitDown poly c) b.toNat)
  | b :: l, c + 1 => crcDown poly l ((List.range 8).foldl (fun c _ => crcBitDown poly c) ((c + 1) ^^^ b.toNat))

/-- A reflected CRC-32 with initial value and final inversion 0xFFFFFFFF. -/
def crcReflected (poly : Nat) (bs : List Byte) : Nat := crcDown poly bs 0xFFFFFFFF ^^^ 0xFFFFFFFF

/-- CRC-32C: polynomial 0x1EDC6F41 reflected (0x82F63B78), initial value and final inversion
0xFFFFFFFF (R249). -/
def crc32c (bs : List Byte) : Nat := crcReflected 0x82F63B78 bs

/-! SHA3. -/

/-- A 64-bit lane rotated left. -/
def rotl64 (x n : Nat) : Nat :=
  let n := n % 64
  ((x <<< n) ||| (x >>> (64 - n))) % 2 ^ 64

/-- The lane of column `x` in plane `y` (FIPS 202, 3.1.2): the state is its five planes, one after another. -/
def lane (a : List Nat) (x y : Nat) : Nat := nthD a (5 * (y % 5) + x % 5) 0

/-- A state from its lanes' values. -/
def planes (f : Nat → Nat → Nat) : List Nat := (List.range 25).map (fun i => f (i % 5) (i / 5))

/-- θ: each lane with the parity of the columns beside it (3.2.1). -/
def keccakTheta (a : List Nat) : List Nat :=
  let parity := (List.range 5).map (fun x => (List.range 5).foldl (fun p y => p ^^^ lane a x y) 0)
  planes (fun x y => lane a x y ^^^ lane parity (x + 4) 0 ^^^ rotl64 (lane parity (x + 1) 0) 1)

/-- The walk of ρ over 24 lanes (3.2.2): each lane's place with the triangular number it is rotated by. -/
def rhoWalk : Nat → Nat → Nat → Nat → List (Nat × Nat)
  | 0, _, _, _ => []
  | left + 1, t, x, y => (5 * y + x, (t + 1) * (t + 2) / 2 % 64) :: rhoWalk left (t + 1) y ((2 * x + 3 * y) % 5)

/-- The rotation of each lane; the walk does not meet lane (0, 0). -/
def rhoTurns : List Nat := (List.range 25).map (fun i => ((rhoWalk 24 0 1 0).find? (fun p => p.1 == i)).elim 0 (·.2))

/-- ρ and π: lane (x, y) is the rotated lane (x + 3y, x) (3.2.2, 3.2.3). -/
def keccakRhoPi (a : List Nat) : List Nat :=
  planes (fun x y => rotl64 (lane a (x + 3 * y) x) (lane rhoTurns (x + 3 * y) x))

/-- χ: each lane with the next two of its plane (3.2.4). -/
def keccakChi (a : List Nat) : List Nat :=
  planes (fun x y => lane a x y ^^^ ((2 ^ 64 - 1 - lane a (x + 1) y) &&& lane a (x + 2) y))

/-- The bits rc(t) of the register with x⁸ + x⁶ + x⁵ + x⁴ + 1 (3.2.5, Algorithm 5). -/
def rcBits : Nat → Nat → List Nat
  | 0, _ => []
  | left + 1, r => r % 2 :: rcBits left (if bitOf r 7 then (2 * r) ^^^ 0x171 else 2 * r)

/-- The constant of round `i`: its seven bits of the register at the places 2^j - 1. -/
def roundConstant (i : Nat) : Nat :=
  (((rcBits 168 1).drop (7 * i)).take 7).zipIdx.foldl (fun c b => c + b.1 * 2 ^ (2 ^ b.2 - 1)) 0

/-- The constants of the 24 rounds. -/
def roundConstants : List Nat := (List.range 24).map roundConstant

/-- One round (3.3): θ, ρ, π and χ, then ι, which adds the round's constant to lane (0, 0). -/
def keccakRound (a : List Nat) (rc : Nat) : List Nat :=
  let b := keccakChi (keccakRhoPi (keccakTheta a))
  b.set 0 (lane b 0 0 ^^^ rc)

/-- Keccak-f[1600]. -/
def keccak (a : List Nat) : List Nat := roundConstants.foldl keccakRound a

/-- A block absorbed. -/
def keccakAbsorb (a : List Nat) (blk : List Byte) : List Nat :=
  keccak (a.mapIdx (fun i v => v ^^^ leAt blk (8 * i) 8))

/-- The padding of SHA3: the domain bits and pad10*1. -/
def sha3Pad (rate : Nat) (m : List Byte) : List Byte :=
  let gap := rate - m.length % rate
  if gap = 1 then m ++ [0x86] else m ++ [0x06] ++ List.replicate (gap - 2) 0 ++ [0x80]

/-- SHA3 with a digest of `n` bytes. -/
def sha3 (n : Nat) (m : List Byte) : List Byte :=
  let rate := 200 - 2 * n
  let p := sha3Pad rate m
  let a := (chunksOf rate p.length p).foldl keccakAbsorb (List.replicate 25 0)
  (a.flatMap (leBytes 8)).take n

def sha3_256 (m : List Byte) : List Byte := sha3 32 m
def sha3_512 (m : List Byte) : List Byte := sha3 64 m

end Sys2Proof.Machine
end

