-- ==== Sys2Proof/Machine/Float.lean ====
section
/-! DEFINITION. Floating values as exact dyadic numbers, and the one rounding of R57:
to nearest, ties to even, subnormals kept, overflow to an infinity of its sign. -/

namespace Sys2Proof.Machine

/-- A float's value: a NaN (payloads are not carried, R58), an infinity, or the exact
dyadic number `± m · 2^e` (a zero keeps its sign). -/
inductive FV where
  | nan
  | inf (neg : Bool)
  | fin (neg : Bool) (m : Nat) (e : Int)
deriving DecidableEq, Repr

/-- A binary format: precision with the hidden bit, least and greatest normal exponent,
and the number of stored fraction bits and exponent bits (R57). -/
structure Fmt where
  p    : Nat
  emin : Int
  emax : Int
  ebits : Nat
deriving DecidableEq, Repr

/-- IEEE 754 binary32 (R57). -/
def f32 : Fmt := { p := 24, emin := -126, emax := 127, ebits := 8 }

/-- IEEE 754 binary64 (R57). -/
def f64 : Fmt := { p := 53, emin := -1022, emax := 1023, ebits := 11 }

/-- bfloat16 (R57). -/
def b16 : Fmt := { p := 8, emin := -126, emax := 127, ebits := 8 }

/-- The value a format's code stands for (R57, R58). -/
def Fmt.decode (f : Fmt) (c : Nat) : FV :=
  let fb := f.p - 1
  let neg := c.testBit (fb + f.ebits)
  let ex := (c >>> fb) % 2 ^ f.ebits
  let fr := c % 2 ^ fb
  if ex = 2 ^ f.ebits - 1 then (if fr = 0 then .inf neg else .nan)
  else if ex = 0 then .fin neg fr (f.emin - fb)
  else .fin neg (2 ^ fb + fr) (f.emin - fb + (ex - 1 : Nat))

/-- `⌊log₂(n / d)⌋` for positive `n` and `d`. -/
def log2Ratio (n d : Nat) : Int :=
  let l : Int := (n.log2 : Int) - d.log2
  let ok := if 0 ≤ l then decide (d <<< l.toNat ≤ n) else decide (d ≤ n <<< (-l).toNat)
  if ok then l else l - 1

/-- `rne(n / d · 2^k)` (the `rne` of R48), for positive `d`. -/
def rneScaled (n d : Nat) (k : Int) : Nat :=
  if 0 ≤ k then rneDiv (n <<< k.toNat) d else rneDiv n (d <<< (-k).toNat)

/-- The magnitude `n / d · 2^e` rounded once into a format (R57). -/
def Fmt.roundRatio (f : Fmt) (neg : Bool) (n d : Nat) (e : Int) : FV :=
  if n = 0 then .fin neg 0 0 else
  let l := log2Ratio n d + e
  let q : Int := max (l - f.p + 1) (f.emin - f.p + 1)
  let k := rneScaled n d (e - q)
  if k = 0 then .fin neg 0 0
  else if f.emax < (k.log2 : Int) + q then .inf neg
  else .fin neg k q

/-- A value rounded once into a format (R57). -/
def Fmt.round (f : Fmt) : FV → FV
  | .nan => .nan
  | .inf s => .inf s
  | .fin s m e => f.roundRatio s m 1 e

/-- The code of a value that lies in the format, NaN as the canonical NaN of R58. -/
def Fmt.encode (f : Fmt) (v : FV) : Nat :=
  let fb := f.p - 1
  let top := (2 ^ f.ebits - 1) <<< fb
  match v with
  | .nan => top + 2 ^ (fb - 1)
  | .inf s => boolNat s <<< (fb + f.ebits) + top
  | .fin s m e =>
    let sg := boolNat s <<< (fb + f.ebits)
    if m = 0 then sg else
    -- the significand brought to the format's scale
    let q : Int := max ((m.log2 : Int) + e - f.p + 1) (f.emin - f.p + 1)
    let k := if q ≤ e then m <<< (e - q).toNat else m >>> (q - e).toNat
    if k < 2 ^ fb then sg + k
    else sg + ((q - (f.emin - fb)) + 1).toNat <<< fb + (k - 2 ^ fb)

/-- A value rounded into a format and encoded. -/
def Fmt.toCode (f : Fmt) (v : FV) : Nat := f.encode (f.round v)

/-- Positive zero. -/
def fvZero : FV := .fin false 0 0

/-- One. -/
def fvOne : FV := .fin false 1 0

/-- A natural number as a value. -/
def fvNat (n : Nat) : FV := .fin false n 0

/-- `i · 2^e` as a value; 0 is `+0`. -/
def fvInt (i : Int) (e : Int) : FV := .fin (decide (i < 0)) i.natAbs e

/-- Whether a value is finite. -/
def FV.isFin : FV → Bool
  | .fin _ _ _ => true
  | _ => false

/-- Whether a value is a NaN. -/
def FV.isNan : FV → Bool
  | .nan => true
  | _ => false

/-- Whether a value is a zero of either sign. -/
def FV.isZero : FV → Bool
  | .fin _ m _ => m == 0
  | _ => false

/-- Whether a value's sign bit is set (a NaN counts as positive, R58). -/
def FV.neg? : FV → Bool
  | .nan => false
  | .inf s => s
  | .fin s _ _ => s

/-- Sign changed; a NaN stays a NaN. -/
def FV.negate : FV → FV
  | .nan => .nan
  | .inf s => .inf (!s)
  | .fin s m e => .fin (!s) m e

/-- Magnitude. -/
def FV.abs : FV → FV
  | .nan => .nan
  | .inf _ => .inf false
  | .fin _ m e => .fin false m e

/-- The signed significand of a finite value brought down to exponent `q ≤ e`. -/
def signedAt (s : Bool) (m : Nat) (e q : Int) : Int :=
  let k : Int := (m <<< (e - q).toNat : Nat)
  if s then -k else k

/-- The exact sum, IEEE 754 for infinities and the sign of an exact zero. -/
def FV.add : FV → FV → FV
  | .nan, _ => .nan
  | _, .nan => .nan
  | .inf a, .inf b => if a = b then .inf a else .nan
  | .inf a, _ => .inf a
  | _, .inf b => .inf b
  | .fin sa ma ea, .fin sb mb eb =>
    if ma = 0 ∧ mb = 0 then .fin (sa && sb) 0 0
    else if ma = 0 then .fin sb mb eb
    else if mb = 0 then .fin sa ma ea
    else
      let q := min ea eb
      fvInt (signedAt sa ma ea q + signedAt sb mb eb q) q

/-- The exact difference. -/
def FV.sub (a b : FV) : FV := a.add b.negate

/-- The exact product, IEEE 754 for infinities and zeros. -/
def FV.mul : FV → FV → FV
  | .nan, _ => .nan
  | _, .nan => .nan
  | .inf a, .inf b => .inf (a != b)
  | .inf a, .fin b m _ => if m = 0 then .nan else .inf (a != b)
  | .fin a m _, .inf b => if m = 0 then .nan else .inf (a != b)
  | .fin sa ma ea, .fin sb mb eb => .fin (sa != sb) (ma * mb) (ea + eb)

/-- The quotient rounded once into a format; a finite non-zero number over zero is an
infinity (R129, R179). -/
def Fmt.div (f : Fmt) : FV → FV → FV
  | .nan, _ => .nan
  | _, .nan => .nan
  | .inf _, .inf _ => .nan
  | .inf a, .fin b _ _ => .inf (a != b)
  | .fin a _ _, .inf b => .fin (a != b) 0 0
  | .fin sa ma ea, .fin sb mb eb =>
    if mb = 0 then (if ma = 0 then .nan else .inf (sa != sb))
    else f.roundRatio (sa != sb) ma mb (ea - eb)

/-- `√(n / d · 2^e)` rounded once: the integer root is taken with enough bits that a set
last bit stands for every lost one. -/
def Fmt.rootRatio (f : Fmt) (n d : Nat) (e : Int) : FV :=
  if n = 0 then .fin false 0 0 else
  -- scaled by 4^k so that the root keeps at least p + 3 bits, with an even exponent
  let l := log2Ratio n d
  let k : Nat := (2 * (f.p : Int) + 8 - l).toNat
  let k := if (e - (k : Int)) % 2 = 0 then k else k + 1
  let x := (n <<< k) / d
  let r := isqrt x
  let exact := r * r * d == n <<< k
  f.roundRatio false (2 * r + boolNat (!exact)) 1 ((e - k) / 2 - 1)

/-- The square root rounded once; `√(−0)` is `−0`, of a negative number a NaN. -/
def Fmt.sqrt (f : Fmt) : FV → FV
  | .nan => .nan
  | .inf s => if s then .nan else .inf false
  | .fin s m e => if m = 0 then .fin s 0 0 else if s then .nan else f.rootRatio m 1 e

/-- `1 ÷ √x` rounded once; a zero gives an infinity of its sign (R129). -/
def Fmt.rsqrt (f : Fmt) : FV → FV
  | .nan => .nan
  | .inf s => if s then .nan else .fin false 0 0
  | .fin s m e => if m = 0 then .inf s else if s then .nan else f.rootRatio 1 m (-e)

/-- Order of two finite values: `-1`, `0` or `1`. -/
def cmpFin (sa : Bool) (ma : Nat) (ea : Int) (sb : Bool) (mb : Nat) (eb : Int) : Int :=
  let q := min ea eb
  let x := signedAt sa ma ea q
  let y := signedAt sb mb eb q
  if x < y then -1 else if y < x then 1 else 0

/-- `a < b` as numbers; false where either is a NaN. -/
def FV.lt : FV → FV → Bool
  | .nan, _ => false
  | _, .nan => false
  | .inf a, .inf b => a && !b
  | .inf a, .fin _ _ _ => a
  | .fin _ _ _, .inf b => !b
  | .fin sa ma ea, .fin sb mb eb => decide (cmpFin sa ma ea sb mb eb = -1)

/-- `a = b` as numbers (the two zeros are equal); false where either is a NaN. -/
def FV.eq (a b : FV) : Bool := !a.isNan && !b.isNan && !a.lt b && !b.lt a

/-- `a ≤ b` as numbers. -/
def FV.le (a b : FV) : Bool := a.lt b || a.eq b

/-- The larger of two numbers; a NaN makes it a NaN, equal zeros give `+0` (R130). -/
def FV.max (a b : FV) : FV :=
  if a.isNan || b.isNan then .nan
  else if a.isZero && b.isZero then fvZero
  else if a.lt b then b else a

/-- The greater of two magnitudes for a finite list, as a value. -/
def FV.maxAbs (l : List FV) : FV := l.foldl (fun a x => FV.max a x.abs) fvZero

/-- Conversion of a code from one format to another (R59). -/
def convCode (src dst : Fmt) (c : Nat) : Nat := dst.toCode (src.decode c)

/-- The value of an F32 code. -/
def f32Val (c : Nat) : FV := f32.decode c

/-- The F32 code of a value, rounded once. -/
def f32Code (v : FV) : Nat := f32.toCode v

/-- The least integer `k` with `|x| < 2^k`, for a finite non-zero value. -/
def FV.topExp : FV → Int
  | .fin _ m e => (m.log2 : Int) + 1 + e
  | _ => 0

end Sys2Proof.Machine
end

