-- ==== Sys2Proof/Machine/Formats.lean ====
section
/-! DEFINITION. Number formats of chapter 02: format bytes, palettes, blocked forms, gradient
digits, compressed gradients, outlier records and learned scales. -/

namespace Sys2Proof.Machine

/-- The format codes of R35. -/
inductive Format where
  | i4 | u4 | p4 | i8 | u8
  | i4b32 | p4b32 | i8b32 | g16b32 | g4b32
  | s16 | b16 | f32 | f64 | a48 | m32
deriving DecidableEq, Repr

/-- The format of a format code; the other codes are reserved (R35). -/
def Format.ofCode (c : Nat) : Option Format :=
  match c with
  | 0x01 => some .i4 | 0x02 => some .u4 | 0x03 => some .p4 | 0x04 => some .i8 | 0x05 => some .u8
  | 0x08 => some .i4b32 | 0x09 => some .p4b32 | 0x0A => some .i8b32 | 0x0B => some .g16b32
  | 0x0C => some .g4b32 | 0x10 => some .s16 | 0x11 => some .b16 | 0x12 => some .f32
  | 0x13 => some .f64 | 0x14 => some .a48 | 0x15 => some .m32
  | _ => none

/-- Whether a format takes a palette slot (R35). -/
def Format.isPalette (f : Format) : Bool := f == .p4 || f == .p4b32

/-- The format and palette slot of a format byte; none for a reserved code, or a palette
slot on a format that has none (R35). -/
def Format.ofByte (b : Nat) : Option (Format × Nat) :=
  match Format.ofCode (fieldOf b 4 0) with
  | none => none
  | some f => if fieldOf b 7 5 ≠ 0 && !f.isPalette then none else some (f, fieldOf b 7 5)

/-- Whether a format is one of the five blocked forms (R44). -/
def Format.blocked : Format → Bool
  | .i4b32 | .p4b32 | .i8b32 | .g16b32 | .g4b32 => true
  | _ => false

/-- Bits of one element's code in its code plane (R35, R46); M32 has two 16-bit planes. -/
def Format.bits : Format → Nat
  | .i4 | .u4 | .p4 | .i4b32 | .p4b32 | .g4b32 => 4
  | .i8 | .u8 | .i8b32 => 8
  | .g16b32 | .s16 | .b16 | .m32 => 16
  | .f32 => 32
  | .a48 => 48
  | .f64 => 64

/-- The code range `lo, hi` of an integer form (R36, R48). -/
def Format.range : Format → Int × Int
  | .i4 | .i4b32 | .g4b32 => (-8, 7)
  | .u4 => (0, 15)
  | .i8 | .i8b32 => (-128, 127)
  | .u8 => (0, 255)
  | .g16b32 => (-32768, 32767)
  | _ => (0, 0)

/-- The integer a code of an integer form stands for (R36, R44). -/
def Format.codeInt (f : Format) (c : Nat) : Int :=
  match f with
  | .u4 => (c % 16 : Nat)
  | .u8 => (c % 256 : Nat)
  | _ => sextNat f.bits c

/-! Palettes. -/

/-- The level a descriptor stands for (R39). -/
def levelOf (d : Nat) : Int :=
  let term (en ng : Bool) (x : Nat) : Int := if en then (if ng then -(2 ^ x : Nat) else (2 ^ x : Nat)) else 0
  term (bitOf d 9) (bitOf d 8) (fieldOf d 7 5) + term (bitOf d 4) (bitOf d 3) (fieldOf d 2 0)

/-- Whether a level descriptor is valid (R40). -/
def levelValid (d : Nat) : Bool :=
  fieldOf d 15 10 == 0 && (!bitOf d 4 || bitOf d 9)
    && (!(bitOf d 9 && bitOf d 4) || decide (fieldOf d 2 0 < fieldOf d 7 5))
    && (bitOf d 9 || fieldOf d 8 5 == 0) && (bitOf d 4 || fieldOf d 3 0 == 0)

/-- Bell-A, the palette of slot 0 (R42). -/
def bellA : List Nat :=
  [0x0200, 0x0230, 0x0251, 0x0271, 0x0290, 0x02BA, 0x02B4, 0x02D4,
   0x0300, 0x0338, 0x0359, 0x0379, 0x0398, 0x03B2, 0x03BC, 0x03DC]

/-- The sixteen descriptors of a 32-byte palette image (R41). -/
def paletteOf (img : List Byte) : List Nat := (List.range 16).map (fun i => leAt img (2 * i) 2)

/-- The largest level magnitude of a palette (R49). -/
def paletteMax (levels : List Int) : Nat := levels.foldl (fun a l => max a l.natAbs) 0

/-- `|± m · 2^e − l|` scaled by `2^s` for `s` at least `−e` (a common scale for comparing). -/
def levelDist (neg : Bool) (m : Nat) (e : Int) (l : Int) : Nat :=
  let s : Nat := (-e).toNat
  let x : Int := signedAt neg m e (-(s : Int))
  (x - l * (2 ^ s : Nat)).natAbs

/-- The nearest palette code; the lowest of the equally near (R43). -/
def nearestCode (levels : List Int) (neg : Bool) (m : Nat) (e : Int) : Nat :=
  ((List.range levels.length).foldl (fun (best : Nat × Nat) i =>
    let d := levelDist neg m e (nthD levels i 0)
    if d < best.2 then (i, d) else best)
    (0, levelDist neg m e (nthD levels 0 0))).1

/-! Blocks. -/

/-- `rne(± m · 2^e)` (R48). -/
def rneSigned (neg : Bool) (m : Nat) (e : Int) : Int :=
  let k : Int := if 0 ≤ e then (m <<< e.toNat : Nat) else (rneDiv m (2 ^ (-e).toNat) : Nat)
  if neg then -k else k

/-- `q = x / 2^(E − 127)` of a finite value, as sign, significand and exponent (R48). -/
def scaled (x : FV) (E : Nat) : Bool × Nat × Int :=
  match x with
  | .fin s m e => (s, m, e - ((E : Int) - 127))
  | _ => (false, 0, 0)

/-- One code at exponent `E` (R48). -/
def quantCode (form : Format) (levels : List Int) (E : Nat) (x : FV) : Nat :=
  let q := scaled x E
  if form.isPalette then nearestCode levels q.1 q.2.1 q.2.2
  else wrapInt form.bits (satInt (rneSigned q.1 q.2.1 q.2.2) form.range.1 form.range.2)

/-- The codes of a block at exponent `E`; all 0 at 0xFF (R48). -/
def quantBlock (form : Format) (levels : List Int) (E : Nat) (xs : List FV) : List Nat :=
  if E = 0xFF then xs.map (fun _ => 0) else xs.map (quantCode form levels E)

/-- Whether a value needs no saturation at exponent `E` (the `fits` of R49). -/
def fitsAt (form : Format) (levels : List Int) (E : Nat) (x : FV) : Bool :=
  let q := scaled x E
  if form.isPalette then
    cmpFin false q.2.1 q.2.2 false (paletteMax levels) 0 ≤ 0
  else
    let k := rneSigned q.1 q.2.1 q.2.2
    decide (form.range.1 ≤ k) && decide (k ≤ form.range.2)

/-- The canonical exponent of a block (R49). -/
def canonicalExp (form : Format) (levels : List Int) (xs : List FV) : Nat :=
  if !xs.all FV.isFin then 0xFF
  else if xs.all FV.isZero then 0x00
  else ((List.range 255).find? (fun E => xs.all (fitsAt form levels E))).getD 0xFF

/-- How many of a block's values saturate at exponent `E` (R101, R123). -/
def satCount (form : Format) (levels : List Int) (E : Nat) (xs : List FV) : Nat :=
  (xs.filter (fun x => !fitsAt form levels E x)).length

/-- An element's value in a block of exponent `E` (R44, R45). -/
def blockVal (form : Format) (levels : List Int) (E c : Nat) : FV :=
  if E = 0xFF then .nan
  else if form.isPalette then fvInt (nthD levels (c % 16) 0) ((E : Int) - 127)
  else fvInt (form.codeInt c) ((E : Int) - 127)

/-- An unblocked integer's value under tensor exponent `T` (R38); a P4 code by its level. -/
def plainVal (form : Format) (levels : List Int) (T c : Nat) : FV :=
  if form.isPalette then fvInt (nthD levels (c % 16) 0) ((T : Int) - 127)
  else fvInt (form.codeInt c) ((T : Int) - 127)

/-! Codes in bytes. -/

/-- The codes of a byte string at `bits` bits each: two per byte, low half first, at four
bits (R37), little-endian words otherwise (R46). -/
def unpackCodes (bits : Nat) (bs : List Byte) : List Nat :=
  if bits = 4 then bs.flatMap (fun b => [b.toNat % 16, b.toNat / 16])
  else (chunksOf (bits / 8) bs.length bs).map leNat

/-- Codes as bytes (R37, R46). -/
def packCodes (bits : Nat) (cs : List Nat) : List Byte :=
  if bits = 4 then
    (chunksOf 2 cs.length cs).map (fun p => byteOf (nthD p 0 0 % 16 + 16 * (nthD p 1 0 % 16)))
  else cs.flatMap (leBytes (bits / 8))

/-- Bytes of code plane per 32-element block (R46). -/
def Format.blockBytes (f : Format) : Nat := 4 * f.bits

/-! Gradient digits (R50) and compressed gradients (R52, R53). -/

/-- Digit `d` of a G16 mantissa: digit 3 signed, the others not (R50). -/
def g16Digit (m : Int) (d : Nat) : Int :=
  let c := wrapInt 16 m
  if d = 3 then sextNat 4 (c >>> 12) else ((c >>> (4 * d)) % 16 : Nat)

/-- The result of compressing a G16B32 block to G4B32 (R52). -/
structure G4Block where
  exp      : Nat
  digits   : List Int
  resExp   : Nat
  residual : List Int
  sat      : Bool
deriving DecidableEq, Repr

/-- A G16B32 block of mantissas `ms` and exponent `E16` compressed to G4B32 (R52). -/
def toG4 (E16 : Nat) (ms : List Int) : G4Block :=
  if E16 = 0xFF then
    { exp := 0xFF, digits := ms.map (fun _ => 0), resExp := 0xFF, residual := ms.map (fun _ => 0), sat := false }
  else
    let c := canonicalExp .g4b32 [] (ms.map (fun m => fvInt m ((E16 : Int) - 127)))
    let E4 := min (max c E16) 254
    let k := E4 - E16
    let g (m : Int) : Int := satInt (rneSigned (decide (m < 0)) m.natAbs (-(k : Int))) (-8) 7
    { exp := E4, digits := ms.map g, resExp := E16
      residual := ms.map (fun m => m - g m * (2 ^ k : Nat)), sat := decide (254 < max c E16) }

/-- A G4B32 block widened to G16B32 exactly (R53): exponent and mantissas. -/
def widenG4 (E4 : Nat) (gs : List Int) : Nat × List Int :=
  if E4 = 0xFF then (0xFF, gs.map (fun _ => 0))
  else
    let E16 := E4 - 12
    (E16, gs.map (fun g => g * (2 ^ (E4 - E16) : Nat)))

/-! Outlier records (R54). -/

/-- An outlier record: its exponent and its valid entries, position and value. -/
structure OutRec where
  eo      : Nat
  entries : List (Nat × Int)
deriving DecidableEq, Repr

/-- Whether positions are strictly ascending (R54). -/
def ascending : List (Nat × Int) → Bool
  | [] => true
  | [_] => true
  | a :: b :: r => decide (a.1 < b.1) && ascending (b :: r)

/-- The record of 16 bytes; none for a malformed one (R54). -/
def OutRec.ofBytes (bs : List Byte) : Option OutRec :=
  let n := fieldOf (leAt bs 0 1) 2 0
  let es := (List.range (min n 4)).map (fun i =>
    let e := leAt bs (4 + 2 * i) 2
    (fieldOf e 14 8, sextNat 8 (fieldOf e 7 0)))
  if 4 < n || !ascending es then none else some { eo := leAt bs 1 1, entries := es }

/-- The 16 bytes of a record (R54). -/
def OutRec.toBytes (r : OutRec) : List Byte :=
  let es := r.entries.flatMap (fun e => leBytes 2 (e.1 <<< 8 + wrapInt 8 e.2))
  [byteOf r.entries.length, byteOf r.eo, 0, 0] ++ sliceB es 0 8 ++ [0, 0, 0, 0]

/-! Learned scales (R55, R56). -/

/-- The value of an S16 code (R55). -/
def s16Val (c : Nat) : FV := .fin false (2048 + c % 2048) (((c / 2048 % 32 : Nat) : Int) - 27)

/-- A binary32 value as S16, with whether it saturated low and high (R56). -/
def toS16 (x : FV) : Nat × Bool × Bool :=
  match x with
  | .nan => (0x0000, true, false)
  | .inf s => if s then (0x0000, true, false) else (0xFFFF, false, true)
  | .fin s m e =>
    if m = 0 || s then (0x0000, true, false) else
    let l : Int := (m.log2 : Int) + e
    let k := rneScaled m 1 (e - (l - 11))
    let (k, l) := if k = 4096 then (2048, l + 1) else (k, l)
    if l < -16 then (0x0000, true, false)
    else if 15 < l then (0xFFFF, false, true)
    else ((l + 16).toNat <<< 11 + (k - 2048), false, false)

/-- A float format of a format code, if it is one (R57). -/
def Format.float? : Format → Option Fmt
  | .b16 => some Sys2Proof.Machine.b16
  | .f32 => some Sys2Proof.Machine.f32
  | .f64 => some Sys2Proof.Machine.f64
  | _ => none

end Sys2Proof.Machine
end

