-- ==== Sys2Proof/Config.lean ====
section
/-! DEFINITION. What an implementation fixes and what the spec leaves open: uninterpreted
values, which no proof can see. Each is applied to the operands it depends on, or to the
free-value counter of State. -/

namespace Sys2Proof.Config

/-- A fresh value the spec leaves open, by the free-value counter of State (DESIGN CHOICE 3). -/
opaque freeValue : Nat → BitVec 64

/-- The firmware version IDENTIFY reports (R335), which the spec gives no value. -/
opaque firmwareVersion : BitVec 16

/-- The instruction words of the built-in Topcoat programs of slots 1 to 3 (R181): the spec
gives their purpose and length but not their words. -/
opaque builtinWord (slot i : Nat) : BitVec 32

/-- The spare rows a stack of memory reports (R207), which the spec gives no number. -/
opaque spareRows (stack : Nat) : Nat

/-- ML-DSA-87 key generation from a seed: the public key of R406 and R407, which stands in a
document the spec names but does not hold (UNVERIFIED 9). -/
opaque mldsaPublic (seed : List Byte) : List Byte

/-- An ML-DSA-87 signature under the key of a seed (R408). -/
opaque mldsaSign (seed msg : List Byte) : List Byte

/-- ML-DSA-87 verification of a signature under a public key (R397). -/
opaque mldsaVerify (key msg sig : List Byte) : Bool

/-- The Kilulare identity certificate over a public key, as the manufacturing region of the flash holds
it (R407). -/
opaque kilulareCert (key : List Byte) : List Byte

end Sys2Proof.Config
end

