-- ==== Sys2Proof/Machine/Regs.lean ====
section
/-! DEFINITION. The register map: every CSR family of the chapters with its base address, its
index strides, and its fields with their access codes (R7, R8). -/

namespace Sys2Proof.Machine

/-- The access codes of R8. -/
inductive Access where
  | rw | ro | wo | w1c | rc
deriving DecidableEq, Repr

/-- One field of a register: bits `[hi:lo]`, how it is read and written, and its reset value
(0 where it comes from the fuses or the configuration image, or where none is stated). -/
structure RegField where
  hi    : Nat
  lo    : Nat
  acc   : Access
  reset : Nat
deriving DecidableEq, Repr

/-- A family of registers: `base + Σ strideᵢ · indexᵢ`, each index below its count. -/
structure RegFam where
  base   : Nat
  dims   : List (Nat × Nat)
  fields : List RegField
deriving DecidableEq, Repr

/-- HUB_GRADE (R20). -/
def rHubGrade : Nat := 0x00000100

/-- HUB_CLUSTER_MAP (R20). -/
def rHubClusterMap : Nat := 0x00000110

/-- HUB_CORE_MAP (R20). -/
def rHubCoreMap : Nat := 0x00000200

/-- HUB_SPARE (R20). -/
def rHubSpare : Nat := 0x00000280

/-- HUB_STEP_STATE (R144). -/
def rHubStepState : Nat := 0x00000400

/-- HUB_STEP_COUNT_LO (R145). -/
def rHubStepCountLo : Nat := 0x00000408

/-- HUB_STEP_COUNT_HI (R145). -/
def rHubStepCountHi : Nat := 0x0000040C

/-- HUB_LEDGER_BASE_LO (R316). -/
def rHubLedgerBaseLo : Nat := 0x00000420

/-- HUB_LEDGER_BASE_HI (R316). -/
def rHubLedgerBaseHi : Nat := 0x00000424

/-- HUB_LEDGER_CTRL (R316). -/
def rHubLedgerCtrl : Nat := 0x00000428

/-- HUB_JOB (R334). -/
def rHubJob : Nat := 0x00000440

/-- HUB_QUEUE (R334). -/
def rHubQueue : Nat := 0x00000500

/-- HUB_QUEUE_NEXT (R334). -/
def rHubQueueNext : Nat := 0x00000504

/-- SCD_TILE_HOLD (R86). -/
def rScdTileHold : Nat := 0x00003100

/-- MEM_HAWK_TOP (R158). -/
def rMemHawkTop : Nat := 0x00004000

/-- MEM_HAWK_DEPTH (R158). -/
def rMemHawkDepth : Nat := 0x00004004

/-- MEM_PARAM_BASE (R198). -/
def rMemParamBase : Nat := 0x00004200

/-- MEM_PREGION_LO (R200). -/
def rMemPregionLo : Nat := 0x00004400

/-- MEM_PREGION_HI (R200). -/
def rMemPregionHi : Nat := 0x00004404

/-- TEL_RING_WRITE (R170). -/
def rTelRingWrite : Nat := 0x00005000

/-- TEL_RING_READ (R170). -/
def rTelRingRead : Nat := 0x00005004

/-- TOP_PROG_VALID (R192). -/
def rTopProgValid : Nat := 0x00006000

/-- CAP_STATUS (R219). -/
def rCapStatus : Nat := 0x00007000

/-- CAP_ERR (R219). -/
def rCapErr : Nat := 0x00007004

/-- LTH_RETRY (R244). -/
def rLthRetry : Nat := 0x00008000

/-- STM_WAIT_TIMEOUT (R244). -/
def rStmWaitTimeout : Nat := 0x00008004

/-- LTH_CRC_DROP (R244). -/
def rLthCrcDrop : Nat := 0x00008100

/-- LTH_DEFL_DROP (R244). -/
def rLthDeflDrop : Nat := 0x00008104

/-- LTH_DEFLECT (R244). -/
def rLthDeflect : Nat := 0x00008108

/-- LTH_RESEND (R244). -/
def rLthResend : Nat := 0x0000810C

/-- LTH_DUP (R244). -/
def rLthDup : Nat := 0x00008110

/-- LTH_LATE (R244). -/
def rLthLate : Nat := 0x00008114

/-- LTH_INFLIGHT (R244). -/
def rLthInflight : Nat := 0x00008118

/-- SCR_RETRY (R260). -/
def rScrRetry : Nat := 0x00009000

/-- SCR_OP_TIMEOUT (R260). -/
def rScrOpTimeout : Nat := 0x00009004

/-- SCR_UDP (R260). -/
def rScrUdp : Nat := 0x00009008

/-- SCR_DSCP (R260). -/
def rScrDscp : Nat := 0x0000900C

/-- SCR_COUNTERS (R269). -/
def rScrCounters : Nat := 0x00009100

/-- SCR_PORT_STATUS (R270). -/
def rScrPortStatus : Nat := 0x00009200

/-- SCR_PORT_FEC_CORR (R270). -/
def rScrPortFecCorr : Nat := 0x00009204

/-- SCR_PORT_FEC_UNCORR (R270). -/
def rScrPortFecUncorr : Nat := 0x00009208

/-- SCR_PORT_FCS (R270). -/
def rScrPortFcs : Nat := 0x0000920C

/-- COL_EPOCH (R297). -/
def rColEpoch : Nat := 0x0000A000

/-- COL_ID (R297). -/
def rColId : Nat := 0x0000A004

/-- COL_COORD_LO (R297). -/
def rColCoordLo : Nat := 0x0000A008

/-- COL_COORD_HI (R297). -/
def rColCoordHi : Nat := 0x0000A00C

/-- COL_SHAPE_LO (R297). -/
def rColShapeLo : Nat := 0x0000A010

/-- COL_SHAPE_HI (R297). -/
def rColShapeHi : Nat := 0x0000A014

/-- COL_TIMEOUT (R297). -/
def rColTimeout : Nat := 0x0000A018

/-- COL_COUNTERS (R297). -/
def rColCounters : Nat := 0x0000A100

/-- PLB_COUNT_LO (R299). -/
def rPlbCountLo : Nat := 0x0000B000

/-- PLB_COUNT_HI (R299). -/
def rPlbCountHi : Nat := 0x0000B004

/-- PLB_STATUS (R306). -/
def rPlbStatus : Nat := 0x0000B008

/-- PLB_OFFSET (R306). -/
def rPlbOffset : Nat := 0x0000B00C

/-- PLB_DELAY (R306). -/
def rPlbDelay : Nat := 0x0000B010

/-- PLB_LATE_LAUNCH (R306). -/
def rPlbLateLaunch : Nat := 0x0000B014

/-- PLB_WIN_CTRL (R310). -/
def rPlbWinCtrl : Nat := 0x0000B040

/-- PLB_WIN_PHASE (R310). -/
def rPlbWinPhase : Nat := 0x0000B044

/-- SNG_STATUS (R357). -/
def rSngStatus : Nat := 0x0000C000

/-- SNG_CHECK_CFG (R357). -/
def rSngCheckCfg : Nat := 0x0000C004

/-- SNG_TIME_LO (R357). -/
def rSngTimeLo : Nat := 0x0000C008

/-- SNG_TIME_HI (R357). -/
def rSngTimeHi : Nat := 0x0000C00C

/-- SNG_PATCH_CFG (R360). -/
def rSngPatchCfg : Nat := 0x0000C010

/-- SNG_PATCH_STATE (R360). -/
def rSngPatchState : Nat := 0x0000C014

/-- SNG_MIRROR (R363). -/
def rSngMirror : Nat := 0x0000C018

/-- SNG_MIRROR_STEP_LO (R363). -/
def rSngMirrorStepLo : Nat := 0x0000C020

/-- SNG_MIRROR_STEP_HI (R363). -/
def rSngMirrorStepHi : Nat := 0x0000C024

/-- PWR_STATUS (R390). -/
def rPwrStatus : Nat := 0x0000D000

/-- PWR_VOLT (R390). -/
def rPwrVolt : Nat := 0x0000D004

/-- PWR_SHED_COUNT (R390). -/
def rPwrShedCount : Nat := 0x0000D008

/-- PWR_REG (R390). -/
def rPwrReg : Nat := 0x0000D00C

/-- PWR_PKG (R390). -/
def rPwrPkg : Nat := 0x0000D010

/-- CLK_STATUS (R386). -/
def rClkStatus : Nat := 0x0000D100

/-- CLK_SEL (R386). -/
def rClkSel : Nat := 0x0000D104

/-- CLK_OUT (R386). -/
def rClkOut : Nat := 0x0000D108

/-- CLK_ARRAY (R386). -/
def rClkArray : Nat := 0x0000D110

/-- THM_DIE (R390). -/
def rThmDie : Nat := 0x0000D200

/-- THM_PEAK (R390). -/
def rThmPeak : Nat := 0x0000D220

/-- SEC_FUSE (R393). -/
def rSecFuse : Nat := 0x0000E000

/-- BOOT_STATUS (R409). -/
def rBootStatus : Nat := 0x0000E200

/-- BOOT_TIME (R409). -/
def rBootTime : Nat := 0x0000E204

/-- SEC_ID_FP (R409). -/
def rSecIdFp : Nat := 0x0000E210

/-- SEC_STAGE (R409). -/
def rSecStage : Nat := 0x0000E230

/-- ENG_TILE_STATE (R82). -/
def rEngTileState : Nat := 0x40000000

/-- ENG_MARK_COUNT (R82). -/
def rEngMarkCount : Nat := 0x40000004

/-- ENG_TT_COUNT (R82). -/
def rEngTtCount : Nat := 0x40000008

/-- ENG_TT_FAIL_LO (R82). -/
def rEngTtFailLo : Nat := 0x40000010

/-- ENG_TT_FAIL_HI (R82). -/
def rEngTtFailHi : Nat := 0x40000014

/-- ENG_TILE_OWNER (R82). -/
def rEngTileOwner : Nat := 0x40000040

/-- STM_BLOCK_ERR (R243). -/
def rStmBlockErr : Nat := 0x48000000

/-- STM_ERR_ADDR_LO (R243). -/
def rStmErrAddrLo : Nat := 0x48000008

/-- STM_ERR_ADDR_HI (R243). -/
def rStmErrAddrHi : Nat := 0x4800000C

/-- STM_ERR_CHANS (R243). -/
def rStmErrChans : Nat := 0x48000010

/-- STM_CHAN_STATUS (R243). -/
def rStmChanStatus : Nat := 0x48000100

/-- STM_CHAN_MOVES_LO (R243). -/
def rStmChanMovesLo : Nat := 0x48000104

/-- STM_CHAN_MOVES_HI (R243). -/
def rStmChanMovesHi : Nat := 0x48000108

/-- STM_TALLY (R243). -/
def rStmTally : Nat := 0x48000800

/-- HSTM_BLOCK_ERR (R243). -/
def rHstmBlockErr : Nat := 0x4C000000

/-- HSTM_ERR_ADDR_LO (R243). -/
def rHstmErrAddrLo : Nat := 0x4C000008

/-- HSTM_ERR_ADDR_HI (R243). -/
def rHstmErrAddrHi : Nat := 0x4C00000C

/-- HSTM_ERR_CHANS (R243). -/
def rHstmErrChans : Nat := 0x4C000010

/-- HSTM_CHAN_STATUS (R243). -/
def rHstmChanStatus : Nat := 0x4C000100

/-- HSTM_CHAN_MOVES_LO (R243). -/
def rHstmChanMovesLo : Nat := 0x4C000104

/-- HSTM_CHAN_MOVES_HI (R243). -/
def rHstmChanMovesHi : Nat := 0x4C000108

/-- HSTM_TALLY (R243). -/
def rHstmTally : Nat := 0x4C000800

/-- FLT_CAUSE (R117). -/
def rFltCause : Nat := 0x50000000

/-- FLT_QERR_LO (R117). -/
def rFltQerrLo : Nat := 0x50000008

/-- FLT_QERR_HI (R117). -/
def rFltQerrHi : Nat := 0x5000000C

/-- FLT_COUNTERS (R117). -/
def rFltCounters : Nat := 0x50000010

/-- SCD_COUNTERS (R127). -/
def rScdCounters : Nat := 0x50000100

/-- VEC_TRAP_STATUS (R141). -/
def rVecTrapStatus : Nat := 0x50000200

/-- VEC_TRAP_OP (R141). -/
def rVecTrapOp : Nat := 0x50000204

/-- VEC_TRAP_ELEM_LO (R141). -/
def rVecTrapElemLo : Nat := 0x50000208

/-- VEC_TRAP_ELEM_HI (R141). -/
def rVecTrapElemHi : Nat := 0x5000020C

/-- VEC_TRAP_PLUMB_LO (R141). -/
def rVecTrapPlumbLo : Nat := 0x50000210

/-- VEC_TRAP_PLUMB_HI (R141). -/
def rVecTrapPlumbHi : Nat := 0x50000214

/-- VEC_ORIGINS (R141). -/
def rVecOrigins : Nat := 0x50000218

/-- VEC_PROPAGATED (R141). -/
def rVecPropagated : Nat := 0x5000021C

/-- TOP_STATUS (R192). -/
def rTopStatus : Nat := 0x60000000

/-- TOP_PARAMS_LO (R192). -/
def rTopParamsLo : Nat := 0x60000008

/-- TOP_PARAMS_HI (R192). -/
def rTopParamsHi : Nat := 0x6000000C

/-- TOP_NOTFINITE (R192). -/
def rTopNotfinite : Nat := 0x60000010

/-- TOP_SCALE_SAT (R192). -/
def rTopScaleSat : Nat := 0x60000014

/-- TOP_WINDOW_SAT (R192). -/
def rTopWindowSat : Nat := 0x60000018

/-- MEM_THERM (R213). -/
def rMemTherm : Nat := 0x68000000

/-- MEM_CORR (R213). -/
def rMemCorr : Nat := 0x68000004

/-- MEM_UNCORR (R213). -/
def rMemUncorr : Nat := 0x68000008

/-- MEM_ADD_MARK (R213). -/
def rMemAddMark : Nat := 0x6800000C

/-- MEM_PC_STATUS (R213). -/
def rMemPcStatus : Nat := 0x68000100

/-- The fields of HUB_GRADE (R20): ENABLED_CLUSTERS, GRADE. -/
def famHubGrade : RegFam :=
  ⟨rHubGrade, [],
    [⟨15, 8, .ro, 0x0⟩, ⟨3, 0, .ro, 0x0⟩]⟩

/-- The fields of HUB_CLUSTER_MAP (R20): LC7, LC6, LC5, LC4, LC3, LC2, LC1, LC0. -/
def famHubClusterMap : RegFam :=
  ⟨rHubClusterMap, [(0x4, 4)],
    [⟨31, 28, .ro, 0x0⟩, ⟨27, 24, .ro, 0x0⟩, ⟨23, 20, .ro, 0x0⟩, ⟨19, 16, .ro, 0x0⟩,
     ⟨15, 12, .ro, 0x0⟩, ⟨11, 8, .ro, 0x0⟩, ⟨7, 4, .ro, 0x0⟩, ⟨3, 0, .ro, 0x0⟩]⟩

/-- The fields of HUB_CORE_MAP (R20): LK7, LK6, LK5, LK4, LK3, LK2, LK1, LK0. -/
def famHubCoreMap : RegFam :=
  ⟨rHubCoreMap, [(0x4, 32)],
    [⟨31, 28, .ro, 0x7⟩, ⟨27, 24, .ro, 0x6⟩, ⟨23, 20, .ro, 0x5⟩, ⟨19, 16, .ro, 0x4⟩,
     ⟨15, 12, .ro, 0x3⟩, ⟨11, 8, .ro, 0x2⟩, ⟨7, 4, .ro, 0x1⟩, ⟨3, 0, .ro, 0x0⟩]⟩

/-- The fields of HUB_SPARE (R20): RETIRED, SPARE_STATE, SPARE_CORE. -/
def famHubSpare : RegFam :=
  ⟨rHubSpare, [(0x4, 32)],
    [⟨16, 8, .ro, 0x0⟩, ⟨5, 4, .ro, 0x0⟩, ⟨3, 0, .ro, 0x8⟩]⟩

/-- The fields of HUB_STEP_STATE (R144): ATTEMPT, LAST_OUTCOME, LEVEL, CARRY, STATE. -/
def famHubStepState : RegFam :=
  ⟨rHubStepState, [],
    [⟨31, 16, .ro, 0x0⟩, ⟨11, 8, .ro, 0x0⟩, ⟨7, 7, .ro, 0x0⟩, ⟨6, 6, .ro, 0x0⟩,
     ⟨2, 0, .ro, 0x0⟩]⟩

/-- The fields of HUB_STEP_COUNT_LO (R145): STEPS_LO. -/
def famHubStepCountLo : RegFam :=
  ⟨rHubStepCountLo, [],
    [⟨31, 0, .ro, 0x0⟩]⟩

/-- The fields of HUB_STEP_COUNT_HI (R145): STEPS_HI. -/
def famHubStepCountHi : RegFam :=
  ⟨rHubStepCountHi, [],
    [⟨31, 0, .ro, 0x0⟩]⟩

/-- The fields of HUB_LEDGER_BASE_LO (R316): BASE_LO. -/
def famHubLedgerBaseLo : RegFam :=
  ⟨rHubLedgerBaseLo, [],
    [⟨31, 0, .ro, 0x0⟩]⟩

/-- The fields of HUB_LEDGER_BASE_HI (R316): BASE_HI. -/
def famHubLedgerBaseHi : RegFam :=
  ⟨rHubLedgerBaseHi, [],
    [⟨9, 0, .ro, 0x0⟩]⟩

/-- The fields of HUB_LEDGER_CTRL (R316): ENTRIES_LOG2, NO_LOCAL, WRITE. -/
def famHubLedgerCtrl : RegFam :=
  ⟨rHubLedgerCtrl, [],
    [⟨31, 28, .ro, 0x6⟩, ⟨27, 27, .ro, 0x0⟩, ⟨15, 0, .ro, 0x0⟩]⟩

/-- The fields of HUB_JOB (R334): OPEN, CLUSTERS, JOB_ID. -/
def famHubJob : RegFam :=
  ⟨rHubJob, [],
    [⟨31, 31, .ro, 0x0⟩, ⟨19, 16, .ro, 0x0⟩, ⟨15, 0, .ro, 0x0⟩]⟩

/-- The fields of HUB_QUEUE (R334): DEPTH_LOG2, PLACED, GAP, LOST. -/
def famHubQueue : RegFam :=
  ⟨rHubQueue, [(0x8, 8)],
    [⟨31, 28, .ro, 0x6⟩, ⟨27, 17, .ro, 0x0⟩, ⟨16, 16, .ro, 0x0⟩, ⟨15, 0, .rc, 0x0⟩]⟩

/-- The fields of HUB_QUEUE_NEXT (R334): N. -/
def famHubQueueNext : RegFam :=
  ⟨rHubQueueNext, [(0x8, 8)],
    [⟨31, 0, .ro, 0x0⟩]⟩

/-- The fields of SCD_TILE_HOLD (R86): HOLD_US. -/
def famScdTileHold : RegFam :=
  ⟨rScdTileHold, [],
    [⟨15, 0, .rw, 0x7D0⟩]⟩

/-- The fields of MEM_HAWK_TOP (R158): TOP. -/
def famMemHawkTop : RegFam :=
  ⟨rMemHawkTop, [(0x8, 16)],
    [⟨31, 0, .ro, 0x0⟩]⟩

/-- The fields of MEM_HAWK_DEPTH (R158): CARRIED, OVERFLOW, FRAMES. -/
def famMemHawkDepth : RegFam :=
  ⟨rMemHawkDepth, [(0x8, 16)],
    [⟨31, 31, .ro, 0x0⟩, ⟨30, 30, .ro, 0x0⟩, ⟨15, 0, .ro, 0x0⟩]⟩

/-- The fields of MEM_PARAM_BASE (R198): BASE_GIB. -/
def famMemParamBase : RegFam :=
  ⟨rMemParamBase, [],
    [⟨9, 0, .ro, 0x200⟩]⟩

/-- The fields of MEM_PREGION_LO (R200): VALID, LOG2_GROUP, BASE. -/
def famMemPregionLo : RegFam :=
  ⟨rMemPregionLo, [(0x8, 64)],
    [⟨31, 31, .ro, 0x0⟩, ⟨19, 16, .ro, 0x0⟩, ⟨15, 0, .ro, 0x0⟩]⟩

/-- The fields of MEM_PREGION_HI (R200): LENGTH. -/
def famMemPregionHi : RegFam :=
  ⟨rMemPregionHi, [(0x8, 64)],
    [⟨16, 0, .ro, 0x0⟩]⟩

/-- The fields of TEL_RING_WRITE (R170): INDEX. -/
def famTelRingWrite : RegFam :=
  ⟨rTelRingWrite, [],
    [⟨15, 0, .ro, 0x0⟩]⟩

/-- The fields of TEL_RING_READ (R170): INDEX. -/
def famTelRingRead : RegFam :=
  ⟨rTelRingRead, [],
    [⟨15, 0, .rw, 0x0⟩]⟩

/-- The fields of TOP_PROG_VALID (R192): VALID. -/
def famTopProgValid : RegFam :=
  ⟨rTopProgValid, [],
    [⟨15, 0, .ro, 0xF⟩]⟩

/-- The fields of CAP_STATUS (R219): RETIRED, TRAINED. -/
def famCapStatus : RegFam :=
  ⟨rCapStatus, [(0x20, 8)],
    [⟨31, 31, .ro, 0x0⟩, ⟨30, 30, .ro, 0x0⟩]⟩

/-- The fields of CAP_ERR (R219): UNCORR, CORR. -/
def famCapErr : RegFam :=
  ⟨rCapErr, [(0x20, 8)],
    [⟨31, 16, .rc, 0x0⟩, ⟨15, 0, .rc, 0x0⟩]⟩

/-- The fields of LTH_RETRY (R244): RETRIES, INTERVAL_US. -/
def famLthRetry : RegFam :=
  ⟨rLthRetry, [],
    [⟨10, 8, .rw, 0x3⟩, ⟨7, 0, .rw, 0x8⟩]⟩

/-- The fields of STM_WAIT_TIMEOUT (R244): TIMEOUT_US. -/
def famStmWaitTimeout : RegFam :=
  ⟨rStmWaitTimeout, [],
    [⟨15, 0, .rw, 0x3E8⟩]⟩

/-- The fields of LTH_CRC_DROP (R244): COUNT. -/
def famLthCrcDrop : RegFam :=
  ⟨rLthCrcDrop, [(0x20, 5)],
    [⟨31, 0, .rc, 0x0⟩]⟩

/-- The fields of LTH_DEFL_DROP (R244): COUNT. -/
def famLthDeflDrop : RegFam :=
  ⟨rLthDeflDrop, [(0x20, 5)],
    [⟨31, 0, .rc, 0x0⟩]⟩

/-- The fields of LTH_DEFLECT (R244): COUNT. -/
def famLthDeflect : RegFam :=
  ⟨rLthDeflect, [(0x20, 5)],
    [⟨31, 0, .rc, 0x0⟩]⟩

/-- The fields of LTH_RESEND (R244): COUNT. -/
def famLthResend : RegFam :=
  ⟨rLthResend, [(0x20, 5)],
    [⟨31, 0, .rc, 0x0⟩]⟩

/-- The fields of LTH_DUP (R244): COUNT. -/
def famLthDup : RegFam :=
  ⟨rLthDup, [(0x20, 5)],
    [⟨31, 0, .rc, 0x0⟩]⟩

/-- The fields of LTH_LATE (R244): COUNT. -/
def famLthLate : RegFam :=
  ⟨rLthLate, [(0x20, 5)],
    [⟨31, 0, .rc, 0x0⟩]⟩

/-- The fields of LTH_INFLIGHT (R244): COUNT. -/
def famLthInflight : RegFam :=
  ⟨rLthInflight, [(0x20, 5)],
    [⟨31, 0, .ro, 0x0⟩]⟩

/-- The fields of SCR_RETRY (R260): RETRIES, INTERVAL_US. -/
def famScrRetry : RegFam :=
  ⟨rScrRetry, [],
    [⟨10, 8, .rw, 0x7⟩, ⟨7, 0, .rw, 0x14⟩]⟩

/-- The fields of SCR_OP_TIMEOUT (R260): TIMEOUT_US. -/
def famScrOpTimeout : RegFam :=
  ⟨rScrOpTimeout, [],
    [⟨15, 0, .rw, 0x3E8⟩]⟩

/-- The fields of SCR_UDP (R260): DPORT, SPORT_BASE. -/
def famScrUdp : RegFam :=
  ⟨rScrUdp, [],
    [⟨31, 16, .rw, 0x0⟩, ⟨15, 4, .rw, 0x0⟩]⟩

/-- The fields of SCR_DSCP (R260): DSCP_REPLY, DSCP_DATA. -/
def famScrDscp : RegFam :=
  ⟨rScrDscp, [],
    [⟨13, 8, .rw, 0x0⟩, ⟨5, 0, .rw, 0x0⟩]⟩

/-- The fields of SCR_COUNTERS (R269): COUNT. -/
def famScrCounters : RegFam :=
  ⟨rScrCounters, [(0x4, 8)],
    [⟨31, 0, .rc, 0x0⟩]⟩

/-- The fields of SCR_PORT_STATUS (R270): UP, RETIRED, LOCKED, DOWNS. -/
def famScrPortStatus : RegFam :=
  ⟨rScrPortStatus, [(0x10, 7)],
    [⟨31, 31, .ro, 0x0⟩, ⟨30, 30, .ro, 0x0⟩, ⟨27, 24, .ro, 0x0⟩, ⟨15, 0, .rc, 0x0⟩]⟩

/-- The fields of SCR_PORT_FEC_CORR (R270): COUNT. -/
def famScrPortFecCorr : RegFam :=
  ⟨rScrPortFecCorr, [(0x10, 7)],
    [⟨31, 0, .rc, 0x0⟩]⟩

/-- The fields of SCR_PORT_FEC_UNCORR (R270): COUNT. -/
def famScrPortFecUncorr : RegFam :=
  ⟨rScrPortFecUncorr, [(0x10, 7)],
    [⟨31, 0, .rc, 0x0⟩]⟩

/-- The fields of SCR_PORT_FCS (R270): COUNT. -/
def famScrPortFcs : RegFam :=
  ⟨rScrPortFcs, [(0x10, 7)],
    [⟨31, 0, .rc, 0x0⟩]⟩

/-- The fields of COL_EPOCH (R297): VOTING, HELD, EPOCH. -/
def famColEpoch : RegFam :=
  ⟨rColEpoch, [],
    [⟨17, 17, .ro, 0x0⟩, ⟨16, 16, .ro, 0x0⟩, ⟨15, 0, .ro, 0x0⟩]⟩

/-- The fields of COL_ID (R297): SPARE, ASSIGNED, ID. -/
def famColId : RegFam :=
  ⟨rColId, [],
    [⟨31, 31, .ro, 0x0⟩, ⟨30, 30, .ro, 0x0⟩, ⟨11, 0, .ro, 0x0⟩]⟩

/-- The fields of COL_COORD_LO (R297): B, A. -/
def famColCoordLo : RegFam :=
  ⟨rColCoordLo, [],
    [⟨23, 12, .ro, 0x0⟩, ⟨11, 0, .ro, 0x0⟩]⟩

/-- The fields of COL_COORD_HI (R297): C. -/
def famColCoordHi : RegFam :=
  ⟨rColCoordHi, [],
    [⟨11, 0, .ro, 0x0⟩]⟩

/-- The fields of COL_SHAPE_LO (R297): B, A. -/
def famColShapeLo : RegFam :=
  ⟨rColShapeLo, [],
    [⟨23, 12, .ro, 0x0⟩, ⟨11, 0, .ro, 0x0⟩]⟩

/-- The fields of COL_SHAPE_HI (R297): C. -/
def famColShapeHi : RegFam :=
  ⟨rColShapeHi, [],
    [⟨11, 0, .ro, 0x0⟩]⟩

/-- The fields of COL_TIMEOUT (R297): TIMEOUT_US. -/
def famColTimeout : RegFam :=
  ⟨rColTimeout, [],
    [⟨15, 0, .rw, 0x4E20⟩]⟩

/-- The fields of COL_COUNTERS (R297): COUNT. -/
def famColCounters : RegFam :=
  ⟨rColCounters, [(0x4, 5)],
    [⟨31, 0, .rc, 0x0⟩]⟩

/-- The fields of PLB_COUNT_LO (R299): COUNT_LO. -/
def famPlbCountLo : RegFam :=
  ⟨rPlbCountLo, [],
    [⟨31, 0, .ro, 0x0⟩]⟩

/-- The fields of PLB_COUNT_HI (R299): COUNT_HI. -/
def famPlbCountHi : RegFam :=
  ⟨rPlbCountHi, [],
    [⟨31, 0, .ro, 0x0⟩]⟩

/-- The fields of PLB_STATUS (R306): STATE, SOURCE, PORT, DEPTH, CHILDREN, PARENT. -/
def famPlbStatus : RegFam :=
  ⟨rPlbStatus, [],
    [⟨31, 28, .ro, 0x0⟩, ⟨27, 27, .ro, 0x0⟩, ⟨26, 24, .ro, 0x0⟩, ⟨23, 22, .ro, 0x0⟩,
     ⟨18, 12, .ro, 0x0⟩, ⟨11, 0, .ro, 0x0⟩]⟩

/-- The fields of PLB_OFFSET (R306): VALUE. -/
def famPlbOffset : RegFam :=
  ⟨rPlbOffset, [],
    [⟨31, 0, .ro, 0x0⟩]⟩

/-- The fields of PLB_DELAY (R306): VALUE. -/
def famPlbDelay : RegFam :=
  ⟨rPlbDelay, [],
    [⟨31, 0, .ro, 0x0⟩]⟩

/-- The fields of PLB_LATE_LAUNCH (R306): COUNT. -/
def famPlbLateLaunch : RegFam :=
  ⟨rPlbLateLaunch, [],
    [⟨31, 0, .rc, 0x0⟩]⟩

/-- The fields of PLB_WIN_CTRL (R310): EN, PERIOD_LOG2, LENGTH. -/
def famPlbWinCtrl : RegFam :=
  ⟨rPlbWinCtrl, [(0x8, 4)],
    [⟨31, 31, .rw, 0x0⟩, ⟨28, 24, .rw, 0x14⟩, ⟨23, 0, .rw, 0x0⟩]⟩

/-- The fields of PLB_WIN_PHASE (R310): PHASE. -/
def famPlbWinPhase : RegFam :=
  ⟨rPlbWinPhase, [(0x8, 4)],
    [⟨31, 0, .rw, 0x0⟩]⟩

/-- The fields of SNG_STATUS (R357): FLASH_FAIL, TAKEOVER_REQ, RECOVERING, UNCOMMITTED. -/
def famSngStatus : RegFam :=
  ⟨rSngStatus, [],
    [⟨31, 31, .w1c, 0x0⟩, ⟨30, 30, .ro, 0x0⟩, ⟨29, 29, .ro, 0x0⟩, ⟨13, 0, .ro, 0x0⟩]⟩

/-- The fields of SNG_CHECK_CFG (R357): SPOT_LOG2. -/
def famSngCheckCfg : RegFam :=
  ⟨rSngCheckCfg, [],
    [⟨3, 0, .rw, 0xC⟩]⟩

/-- The fields of SNG_TIME_LO (R357): TIME_LO. -/
def famSngTimeLo : RegFam :=
  ⟨rSngTimeLo, [],
    [⟨31, 0, .ro, 0x0⟩]⟩

/-- The fields of SNG_TIME_HI (R357): TIME_HI. -/
def famSngTimeHi : RegFam :=
  ⟨rSngTimeHi, [],
    [⟨31, 0, .ro, 0x0⟩]⟩

/-- The fields of SNG_PATCH_CFG (R360): PER_SEAM, INTERVAL_MIN. -/
def famSngPatchCfg : RegFam :=
  ⟨rSngPatchCfg, [],
    [⟨27, 24, .rw, 0x8⟩, ⟨15, 0, .rw, 0xF0⟩]⟩

/-- The fields of SNG_PATCH_STATE (R360): DUE, OLDEST_SEAMS, FAILED. -/
def famSngPatchState : RegFam :=
  ⟨rSngPatchState, [],
    [⟨31, 16, .ro, 0x0⟩, ⟨15, 8, .ro, 0x0⟩, ⟨7, 0, .rc, 0x0⟩]⟩

/-- The fields of SNG_MIRROR (R363): EN, FLAGS, WRITING, INTERVAL, SKIPS. -/
def famSngMirror : RegFam :=
  ⟨rSngMirror, [],
    [⟨31, 31, .ro, 0x0⟩, ⟨30, 29, .ro, 0x0⟩, ⟨28, 28, .ro, 0x0⟩, ⟨27, 20, .ro, 0x1⟩,
     ⟨15, 0, .rc, 0x0⟩]⟩

/-- The fields of SNG_MIRROR_STEP_LO (R363): STEP_LO. -/
def famSngMirrorStepLo : RegFam :=
  ⟨rSngMirrorStepLo, [],
    [⟨31, 0, .ro, 0xFFFFFFFF⟩]⟩

/-- The fields of SNG_MIRROR_STEP_HI (R363): STEP_HI. -/
def famSngMirrorStepHi : RegFam :=
  ⟨rSngMirrorStepHi, [],
    [⟨31, 0, .ro, 0xFFFFFFFF⟩]⟩

/-- The fields of PWR_STATUS (R390): LEVEL, DROOP, REG_LOST, AVS_FIXED, SETPOINT_MV. -/
def famPwrStatus : RegFam :=
  ⟨rPwrStatus, [],
    [⟨31, 29, .ro, 0x0⟩, ⟨28, 28, .ro, 0x0⟩, ⟨27, 27, .ro, 0x0⟩, ⟨26, 26, .ro, 0x0⟩,
     ⟨9, 0, .ro, 0x0⟩]⟩

/-- The fields of PWR_VOLT (R390): MAX_SAG, LIVE_MV. -/
def famPwrVolt : RegFam :=
  ⟨rPwrVolt, [],
    [⟨31, 16, .rc, 0x0⟩, ⟨15, 0, .ro, 0x0⟩]⟩

/-- The fields of PWR_SHED_COUNT (R390): S1, S2, S3, S4. -/
def famPwrShedCount : RegFam :=
  ⟨rPwrShedCount, [],
    [⟨31, 24, .rc, 0x0⟩, ⟨23, 16, .rc, 0x0⟩, ⟨15, 8, .rc, 0x0⟩, ⟨7, 0, .rc, 0x0⟩]⟩

/-- The fields of PWR_REG (R390): IOUT_A, VOUT_MV. -/
def famPwrReg : RegFam :=
  ⟨rPwrReg, [],
    [⟨31, 16, .ro, 0x0⟩, ⟨15, 0, .ro, 0x0⟩]⟩

/-- The fields of PWR_PKG (R390): CAP_W, POWER_W. -/
def famPwrPkg : RegFam :=
  ⟨rPwrPkg, [],
    [⟨31, 16, .ro, 0x0⟩, ⟨15, 0, .ro, 0x0⟩]⟩

/-- The fields of CLK_STATUS (R386): OSC_OK, LOCK. -/
def famClkStatus : RegFam :=
  ⟨rClkStatus, [],
    [⟨31, 31, .ro, 0x0⟩, ⟨7, 0, .ro, 0x0⟩]⟩

/-- The fields of CLK_SEL (R386): PLL. -/
def famClkSel : RegFam :=
  ⟨rClkSel, [],
    [⟨6, 0, .ro, 0x7F⟩]⟩

/-- The fields of CLK_OUT (R386): EN, SOURCE, DIV. -/
def famClkOut : RegFam :=
  ⟨rClkOut, [],
    [⟨31, 31, .ro, 0x0⟩, ⟨19, 16, .ro, 0x8⟩, ⟨15, 0, .ro, 0x0⟩]⟩

/-- The fields of CLK_ARRAY (R386): SHED, THERM, STACK, CAP, STEP. -/
def famClkArray : RegFam :=
  ⟨rClkArray, [(0x4, 4)],
    [⟨31, 31, .ro, 0x0⟩, ⟨30, 30, .ro, 0x0⟩, ⟨29, 29, .ro, 0x0⟩, ⟨28, 28, .ro, 0x0⟩,
     ⟨1, 0, .ro, 0x0⟩]⟩

/-- The fields of THM_DIE (R390): THROTTLE, STEP, TMAX. -/
def famThmDie : RegFam :=
  ⟨rThmDie, [(0x4, 5)],
    [⟨31, 31, .ro, 0x0⟩, ⟨30, 29, .ro, 0x0⟩, ⟨15, 0, .ro, 0x0⟩]⟩

/-- The fields of THM_PEAK (R390): PEAK. -/
def famThmPeak : RegFam :=
  ⟨rThmPeak, [(0x4, 5)],
    [⟨15, 0, .rc, 0x0⟩]⟩

/-- The fields of SEC_FUSE (R393): FUSES. -/
def famSecFuse : RegFam :=
  ⟨rSecFuse, [(0x4, 128)],
    [⟨31, 0, .ro, 0x0⟩]⟩

/-- The fields of BOOT_STATUS (R409): PHASE, CAUSE, FALLBACK, SLOT, CLUSTERS_AVAIL, RESULT_A, RESULT_B. -/
def famBootStatus : RegFam :=
  ⟨rBootStatus, [],
    [⟨31, 28, .ro, 0x1⟩, ⟨27, 24, .ro, 0x0⟩, ⟨23, 23, .ro, 0x0⟩, ⟨22, 22, .ro, 0x0⟩,
     ⟨15, 12, .ro, 0x0⟩, ⟨11, 8, .ro, 0x0⟩, ⟨7, 4, .ro, 0x0⟩]⟩

/-- The fields of BOOT_TIME (R409): MS. -/
def famBootTime : RegFam :=
  ⟨rBootTime, [],
    [⟨31, 0, .ro, 0x0⟩]⟩

/-- The fields of SEC_ID_FP (R409): FP. -/
def famSecIdFp : RegFam :=
  ⟨rSecIdFp, [(0x4, 8)],
    [⟨31, 0, .ro, 0x0⟩]⟩

/-- The fields of SEC_STAGE (R409): STATE, TARGET, SVN, MIN_SVN. -/
def famSecStage : RegFam :=
  ⟨rSecStage, [],
    [⟨31, 30, .ro, 0x0⟩, ⟨29, 29, .ro, 0x0⟩, ⟨15, 8, .ro, 0x0⟩, ⟨7, 0, .ro, 0x0⟩]⟩

/-- The fields of ENG_TILE_STATE (R82): TILE7, TILE6, TILE5, TILE4, TILE3, TILE2, TILE1, TILE0. -/
def famEngTileState : RegFam :=
  ⟨rEngTileState, [(0x1000000, 4), (0x100000, 8), (0x10000, 9), (0x1000, 4)],
    [⟨31, 28, .ro, 0x0⟩, ⟨27, 24, .ro, 0x0⟩, ⟨23, 20, .ro, 0x0⟩, ⟨19, 16, .ro, 0x0⟩,
     ⟨15, 12, .ro, 0x0⟩, ⟨11, 8, .ro, 0x0⟩, ⟨7, 4, .ro, 0x0⟩, ⟨3, 0, .ro, 0x0⟩]⟩

/-- The fields of ENG_MARK_COUNT (R82): WINDOW, RANGE. -/
def famEngMarkCount : RegFam :=
  ⟨rEngMarkCount, [(0x1000000, 4), (0x100000, 8), (0x10000, 9), (0x1000, 4)],
    [⟨31, 16, .rc, 0x0⟩, ⟨15, 0, .rc, 0x0⟩]⟩

/-- The fields of ENG_TT_COUNT (R82): UNCHECKED, PASS_MISMATCH, DRAIN_MISMATCH, HARD. -/
def famEngTtCount : RegFam :=
  ⟨rEngTtCount, [(0x1000000, 4), (0x100000, 8), (0x10000, 9), (0x1000, 4)],
    [⟨31, 16, .rc, 0x0⟩, ⟨15, 8, .rc, 0x0⟩, ⟨7, 4, .rc, 0x0⟩, ⟨3, 0, .rc, 0x0⟩]⟩

/-- The fields of ENG_TT_FAIL_LO (R82): OBSERVED, PREDICTED, VECTOR, DIGIT, NIB_STAT, NIB_STRM, KIND, TILE. -/
def famEngTtFailLo : RegFam :=
  ⟨rEngTtFailLo, [(0x1000000, 4), (0x100000, 8), (0x10000, 9), (0x1000, 4)],
    [⟨31, 24, .ro, 0x0⟩, ⟨23, 16, .ro, 0x0⟩, ⟨15, 9, .ro, 0x0⟩, ⟨8, 7, .ro, 0x0⟩,
     ⟨6, 6, .ro, 0x0⟩, ⟨5, 5, .ro, 0x0⟩, ⟨4, 3, .ro, 0x0⟩, ⟨2, 0, .ro, 0x0⟩]⟩

/-- The fields of ENG_TT_FAIL_HI (R82): VALID, BLOCK_SEQ. -/
def famEngTtFailHi : RegFam :=
  ⟨rEngTtFailHi, [(0x1000000, 4), (0x100000, 8), (0x10000, 9), (0x1000, 4)],
    [⟨31, 31, .w1c, 0x0⟩, ⟨19, 0, .ro, 0x0⟩]⟩

/-- The fields of ENG_TILE_OWNER (R82): OWNER_OP. -/
def famEngTileOwner : RegFam :=
  ⟨rEngTileOwner, [(0x1000000, 4), (0x100000, 8), (0x10000, 9), (0x1000, 4), (0x4, 8)],
    [⟨17, 0, .ro, 0x0⟩]⟩

/-- The fields of STM_BLOCK_ERR (R243): VALID, CLASS, STOPS. -/
def famStmBlockErr : RegFam :=
  ⟨rStmBlockErr, [(0x1000000, 4), (0x100000, 8)],
    [⟨31, 31, .w1c, 0x0⟩, ⟨30, 29, .ro, 0x0⟩, ⟨15, 0, .rc, 0x0⟩]⟩

/-- The fields of STM_ERR_ADDR_LO (R243): ADDR_LO. -/
def famStmErrAddrLo : RegFam :=
  ⟨rStmErrAddrLo, [(0x1000000, 4), (0x100000, 8)],
    [⟨31, 0, .ro, 0x0⟩]⟩

/-- The fields of STM_ERR_ADDR_HI (R243): ADDR_HI. -/
def famStmErrAddrHi : RegFam :=
  ⟨rStmErrAddrHi, [(0x1000000, 4), (0x100000, 8)],
    [⟨9, 0, .ro, 0x0⟩]⟩

/-- The fields of STM_ERR_CHANS (R243): MASK. -/
def famStmErrChans : RegFam :=
  ⟨rStmErrChans, [(0x1000000, 4), (0x100000, 8)],
    [⟨31, 0, .ro, 0x0⟩]⟩

/-- The fields of STM_CHAN_STATUS (R243): STATE, WAIT, PC, PARCELS. -/
def famStmChanStatus : RegFam :=
  ⟨rStmChanStatus, [(0x1000000, 4), (0x100000, 8), (0x10, 16)],
    [⟨31, 28, .ro, 0x0⟩, ⟨27, 24, .ro, 0x0⟩, ⟨20, 16, .ro, 0x0⟩, ⟨12, 8, .ro, 0x0⟩]⟩

/-- The fields of STM_CHAN_MOVES_LO (R243): MOVES_LO. -/
def famStmChanMovesLo : RegFam :=
  ⟨rStmChanMovesLo, [(0x1000000, 4), (0x100000, 8), (0x10, 16)],
    [⟨31, 0, .ro, 0x0⟩]⟩

/-- The fields of STM_CHAN_MOVES_HI (R243): MOVES_HI. -/
def famStmChanMovesHi : RegFam :=
  ⟨rStmChanMovesHi, [(0x1000000, 4), (0x100000, 8), (0x10, 16)],
    [⟨31, 0, .ro, 0x0⟩]⟩

/-- The fields of STM_TALLY (R243): BYTES. -/
def famStmTally : RegFam :=
  ⟨rStmTally, [(0x1000000, 4), (0x100000, 8), (0x4, 255)],
    [⟨31, 0, .ro, 0x0⟩]⟩

/-- The fields of HSTM_BLOCK_ERR (R243): VALID, CLASS, STOPS. -/
def famHstmBlockErr : RegFam :=
  ⟨rHstmBlockErr, [],
    [⟨31, 31, .w1c, 0x0⟩, ⟨30, 29, .ro, 0x0⟩, ⟨15, 0, .rc, 0x0⟩]⟩

/-- The fields of HSTM_ERR_ADDR_LO (R243): ADDR_LO. -/
def famHstmErrAddrLo : RegFam :=
  ⟨rHstmErrAddrLo, [],
    [⟨31, 0, .ro, 0x0⟩]⟩

/-- The fields of HSTM_ERR_ADDR_HI (R243): ADDR_HI. -/
def famHstmErrAddrHi : RegFam :=
  ⟨rHstmErrAddrHi, [],
    [⟨9, 0, .ro, 0x0⟩]⟩

/-- The fields of HSTM_ERR_CHANS (R243): MASK. -/
def famHstmErrChans : RegFam :=
  ⟨rHstmErrChans, [],
    [⟨31, 0, .ro, 0x0⟩]⟩

/-- The fields of HSTM_CHAN_STATUS (R243): STATE, WAIT, PC, PARCELS. -/
def famHstmChanStatus : RegFam :=
  ⟨rHstmChanStatus, [(0x10, 32)],
    [⟨31, 28, .ro, 0x0⟩, ⟨27, 24, .ro, 0x0⟩, ⟨20, 16, .ro, 0x0⟩, ⟨12, 8, .ro, 0x0⟩]⟩

/-- The fields of HSTM_CHAN_MOVES_LO (R243): MOVES_LO. -/
def famHstmChanMovesLo : RegFam :=
  ⟨rHstmChanMovesLo, [(0x10, 32)],
    [⟨31, 0, .ro, 0x0⟩]⟩

/-- The fields of HSTM_CHAN_MOVES_HI (R243): MOVES_HI. -/
def famHstmChanMovesHi : RegFam :=
  ⟨rHstmChanMovesHi, [(0x10, 32)],
    [⟨31, 0, .ro, 0x0⟩]⟩

/-- The fields of HSTM_TALLY (R243): BYTES. -/
def famHstmTally : RegFam :=
  ⟨rHstmTally, [(0x4, 255)],
    [⟨31, 0, .ro, 0x0⟩]⟩

/-- The fields of FLT_CAUSE (R117): FIRST_RECIPE, SCALE_SAT, OUT_OVERFLOW, WINDOW_SAT, DIGIT_SAT, FB_EXHAUSTED, FB_RATE. -/
def famFltCause : RegFam :=
  ⟨rFltCause, [(0x1000000, 4), (0x100000, 8), (0x10000, 9)],
    [⟨31, 24, .ro, 0x0⟩, ⟨5, 5, .w1c, 0x0⟩, ⟨4, 4, .w1c, 0x0⟩, ⟨3, 3, .w1c, 0x0⟩,
     ⟨2, 2, .w1c, 0x0⟩, ⟨1, 1, .w1c, 0x0⟩, ⟨0, 0, .w1c, 0x0⟩]⟩

/-- The fields of FLT_QERR_LO (R117): QERR_LO. -/
def famFltQerrLo : RegFam :=
  ⟨rFltQerrLo, [(0x1000000, 4), (0x100000, 8), (0x10000, 9)],
    [⟨31, 0, .ro, 0x0⟩]⟩

/-- The fields of FLT_QERR_HI (R117): QERR_HI. -/
def famFltQerrHi : RegFam :=
  ⟨rFltQerrHi, [(0x1000000, 4), (0x100000, 8), (0x10000, 9)],
    [⟨31, 0, .ro, 0x0⟩]⟩

/-- The fields of FLT_COUNTERS (R117): COUNT. -/
def famFltCounters : RegFam :=
  ⟨rFltCounters, [(0x1000000, 4), (0x100000, 8), (0x10000, 9), (0x4, 11)],
    [⟨31, 0, .ro, 0x0⟩]⟩

/-- The fields of SCD_COUNTERS (R127): COUNT. -/
def famScdCounters : RegFam :=
  ⟨rScdCounters, [(0x1000000, 4), (0x100000, 8), (0x10000, 9), (0x4, 4)],
    [⟨31, 0, .ro, 0x0⟩]⟩

/-- The fields of VEC_TRAP_STATUS (R141): VALID, STAGE, CAUSE, UNIT, FUNC, SUB, ENGINE. -/
def famVecTrapStatus : RegFam :=
  ⟨rVecTrapStatus, [(0x1000000, 4), (0x100000, 8), (0x10000, 9)],
    [⟨31, 31, .w1c, 0x0⟩, ⟨26, 24, .ro, 0x0⟩, ⟨23, 20, .ro, 0x0⟩, ⟨19, 16, .ro, 0x0⟩,
     ⟨15, 8, .ro, 0x0⟩, ⟨7, 4, .ro, 0x0⟩, ⟨1, 0, .ro, 0x0⟩]⟩

/-- The fields of VEC_TRAP_OP (R141): OP_ID. -/
def famVecTrapOp : RegFam :=
  ⟨rVecTrapOp, [(0x1000000, 4), (0x100000, 8), (0x10000, 9)],
    [⟨17, 0, .ro, 0x0⟩]⟩

/-- The fields of VEC_TRAP_ELEM_LO (R141): ELEM_LO. -/
def famVecTrapElemLo : RegFam :=
  ⟨rVecTrapElemLo, [(0x1000000, 4), (0x100000, 8), (0x10000, 9)],
    [⟨31, 0, .ro, 0x0⟩]⟩

/-- The fields of VEC_TRAP_ELEM_HI (R141): ELEM_HI. -/
def famVecTrapElemHi : RegFam :=
  ⟨rVecTrapElemHi, [(0x1000000, 4), (0x100000, 8), (0x10000, 9)],
    [⟨31, 0, .ro, 0x0⟩]⟩

/-- The fields of VEC_TRAP_PLUMB_LO (R141): PLUMB_LO. -/
def famVecTrapPlumbLo : RegFam :=
  ⟨rVecTrapPlumbLo, [(0x1000000, 4), (0x100000, 8), (0x10000, 9)],
    [⟨31, 0, .ro, 0x0⟩]⟩

/-- The fields of VEC_TRAP_PLUMB_HI (R141): PLUMB_HI. -/
def famVecTrapPlumbHi : RegFam :=
  ⟨rVecTrapPlumbHi, [(0x1000000, 4), (0x100000, 8), (0x10000, 9)],
    [⟨31, 0, .ro, 0x0⟩]⟩

/-- The fields of VEC_ORIGINS (R141): COUNT. -/
def famVecOrigins : RegFam :=
  ⟨rVecOrigins, [(0x1000000, 4), (0x100000, 8), (0x10000, 9)],
    [⟨31, 0, .ro, 0x0⟩]⟩

/-- The fields of VEC_PROPAGATED (R141): COUNT. -/
def famVecPropagated : RegFam :=
  ⟨rVecPropagated, [(0x1000000, 4), (0x100000, 8), (0x10000, 9)],
    [⟨31, 0, .ro, 0x0⟩]⟩

/-- The fields of TOP_STATUS (R192): BUSY, HALTED, PROG, TENSOR. -/
def famTopStatus : RegFam :=
  ⟨rTopStatus, [(0x10000, 8)],
    [⟨31, 31, .ro, 0x0⟩, ⟨30, 30, .ro, 0x0⟩, ⟨19, 16, .ro, 0x0⟩, ⟨15, 0, .ro, 0x0⟩]⟩

/-- The fields of TOP_PARAMS_LO (R192): PARAMS_LO. -/
def famTopParamsLo : RegFam :=
  ⟨rTopParamsLo, [(0x10000, 8)],
    [⟨31, 0, .ro, 0x0⟩]⟩

/-- The fields of TOP_PARAMS_HI (R192): PARAMS_HI. -/
def famTopParamsHi : RegFam :=
  ⟨rTopParamsHi, [(0x10000, 8)],
    [⟨31, 0, .ro, 0x0⟩]⟩

/-- The fields of TOP_NOTFINITE (R192): COUNT. -/
def famTopNotfinite : RegFam :=
  ⟨rTopNotfinite, [(0x10000, 8)],
    [⟨31, 0, .rc, 0x0⟩]⟩

/-- The fields of TOP_SCALE_SAT (R192): HIGH, LOW. -/
def famTopScaleSat : RegFam :=
  ⟨rTopScaleSat, [(0x10000, 8)],
    [⟨31, 16, .rc, 0x0⟩, ⟨15, 0, .rc, 0x0⟩]⟩

/-- The fields of TOP_WINDOW_SAT (R192): COUNT. -/
def famTopWindowSat : RegFam :=
  ⟨rTopWindowSat, [(0x10000, 8)],
    [⟨31, 0, .rc, 0x0⟩]⟩

/-- The fields of MEM_THERM (R213): HOT, CASE, TEMP. -/
def famMemTherm : RegFam :=
  ⟨rMemTherm, [(0x10000, 8)],
    [⟨31, 31, .ro, 0x0⟩, ⟨30, 30, .ro, 0x0⟩, ⟨15, 0, .ro, 0x0⟩]⟩

/-- The fields of MEM_CORR (R213): COUNT. -/
def famMemCorr : RegFam :=
  ⟨rMemCorr, [(0x10000, 8)],
    [⟨31, 0, .rc, 0x0⟩]⟩

/-- The fields of MEM_UNCORR (R213): COUNT. -/
def famMemUncorr : RegFam :=
  ⟨rMemUncorr, [(0x10000, 8)],
    [⟨31, 0, .rc, 0x0⟩]⟩

/-- The fields of MEM_ADD_MARK (R213): COUNT. -/
def famMemAddMark : RegFam :=
  ⟨rMemAddMark, [(0x10000, 8)],
    [⟨31, 0, .rc, 0x0⟩]⟩

/-- The fields of MEM_PC_STATUS (R213): RETIRED, REMAPPED, SLOT, CORR_TOTAL. -/
def famMemPcStatus : RegFam :=
  ⟨rMemPcStatus, [(0x10000, 8), (0x4, 64)],
    [⟨31, 31, .ro, 0x0⟩, ⟨30, 30, .ro, 0x0⟩, ⟨29, 27, .ro, 0x0⟩, ⟨15, 0, .ro, 0x0⟩]⟩

/-- Register families, part 0. -/
def regFams0 : List RegFam :=
  [famHubGrade, famHubClusterMap, famHubCoreMap, famHubSpare,
   famHubStepState, famHubStepCountLo, famHubStepCountHi, famHubLedgerBaseLo,
   famHubLedgerBaseHi, famHubLedgerCtrl, famHubJob, famHubQueue,
   famHubQueueNext, famScdTileHold, famMemHawkTop, famMemHawkDepth,
   famMemParamBase, famMemPregionLo, famMemPregionHi, famTelRingWrite,
   famTelRingRead, famTopProgValid, famCapStatus, famCapErr,
   famLthRetry, famStmWaitTimeout, famLthCrcDrop, famLthDeflDrop,
   famLthDeflect, famLthResend]

/-- Register families, part 1. -/
def regFams1 : List RegFam :=
  [famLthDup, famLthLate, famLthInflight, famScrRetry,
   famScrOpTimeout, famScrUdp, famScrDscp, famScrCounters,
   famScrPortStatus, famScrPortFecCorr, famScrPortFecUncorr, famScrPortFcs,
   famColEpoch, famColId, famColCoordLo, famColCoordHi,
   famColShapeLo, famColShapeHi, famColTimeout, famColCounters,
   famPlbCountLo, famPlbCountHi, famPlbStatus, famPlbOffset,
   famPlbDelay, famPlbLateLaunch, famPlbWinCtrl, famPlbWinPhase,
   famSngStatus, famSngCheckCfg]

/-- Register families, part 2. -/
def regFams2 : List RegFam :=
  [famSngTimeLo, famSngTimeHi, famSngPatchCfg, famSngPatchState,
   famSngMirror, famSngMirrorStepLo, famSngMirrorStepHi, famPwrStatus,
   famPwrVolt, famPwrShedCount, famPwrReg, famPwrPkg,
   famClkStatus, famClkSel, famClkOut, famClkArray,
   famThmDie, famThmPeak, famSecFuse, famBootStatus,
   famBootTime, famSecIdFp, famSecStage, famEngTileState,
   famEngMarkCount, famEngTtCount, famEngTtFailLo, famEngTtFailHi,
   famEngTileOwner, famStmBlockErr]

/-- Register families, part 3. -/
def regFams3 : List RegFam :=
  [famStmErrAddrLo, famStmErrAddrHi, famStmErrChans, famStmChanStatus,
   famStmChanMovesLo, famStmChanMovesHi, famStmTally, famHstmBlockErr,
   famHstmErrAddrLo, famHstmErrAddrHi, famHstmErrChans, famHstmChanStatus,
   famHstmChanMovesLo, famHstmChanMovesHi, famHstmTally, famFltCause,
   famFltQerrLo, famFltQerrHi, famFltCounters, famScdCounters,
   famVecTrapStatus, famVecTrapOp, famVecTrapElemLo, famVecTrapElemHi,
   famVecTrapPlumbLo, famVecTrapPlumbHi, famVecOrigins, famVecPropagated,
   famTopStatus, famTopParamsLo]

/-- Register families, part 4. -/
def regFams4 : List RegFam :=
  [famTopParamsHi, famTopNotfinite, famTopScaleSat, famTopWindowSat,
   famMemTherm, famMemCorr, famMemUncorr, famMemAddMark,
   famMemPcStatus]

/-- Every register family of the device. -/
def regFams : List RegFam :=
  regFams0 ++ regFams1 ++ regFams2 ++ regFams3 ++ regFams4

/-- Whether an address lies in a family: the indices are read off stride by stride. -/
def inDims : Nat → List (Nat × Nat) → Bool
  | off, [] => off == 0
  | off, (st, n) :: r =>
    (List.range n).any (fun i => decide (i * st ≤ off) && inDims (off - i * st) r)

/-- The family an address names, if any (R335: an address that names no register). -/
def regAt (a : Nat) : Option RegFam :=
  regFams.find? (fun f => decide (f.base ≤ a) && inDims (a - f.base) f.dims)

/-- The addresses of a family. -/
def famAddrs : Nat → List (Nat × Nat) → List Nat
  | a, [] => [a]
  | a, (st, n) :: r => (List.range n).flatMap (fun i => famAddrs (a + i * st) r)

/-- A family's reset word. -/
def RegFam.resetWord (f : RegFam) : Nat := f.fields.foldl (fun w x => w + x.reset <<< x.lo) 0

/-- Every register whose reset value is not 0, with that value (R10). -/
def resetRegs : List (Nat × Nat) :=
  regFams.flatMap (fun f => if f.resetWord = 0 then [] else
    (famAddrs f.base f.dims).map (fun a => (a, f.resetWord)))

end Sys2Proof.Machine
end

