-- ==== Sys2Proof/Machine/Rs.lean ====
section
/-! DEFINITION. The Reed–Solomon symbol code of the sectors (R201–R203): GF(2^16) with
x^16 + x^12 + x^3 + x + 1, 32 data symbols and 4 check symbols, two symbols corrected. The
code is linear, so the decoder works on the error pattern alone. -/

namespace Sys2Proof.Machine

/-- `a` times `x` in the field (R201). -/
def gfDouble (a : Nat) : Nat :=
  let d := a * 2
  if d < 65536 then d else d ^^^ 0x1100B

/-- The product of two field elements, the multiplier's bits from the lowest up. -/
def gfMulFrom : Nat → Nat → Nat → Nat → Nat
  | 0, _, _, acc => acc
  | k + 1, a, b, acc => gfMulFrom k (gfDouble a) (b / 2) (if b % 2 = 1 then acc ^^^ a else acc)

/-- The product of two field elements. -/
def gfMul (a b : Nat) : Nat := gfMulFrom 16 a b 0

/-- `a^(2^k − 1)`, which for `k = 16` less one squaring gives the inverse. -/
def gfInvFrom : Nat → Nat → Nat → Nat
  | 0, _, acc => acc
  | k + 1, a, acc => let q := gfMul a a; gfInvFrom k q (gfMul acc q)

/-- The inverse `a^(2^16 − 2)`; 0 for 0. -/
def gfInv (a : Nat) : Nat := gfInvFrom 15 a 1

/-- `α^n` with `α = x` (R201). -/
def gfPow : Nat → Nat
  | 0 => 1
  | n + 1 => gfDouble (gfPow n)

/-- The power of `x` a symbol position stands at: check symbols 32–35 at 0–3, data symbol
`j` at `j + 4` (R201, R204). -/
def symPower (pos : Nat) : Nat := if pos < 32 then pos + 4 else pos - 32

/-- Syndrome `i` of an error pattern: `Σ e · α^(i · power)`. -/
def syndrome (errs : List (Nat × Nat)) (i : Nat) : Nat :=
  errs.foldl (fun a e => a ^^^ gfMul e.2 (gfPow (i * symPower e.1))) 0

/-- What the decoder does with a sector (R203): nothing to correct, the corrections it makes,
or uncorrectable. -/
inductive RsResult where
  | clean
  | corrected (fix : List (Nat × Nat))
  | uncorrectable
deriving DecidableEq, Repr

/-- The decoder of R203 on an error pattern. -/
def rsDecode (errs : List (Nat × Nat)) : RsResult :=
  let s0 := syndrome errs 0
  let s1 := syndrome errs 1
  let s2 := syndrome errs 2
  let s3 := syndrome errs 3
  let ps := List.range 36
  if s0 = 0 ∧ s1 = 0 ∧ s2 = 0 ∧ s3 = 0 then .clean
  else
    let one := ps.find? (fun p =>
      let x := gfPow (symPower p)
      s0 != 0 && gfMul s0 x == s1 && gfMul s1 x == s2 && gfMul s2 x == s3)
    match one with
    | some p => .corrected [(p, s0)]
    | none =>
      let det := gfMul s0 s2 ^^^ gfMul s1 s1
      if det = 0 then .uncorrectable
      else
        let di := gfInv det
        let l1 := gfMul (gfMul s0 s3 ^^^ gfMul s1 s2) di
        let l2 := gfMul (gfMul s1 s3 ^^^ gfMul s2 s2) di
        let roots := ps.filter (fun p =>
          let x := gfPow (symPower p)
          (gfMul x x ^^^ gfMul l1 x ^^^ l2) == 0)
        match roots with
        | [p, q] =>
          let x := gfPow (symPower p)
          let y := gfPow (symPower q)
          let e := gfMul (gfMul s0 y ^^^ s1) (gfInv (x ^^^ y))
          .corrected [(p, e), (q, e ^^^ s0)]
        | _ => .uncorrectable

/-- An error pattern with one symbol's error changed by `v`, kept sorted and without zeros. -/
def xorErr : List (Nat × Nat) → Nat → Nat → List (Nat × Nat)
  | [], p, v => if v = 0 then [] else [(p, v)]
  | (q, w) :: r, p, v =>
    if p < q then (if v = 0 then (q, w) :: r else (p, v) :: (q, w) :: r)
    else if p = q then (if w ^^^ v = 0 then r else (q, w ^^^ v) :: r)
    else (q, w) :: xorErr r p v

/-- What is left of an error pattern after the decoder's corrections: nothing where at most
two symbols were hit; a miscorrection leaves more (R203). -/
def leftErrs (errs fix : List (Nat × Nat)) : List (Nat × Nat) :=
  fix.foldl (fun a e => xorErr a e.1 e.2) errs

/-- The check symbols of a sector's 32 data symbols: `D(x) · x^4 mod g(x)` (R201). -/
def checkSymbols (data : List Nat) : List Nat :=
  -- g(x) = (x + 1)(x + α)(x + α²)(x + α³), coefficients from x^0 up, its leading 1 left out
  let mulLin (p : List Nat) (r : Nat) : List Nat :=
    (List.range (p.length + 1)).map (fun i =>
      (if i = 0 then 0 else nthD p (i - 1) 0) ^^^ gfMul r (nthD p i 0))
  let g := [gfPow 0, gfPow 1, gfPow 2, gfPow 3].foldl mulLin [1]
  data.reverse.foldl (fun rem d =>
    let top := nthD rem 3 0 ^^^ d
    (List.range 4).map (fun i => (if i = 0 then 0 else nthD rem (i - 1) 0) ^^^ gfMul top (nthD g i 0)))
    [0, 0, 0, 0]

end Sys2Proof.Machine
end

