-- ==== Sys2Proof/Machine/Sparse.lean ====
section
/-! DEFINITION. Sparse stores in one canonical form: key and value pairs, keys strictly
rising, no entry equal to what an unlisted key reads as. Memory, the CSR file and every
on-chip buffer are such stores, so that equal contents are equal data. -/

namespace Sys2Proof.Machine

/-- A sparse store of values by number. -/
abbrev Store (α : Type) := List (Nat × α)

/-- What a key reads as: its entry, or the default `d`. -/
def stGet {α : Type} (d : α) : Store α → Nat → α
  | [], _ => d
  | (k, v) :: r, a => if a = k then v else stGet d r a

/-- The store without key `a`. -/
def stErase {α : Type} (m : Store α) (a : Nat) : Store α := m.filter (fun p => p.1 != a)

/-- An entry put before the first greater key. -/
def stInsert {α : Type} (a : Nat) (v : α) : Store α → Store α
  | [] => [(a, v)]
  | (k, w) :: r => if a < k then (a, v) :: (k, w) :: r else (k, w) :: stInsert a v r

/-- The store with key `a` reading as `v`; writing the default removes the entry. -/
def stSet {α : Type} [DecidableEq α] (d : α) (m : Store α) (a : Nat) (v : α) : Store α :=
  if v = d then stErase m a else stInsert a v (stErase m a)

/-- The canonical form: keys strictly rising and no entry at the default. -/
def Store.wf {α : Type} [DecidableEq α] (d : α) : Store α → Bool
  | [] => true
  | (k, v) :: r => v != d && r.all (fun p => decide (k < p.1)) && Store.wf d r

/-- Consecutive keys from `a` on set to a list of values. -/
def stSetMany {α : Type} [DecidableEq α] (d : α) : Store α → Nat → List α → Store α
  | m, _, [] => m
  | m, a, v :: r => stSetMany d (stSet d m a v) (a + 1) r

/-- The values at `n` consecutive keys from `a` on. -/
def stGetMany {α : Type} (d : α) (m : Store α) (a n : Nat) : List α :=
  (List.range n).map (fun i => stGet d m (a + i))

/-- The store without the keys of `[lo, hi)`: they read as the default again. -/
def stClear {α : Type} (m : Store α) (lo hi : Nat) : Store α :=
  m.filter (fun p => decide (p.1 < lo) || decide (hi ≤ p.1))

/-- `src`'s entries of `[a, a + n)` put at `b` onward of `dst`, whose entries there go. -/
def stMove {α : Type} [DecidableEq α] (d : α) (dst src : Store α) (a b n : Nat) : Store α :=
  (src.filter (fun p => decide (a ≤ p.1) && decide (p.1 < a + n))).foldl
    (fun m p => stSet d m (p.1 - a + b) p.2) (stClear dst b (b + n))

end Sys2Proof.Machine
end

