-- ==== Sys2Proof/Machine/State.lean ====
section
/-! DEFINITION. The state of the block: every register, buffer, queue, table, counter and pin
the spec gives the device, as plain data, and the state right after reset. -/

namespace Sys2Proof.Machine


/-- Where a packet came from, so that an answer can go back: the Scrim source device and
sequence number, the addresses and ports, or the RoCEv2 QP (R250, R261, R266). -/
structure Origin where
  port  : Nat
  mac   : List Byte
  ip    : List Byte
  sport : Nat
  dev   : Nat
  chan  : Nat
  seq   : Nat
  qpn   : Nat
  opid  : Nat
deriving DecidableEq, Repr

/-- A command taken from its 512-byte queue entry (R324): the header's fields, and the body
cut to BODY_LEN × 16 bytes. -/
structure Cmd where
  queue  : Nat
  qseq   : Nat
  opcode : Nat
  flags  : Nat
  op     : Nat
  epoch  : Nat
  job    : Nat
  launch : Nat
  resv   : Bool
  body   : List Byte
  origin : Origin
  late   : Bool
  arrived : Nat
deriving DecidableEq, Repr

/-- A slot that is not FREE (R327): an entry PLACED, or one BEGUN ahead of the queue's N.
`launched` says that its launch count has come, `late` that it had passed when the command reached the head,
`timely` that the command reached the head before. -/
structure QSlot where
  qseq     : Nat
  begun    : Bool
  entry    : List Byte
  origin   : Origin
  arrived  : Nat
  launched : Bool
  late     : Bool
  timely   : Bool
deriving DecidableEq, Repr

/-- A command that has begun and not completed. -/
structure Flight where
  cmd : Cmd
  started : Nat
deriving DecidableEq, Repr

/-- One command queue (R321): its rings, N, its slots, its duplicate history (the completion
entries of each begun command), and the completion ring's reservations and unread entries
(`true` for a refusal, which may use the last 64 slots, R322). `launchHold` is the count an
executing LAUNCH_AT holds the queue's head until (R308). -/
structure Queue where
  depthLog2  : Nat
  inHub      : Bool
  ring       : Nat
  cq         : Nat
  n          : Nat
  slots      : List QSlot
  history    : Store (List (List Byte))
  tail       : Nat
  seenHead   : Nat
  unread     : List Bool
  reserved   : Nat
  hubRing    : Store (List Byte)
  launchHold : Option (Nat × Nat)
deriving DecidableEq, Repr

/-- One tensor of the parameter table (R338) as the device holds it: the slot that is
current, its version, whether the other slot is readable as v − 1 or pending, the two slot
records (R184), and the S16 slot each copy slot was built with (R115). -/
structure Tensor where
  kind     : Nat
  rows     : Nat
  k        : Nat
  start    : Nat
  planes   : List Nat
  cur      : Nat
  version  : Nat
  prevOk   : Bool
  pending  : Bool
  rec0     : List Byte
  rec1     : List Byte
  sc0      : Nat
  sc1      : Nat
deriving DecidableEq, Repr

/-- A local memory range named by REGION_MAP (R340); `len` 0 means not mapped. -/
structure Range where
  base : Nat
  len  : Nat
deriving DecidableEq, Repr

/-- A converting region (R264, R340). -/
structure ConvertRegion where
  base   : Nat
  len    : Nat
  stored : Nat
  target : Nat
  exp    : Nat
deriving DecidableEq, Repr

/-- An R_Key region (R266, R340). -/
structure RKey where
  key   : Nat
  base  : Nat
  len   : Nat
  read  : Bool
  write : Bool
deriving DecidableEq, Repr

/-- A host window of the aperture (R263). -/
structure Window where
  base  : Nat
  len   : Nat
  peer  : Nat
  read  : Bool
  write : Bool
  host  : Nat
deriving DecidableEq, Repr

/-- The job's tables and regions (R333, R337, R340). -/
structure JobSt where
  ptabAddr  : Nat
  dtabAddr  : Nat
  dtabCount : Nat
  tensors   : List Tensor
  hawkHbm   : Store Range
  hawkOvf   : Store Range
  mirror    : Range
  ledger    : Range
  ledgerCopy : Range
  telemetry : Range
  telLog2   : Nat
  telSlot   : Nat
  converts  : List ConvertRegion
  rkeys     : Store RKey
  windows   : List Window
deriving DecidableEq, Repr

/-- One frame on a Hawk stack (R154): its place and length in 4 KiB units. -/
structure Frame where
  layer  : Nat
  slot   : Nat
  start  : Nat
  length : Nat
deriving DecidableEq, Repr

/-- One Hawk stack (R153–R158): its frames, top first, whether it was kept at the last seam,
its frames at the last seam, and the overflow units migrated into HBM staging, by their place there + 1 (R156). -/
structure Hawk where
  frames   : List Frame
  carried  : Bool
  atSeam   : List Frame
  migrated : Store Nat
deriving DecidableEq, Repr

/-- A fence that STEP_COMMIT or STEP_SKIP carries (R342), with the command that carries it. -/
structure Fence where
  cmd     : Cmd
  seqs    : List Nat
  mask    : Nat
  carry   : Nat
  skip    : Bool
  reason  : Nat
  early   : Bool
deriving DecidableEq, Repr

/-- One operation the step has seen, for WAIT_OP (R175): its ID and the status it ended
with, none while it has not. -/
structure StepOp where
  op     : Nat
  status : Option Nat
deriving DecidableEq, Repr

/-- An exact sum (R180, R189): an integer times a fixed power of two, and the not-finite
terms it has met. -/
structure ExSum where
  val  : Int
  nan  : Bool
  pinf : Bool
  ninf : Bool
deriving DecidableEq, Repr

/-- One layer's norms of the step (R189): exact sums in units of 2^-298, the parameters
updated, and whether a row subset was. -/
structure Norm where
  layer   : Nat
  w2      : ExSum
  g2      : ExSum
  d2      : ExSum
  params  : Nat
  subset  : Bool
deriving DecidableEq, Repr

/-- The step's state beside HUB_STEP_STATE (R144, R164–R171, R318–R320, R366); `tried` is the
step number ATTEMPT belongs to, none before the job's first STEP_BEGIN (R147); `fenceOps` the
UPDATEs and collectives in flight when the fence was reached (R165); `again` says that the step is
a replayed one (R366), `replayedDigests` the NORM_DIGESTs of its earlier replays (R368). While STATE reads
REPLAYING, `phase` is the replayed step's own place in R144's table, `replayState` the state the
fault interrupted, and `silent` the commands whose completions the host has already (R169). `met` names
the events decided since the step was last opened or replayed (unit, check, operation ID), `metBefore`
those of the attempts before it: an event met in both recurs (R348, R352). -/
structure StepSt where
  nfLocal    : Bool
  fence      : Option Fence
  fenceOps   : Option (List Nat)
  vote       : Option (List Byte)
  voteDone   : Bool
  ops        : List StepOp
  beganAt    : Nat
  inputs     : List Byte
  startSteps : Nat
  microbatches : Nat
  replayTo   : Option (Nat × Nat)
  again      : Bool
  cmdLog     : List (Nat × List Byte)
  norms      : List Norm
  telLost    : Nat
  telUnread  : Nat
  carriedNow : Nat
  colStarted : Bool
  replayedDigests : List (List Byte)
  tried      : Option Nat
  phase      : Nat
  replayState : Nat
  silent     : List (Nat × Nat)
  met        : List (Nat × Nat × Nat)
  metBefore  : List (Nat × Nat × Nat)
deriving DecidableEq, Repr

/-- One accumulator tile of one engine (R79–R84): ownership, mode, TX, KCOUNT, the entries
by row, the checker's row residues (R90), and the Yarna spill area (R88). -/
structure Tile where
  owned  : Bool
  kept   : Bool
  trans  : Bool
  halted : Bool
  owner  : Nat
  tx     : Int
  kcount : Nat
  range  : Nat
  yarna  : Bool
  spill  : Nat
  rows   : List (List Acc)
  rowres : List Nat
deriving DecidableEq, Repr

/-- A stationary or shadow register (R67): the lane value as it is latched (a level descriptor, or a
4-bit integer), its 5-bit block offset, and one parity bit over both. -/
structure LaneReg where
  value  : Nat
  off    : Nat
  parity : Bool
deriving DecidableEq, Repr

/-- A pass-hold register (R350), and what a stopped engine keeps for the decision: the kind of its
failure, where it stands (block, issue, vector or row, tile), the word and syndrome of a SECDED error,
the sums held back, which of them are marked, and the WINDOW and UNCHECKED counts due when they are
added. -/
structure PassHold where
  kind      : Nat
  block     : Nat
  num       : Nat
  vec       : Nat
  tile      : Nat
  word      : Nat
  syn       : Nat
  sums      : List Int
  marks     : List Bool
  window    : Nat
  unchecked : Bool
deriving DecidableEq, Repr

/-- The on-chip storage, by physical unit (R17, R24): core buffers, the two banks of each operand
buffer (bank k of engine n at 2n + k) with the bank the array reads, cluster and hub buffers,
stationary registers, pass-hold registers (R350), the clusters whose save path will fail in its next
exchange (R352), tiles, the palettes of slots 1–7 (R41) and the recipe
table (R95; an absent entry is unloaded). -/
structure ChipSt where
  coreBuf    : Store Byte
  opBanks    : Store (List Byte)
  opReads    : Store Nat
  clusterBuf : Store Byte
  hubBuf     : Store Byte
  regs       : Store (List LaneReg)
  shadow     : Store (List LaneReg)
  passHold   : Store (Option PassHold)
  saveBad    : List Nat
  tiles      : Store Tile
  palettes   : Store (List Nat)
  recipes    : Store (List Byte)
deriving DecidableEq, Repr

/-- The counts of one core of a RUN that the RECIPE causes are evaluated over (R113). -/
structure RunCounts where
  blocks   : Nat
  fbDone   : Nat
  fbRefused : Nat
  full     : Nat
  fed      : Nat
  window   : Nat
  overflow : Nat
  groups   : Nat
deriving DecidableEq, Repr

/-- One core's progress through a RUN: its logical index, the next stage, its status, the
engines' positions in a MULTIPLY that a fault stopped (R92), and the rows a SCREED has
written. `stopped` holds while the fault manager has not decided. -/
structure CoreRun where
  core    : Nat
  next    : Nat
  status  : Nat
  stopped : Bool
  engPos  : List Nat
  rowPos  : Nat
  origin  : Bool
  slabs   : List Nat
  counts  : RunCounts
deriving DecidableEq, Repr

/-- A RUN that holds its tiles (R84, R343): the compute-copy slots its versions resolved to
(tensor, slot, whether as v − 1), the recipe entry it took, its cores, and the Hawk frame of each
STASH or UNSTASH stage that has started. -/
structure Run where
  cmd    : Cmd
  level  : Bool
  recipe : List Byte
  copies : List (Nat × Nat × Bool)
  cores  : List CoreRun
  frames : List (Nat × Frame)
deriving DecidableEq, Repr

/-- A RUN held for its tiles (R85, R86): the ticks its hold clock has counted, the tick since
which it runs, none while it stands still, its limit, and its arrival order. -/
structure Held where
  q      : Nat
  qseq   : Nat
  used   : Nat
  since  : Option Nat
  limit  : Nat
  order  : Nat
deriving DecidableEq, Repr

/-- Who waits for a sector access, so that its answer finds it. -/
structure MemReq where
  cls    : Nat
  src    : Nat
  kind   : Nat
  addr   : Nat
  data   : List Byte
  ctx    : List Nat
deriving DecidableEq, Repr

/-- The stacked memory and the capacity tier (chapter 08): the bytes by local address, the
symbol errors each sector carries (symbol position and what it is xored with, R201), the
requests waiting at the schedulers, the round-robin pointers (R30), the scrubber's next
sector per pseudo-channel and per tier controller (R206, R219), the corrupted group indices
of the tier (R216), the uncorrectable sector that an access met last, and the telemetry records that a stack in
CASE holds (R213). -/
structure MemSt where
  bytes   : Store Byte
  errs    : Store (List (Nat × Nat))
  queues  : Store (List MemReq)
  tierQ   : Store (List MemReq)
  ptrs    : Store Nat
  scrub   : Store Nat
  tierIdx : Store (Nat × Nat)
  refreshed : Store Nat
  lastBad : Option Nat
  bgHeld  : List (List Byte)
deriving DecidableEq, Repr

/-- A corrected error remembered for the thresholds of R349: what it was, where, and the
snag time. -/
structure CorrEvent where
  kind : Nat
  unit : Nat
  pos  : Nat
  time : Nat
deriving DecidableEq, Repr

/-- An entry of the Snag list's counter table (R355). -/
structure SnagCounter where
  unit   : Nat
  flags  : Nat
  events : Nat
  corrs  : Nat
  times  : List Nat
deriving DecidableEq, Repr

/-- The reading of a mirror half by REPLAY or TAKEOVER (R365, R367): the command, the device that
holds the half, its STEP, the half and what is being read (0 and 1 the halves' headers, 2 the
table, 3 the planes, 4 the ledger copy), the pieces still to fetch (remote address, local
address, length), and the bytes read for the device itself. -/
structure Pull where
  cmd    : Cmd
  peer   : Nat
  half   : Nat
  stage  : Nat
  pieces : List (Nat × Nat × Nat)
  buf    : List Byte
deriving DecidableEq, Repr

/-- The hub's RAM image of the Snag list and what has not reached flash (R354, R355), the
patch tests (R358–R360) and the retirements ordered for the next seam (R356); the retired clusters whose
map change waits until their die's rings are empty (R236), the passed tests whose core becomes the spare
when a map may change (R21, R25), and the STEP_SEAM that waits for tests in place (R26). -/
structure SnagSt where
  time      : Nat
  ring      : Store (List Byte)
  written   : Nat
  index     : Nat
  counters  : List SnagCounter
  retired   : Nat
  permanent : Nat
  transient : Nat
  takeovers : Nat
  pending   : List Nat
  retryAt   : Nat
  corr      : List CorrEvent
  lastPass  : Store Nat
  due       : List (Nat × Nat × Nat)
  testing   : List (Nat × Nat)
  testCmds  : List (Nat × Cmd)
  retires   : List Nat
  mapWait   : List (Nat × Nat)
  newSpares : List (Nat × Nat)
  seamHold  : Option Cmd
  mirrorHalf : Nat
  mirrorStep : Nat
  mirrorAcks : Nat
  mirrorHdr  : List Byte
  push       : List (Nat × Nat × Nat)
  pull       : Option Pull
deriving DecidableEq, Repr


/-- One Topcoat at work (R172, R179): the shard groups of its stack still to process, the
parameter within the first of them, the instruction index, the sixteen F32 registers (as
codes), whether it stands at a group boundary, whether it waits at PHASE for the other stacks, and
whether a fault halted it. -/
structure TopStack where
  busy   : Bool
  fresh  : Bool
  groups : List Nat
  param  : Nat
  pc     : Nat
  regs   : List Nat
  atPhase : Bool
  halted : Bool
deriving DecidableEq, Repr

/-- The UPDATE that has taken its tensor (R160, R172): its command, the rows it names, whether
phase 2 runs, the exact factor sums by row and by k (R180) in units of 2^-149, the F32 code of
rsum, the norms it has added (R189), the sectors whose failure made it start again (R191), and the flags
its completion carries. -/
structure UpdateRun where
  cmd      : Cmd
  rows     : Option (List Nat)
  phase2   : Bool
  norm     : Norm
  rowSum   : Store ExSum
  colSum   : Store ExSum
  rsum     : Nat
  notFin   : Bool
  scaleSat : Bool
  winSat   : Bool
  failed   : List Nat
deriving DecidableEq, Repr

/-- An UPDATE of the step by the tensor it names (R186, R188): whether it is a scale UPDATE, the
scale tensor whose current slot it reads, and the status it has ended with; `op` 0 stands for one that
was refused as it stood and has named nothing. -/
structure NamedUpdate where
  tensor : Nat
  op     : Nat
  scale  : Bool
  reads  : Option Nat
  status : Option Nat
deriving DecidableEq, Repr

/-- Topcoat (chapter 07): program slots 4–15 as loaded (R176), the UPDATEs that wait at
their queues' heads, those of them that have made their tensor's other slot pending and wait for its readers
(with whether version v − 1 was readable before, R160, R174), those the step has named, the running one and its eight stacks, and
the committed W2 of each layer as F64 code (R189). -/
structure TopcoatSt where
  programs : Store (List Byte)
  waiting  : List (Nat × Nat)
  taken    : List (Nat × Nat × Bool)
  named    : List NamedUpdate
  running  : Option UpdateRun
  tops     : List TopStack
  w2       : Store Nat
deriving DecidableEq, Repr


/-- One read of several that gather an add's block (R225): the source node and address, the bytes read, and which of
them the add takes. -/
structure ReadPart where
  dest : Nat
  src  : Nat
  len  : Nat
  skip : Nat
  take : Nat
deriving DecidableEq, Repr

/-- Where the data of a read go that pass through the staging buffer to another node (R230): the
kind of the second transfer, its destination node, its address and its add descriptor; the bytes already gathered, which
of this read's bytes join them, and the reads still to make (R225). -/
structure Onward where
  kind : Nat
  dest : Nat
  addr : Nat
  desc : List Byte
  read : List Byte
  skip : Nat
  take : Nat
  more : List ReadPart
deriving DecidableEq, Repr

/-- A parcel of a Stencil block (R230, R231, R239): its tag, transfer kind, destination node,
class and tally, the channels that contributed and their MOVEs, the target and source addresses,
the bytes it carries or has gathered, its resends so far and allowed, the retry interval, the tick its last cell was injected (none while cells wait for
injection), whether it goes over Scrim to a peer (R262), and where its data go on to. -/
structure Parcel where
  tag      : Nat
  kind     : Nat
  dest     : Nat
  cls      : Nat
  tally    : Nat
  chans    : Nat
  marks    : List (Nat × Nat)
  addr     : Nat
  src      : Nat
  len      : Nat
  data     : List Byte
  attempts : Nat
  retries  : Nat
  interval : Nat
  sentAt   : Option Nat
  peer     : Bool
  onward   : Option Onward
deriving DecidableEq, Repr

/-- A channel's position at the start of a MOVE or ADD with parcels outstanding (R240). -/
structure ChanMark where
  id       : Nat
  pc       : Nat
  counters : List Nat
  bases    : List Nat
  spaces   : List Nat
  strides  : Store Int
  loops    : List (Nat × Nat)
  signal   : Nat
  anchor   : Nat
  peer     : Option Nat
deriving DecidableEq, Repr

/-- A Stencil channel (R221–R228): its state and wait, its program image, the six loop
counters, the four cursors' bases, spaces and strides (level × 4 + operand), the open loops
(level and the word after LOOP), its signal count, ANCHOR, the wait's entry and length and what it
waits for, the MOVEs it has completed, the bytes of the MOVE in hand already issued, the positions
of its MOVEs with parcels outstanding, its parcel window, its next tag, the peer its transfers go
to, and the command its completion belongs to. -/
structure Chan where
  state    : Nat
  wait     : Nat
  image    : List Byte
  pc       : Nat
  counters : List Nat
  bases    : List Nat
  spaces   : List Nat
  strides  : Store Int
  loops    : List (Nat × Nat)
  signal   : Nat
  anchor   : Nat
  entry    : Nat
  waitLen  : Nat
  waitFor  : Nat
  waitId   : Nat
  moves    : Nat
  issued   : Nat
  doneIds  : List Nat
  marks    : List ChanMark
  nextTag  : Nat
  window   : List Parcel
  peer     : Option Nat
  stopping : Bool
  cmd      : Option Cmd
deriving DecidableEq, Repr

/-- A bus error gathered by an all-stop (R240). -/
structure BusErr where
  page   : Bool
  addr   : Nat
  reason : Nat
  chans  : Nat
  marks  : List (Nat × Nat)
  tag    : Nat
  tries  : Nat
deriving DecidableEq, Repr

/-- A Stencil block (R221): its channels, its node's tallies (R229), the parcel its merge
stage holds with the channel whose window it takes and the tick it came (R231), the answer
cells that have reached it, the bus errors of a stop in progress, and the logical-to-physical
channel map (R352). -/
structure Block where
  chans   : List Chan
  tallies : Store Word
  held    : Option (Nat × Nat × Parcel)
  errs    : List BusErr
  stops   : Bool
  chanMap : List Nat
deriving DecidableEq, Repr

/-- A Lath cell (R234, R235). `way` is how it came: 0 clockwise, 1 the other way round, 2 over a link. -/
structure Cell where
  cls     : Nat
  phase   : Bool
  kind    : Nat
  defl    : Nat
  dest    : Nat
  inter   : Nat
  src     : Nat
  tag     : Nat
  seq     : Nat
  ncell   : Nat
  tally   : Nat
  addr    : Nat
  payload : List Byte
  way     : Nat
  crc     : Nat
deriving DecidableEq, Repr

/-- A reassembly slot (R238): its current tag, the cells received, the sector accesses of its
parcel still waiting, the reason and address of its failure if it has failed, and the first halves of
64-byte sectors whose other half has not come (R195). -/
structure Slot where
  tag    : Nat
  mask   : Nat
  left   : Nat
  fail   : Option Nat
  failAt : Nat
  halves : List (Nat × List Byte)
deriving DecidableEq, Repr

/-- An ADD assembly buffer of a memory node (R238): `limit` is its parcel's retry budget in ticks (R244). -/
structure Assembly where
  src   : Nat
  win   : Nat
  cells : List Cell
  since : Nat
  limit : Nat
deriving DecidableEq, Repr

/-- The Lath fabric (R233–R239): the cells arriving at each router of each plane, the cells
each node has to inject, the answers ejected at each Stencil block, the reassembly slots by
node and source channel window, and the ADD assembly buffers by memory node. -/
structure LathSt where
  rings    : Store (List Cell)
  inject   : Store (List Cell)
  inbox    : Store (List Cell)
  slots    : Store Slot
  assembly : Store (List Assembly)
deriving DecidableEq, Repr


/-- A port's configuration (R245, R248, R398). -/
structure PortCfg where
  present : Bool
  pmd     : Nat
  fec     : Nat
  mac     : List Byte
  nextHop : List Byte
  vlan    : Nat
deriving DecidableEq, Repr

/-- A source pair of the receive-channel table (R256, R257): the highest sequence number, the
tick of the last arrival, and the states of its window by number modulo 4,096: 0 not seen,
1 in progress, 2 answered ACK, 3 answered by GET_REPLY, 16 + reason answered NACK. -/
structure RxChan where
  src    : Nat
  chan   : Nat
  high   : Nat
  lastAt : Nat
  states : Store Nat
deriving DecidableEq, Repr

/-- A sequenced packet of an operation of the device's own (R254, R259). -/
structure TxPkt where
  seq     : Nat
  attempt : Nat
  sentAt  : Nat
  acked   : Bool
  payload : List Byte
  addr    : Nat
  len     : Nat
deriving DecidableEq, Repr

/-- Who a Scrim operation of the device belongs to (R258): a Stencil parcel, a window-engine
parcel of a Lath source, a collective member's step, the mirror, the ledger copy, or
firmware. -/
inductive OpOwner where
  | parcel (block chan tag : Nat)
  | window (src tag seq ncell tally : Nat)
  | collective (op rank step : Nat)
  | mirror
  | ledger
  | firmware
deriving DecidableEq, Repr

/-- An ISSUED entry of the operation table (R258). -/
structure ScrimOp where
  id     : Nat
  owner  : OpOwner
  kind   : Nat
  peer   : Nat
  chan   : Nat
  cls    : Nat
  issued : Nat
  limit  : Nat
  retries : Nat
  interval : Nat
  pkts   : List TxPkt
  reply  : List (Nat × List Byte)
deriving DecidableEq, Repr

/-- An operation of the device's own that has been asked for and may not be issued yet (R255, R258, R268,
R316). -/
structure OpReq where
  owner : OpOwner
  id    : Nat
  kind  : Nat
  peer  : Nat
  chan  : Nat
  cls   : Nat
  addr  : Nat
  data  : List Byte
  len   : Nat
deriving DecidableEq, Repr

/-- A frame the device has sent (R245, R248): port, destination MAC and VLAN tag (0 none), the IP
addresses, hop limit and don't-fragment, the UDP ports and checksum, traffic class, ECN, and the UDP payload;
`raw` for a layer-2 or ICMP answer held whole. -/
structure TxFrame where
  port    : Nat
  raw     : Bool
  mac     : List Byte
  tag     : Nat
  src     : List Byte
  ip      : List Byte
  sport   : Nat
  dport   : Nat
  sum     : Nat
  hops    : Nat
  df      : Bool
  dscp    : Nat
  ecn     : Nat
  payload : List Byte
deriving DecidableEq, Repr

/-- A RoCEv2 queue pair (R265, R266, R336); `byJob` says that an open job created it (R333). -/
structure Qp where
  valid   : Bool
  queue   : Nat
  mtu     : Nat
  remote  : Nat
  gid     : List Byte
  epsn    : Nat
  msn     : Nat
  rpsn    : Nat
  send    : List Byte
  sending : Bool
  writeAt : Nat
  writeLeft : Nat
  writing : Bool
  lastCnp : Option Nat
  byJob   : Bool
deriving DecidableEq, Repr

/-- The Ethernet ports and the Scrim transport (chapter 10), with the peer table of R253. -/
structure NetSt where
  ports   : List PortCfg
  ip6     : List Byte
  ip4     : List Byte
  spIp6   : List Byte
  spIp4   : List Byte
  peers   : Store (List Byte)
  rx      : List RxChan
  ops     : List ScrimOp
  waiting : List OpReq
  seqs    : Store Nat
  nextOp  : Nat
  qps     : Store Qp
  tx      : List TxFrame
deriving DecidableEq, Repr


/-- What one member of a collective's group has reached here (R283): the KIND of its last
record, the bytes of its exponent plane and of its gathered share received, this device's own
steps towards it, and the bytes an ALL_TO_ALL DONE names. -/
structure Member where
  kind     : Nat
  stored   : Nat
  gathered : Nat
  sentExp  : Bool
  sentGo   : Bool
  sentData : Bool
  sentDone : Bool
  bytes    : Nat
deriving DecidableEq, Repr

/-- A collective in flight (R283–R291): whether it is a vote (1 the commit vote, 2 the PERMUTE
vote; a vote has no command), its operation ID, its slot's offset, its engine channel, the axes
still to run (the first in progress), its phase, its current input, the group's IDs in rank order
and this device's rank, its members, whether its output of the phase is formed, the cut counts
of an ALL_TO_ALL, and the tick of its last progress. -/
structure Coll where
  vote    : Nat
  cmd     : Option Cmd
  op      : Nat
  red     : Nat
  wire    : Nat
  ef      : Bool
  efTensor : Nat
  count   : Nat
  src     : Nat
  dst     : Nat
  land    : Nat
  cap     : Nat
  cntAddr : Nat
  tally   : Nat
  cseq    : Nat
  epoch   : Nat
  root    : Nat
  chan    : Nat
  axes    : List Nat
  phase   : Nat
  input   : List Byte
  group   : List Nat
  rank    : Nat
  members : List Member
  formed  : Bool
  output  : List Byte
  trunc   : Bool
  truncIn : Bool
  lastAt  : Nat
deriving DecidableEq, Repr

/-- A control record kept for a collective that has not started (R282). -/
structure KeptRec where
  addr : Nat
  src  : Nat
  body : List Byte
deriving DecidableEq, Repr

/-- A held PERMUTE (R294, R295): its stage (0 held, 1 its moves run, 2 its vote runs, 3 the vote
has ended), the members, by table index, that have sent READY and DONE, those whose moves have
been sent and those that have been sent DONE, whether FAIL is set, the tick of its last progress,
and the seam that waits for it. -/
structure Permute where
  cmd    : Cmd
  stage  : Nat
  ready  : List Nat
  done   : List Nat
  sent   : List Nat
  closed : List Nat
  failed : Bool
  lastAt : Nat
  seam   : Option Cmd
deriving DecidableEq, Repr

/-- The collective engine and the mapping (chapter 11): the mapping table, the spare list,
the collective region, the collectives in flight, the kept records and the held PERMUTE. -/
structure CollSt where
  map     : List Nat
  spares  : List Nat
  base    : Nat
  len     : Nat
  running : List Coll
  kept    : List KeptRec
  permute : Option Permute
deriving DecidableEq, Repr


/-- One usable SYNC exchange (R303): θ and δ in units of 2^-17 ns, and its tick. -/
structure Exchange where
  theta : Int
  delta : Int
  at_   : Nat
deriving DecidableEq, Repr

/-- A child-table entry (R302). -/
structure Child where
  dev    : Nat
  lastAt : Nat
deriving DecidableEq, Repr

/-- Plumb time (chapter 12) beside the count: the child table, the root followed and whether it is known, the exchanges,
the request outstanding (its XSEQ and T1), the θ still to be slewed away, the frequency
trend, when HOLDOVER began, and the windows in force as 4 × their end tick + their number. -/
structure TimeSt where
  children  : List Child
  rootId    : Nat
  rootSeen  : Bool
  exchanges : List Exchange
  xseq      : Nat
  request   : Option (Nat × Nat)
  slew      : Int
  trend     : Int
  stepped   : Bool
  lastUsable : Nat
  holdover  : Nat
  sourceOk  : Bool
  winOpen   : List Nat
deriving DecidableEq, Repr


/-- The CLKOUT pair (R386, R421): a domain's clock divided by N, or both pins held. -/
inductive ClkPair where
  | held (p n : Bool)
  | running (source div : Nat)
deriving DecidableEq, Repr

/-- Power, clocks and heat (chapter 15): the deepest level the last sag sample lay beyond, the tick
since which the sag has stayed below the return limit, the levels waiting for a plumb-aligned point
and since when, the setpoint before the last move and the move's tick, failed regulator polls, the
regulator's status word and temperature, the cap's hold, the thermal step, its tick and its hold of
each compute die and the hub, the units whose gates are off, the pin DROOP_N, S5's entry and cause,
and the tick S4 came into force. -/
structure PowerSt where
  lastSag   : Int
  holdAt    : Option Nat
  pendEnter : List Nat
  pendLeave : Option Nat
  pendSince : Nat
  oldSetpoint : Nat
  movedAt   : Nat
  polls     : Nat
  status    : Nat
  temp      : Int
  capBelow  : Option Nat
  dieStep   : List Nat
  dieStepAt : List Nat
  dieCoolAt : List (Option Nat)
  gatesOff  : List Nat
  clkPair   : ClkPair
  droopN    : Bool
  s5At      : Option Nat
  s5Cause   : Nat
  s4At      : Option Nat
deriving DecidableEq, Repr

/-- Start-up, flash and the security block (chapter 16): the pins PWRGD and RESET_N, the
flash (default 0xFF, R394), the fuse image as a store of bytes, the identity seed being part of it, staging,
the Snag list's place, the tick start-up began, the wait of R417, the recovery buffer, the pins READY
and FAULT_N, the SMBus answer, the TAP's instruction, and whether it acts as BYPASS. -/
structure BootSt where
  pwrgd     : Bool
  resetN    : Bool
  flash     : Store Byte
  fuses     : Store Byte
  repaired  : List (Nat × Nat)
  staged    : List (Nat × Nat)
  staging   : Bool
  snagAt    : Nat
  loaded    : Bool
  startAt   : Nat
  railWait  : List Nat
  recovery  : Store Byte
  ready     : Bool
  faultN    : Bool
  identity  : Bool
  smbus     : Option (List Byte)
  smbusNack : Bool
  tapIr     : Nat
  tapBypass : Bool
deriving DecidableEq, Repr


/-- Why the block stops. -/
inductive Fault where
  /-- Raised by no command of this model: every row of the table answers a next state. Safe. -/
  | unreachable
deriving DecidableEq, Repr

/-- Why a command has no meaning. -/
inductive Refusal where
  /-- Raised by `exec` for a row whose meaning is not written yet. Safe: the run stops. -/
  | notModelled (mnemonic : String)
deriving DecidableEq, Repr

/-- The state of the block: the commands that wait, every register, and every part of the
device. `plumb` is the plumb count (R298); `settings` holds the word a setting had before a write, and
the tick of the write (R426); `free` counts the free values taken, the model's
own. -/
structure State where
  pending : List Instr
  csr     : Store Word
  queues  : List Queue
  flights : List Flight
  job     : JobSt
  hawk    : Store Hawk
  step    : StepSt
  chip    : ChipSt
  runs    : List Run
  held    : List Held
  mem     : MemSt
  topcoat : TopcoatSt
  blocks  : Store Block
  hubBlock : Block
  lath    : LathSt
  net     : NetSt
  coll    : CollSt
  snag    : SnagSt
  time    : TimeSt
  power   : PowerSt
  boot    : BootSt
  plumb   : Nat
  settings : Store (Nat × Nat)
  free    : Nat
deriving DecidableEq, Repr

/-! The state right after reset (R10, R391). -/

/-- Command queue at release: 64 slots in hub memory, N 0 (R321). -/
def queue0 : Queue :=
  { depthLog2 := 6, inHub := true, ring := 0, cq := 0, n := 0, slots := [], history := [], tail := 0
    seenHead := 0, unread := [], reserved := 0, hubRing := [], launchHold := none }

/-- A range that is not mapped. -/
def noRange : Range := { base := 0, len := 0 }

/-- No job's tables (R333). -/
def job0 : JobSt :=
  { ptabAddr := 0, dtabAddr := 0, dtabCount := 0, tensors := [], hawkHbm := [], hawkOvf := []
    mirror := noRange, ledger := noRange, ledgerCopy := noRange, telemetry := noRange, telLog2 := 0
    telSlot := 0, converts := [], rkeys := [], windows := [] }

/-- The step's state with no step begun. -/
def step0 : StepSt :=
  { nfLocal := false, fence := none, fenceOps := none, vote := none, voteDone := false, ops := []
    beganAt := 0, inputs := [], startSteps := 0, microbatches := 0, replayTo := none, again := false
    cmdLog := [], norms := [], telLost := 0, telUnread := 0, carriedNow := 0
    colStarted := false, replayedDigests := [], tried := none
    phase := 0, replayState := 0, silent := [], met := [], metBefore := [] }

/-- On-chip storage after reset: every array and buffer reads 0 (DESIGN CHOICE 4). -/
def chip0 : ChipSt :=
  { coreBuf := [], opBanks := [], opReads := [], clusterBuf := [], hubBuf := [], regs := [], shadow := [], passHold := [], saveBad := []
    tiles := [], palettes := [], recipes := [] }

/-- Memory after reset: nothing listed, every byte reads 0 (R399). -/
def mem0 : MemSt :=
  { bytes := [], errs := [], queues := [], tierQ := [], ptrs := [], scrub := [], tierIdx := []
    refreshed := [], lastBad := none, bgHeld := [] }

/-- An idle Topcoat. -/
def topStack0 : TopStack :=
  { busy := false, fresh := false, groups := [], param := 0, pc := 0, regs := List.replicate 16 0, atPhase := false, halted := false }

/-- Topcoat after reset (R176, R192). -/
def topcoat0 : TopcoatSt :=
  { programs := [], waiting := [], taken := [], named := [], running := none, tops := List.replicate 8 topStack0, w2 := [] }

/-- A Stencil channel after reset: IDLE, everything 0 (R223, R227). -/
def chan0 : Chan :=
  { state := 0, wait := 0, image := [], pc := 0, counters := List.replicate 6 0, bases := List.replicate 4 0
    spaces := List.replicate 4 0, strides := [], loops := [], signal := 0, anchor := 0, entry := 0, waitLen := 0
    waitFor := 0, waitId := 0, moves := 0, issued := 0, doneIds := [], marks := [], nextTag := 0, window := [], peer := none
    stopping := false, cmd := none }

/-- A Stencil block of n channels after reset; the channel map is the identity (R352). -/
def block0 (n : Nat) : Block :=
  { chans := List.replicate n chan0, tallies := [], held := none, errs := [], stops := false
    chanMap := List.range n }

/-- A port that no configuration record has described (R398). -/
def port0 : PortCfg := { present := false, pmd := 0, fec := 0, mac := [], nextHop := [], vlan := 0 }

/-- Ports and transport after reset: the device clears its tables (R257). -/
def net0 : NetSt :=
  { ports := List.replicate 7 port0, ip6 := [], ip4 := [], spIp6 := [], spIp4 := [], peers := [], rx := []
    ops := [], waiting := [], seqs := [], nextOp := 0x3F000, qps := [], tx := [] }

/-- The collective engine after reset. -/
def coll0 : CollSt :=
  { map := [], spares := [], base := 0, len := 0, running := [], kept := [], permute := none }

/-- The fault manager after reset; firmware reads the Snag list at start-up (R354). -/
def snag0 : SnagSt :=
  { time := 0, ring := [], written := 0, index := 0, counters := [], retired := 0, permanent := 0
    transient := 0, takeovers := 0, pending := [], retryAt := 0, corr := [], lastPass := [], due := []
    testing := [], testCmds := [], retires := [], mapWait := [], newSpares := [], seamHold := none
    mirrorHalf := 0, mirrorStep := 0, mirrorAcks := 0, mirrorHdr := [], push := [], pull := none }

/-- Plumb time after reset (R304: FREE). -/
def time0 : TimeSt :=
  { children := [], rootId := 0, exchanges := [], xseq := 0, request := none, slew := 0, trend := 0
    rootSeen := true, stepped := false, lastUsable := 0, holdover := 0, sourceOk := true, winOpen := [] }

/-- Power after reset: no shed level, DROOP_N deasserted. -/
def power0 : PowerSt :=
  { lastSag := 0, holdAt := none, pendEnter := [], pendLeave := none, pendSince := 0
    oldSetpoint := 0, movedAt := 0, polls := 0, status := 0, temp := 0, capBelow := none, dieStep := [0, 0, 0, 0, 0]
    dieStepAt := [0, 0, 0, 0, 0], dieCoolAt := [none, none, none, none, none], gatesOff := [], clkPair := .held false true
    droopN := true, s5At := none, s5Cause := 0, s4At := none }

/-- Start-up state while the device is held in reset: flash erased and fuses of a GX-M4A
with nothing else burnt (DESIGN CHOICE 5). GRADE 1, 32 clusters, no cluster disabled. -/
def boot0 : BootSt :=
  { pwrgd := false, resetN := false, flash := [], fuses := [(388, 0xF0), (389, 0xFF), (390, 0x0F), (391, 0x12)], repaired := []
    staged := [], staging := false, snagAt := 0x0200000, loaded := false, startAt := 0, railWait := [], recovery := []
    ready := false, faultN := true, identity := false, smbus := none, smbusNack := false
    tapIr := 3, tapBypass := true }

/-- The registers at their reset values: those that are not 0 (R10). -/
def csr0 : Store Word := resetRegs.foldl (fun m p => stSet 0 m p.1 (BitVec.ofNat 32 p.2)) []

/-- The machine right after reset. -/
def State.reset : State :=
  { pending := [], csr := csr0, queues := List.replicate 8 queue0, flights := [], job := job0, hawk := []
    step := step0, chip := chip0, runs := [], held := [], mem := mem0, topcoat := topcoat0, blocks := []
    hubBlock := block0 32, lath := { rings := [], inject := [], inbox := [], slots := [], assembly := [] }
    net := net0, coll := coll0, snag := snag0, time := time0, power := power0, boot := boot0
    plumb := 0, settings := [], free := 0 }

end Sys2Proof.Machine
end

