-- ==== Sys2Proof/Machine/Ops.lean ====
section
/-! DEFINITION. The named operations over the state that every family shares: CSR fields,
logical and physical units, the local address map, checked memory access with the symbol
code, on-chip buffers, and error records. -/

namespace Sys2Proof.Machine

/-! CSRs (R7, R8). -/

/-- A CSR's word. -/
def csrGet (s : State) (a : Nat) : Nat := (stGet 0 s.csr a).toNat

/-- A CSR written whole by the device. -/
def csrPut (s : State) (a v : Nat) : State := { s with csr := stSet 0 s.csr a (BitVec.ofNat 32 v) }

/-- Bits `[hi:lo]` of a CSR. -/
def csrField (s : State) (a hi lo : Nat) : Nat := fieldOf (csrGet s a) hi lo

/-- Bits `[hi:lo]` of a CSR set by the device. -/
def csrSetField (s : State) (a hi lo v : Nat) : State := csrPut s a (putField (csrGet s a) hi lo v)

/-- A saturating counter field advanced (R8: it saturates at all ones). -/
def csrBump (s : State) (a hi lo n : Nat) : State :=
  csrSetField s a hi lo (satAdd (hi + 1 - lo) (csrField s a hi lo) n)

/-- A 64-bit quantity in two CSRs (R7). -/
def csrGet64 (s : State) (a : Nat) : Nat := csrGet s a + csrGet s (a + 4) * 2 ^ 32

/-- A 64-bit quantity written to two CSRs (R7). -/
def csrPut64 (s : State) (a v : Nat) : State := csrPut (csrPut s a v) (a + 4) (v / 2 ^ 32)

/-- A setting as it applies to what arrives now (R426): on the tick of a write, the old word. -/
def settingGet (s : State) (a : Nat) : Nat :=
  match s.settings.find? (fun p => p.1 == a) with
  | some (_, old, t) => if t = s.plumb then old else csrGet s a
  | none => csrGet s a

/-- The old word of a setting kept for the tick of the write; a second write of a tick keeps the
first (R426). -/
def settingNote (s : State) (a : Nat) : State :=
  { s with settings := stSet (0, 0) s.settings a (settingGet s a, s.plumb) }

/-- The free-value counter's next value, and the counter advanced. -/
def takeFree (s : State) : Nat × State :=
  ((Config.freeValue s.free).toNat, { s with free := s.free + 1 })

/-- Bits of the fuse image (R393). -/
def fuseBits (s : State) (hi lo : Nat) : Nat :=
  fieldOf (leNat (stGetMany 0 s.boot.fuses (lo / 8) (hi / 8 + 1 - lo / 8))) (hi - lo / 8 * 8) (lo - lo / 8 * 8)

/-! Units (R18–R20, R27). -/

/-- Whether the fuses enable physical cluster `n` = die × 8 + cluster (R16, R22, R393). -/
def clusterEnabled (s : State) (n : Nat) : Bool :=
  decide (n < 32) && n % 8 != fuseBits s (3111 + 4 * (n / 8)) (3108 + 4 * (n / 8))

/-- Physical cluster of logical cluster `c` of die `d`; 15 is absent (R20). -/
def physCluster (s : State) (d c : Nat) : Nat := fieldOf (csrGet s (rHubClusterMap + 4 * d)) (4 * c + 3) (4 * c)

/-- Whether logical core `lc` = (d × 8 + c) × 8 + k exists (R22). -/
def coreExists (s : State) (lc : Nat) : Bool := decide (lc < 256) && physCluster s (lc / 64) (lc / 8 % 8) != 15

/-- Physical core number (die × 8 + cluster) × 9 + core of logical core `lc` (R18, R20). -/
def physCore (s : State) (lc : Nat) : Nat :=
  let n := lc / 64 * 8 + physCluster s (lc / 64) (lc / 8 % 8)
  n * 9 + fieldOf (csrGet s (rHubCoreMap + 4 * n)) (4 * (lc % 8) + 3) (4 * (lc % 8))

/-- The core register block of a physical core (R117). -/
def coreBlock (pc : Nat) : Nat :=
  0x50000000 + pc / 72 * 0x01000000 + pc / 9 % 8 * 0x00100000 + pc % 9 * 0x00010000

/-- The register block of physical engine `core × 4 + e` (R82). -/
def engBlock (pe : Nat) : Nat :=
  0x40000000 + pe / 288 * 0x01000000 + pe / 36 % 8 * 0x00100000 + pe / 4 % 9 * 0x00010000 + pe % 4 * 0x1000

/-- Unit ID of a physical engine's sub-unit (R27). -/
def unitEngine (pe sub : Nat) : Nat :=
  1 <<< 28 + (pe / 288) <<< 24 + (pe / 36 % 8) <<< 20 + (pe / 4 % 9) <<< 16 + (pe % 4) <<< 12 + sub

/-- Unit ID of a physical core's sub-unit (R27). -/
def unitCore (pc sub : Nat) : Nat :=
  2 <<< 28 + (pc / 72) <<< 24 + (pc / 9 % 8) <<< 20 + (pc % 9) <<< 16 + 0xF000 + sub

/-- Unit ID of a physical cluster's sub-unit, cluster number die × 8 + cluster (R27). -/
def unitCluster (n sub : Nat) : Nat := 3 <<< 28 + (n / 8) <<< 24 + (n % 8) <<< 20 + 0xFF000 + sub

/-- Unit ID of a die's sub-unit; die 4 is the hub (R27). -/
def unitDie (d sub : Nat) : Nat := 4 <<< 28 + d <<< 24 + 0xFFF000 + sub

/-- Unit ID of the package (R27, R28). -/
def unitPackage (sub : Nat) : Nat := 5 <<< 28 + 0xFFFF000 + sub

/-- Unit ID of a pseudo-channel, or of a stack's unit with `pc` 0xFF (R27). -/
def unitMem (stack pc sub : Nat) : Nat := 6 <<< 28 + stack <<< 24 + pc <<< 16 + 0xF000 + sub

/-- Unit ID of a port (R27). Bits [11:8], which the table gives no field of this kind, hold all ones as
fields that do not apply do (DEDUCED 84). -/
def unitPort (port : Nat) : Nat := 7 <<< 28 + 4 <<< 24 + 0xFFF000 + 0xFF0 + port

/-- Unit ID of a capacity controller (R27), bits [11:8] as in a port's (DEDUCED 84). -/
def unitTier (ctl : Nat) : Nat := 8 <<< 28 + 4 <<< 24 + 0xFFF000 + 0xFF0 + ctl

/-- Unit ID of a hub block (R27). -/
def unitHub (sub : Nat) : Nat := 9 <<< 28 + 4 <<< 24 + 0xFFF000 + sub

/-! Error records and the Snag list's RAM image (R353, R355). -/

/-- The fields of an error record that its reporter gives (R353). -/
structure ErrRec where
  unit     : Nat
  check    : Nat
  detail   : Nat
  severity : Nat
  action   : Nat
  opcode   : Nat
  op       : Nat
  syndrome : List Byte
deriving DecidableEq, Repr

/-- 72 hours of snag time in nanoseconds (R348). -/
def hours72 : Nat := 72 * 3600 * 10 ^ 9

/-- 24 hours of snag time in nanoseconds (R349). -/
def hours24 : Nat := 24 * 3600 * 10 ^ 9

/-- The counter-table entry of a unit, or an empty one (R355). -/
def snagEntry (g : SnagSt) (unit : Nat) : SnagCounter :=
  (g.counters.find? (fun c => c.unit == unit)).getD
    { unit := unit, flags := 0, events := 0, corrs := 0, times := [] }

/-- The index of the entry a new unit replaces in a full table: not retired, and its latest
event the oldest (R355). -/
def snagVictim (cs : List SnagCounter) : Option Nat :=
  (cs.foldl (fun (b : Option (Nat × Nat)) c =>
    if bitOf c.flags 0 then b
    else match b with
      | none => some (c.unit, nthD c.times 0 0)
      | some (u, t) => if nthD c.times 0 0 < t then some (c.unit, nthD c.times 0 0) else some (u, t))
    none).map (·.1)

/-- A counter-table entry put back: in place, added, or in place of the victim (R355). -/
def snagPutEntry (g : SnagSt) (c : SnagCounter) : SnagSt :=
  if g.counters.any (fun x => x.unit == c.unit) then
    { g with counters := g.counters.map (fun x => if x.unit = c.unit then c else x) }
  else if g.counters.length < 4096 then { g with counters := g.counters ++ [c] }
  else match snagVictim g.counters with
    | none => g
    | some u => { g with counters := g.counters.map (fun x => if x.unit = u then c else x) }

/-- One event counted on a unit, its SUSPECT flag being "one event within 72 h" (R355). -/
def snagEvent (g : SnagSt) (unit : Nat) : SnagSt :=
  let c := snagEntry g unit
  snagPutEntry g { c with events := satAdd 32 c.events 1, times := (g.time :: c.times).take 3
                          flags := putField c.flags 2 2 1 }

/-- Whether the unit's latest three events lie within 72 hours of snag time (R348). -/
def thirdEvent (g : SnagSt) (unit : Nat) : Bool :=
  let c := snagEntry g unit
  c.times.length == 3 && decide (g.time < nthD c.times 2 0 + hours72)

/-- Temperature of a unit's die in 1/16 °C (R353): a compute die's or the hub's TMAX, or an
Undercoat's TEMP. -/
def unitTemp (s : State) (unit : Nat) : Nat :=
  let kind := fieldOf unit 31 28
  if kind = 6 then csrField s (rMemTherm + 0x10000 * fieldOf unit 26 24) 15 0
  else if kind = 1 ∨ kind = 2 ∨ kind = 3 then csrField s (rThmDie + 4 * fieldOf unit 25 24) 15 0
  else if kind = 4 then csrField s (rThmDie + 4 * min (fieldOf unit 27 24) 4) 15 0
  else csrField s (rThmDie + 16) 15 0

/-- The 64 bytes of an error record (R353). -/
def ErrRec.toBytes (s : State) (r : ErrRec) : List Byte :=
  leBytes 4 r.unit ++ leBytes 2 (r.check * 256 + r.detail) ++ [byteOf r.severity, byteOf r.action]
    ++ leBytes 2 r.opcode ++ leBytes 4 r.op ++ leBytes 8 s.plumb ++ leBytes 2 (unitTemp s r.unit)
    ++ leBytes 2 (csrField s rPwrVolt 15 0) ++ sliceB r.syndrome 0 16
    ++ leBytes 4 (snagEntry s.snag r.unit).events ++ List.replicate 18 0

/-! The Snag list in flash (R354, R355). Its two copies stand 2 MiB apart; the layout of a copy is the
model's (DESIGN CHOICE 46): the ring, the counter table at 0x100000, the summary at 0x130000, the
sequence number and its complement behind it. -/

/-- A counter-table entry's 48 bytes. -/
def counterBytes (c : SnagCounter) : List Byte :=
  leBytes 4 c.unit ++ [byteOf c.flags, 0, 0, 0] ++ leBytes 4 c.events ++ leBytes 4 c.corrs
    ++ (List.range 3).flatMap (fun i => leBytes 8 (nthD c.times i 0)) ++ List.replicate 8 0

/-- The 64-byte summary. -/
def summaryBytes (g : SnagSt) : List Byte :=
  leBytes 8 g.time ++ leBytes 4 g.written ++ leBytes 4 g.index ++ leBytes 2 g.retired ++ leBytes 2 g.counters.length
    ++ leBytes 4 g.permanent ++ leBytes 4 g.transient ++ leBytes 4 g.takeovers ++ List.replicate 32 0

/-- Bytes programmed into the flash (R394). -/
def flashWrite (s : State) (a : Nat) (bs : List Byte) : State :=
  { s with boot := { s.boot with flash := stSetMany 0xFF s.boot.flash a bs } }

/-- One copy brought up to date. -/
def commitCopy (s : State) (base : Nat) : State :=
  let g := s.snag
  let s := g.pending.foldl (fun t i => flashWrite t (base + 64 * i) (sliceB (stGet [] g.ring i) 0 64)) s
  let s := flashWrite s (base + 0x100000) (g.counters.flatMap counterBytes)
  flashWrite s (base + 0x130000) (summaryBytes g ++ leBytes 4 g.written ++ leBytes 4 (2 ^ 32 - 1 - g.written % 2 ^ 32))

/-- What the RAM image holds written to both copies (R354). -/
def commitSnag (s : State) : State :=
  let s := commitCopy (commitCopy s s.boot.snagAt) (s.boot.snagAt + 0x200000)
  csrSetField { s with snag := { s.snag with pending := [], retryAt := 0 } } rSngStatus 13 0 0

/-- A record's bytes appended to the hub's RAM image of the ring (R353, R354). -/
def snagPush (s : State) (bs : List Byte) : State :=
  let g := s.snag
  let sev := leAt bs 6 1
  let g' := { g with ring := stSet [] g.ring g.index bs
                     index := (g.index + 1) % 16384, written := g.written + 1
                     pending := g.pending ++ [g.index]
                     permanent := g.permanent + boolNat (sev == 2)
                     transient := g.transient + boolNat (sev == 1)
                     takeovers := g.takeovers + boolNat (leAt bs 7 1 == 7) }
  csrSetField { s with snag := g' } rSngStatus 13 0 (min g'.pending.length 16383)

/-- A record appended. -/
def snagAppend (s : State) (r : ErrRec) : State := snagPush s (r.toBytes s)

/-- Whether firmware commits records to the flash: released, or in a start-up that has reached phase
5a (R410). -/
def flashOpen (s : State) : Bool :=
  s.boot.ready || (decide (5 ≤ csrField s rBootStatus 31 28) && decide (csrField s rBootStatus 31 28 ≤ 7))

/-- A record written; one of SEVERITY 2 or 3 is in both copies of the flash before what it reports
takes effect, unless the last flash write failed and its next attempt is still to come (R354). -/
def snagRecord (s : State) (r : ErrRec) : State :=
  let t := snagAppend s r
  if 2 ≤ r.severity ∧ flashOpen s ∧ s.snag.retryAt = 0 then commitSnag t else t

/-- A unit whose retirement waits for the next seam (R207, R352). -/
def retireLater (s : State) (unit : Nat) : State :=
  if s.snag.retires.contains unit then s else { s with snag := { s.snag with retires := s.snag.retires ++ [unit] } }


/-- A port retired (R246, R352): its RETIRED bit. -/
def markPort (s : State) (unit : Nat) : State :=
  if 7 ≤ fieldOf unit 3 0 then s else csrSetField s (rScrPortStatus + 0x10 * fieldOf unit 3 0) 30 30 1

/-- A permanent fault of a port, or of a unit that is retired at the next seam (R352). -/
def condemn (s : State) (unit : Nat) : State := if fieldOf unit 31 28 = 7 then markPort s unit else retireLater s unit

/-- An event of the memory's, of a port or of a link counted and recorded; the third within 72 hours makes the fault permanent
(R348), and the unit is retired (R352). -/
def reportEvent (s : State) (r : ErrRec) : State :=
  let s := { s with snag := snagEvent s.snag r.unit }
  if thirdEvent s.snag r.unit then
    condemn (snagRecord s { r with severity := 2, action := match fieldOf r.unit 31 28 with
      | 7 => 5
      | 6 => 8
      | _ => 7 }) r.unit
  else snagRecord s r

/-- A record with nothing but its unit, check, severity and action. -/
def errRec (unit check detail severity action : Nat) : ErrRec :=
  { unit := unit, check := check, detail := detail, severity := severity, action := action
    opcode := 0, op := 0, syndrome := [] }

/-- Firmware requests takeover (R352, R357): one record, the flag, and FAULT_N (R364, R368's example). -/
def requestTakeover (s : State) (unit check : Nat) : State :=
  let s := csrSetField (snagRecord s (errRec unit check 0 3 7)) rSngStatus 30 30 1
  { s with boot := { s.boot with faultN := false } }

/-! The local address map (R196–R200, R217). -/

/-- The xor of the `w`-bit pieces of a number; `fuel` pieces at most. -/
def xorPieces (w : Nat) : Nat → Nat → Nat
  | 0, _ => 0
  | fuel + 1, n => (n % 2 ^ w) ^^^ xorPieces w fuel (n >>> w)

/-- Start of parameter space in bytes (R198). -/
def paramBase (s : State) : Nat := csrField s rMemParamBase 9 0 * 2 ^ 30

/-- Whether parameter region `n` is valid (R200). -/
def pregValid (s : State) (n : Nat) : Bool := csrField s (rMemPregionLo + 8 * n) 31 31 == 1

/-- Group size exponent b of parameter region `n` (R199). -/
def pregLog2 (s : State) (n : Nat) : Nat := csrField s (rMemPregionLo + 8 * n) 19 16

/-- Base of parameter region `n` in bytes (R199). -/
def pregBase (s : State) (n : Nat) : Nat := csrField s (rMemPregionLo + 8 * n) 15 0 * 2 ^ 23

/-- Length of parameter region `n` in bytes (R199). -/
def pregLen (s : State) (n : Nat) : Nat := csrField s (rMemPregionHi + 8 * n) 16 0 * 2 ^ 23

/-- The valid parameter region an address lies in. -/
def pregionOf (s : State) (a : Nat) : Option Nat :=
  (List.range 64).find? (fun n => pregValid s n && decide (pregBase s n ≤ a) && decide (a < pregBase s n + pregLen s n))

/-- Where an address lives: a stack's pseudo-channel at an offset, or a tier controller's
package at a byte offset (R197, R199, R217). -/
inductive Loc where
  | hbm (stack pc offset : Nat)
  | tier (ctl package offset : Nat)
  | aperture
  | hole
deriving DecidableEq, Repr

/-- The stack of a parameter-region group (R199). -/
def groupStack (g : Nat) : Nat :=
  let q := g >>> 6
  (q % 8) ^^^ xorPieces 3 16 (q >>> 3)

/-- Interleaved space (R197). -/
def interleave (a : Nat) : Loc :=
  let p := fieldOf a 16 8 ^^^ fieldOf a 25 17 ^^^ fieldOf a 34 26 ^^^ fieldOf a 38 35
  .hbm (fieldOf p 8 6) (fieldOf p 5 0) (fieldOf a 38 17 * 256 + fieldOf a 7 0)

/-- Parameter space (R199). -/
def paramLoc (s : State) (n a : Nat) : Loc :=
  let b := pregLog2 s n
  let o := a - pregBase s n
  let g := o >>> b
  let u := g >>> 9
  let w := (pregBase s n - paramBase s) / 8 + u * 2 ^ (b + 6) + o % 2 ^ (b + 6)
  let pc := fieldOf w 13 8 ^^^ fieldOf w 19 14 ^^^ fieldOf w 25 20 ^^^ fieldOf w 31 26 ^^^ fieldOf w 35 32
  .hbm (groupStack g) (pc % 64) (paramBase s / 512 + (w >>> 14) * 256 + w % 256)

/-- The group index G of a tier byte offset T (R217). -/
def tierGroup (t : Nat) : Nat := (t >>> 6) / 7

/-- The capacity tier (R217). -/
def tierLoc (t : Nat) : Loc :=
  let d := t >>> 6
  let g := d / 7
  let g2 := g >>> 3
  .tier ((g % 8) ^^^ xorPieces 3 20 (g >>> 3)) (g2 % 2) ((g2 >>> 1) * 512 + (d % 7) * 64 + t % 64)

/-- Whether a capacity controller has been retired: the tier is then out of service (R219). -/
def tierOut (s : State) : Bool := (List.range 8).any (fun c => bitOf (csrGet s (rCapStatus + 0x20 * c)) 31)

/-- Where the model keeps the bytes of a DRAM cell that no local address names: past the 42 address bits, by stack,
pseudo-channel and offset (DESIGN CHOICE 97). -/
def hiddenBase : Nat := 2 ^ 42

/-- Where a local address lives (R196). -/
def locOf (s : State) (a : Nat) : Loc :=
  if a < 2 ^ 39 then
    if a < paramBase s then interleave a
    else match pregionOf s a with
      | some n => paramLoc s n a
      | none => .hole
  else if a < 2 ^ 40 then .aperture
  else if 0x20000000000 ≤ a ∧ a < 0x3BE00000000 then (if tierOut s then .hole else tierLoc (a - 0x20000000000))
  else if hiddenBase ≤ a ∧ a < hiddenBase + 2 ^ 39 then
    .hbm ((a - hiddenBase) / 2 ^ 36) ((a - hiddenBase) / 2 ^ 30 % 64) ((a - hiddenBase) % 2 ^ 30)
  else .hole

/-- The byte offset in the tier of what serves an address: the tier's own, or the remap slot of a
retired pseudo-channel (R207, R217). -/
def tierOffset (s : State) (a : Nat) : Option Nat :=
  match locOf s a with
  | .tier .. => some (a - 0x20000000000)
  | .hbm st pc off =>
    let w := csrGet s (rMemPcStatus + 0x10000 * st + 4 * pc)
    if bitOf w 30 then some ((1784 + fieldOf w 29 27) * 2 ^ 30 + off) else none
  | _ => none

/-- Where the bytes of an address stand in hardware: as the map says, or in a remap slot (R207). -/
def physLoc (s : State) (a : Nat) : Loc :=
  match tierOffset s a with
  | some t => if tierOut s then .hole else tierLoc t
  | none => locOf s a

/-- The within-stack offset w of R199 that a pseudo-channel's offset stands for. -/
def paramW (s : State) (pc off : Nat) : Nat :=
  let hi := (off - paramBase s / 512) / 256
  let mid := pc ^^^ fieldOf hi 5 0 ^^^ fieldOf hi 11 6 ^^^ fieldOf hi 17 12 ^^^ fieldOf hi 21 18
  hi * 2 ^ 14 + mid * 256 + off % 256

/-- The address under which the bytes of a pseudo-channel's offset stand: R197 and R199 inverted, or the model's own where
the map names none. -/
def hbmAddr (s : State) (st pc off : Nat) : Nat :=
  if off < paramBase s / 512 then
    let h := off / 256
    let p := (st * 64 + pc) ^^^ fieldOf h 8 0 ^^^ fieldOf h 17 9 ^^^ fieldOf h 21 18
    h * 2 ^ 17 + p * 256 + off % 256
  else
    let w := paramW s pc off
    let lo (n : Nat) : Nat := (pregBase s n - paramBase s) / 8
    match (List.range 64).find? (fun n => pregValid s n && decide (lo n ≤ w) && decide (w < lo n + pregLen s n / 8)) with
    | none => hiddenBase + st * 2 ^ 36 + pc * 2 ^ 30 + off
    | some n =>
      let e := pregLog2 s n + 6
      let u := (w - lo n) >>> e
      pregBase s n + (u * 8 + (st ^^^ xorPieces 3 16 u)) * 2 ^ e + (w - lo n) % 2 ^ e

/-- Whether an address is one of stacked memory or of the tier. -/
def isMemory (s : State) (a : Nat) : Bool :=
  match physLoc s a with
  | .hbm .. => true
  | .tier .. => true
  | _ => false

/-- Whether every byte of `[a, a + n)` is memory (R196). The map changes only at multiples of
8 MiB, so one byte of each 8 MiB unit and the last byte decide. -/
def rangeOk (s : State) (a n : Nat) : Bool :=
  n == 0 || (isMemory s a && isMemory s (a + n - 1) && decide (a + n ≤ 2 ^ 42)
    && (List.range (n / 2 ^ 23 + 1)).all (fun i =>
        decide (a + n ≤ a / 2 ^ 23 * 2 ^ 23 + i * 2 ^ 23) || isMemory s (max a (a / 2 ^ 23 * 2 ^ 23 + i * 2 ^ 23))))

/-- Whether `[a, a + n)` lies in interleaved space (R220). -/
def inInterleaved (s : State) (a n : Nat) : Bool := decide (a + n ≤ paramBase s) && decide (a + n ≤ 2 ^ 39)

/-- Whether `[a, a + n)` lies in the capacity tier (R220). -/
def inTier (a n : Nat) : Bool := decide (0x20000000000 ≤ a) && decide (a + n ≤ 0x3BE00000000)

/-! A change of the map (R198, R199): what the cells hold stays in the cells. The map moves them by granules of 256
bytes. -/

/-- The granules, by address / 256, from `lo` on that hold listed bytes or errors in stacked memory. -/
def listedGranules (s : State) (lo : Nat) : List Nat :=
  let gs := (s.mem.bytes.map (fun p => p.1 / 256)) ++ (s.mem.errs.map (fun p => p.1 / 4))
  gs.foldl (fun l g => if g < lo / 256 ∨ l.head? = some g then l else g :: l) []

/-- The granules whose cells another map names otherwise: their old and new addresses. -/
def movedGranules (old new : State) : List (Nat × Nat) :=
  (listedGranules old (min (paramBase old) (paramBase new))).filterMap (fun g =>
    match locOf old (256 * g) with
    | .hbm st pc off => let b := hbmAddr new st pc off; if b = 256 * g then none else some (256 * g, b)
    | _ => none)

/-- The memory under a new map: every cell's bytes and errors at the address that names it now. -/
def remapMemory (old new : State) : State :=
  let mv := movedGranules old new
  if mv.isEmpty then new
  else
    let stay (g : Nat) : Bool := !mv.any (fun p => p.1 == 256 * g)
    { new with mem := { new.mem with
        bytes := mv.foldl (fun m p => stMove 0 m old.mem.bytes p.1 p.2 256) (new.mem.bytes.filter (fun p => stay (p.1 / 256)))
        errs := mv.foldl (fun m p => stMove [] m old.mem.errs (p.1 / 64) (p.2 / 64) 4) (new.mem.errs.filter (fun p => stay (p.1 / 4))) } }

/-! Memory access with the symbol code (R194, R201–R205, R219). -/

/-- A byte of memory; every address first reads as 0 (R399). -/
def memByte (s : State) (a : Nat) : Byte := stGet 0 s.mem.bytes a

/-- `n` bytes of memory as stored, errors aside. -/
def memBytes (s : State) (a n : Nat) : List Byte := (List.range n).map (fun i => memByte s (a + i))

/-- Bytes stored to memory, nothing else changed. -/
def memStore (s : State) (a : Nat) (bs : List Byte) : State :=
  { s with mem := { s.mem with bytes := stSetMany 0 s.mem.bytes a bs } }

/-- The errors of a sector (by address / 64). -/
def sectorErrs (s : State) (k : Nat) : List (Nat × Nat) := stGet [] s.mem.errs k

/-- A sector's errors set. -/
def setErrs (s : State) (k : Nat) (e : List (Nat × Nat)) : State :=
  { s with mem := { s.mem with errs := stSet [] s.mem.errs k e } }

/-- The tier group of a sector, none where the tier does not serve it. -/
def tierGroupOf (s : State) (k : Nat) : Option Nat := (tierOffset s (k * 64)).map tierGroup

/-- What the two copies of a group index tell (R216): 0 right, 1 corrected from the copy that
matches, 2 the group uncorrectable. `tierIdx` holds what the copies are xored with. Two wrong
copies that also disagree count as uncorrectable (DEDUCED 39). -/
def idxState (s : State) (k : Nat) : Nat :=
  match tierGroupOf s k with
  | none => 0
  | some g =>
    let x := stGet (0, 0) s.mem.tierIdx g
    if x = (0, 0) then 0 else if x.1 = 0 ∨ x.2 = 0 then 1 else 2

/-- Both copies of a sector's group index written anew. -/
def idxClear (s : State) (k : Nat) : State :=
  match tierGroupOf s k with
  | none => s
  | some g => { s with mem := { s.mem with tierIdx := stSet (0, 0) s.mem.tierIdx g (0, 0) } }

/-- Whether a sector is poisoned: its errors, or its group's index, are uncorrectable (R205, R216). -/
def poisoned (s : State) (k : Nat) : Bool := rsDecode (sectorErrs s k) = .uncorrectable || idxState s k == 2

/-- The sectors with errors among those of `[a, a + n)`. -/
def badSectors (s : State) (a n : Nat) : List Nat :=
  if n = 0 then [] else
  let errs := (s.mem.errs.filter (fun p => decide (a / 64 ≤ p.1) && decide (p.1 ≤ (a + n - 1) / 64))).map (·.1)
  let idx := if s.mem.tierIdx.isEmpty then [] else
    (List.range ((a + n - 1) / 64 + 1 - a / 64)).filterMap (fun i =>
      if idxState s (a / 64 + i) ≠ 0 ∧ !errs.contains (a / 64 + i) then some (a / 64 + i) else none)
  errs ++ idx

/-- The sector's bytes with the errors it carries laid over them: data symbol `j` is bytes
2j and 2j + 1 (R201). -/
def overlayErrs (s : State) (k : Nat) (errs : List (Nat × Nat)) : State :=
  errs.foldl (fun t e =>
    if e.1 < 32 then
      let a := k * 64 + 2 * e.1
      memStore t a (leBytes 2 (leNat (memBytes t a 2) ^^^ e.2))
    else t) s

/-- The unit, counter register fields and check of a sector's errors (R204, R219, R353). -/
def sectorUnit (s : State) (k : Nat) : Nat :=
  match physLoc s (k * 64) with
  | .hbm st pc _ => unitMem st pc 0
  | .tier c _ _ => unitTier c
  | _ => unitHub 0xFFF

/-- The syndrome bytes of a sector's record (R204, R219). -/
def sectorSyndrome (s : State) (k : Nat) (errs fix : List (Nat × Nat)) (n : Nat) : List Byte :=
  let idx := match physLoc s (k * 64) with
    | .hbm _ _ off => off / 64
    | .tier .. => (tierGroupOf s k).getD 0
    | _ => 0
  [0, 1, 2, 3].flatMap (fun i => leBytes 2 (syndrome errs i)) ++ leBytes 3 idx ++ [byteOf n]
    ++ [byteOf (nthD (fix.map (·.1)) 0 0xFF), byteOf (nthD (fix.map (·.1)) 1 0xFF), 0, 0]

/-- Counts of corrected symbols (R204, R213, R219). -/
def countCorrected (s : State) (k n : Nat) : State :=
  match physLoc s (k * 64) with
  | .hbm st pc _ =>
    csrBump (csrBump s (rMemCorr + 0x10000 * st) 31 0 n) (rMemPcStatus + 0x10000 * st + 4 * pc) 15 0 n
  | .tier c _ _ => csrBump s (rCapErr + 0x20 * c) 15 0 n
  | _ => s

/-- Count of an uncorrectable sector met (R205, R219). -/
def countPoisoned (s : State) (k : Nat) : State :=
  match physLoc s (k * 64) with
  | .hbm st _ _ => csrBump s (rMemUncorr + 0x10000 * st) 31 0 1
  | .tier c _ _ => csrBump s (rCapErr + 0x20 * c) 31 16 1
  | _ => s

/-- The check number of a sector's record: stacked memory or tier (R353). -/
def sectorCheck (s : State) (k : Nat) : Nat := if (tierOffset s (k * 64)).isNone then 0x08 else 0x09

/-- A correction remembered for the thresholds of R349. -/
def noteCorr (s : State) (kind unit pos : Nat) : State :=
  let g := s.snag
  let old := g.corr.filter (fun e => decide (g.time < e.time + hours72))
  { s with snag := { g with corr := { kind := kind, unit := unit, pos := pos, time := g.time } :: old } }

/-- Corrections remembered of one kind, unit and position within a span of snag time (R349). -/
def corrCount (s : State) (kind unit pos span : Nat) : Nat :=
  (s.snag.corr.filter (fun e => e.kind == kind && e.unit == unit && e.pos == pos
    && decide (s.snag.time < e.time + span))).length

/-- Corrections of one kind and unit forgotten: their threshold has been reached. -/
def forgetCorr (s : State) (kind unit : Nat) : State :=
  { s with snag := { s.snag with corr := s.snag.corr.filter (fun e => !(e.kind == kind && e.unit == unit)) } }

/-- The threshold of symbol corrections at one position (R349): reached, the pseudo-channel
has a permanent fault, which is recorded and retired at the next seam (R207, R352). -/
def symbolThreshold (s : State) (unit pos : Nat) : State :=
  let s := noteCorr s 1 unit pos
  if fieldOf unit 31 28 = 6 ∧ corrCount s 1 unit pos hours24 = 64 then
    retireLater (reportEvent s (errRec unit 0x08 1 2 8)) unit
  else s

/-- The threshold of corrections in one DRAM row (R349): the row is listed for repair in its record and its entry. -/
def rowThreshold (s : State) (unit row : Nat) (syn : List Byte) : State :=
  let s := noteCorr s 2 unit row
  if fieldOf unit 31 28 = 6 ∧ corrCount s 2 unit row hours72 = 3 then
    let c := snagEntry s.snag unit
    let s := { s with snag := snagPutEntry s.snag { c with flags := putField c.flags 1 1 1 } }
    snagRecord s { errRec unit 0x08 2 0 9 with syndrome := syn }
  else s

/-- The row of a sector in its pseudo-channel: 1,024 bytes a row (PRESUMED 14). -/
def rowOf (s : State) (k : Nat) : Nat :=
  match physLoc s (k * 64) with
  | .hbm _ _ off => off / 1024
  | _ => 0

/-- A sector met by a read, a partial write or an add (R204, R205): a correctable one is
counted, recorded and, with `writeBack`, corrected in place; an uncorrectable one is counted
and recorded and stays. -/
def meetSymbols (writeBack : Bool) (s : State) (k : Nat) : State :=
  let errs := sectorErrs s k
  match rsDecode errs with
  -- an error pattern that is itself a codeword is not seen (R203)
  | .clean => if errs.isEmpty then s else overlayErrs (setErrs s k []) k errs
  | .corrected fix =>
    let u := sectorUnit s k
    let s := countCorrected s k fix.length
    let c := snagEntry s.snag u
    let s := { s with snag := snagPutEntry s.snag { c with corrs := satAdd 32 c.corrs fix.length } }
    let s := snagRecord s { unit := u, check := sectorCheck s k, detail := 0, severity := 0, action := 1
                            opcode := 0, op := 0, syndrome := sectorSyndrome s k errs fix fix.length }
    let s := fix.foldl (fun t f => symbolThreshold t u f.1) s
    let s := rowThreshold s u (rowOf s k) (sectorSyndrome s k errs fix fix.length)
    -- a miscorrected pattern leaves wrong symbols behind, now in a codeword of their own (R203)
    if writeBack then overlayErrs (setErrs s k []) k (leftErrs errs fix) else s
  | .uncorrectable =>
    let s := countPoisoned s k
    reportEvent s { unit := sectorUnit s k, check := sectorCheck s k, detail := 0, severity := 1, action := 0
                    opcode := 0, op := 0, syndrome := sectorSyndrome s k errs [] 0xFF }

/-- A group index met by the same accesses (R216): one wrong copy is corrected and counted as
one, a wrong index makes every sector of the group uncorrectable. -/
def meetIndex (writeBack : Bool) (s : State) (k : Nat) : State :=
  let r (sev act n : Nat) : ErrRec :=
    { unit := sectorUnit s k, check := sectorCheck s k, detail := 0, severity := sev, action := act, opcode := 0
      op := 0, syndrome := sectorSyndrome s k [] [] n }
  match idxState s k with
  | 0 => s
  | 1 =>
    let t := snagRecord (countCorrected s k 1) (r 0 1 0)
    if writeBack then idxClear t k else t
  | _ => reportEvent (countPoisoned s k) (r 1 0 0xFF)

/-- A sector met by a read, a partial write or an add (R204, R205, R216, R219). -/
def meetSector (writeBack : Bool) (s : State) (k : Nat) : State :=
  if idxState s k = 2 then meetIndex writeBack s k else meetIndex writeBack (meetSymbols writeBack s k) k

/-- The first of the uncorrectable sectors an access met, remembered. -/
def noteBad (s : State) (ks : List Nat) : State := { s with mem := { s.mem with lastBad := ks.head? } }

/-- Whether a write or an add to the sector of an address waits at its scheduler (R204). -/
def writeWaits (s : State) (a : Nat) : Bool :=
  let q := match physLoc s a with
    | .hbm st pc _ => stGet [] s.mem.queues (st * 64 + pc)
    | .tier ctl _ _ => stGet [] s.mem.tierQ ctl
    | _ => []
  q.any (fun r => r.kind != 2 && r.addr / 64 == a / 64)

/-- The sectors of `[a, a + n)` met by a read (R204, R205): each correctable one is counted, and written back but where a
write of it waits; false where one is poisoned. -/
def touchMem (s : State) (a n : Nat) : State × Bool :=
  let bad := badSectors s a n
  if bad.isEmpty then (s, true)
  else
    let t := bad.foldl (fun t k => meetSector (!writeWaits s (64 * k)) t k) s
    let dead := bad.filter (poisoned s)
    if dead.isEmpty then (t, true) else (noteBad t dead, false)

/-- A checked read of `[a, a + n)`: the bytes as corrected, none where a sector is poisoned (R204, R205). -/
def readMem (s : State) (a n : Nat) : State × Option (List Byte) :=
  let t := touchMem s a n
  (t.1, if t.2 then some (memBytes ((badSectors s a n).foldl (meetSector true) s) a n) else none)

/-- Several ranges met by reads: false where one is poisoned. -/
def touchAll (l : List (Nat × Nat)) (s : State) : State × Bool :=
  l.foldl (fun r p => let t := touchMem r.1 p.1 p.2; (t.1, r.2 && t.2)) (s, true)

/-- Whether a write of `[a, a + n)` covers sector `k` whole (R205). -/
def coversSector (a n k : Nat) : Bool := decide (a ≤ k * 64) && decide (k * 64 + 64 ≤ a + n)

/-- A checked write of bytes at `a`: a sector covered whole is replaced and cleared of
errors; one covered in part is read, corrected and re-encoded, or left alone if poisoned,
and then the write is reported as failed (R194, R205). -/
def writeMem (s : State) (a : Nat) (bs : List Byte) : State × Bool :=
  let n := bs.length
  let bad := badSectors s a n
  if bad.isEmpty then (memStore s a bs, true)
  else
    let part := bad.filter (fun k => !coversSector a n k)
    let dead := part.filter (poisoned s)
    let s := part.foldl (meetSector true) s
    let s := (bad.filter (coversSector a n)).foldl (fun t k => idxClear (setErrs t k []) k) s
    let keep := dead.map (fun k => (k, memBytes s (k * 64) 64))
    let s := memStore s a bs
    let s := keep.foldl (fun t p => memStore t (p.1 * 64) p.2) s
    if dead.isEmpty then (s, true) else (noteBad s dead, false)

/-- Bytes of memory cleared to 0 with valid check symbols. -/
def clearMem (s : State) (a n : Nat) : State :=
  { s with mem := { s.mem with bytes := stClear s.mem.bytes a (a + n)
                               errs := s.mem.errs.filter (fun p => !coversSector a n p.1) } }

/-! Grants of accesses that a row makes itself (R29, R30, R32, R213). -/

/-- CASE of a stack (R213). -/
def caseHot (s : State) (st : Nat) : Bool := csrField s (rMemTherm + 0x10000 * st) 30 30 == 1

/-- Whether an access of class 4 or 5 to `[a, a + n)` meets a stack in CASE (R213). -/
def caseHolds (s : State) (a n : Nat) : Bool :=
  (List.range 8).any (caseHot s) && (List.range (min 512 ((a + n - 1) / 256 + 1 - a / 256))).any (fun i =>
    match physLoc s (a + 256 * i) with
    | .hbm st _ _ => caseHot s st
    | _ => false)

/-- Whether a request of a class above `cls` waits at any scheduler of the memory: it goes first (R32). -/
def lowerWaits (s : State) (cls : Nat) : Bool :=
  s.mem.queues.any (fun p => p.2.any (fun r => decide (r.cls < cls))) || s.mem.tierQ.any (fun p => p.2.any (fun r => decide (r.cls < cls)))

/-- The same at the pseudo-channels of one stack. -/
def stackWaits (s : State) (st cls : Nat) : Bool :=
  s.mem.queues.any (fun p => p.1 / 64 == st && p.2.any (fun r => decide (r.cls < cls)))

/-- The pointer of the scheduler that serves an address moved past a requester: `port` of a pseudo-channel's seven,
`tport` of a capacity controller's four (R30, R32). -/
def portGrant (s : State) (a port tport cls : Nat) : State :=
  let put (base v : Nat) : State := { s with mem := { s.mem with ptrs := stSet 0 s.mem.ptrs (base * 8 + cls) v } }
  match physLoc s a with
  | .hbm st pc _ => put (st * 64 + pc) ((port + 1) % 7)
  | .tier ctl _ _ => put (600 + ctl) ((tport + 1) % 4)
  | _ => s

/-! On-chip buffers (R17). -/

/-- `n` bytes of a physical core's core buffer; offsets past its 4 MiB read as 0. -/
def coreRead (s : State) (pc off n : Nat) : List Byte :=
  (List.range n).map (fun i =>
    if off + i < 2 ^ 22 then stGet 0 s.chip.coreBuf (pc * 2 ^ 22 + off + i) else 0)

/-- Bytes stored to a physical core's core buffer, cut at its end. -/
def coreWrite (s : State) (pc off : Nat) (bs : List Byte) : State :=
  { s with chip := { s.chip with
      coreBuf := stSetMany 0 s.chip.coreBuf (pc * 2 ^ 22 + off) (bs.take (2 ^ 22 - off)) } }

/-- The default of a tile store: a free tile. -/
def freeTile : Tile :=
  { owned := false, kept := false, trans := false, halted := false, owner := 0, tx := 0, kcount := 0
    range := 0, yarna := false, spill := 0, rows := [], rowres := [] }

/-- Tile `t` of physical engine `pe`. -/
def tileGet (s : State) (pe t : Nat) : Tile := stGet freeTile s.chip.tiles (pe * 8 + t)

/-- Tile `t` of physical engine `pe` replaced. -/
def tilePut (s : State) (pe t : Nat) (x : Tile) : State :=
  { s with chip := { s.chip with tiles := stSet freeTile s.chip.tiles (pe * 8 + t) x } }

/-- Recipe entry `i`, none while it is unloaded (R95). -/
def recipeOf (s : State) (i : Nat) : Option (List Byte) :=
  let r := stGet [] s.chip.recipes i
  if r.isEmpty then none else some r

end Sys2Proof.Machine
end

