-- ==== Sys2Proof/Machine/Operands.lean ====
section
/-! DEFINITION. Operand forms: status codes, tensor descriptors and their slices (R339), the
three address spaces of a descriptor, and the reading and writing of planes in every format. -/

namespace Sys2Proof.Machine

/-! Status codes (R332). -/

def stOk : Nat := 0x0000
def stFlagged : Nat := 0x0001
def stDuplicate : Nat := 0x0002
def stNotReady : Nat := 0x0100
def stQueueFull : Nat := 0x0101
def stBadParam : Nat := 0x0102
def stTimeoutFloor : Nat := 0x0103
def stEpochStale : Nat := 0x0104
def stVersionStale : Nat := 0x0105
def stChildActive : Nat := 0x0106
def stSourceNotReady : Nat := 0x0107
def stTileConflict : Nat := 0x0200
def stTimeout : Nat := 0x0300
def stBusError : Nat := 0x0301
def stHaltedPage : Nat := 0x0302
def stFault : Nat := 0x0303
def stNanTrap : Nat := 0x0400
def stSkipped : Nat := 0x0401
def stAuthFail : Nat := 0x0500
def stShed : Nat := 0x0600

/-! Descriptors (R339). -/

/-- A tensor descriptor's fields. `block0` is the index, in the whole tensor, of the first
block of a core's slice (R107). -/
structure Desc where
  fbyte   : Nat
  fmt     : Format
  pal     : Nat
  t       : Nat
  space   : Nat
  lo16    : Bool
  rank    : Nat
  dims    : List Nat
  colBase : Nat
  colStep : Nat
  tensor  : Nat
  code    : Nat
  exp     : Nat
  side    : Nat
  fbl     : Nat
  block0  : Nat
deriving DecidableEq, Repr

/-- Number of elements. -/
def Desc.elems (d : Desc) : Nat := d.dims.foldl (· * ·) 1

/-- The innermost dimension. -/
def Desc.width (d : Desc) : Nat := nthD d.dims 0 1

/-- The number of rows: all elements that share the outer indices make one. -/
def Desc.nrows (d : Desc) : Nat := d.elems / d.width

/-- Whether a format carries a tensor exponent (R38, R71). -/
def Format.hasT : Format → Bool
  | .i4 | .u4 | .p4 | .i8 | .u8 => true
  | _ => false

/-- The descriptor of 64 bytes; none where it breaks R46, R47 or R339 by itself. -/
def Desc.ofBytes (b : List Byte) : Option Desc :=
  match Format.ofByte (leAt b 0 1) with
  | none => none
  | some (fmt, pal) =>
    let flags := leAt b 2 1
    let rank := leAt b 3 1
    let dims := (List.range 4).map (fun i => leAt b (4 + 4 * i) 4)
    let d : Desc :=
      { fbyte := leAt b 0 1, fmt := fmt, pal := pal, t := leAt b 1 1, space := fieldOf flags 1 0
        lo16 := bitOf flags 2, rank := rank, dims := dims, colBase := leAt b 20 4
        colStep := leAt b 24 2, tensor := leAt b 26 2, code := leAt b 32 8, exp := leAt b 40 8
        side := leAt b 48 8, fbl := leAt b 56 8, block0 := 0 }
    let ok := (if fmt.hasT then d.t != 0xFF else d.t == 0)
      && d.space != 3 && fieldOf flags 7 3 == 0 && (!d.lo16 || fmt == .m32)
      && decide (1 ≤ rank) && decide (rank ≤ 4) && dims.all (· != 0)
      && (dims.drop rank).all (· == 1) && zeroAt b 28 4
      && [d.code, d.exp, d.side, d.fbl].all (fun a => decide (a < 2 ^ 42))
      && (if fmt.blocked then d.code % 64 == 0 && d.exp % 64 == 0 && d.width % 32 == 0 else d.exp == 0)
    if ok then some d else none

/-- Descriptor `i` of the job's table; none for an index that is no descriptor (R333, R343). -/
def descAt (s : State) (i : Nat) : Option Desc :=
  if i < s.job.dtabCount ∧ i ≠ 0xFFFF then Desc.ofBytes (memBytes s (s.job.dtabAddr + 64 * i) 64)
  else none

/-- Core `i`'s slice of a descriptor among `n` cores: the outermost dimension divided evenly,
every plane starting at the slice (R339); none where it does not divide, or would cut a
block, an outlier group or a byte. -/
def Desc.slice (d : Desc) (n i : Nat) : Option Desc :=
  let top := d.rank - 1
  let dim := nthD d.dims top 1
  if n = 0 ∨ dim % n ≠ 0 then none else
  let share := dim / n
  let inner := (d.dims.take top).foldl (· * ·) 1
  let off := i * share * inner
  let part := share * inner
  let ok := (off * d.fmt.bits % 8 == 0) && (!d.fmt.blocked || (off % 32 == 0 && part % 32 == 0))
    && (d.side == 0 || off % 128 == 0)
  if !ok then none
  else some { d with
    dims := (List.range 4).map (fun j => if j = top then share else nthD d.dims j 1)
    code := d.code + off * d.fmt.bits / 8
    exp := if d.fmt.blocked then d.exp + off / 32 else d.exp
    side := if d.side = 0 then 0 else d.side + off / 128 * 16
    fbl := if d.fbl = 0 then 0 else d.fbl + i * (part / 32 / 8) * 32
    block0 := off / 32 }

/-- The fall-back budget of a slice: one eighth of its blocks (R106). -/
def Desc.budget (d : Desc) : Nat := d.elems / 32 / 8

/-- A descriptor as a Level stage takes it: I4B32 or P4B32 as I8B32 at the same addresses,
without outlier records or fall-back list (R429). -/
def Desc.levelled (d : Desc) : Desc :=
  if d.fmt = .i4b32 ∨ d.fmt = .p4b32 then { d with fmt := .i8b32, pal := 0, side := 0, fbl := 0 } else d

/-! The three address spaces of a descriptor. -/

/-- Where a stage's operands live: its physical core, and the Hawk frame it has open. -/
structure IoCtx where
  pc    : Nat
  mb    : Nat
  frame : Option Frame
deriving DecidableEq, Repr

/-- The Hawk stack of a micro-batch. -/
def hawkDefault : Hawk := { frames := [], carried := false, atSeam := [], migrated := [] }

def hawkOf (s : State) (m : Nat) : Hawk := stGet hawkDefault s.hawk m

/-- The frames' top of a Hawk stack in 4 KiB units (R158). -/
def hawkTop (h : Hawk) : Nat :=
  match h.frames with
  | [] => 0
  | f :: _ => f.start + f.length

def rangeOf (st : Store Range) (m : Nat) : Range := stGet { base := 0, len := 0 } st m

/-- The local address of stack offset `o` of Hawk stack `m`, by its 4 KiB unit alone (R153);
a migrated unit is read from its staging place (R156). -/
def hawkAddr (s : State) (m o : Nat) : Nat :=
  let h := rangeOf s.job.hawkHbm m
  let staged := stGet 0 (hawkOf s m).migrated (o / 4096)
  if o < h.len then h.base + o
  else if staged ≠ 0 then staged - 1 + o % 4096
  else (rangeOf s.job.hawkOvf m).base + (o - h.len)

/-- A run of stack offsets cut at 4 KiB units; `fuel` bounds the pieces. -/
def cutUnits : Nat → Nat → Nat → List (Nat × Nat)
  | 0, _, _ => []
  | fuel + 1, o, n =>
    if n = 0 then [] else
    let k := min n (4096 - o % 4096)
    (o, k) :: cutUnits fuel (o + k) (n - k)

/-- A read through a descriptor's space: local memory, core buffer, or Hawk frame (R339). A
poisoned sector gives none. -/
def spaceRead (s : State) (c : IoCtx) (space a n : Nat) : State × Option (List Byte) :=
  match space with
  | 0 => readMem s a n
  | 1 => (s, some (coreRead s c.pc a n))
  | _ =>
    let o := (c.frame.map (fun f => f.start * 4096)).getD 0 + a
    (cutUnits (n / 4096 + 2) o n).foldl (fun (r : State × Option (List Byte)) p =>
      let x := readMem r.1 (hawkAddr r.1 c.mb p.1) p.2
      (x.1, match r.2, x.2 with
        | some u, some v => some (u ++ v)
        | _, _ => none)) (s, some [])

/-- A write through a descriptor's space; false where a poisoned sector kept it from being
whole (R205). -/
def spaceWrite (s : State) (c : IoCtx) (space a : Nat) (bs : List Byte) : State × Bool :=
  match space with
  | 0 => writeMem s a bs
  | 1 => (coreWrite s c.pc a bs, true)
  | _ =>
    let o := (c.frame.map (fun f => f.start * 4096)).getD 0 + a
    (cutUnits (bs.length / 4096 + 2) o bs.length).foldl (fun (r : State × Bool) p =>
      let x := writeMem r.1 (hawkAddr r.1 c.mb p.1) (sliceB bs (p.1 - o) p.2)
      (x.1, r.2 && x.2)) (s, true)

/-! Planes. -/

/-- The level descriptors of a palette slot: Bell-A in slot 0, the loaded palette in slots 1–7 (R41);
a slot never loaded since reset holds Bell-A too (DESIGN CHOICE 81). -/
def paletteDescs (s : State) (slot : Nat) : List Nat := if slot = 0 then bellA else stGet bellA s.chip.palettes slot

/-- The levels of a palette slot (R39). -/
def paletteLevels (s : State) (slot : Nat) : List Int := (paletteDescs s slot).map levelOf

/-- Bytes of a descriptor's code plane. -/
def Desc.codeBytes (d : Desc) : Nat := ceilDiv (d.elems * d.fmt.bits) 8

/-- The raw codes of a descriptor's code plane, by row. -/
def readCodes (s : State) (c : IoCtx) (d : Desc) : State × Option (List (List Nat)) :=
  let r := spaceRead s c d.space d.code d.codeBytes
  (r.1, r.2.map (fun b => chunksOf d.width d.elems ((unpackCodes d.fmt.bits b).take d.elems)))

/-- The block exponents of a descriptor, by row; none stored for an unblocked format. -/
def readExps (s : State) (c : IoCtx) (d : Desc) : State × Option (List (List Nat)) :=
  if d.fmt.blocked then
    let r := spaceRead s c d.space d.exp (d.elems / 32)
    (r.1, r.2.map (fun b => chunksOf (d.width / 32) d.elems (b.map BitVec.toNat)))
  else (s, some [])

/-- The value an element stands for: a float's own value, or the exact value of a blocked or integer code
(R38, R44). -/
def elemExact (fmt : Format) (levels : List Int) (t e code : Nat) : FV :=
  match fmt.float? with
  | some f => f.decode code
  | none =>
    match fmt with
    | .m32 => Sys2Proof.Machine.b16.decode code
    | .s16 => s16Val code
    | _ => if fmt.blocked then blockVal fmt levels e code else plainVal fmt levels t code

/-- The value of one element as floats see it: a blocked or integer code's value is rounded to F32 (R59). -/
def elemVal (fmt : Format) (levels : List Int) (t e code : Nat) : FV :=
  let v := elemExact fmt levels t e code
  if fmt.float?.isSome then v else f32.round v

/-- The values of a descriptor's elements, by row, before any conversion (R59, R128). -/
def readVals (s : State) (c : IoCtx) (d : Desc) : State × Option (List (List FV)) :=
  let levels := paletteLevels s d.pal
  let x := readCodes s c d
  let y := readExps x.1 c d
  (y.1, match x.2, y.2 with
    | some rows, some es => some (rows.mapIdx (fun r row =>
        row.mapIdx (fun j code => elemExact d.fmt levels d.t (nthD (nthD es r []) (j / 32) 0) code)))
    | _, _ => none)

/-- Float values written in a float format, by row (R59). -/
def writeFloats (s : State) (c : IoCtx) (d : Desc) (f : Fmt) (rows : List (List FV)) : State × Bool :=
  spaceWrite s c d.space d.code (packCodes d.fmt.bits (rows.flatten.map f.toCode))

/-- Blocks written: codes and exponents, by row (R46). -/
def writeBlocks (s : State) (c : IoCtx) (d : Desc) (codes exps : List (List Nat)) : State × Bool :=
  let a := spaceWrite s c d.space d.code (packCodes d.fmt.bits codes.flatten)
  let b := spaceWrite a.1 c d.space d.exp (exps.flatten.map byteOf)
  (b.1, a.2 && b.2)

/-- `n` F32 values of a core buffer. -/
def coreFloats (s : State) (pc off n : Nat) : List FV :=
  (List.range n).map (fun i => f32Val (leNat (coreRead s pc (off + 4 * i) 4)))

/-- F32 values stored to a core buffer. -/
def corePutFloats (s : State) (pc off : Nat) (vs : List FV) : State :=
  coreWrite s pc off (vs.flatMap (fun v => leBytes 4 (f32Code v)))

/-! Policies and windows of block exponents (R96, R101, R123, R183). -/

/-- The fields of a recipe entry (R96). -/
structure Recipe where
  policy   : Nat
  headroom : Nat
  rotLog2  : Nat
  wpal     : Nat
  budget   : Nat
  bound    : Nat
  thresh   : Nat
  fbRate   : Nat
  dsRate   : Nat
  ovRate   : Nat
deriving DecidableEq, Repr

/-- The recipe of a 32-byte entry. -/
def Recipe.ofBytes (b : List Byte) : Recipe :=
  { policy := fieldOf (leAt b 0 1) 1 0, headroom := fieldOf (leAt b 0 1) 3 2, rotLog2 := leAt b 1 1
    wpal := fieldOf (leAt b 2 1) 2 0, budget := leAt b 3 1, bound := leAt b 4 4, thresh := leAt b 8 4
    fbRate := leAt b 12 1, dsRate := leAt b 13 1, ovRate := leAt b 14 1 }

/-- Whether a recipe entry's bytes hold no reserved value (R96). -/
def recipeValid (b : List Byte) : Bool :=
  let r := Recipe.ofBytes b
  let beta := f32Val r.bound
  let tau := f32Val r.thresh
  r.policy != 3 && fieldOf (leAt b 0 1) 7 4 == 0 && (r.rotLog2 == 0 || r.rotLog2 == 5 || r.rotLog2 == 6 || r.rotLog2 == 7)
    && fieldOf (leAt b 2 1) 7 3 == 0 && beta.isFin && (!beta.neg? || beta.isZero)
    && fvZero.lt tau && zeroAt b 15 17

/-- Rotation size n of a recipe, 1 without rotation (R111). -/
def Recipe.rot (r : Recipe) : Nat := if r.rotLog2 = 0 then 1 else 2 ^ r.rotLog2

/-- The starting exponent of a policy: CANON, HEAD or FIXED (R101). -/
def startExp (r : Recipe) (floor canon : Nat) : Nat :=
  match r.policy with
  | 0 => canon
  | 1 => canon + r.headroom
  | _ => floor

/-- The exponent brought into the window `[floor, min(floor + max, 254)]`, and whether it was
lowered (R101, R123). -/
def windowExp (floor offMax start : Nat) : Nat × Bool :=
  let top := min (floor + offMax) 254
  if top < max start floor then (top, true) else (max start floor, false)

end Sys2Proof.Machine
end

