-- ==== Sys2Proof/Machine/Net.lean ====
section
/-! DEFINITION. What every packet shares: the Scrim header (R250), acceptance (R249, R250),
answers (R251), the duplicate window (R256, R257), paths (R254) and the operation table
(R258). -/

namespace Sys2Proof.Machine

/-! The device's own standing. -/

/-- Released: READY asserted (R400). -/
def released (s : State) : Bool := s.boot.ready

/-- In the safe state (R401). -/
def inSafe (s : State) : Bool := csrField s rBootStatus 31 28 == 0xE

/-- The shed level whose actions are in force (R375): a level entered but still waiting for its
plumb-aligned point, and what lies above it, does not act yet; S4 and S5 act at once. -/
def shedLevel (s : State) : Nat :=
  let l := csrField s rPwrStatus 31 29
  if 4 ≤ l then l
  else if s.power.pendEnter.contains 1 then 0
  else if s.power.pendEnter.contains 2 then 1
  else l

/-- Class of the traffic background window `w` protects, at a grant on this tick (R310). `winOpen`
holds 4 × the window's end tick + its number. -/
def bgClass (s : State) (w : Nat) : Nat :=
  if s.time.winOpen.any (fun x => x % 4 == w && decide (s.plumb < x / 4)) then 3 else 5

/-- The device's own ID as a SRC_ID: NONE while none is assigned (R250). -/
def ownId (s : State) : Nat := if csrField s rColId 30 30 = 1 then csrField s rColId 11 0 else 0x8000

/-- Transport counter `i` of R269 advanced. -/
def scrCount (s : State) (i n : Nat) : State := csrBump s (rScrCounters + 4 * i) 31 0 n

/-- Whether port `p` is up and not retired (R254). -/
def portUsable (s : State) (p : Nat) : Bool :=
  decide (p < 7) && csrField s (rScrPortStatus + 0x10 * p) 31 31 == 1
    && csrField s (rScrPortStatus + 0x10 * p) 30 30 == 0

/-- The usable ports among a mask, ascending. -/
def usablePorts (s : State) (mask : Nat) : List Nat :=
  (List.range 7).filter (fun p => bitOf mask p && portUsable s p)

/-- The UDP port Scrim is received on (R248, R401). -/
def scrimPort (s : State) : Nat := if inSafe s then fuseBits s 3215 3200 else csrField s rScrUdp 31 16

/-! The Scrim header (R250). -/

structure ScHdr where
  op     : Nat
  flags  : Nat
  src    : Nat
  dst    : Nat
  chan   : Nat
  seq    : Nat
  opid   : Nat
  addr   : Nat
  len    : Nat
  pkt    : Nat
  npkt   : Nat
  reason : Nat
  queue  : Nat
deriving DecidableEq, Repr

/-- The 32 bytes of a header. -/
def ScHdr.toBytes (h : ScHdr) : List Byte :=
  [byteOf (0x10 + h.op), byteOf h.flags] ++ beBytes 2 h.src ++ beBytes 2 h.dst ++ beBytes 2 h.chan
    ++ beBytes 4 h.seq ++ beBytes 4 h.opid ++ beBytes 6 h.addr ++ beBytes 2 h.len
    ++ [byteOf h.pkt, byteOf h.npkt, byteOf h.reason, byteOf h.queue] ++ List.replicate 4 0

/-- An ID of a header: NONE or ANY, or HOST and number; bits [14:13] are reserved and ignored (R11). -/
def hdrId (v : Nat) : Nat := if bitOf v 15 then 0x8000 else v % 0x2000

/-- A header's fields. -/
def ScHdr.ofBytes (b : List Byte) : ScHdr :=
  { op := beAt b 0 1 % 16, flags := beAt b 1 1, src := hdrId (beAt b 2 2), dst := hdrId (beAt b 4 2), chan := beAt b 6 2
    seq := beAt b 8 4, opid := beAt b 12 4 % 2 ^ 18, addr := beAt b 16 6 % 2 ^ 42, len := beAt b 22 2 % 2 ^ 13
    pkt := beAt b 24 1, npkt := beAt b 25 1, reason := beAt b 26 1, queue := beAt b 27 1 }

/-- A whole packet: header, payload and CRC-32C, most significant byte first (R249). -/
def scrimPacket (h : ScHdr) (payload : List Byte) : List Byte :=
  let b := h.toBytes ++ payload
  b ++ beBytes 4 (crc32c b)

/-- Whether an IP address is one of the port's own (R248). -/
def ownIp (s : State) (port : Nat) (ip : List Byte) : Bool :=
  if port = 6 then ip == s.net.spIp6 || ip == s.net.spIp4 else ip == s.net.ip6 || ip == s.net.ip4

/-- Whether a UDP destination port is one Scrim packets of an OP come to (R248, R251): DPORT; an
answer comes to the source port of its request, one of the sixteen of SPORT_BASE (R254,
DEDUCED 58). -/
def scrimDport (s : State) (op d : Nat) : Bool :=
  d == scrimPort s || ((op == 0x3 || op == 0x7 || op == 0x8 || op == 0x9) && d / 16 == csrField s rScrUdp 15 4)

/-- A port's own IPv4 and IPv6 address. -/
def ip4Of (s : State) (port : Nat) : List Byte := if port = 6 then s.net.spIp4 else s.net.ip4
def ip6Of (s : State) (port : Nat) : List Byte := if port = 6 then s.net.spIp6 else s.net.ip6

/-- The Internet checksum of a byte string. -/
def inetSum (b : List Byte) : Nat :=
  let t := (chunksOf 2 b.length b).foldl (fun a w => a + beAt w 0 2) 0
  let u := t % 65536 + t / 65536
  let v := u % 65536 + u / 65536
  65535 - v % 65536

/-- The UDP checksum of a datagram over its pseudo-header; 0 is sent as all ones (R248). -/
def udpSum (src dst : List Byte) (sport dport : Nat) (payload : List Byte) : Nat :=
  let n := 8 + payload.length
  let c := inetSum (src ++ dst ++ beBytes 4 n ++ beBytes 4 17 ++ beBytes 2 sport ++ beBytes 2 dport ++ beBytes 2 n ++ [0, 0]
    ++ sliceB payload 0 (2 * ((payload.length + 1) / 2)))
  if c = 0 then 65535 else c

/-- Whether a received frame keeps the rules of R245 and R248: at most 4,224 bytes with its Ethernet header, tag and
FCS; a plain IP header; and a UDP checksum that matches, or is 0 under IPv4. -/
def frameOk (s : State) (p : Packet) : Bool :=
  let ip6 := p.dst.length == 16
  let tag := if (nthD s.net.ports p.port port0).vlan = 0 then 0 else 4
  decide (14 + tag + (if ip6 then 40 else 20) + 8 + p.payload.length + 4 ≤ 4224) && p.plain
    && (if p.sum = 0 then !ip6 else p.sum == udpSum p.src p.dst p.sport p.dport p.payload)

/-- What a port's link has counted (R270), and the port's thresholds (R349): 100 uncorrectable codewords in one second,
or a pre-FEC bit error ratio over the limit, is one event on the port. -/
def linkErrors (s : State) (port : Nat) (e : LinkErrs) : State :=
  if e = { corr := 0, uncorr := 0, fcs := 0, ber := false } then s
  else
    let a := rScrPortStatus + 0x10 * port
    let s := csrBump (csrBump (csrBump s (a + 4) 31 0 e.corr) (a + 8) 31 0 e.uncorr) (a + 12) 31 0 e.fcs
    let u := unitPort port
    let s := (List.range (min e.uncorr 100)).foldl (fun s _ => noteCorr s 3 u 0) s
    let full := decide (100 ≤ corrCount s 3 u 0 (10 ^ 9))
    let s := if full then forgetCorr s 3 u else s
    if full || e.ber then reportEvent s { errRec u 0x0A 1 1 0 with syndrome := leBytes 8 e.uncorr ++ leBytes 8 e.fcs } else s

/-- The checks every Scrim packet passes before its operation is looked at: link, address, port, frame (R248),
CRC (R249), version, operation and DST_ID (R250). The header and the payload, or none
for a packet that is discarded, or whose OP is not the one asked for. -/
def acceptScrim (s : State) (p : Packet) (op : Nat) : State × Option (ScHdr × List Byte) :=
  let b := p.payload
  let n := b.length
  let h := ScHdr.ofBytes b
  if !portUsable s p.port then (s, none)
  else
    let s := linkErrors s p.port p.link
    if !ownIp s p.port p.dst || !scrimDport s h.op p.dport || !frameOk s p then (scrCount s 6 1, none)
    else if n < 36 ∨ crc32c (b.take (n - 4)) ≠ beAt b (n - 4) 4 then (scrCount s 5 1, none)
    else if beAt b 0 1 / 16 ≠ 1 ∨ h.op = 0 ∨ 9 < h.op then (scrCount s 6 1, none)
    else if h.dst ≠ 0x8000 ∧ (h.dst ≠ ownId s ∨ ownId s = 0x8000) then (scrCount s 6 1, none)
    else if h.op ≠ op then (s, none)
    else (s, some (h, sliceB b 32 (n - 36)))

/-! Frames sent. -/

/-- A UDP frame of the device's own (R245, R248): to the port's next hop, with its tag, hop limit 64 and
don't-fragment. -/
def udpFrame (s : State) (port : Nat) (ip : List Byte) (sport dport dscp ecn : Nat) (payload : List Byte) : TxFrame :=
  let c := nthD s.net.ports port port0
  let own := if ip.length = 4 then ip4Of s port else ip6Of s port
  { port := port, raw := false, mac := sliceB c.nextHop 0 6, tag := c.vlan, src := own, ip := ip, sport := sport, dport := dport
    sum := udpSum own ip sport dport payload, hops := 64, df := true, dscp := dscp, ecn := ecn, payload := payload }

/-- A frame put on the wire of a port (R248): DSCP_REPLY for classes 0 and 1, else DSCP_DATA. -/
def sendFrame (s : State) (port : Nat) (ip : List Byte) (sport dport cls : Nat) (payload : List Byte) : State :=
  let f := udpFrame s port ip sport dport (if cls ≤ 1 then csrField s rScrDscp 13 8 else csrField s rScrDscp 5 0) 0 payload
  { s with net := { s.net with tx := s.net.tx ++ [f] } }

/-- The peer-table entry of an ID (R253). -/
def peerEntry (s : State) (id : Nat) : List Byte := stGet [] s.net.peers id

/-- Whether a peer-table entry is VALID (R253). -/
def peerValid (s : State) (id : Nat) : Bool := bitOf (leAt (peerEntry s id) 17 1) 0

/-- The IP address requests to a peer go to (R253): four octets where its entry is an IPv4 one. -/
def peerIp (entry : List Byte) : List Byte := if bitOf (leAt entry 17 1) 1 then sliceB entry 12 4 else sliceB entry 0 16

/-- The (e mod k)-th of the usable ports, for entropy e (R254). -/
def pickPort (ports : List Nat) (e : Nat) : Option Nat := if ports.isEmpty then none else ports[e % ports.length]?

/-- The port an answer leaves on (R251). -/
def answerPort (s : State) (o : Origin) : Option Nat :=
  if portUsable s o.port then some o.port
  else
    let mask := if o.dev < 0x2000 ∧ peerValid s o.dev then leAt (peerEntry s o.dev) 16 1 else 0x3F
    pickPort (usablePorts s mask) ((o.seq + o.chan) % 16)

/-- An answer to a packet (R251): it goes to the packet's source address and UDP port at class
1, and is dropped where no port is usable. Its own UDP source port is DPORT (DESIGN CHOICE 6). -/
def sendAnswer (s : State) (o : Origin) (op flags pkt npkt reason : Nat) (payload : List Byte) : State :=
  match answerPort s o with
  | none => s
  | some port =>
    let h : ScHdr :=
      { op := op, flags := flags, src := ownId s, dst := o.dev, chan := o.chan, seq := o.seq, opid := o.opid
        addr := 0, len := payload.length, pkt := pkt, npkt := npkt, reason := reason, queue := 0 }
    sendFrame s port o.ip (scrimPort s) o.sport 1 (scrimPacket h payload)

/-- Where a packet's answers go. -/
def originOf (p : Packet) (h : ScHdr) : Origin :=
  { port := p.port, mac := p.mac, ip := p.src, sport := p.sport, dev := h.src, chan := h.chan, seq := h.seq
    qpn := 0, opid := h.opid }

/-- LAST of a packet: it is the last of its operation (R250). -/
def ScHdr.last (h : ScHdr) : Nat := boolNat (h.pkt == h.npkt)

/-- ACK, or NACK with a reason; `dup` for an answer resent (R256). -/
def sendAck (s : State) (p : Packet) (h : ScHdr) (dup : Bool) : State :=
  sendAnswer s (originOf p h) 0x8 (h.last + 2 * boolNat dup) h.pkt h.npkt 0 []

def sendNack (s : State) (p : Packet) (h : ScHdr) (dup : Bool) (reason : Nat) : State :=
  sendAnswer s (originOf p h) 0x9 (h.last + 2 * boolNat dup) h.pkt h.npkt reason []

/-! The duplicate window (R256, R257). -/

/-- What the window says of an arriving packet. -/
inductive RxCase where
  | fresh
  | busy
  | answered (code : Nat)
  | stale
  | noChannel
deriving DecidableEq, Repr

/-- A source pair moved on to a new highest number: the numbers passed over are not seen. -/
def RxChan.advance (c : RxChan) (seq d : Nat) : RxChan :=
  { c with high := seq, states := c.states.filter (fun p =>
      decide (d < 4096) && decide (d ≤ (p.1 + 4096 - (c.high + 1) % 4096) % 4096)) }

/-- The case of R256 of a sequence number at a source pair. -/
def rxCase (s : State) (src chan seq : Nat) : RxCase :=
  match s.net.rx.find? (fun c => c.src == src && c.chan == chan) with
  | none => if s.net.rx.length < 16384 then .fresh else .noChannel
  | some c =>
    let d := (seq + 2 ^ 32 - c.high) % 2 ^ 32
    if 1 ≤ d ∧ d ≤ 4096 then .fresh
    else if d = 0 ∨ 2 ^ 32 - 4095 ≤ d then
      match stGet 0 c.states (seq % 4096) with
      | 0 => .fresh
      | 1 => .busy
      | n => .answered n
    else .stale

/-- A packet's state recorded, and the pair's arrival (R256, R257). -/
def rxMark (s : State) (src chan seq code : Nat) : State :=
  let up (c : RxChan) : RxChan :=
    let d := (seq + 2 ^ 32 - c.high) % 2 ^ 32
    let c := if 1 ≤ d ∧ d ≤ 4096 then c.advance seq d else c
    { c with lastAt := s.plumb, states := stSet 0 c.states (seq % 4096) code }
  let rx := s.net.rx
  let rx' :=
    if rx.any (fun c => c.src == src && c.chan == chan) then
      rx.map (fun c => if c.src = src ∧ c.chan = chan then up c else c)
    else rx ++ [{ src := src, chan := chan, high := seq, lastAt := s.plumb, states := [(seq % 4096, code)] }]
  { s with net := { s.net with rx := rx' } }

/-- The pair's arrival noted without a change of its window (R257). -/
def rxTouch (s : State) (src chan : Nat) : State :=
  { s with net := { s.net with rx := s.net.rx.map (fun c =>
      if c.src = src ∧ c.chan = chan then { c with lastAt := s.plumb } else c) } }

/-- A sequenced packet taken through the window (R256): `run` executes a new one and says how
it is answered: none for a plain ACK, some reason for a NACK. -/
def sequenced (s : State) (p : Packet) (h : ScHdr) (run : State → State × Option Nat) : State :=
  match rxCase s h.src h.chan h.seq with
  | .fresh =>
    let r := run s
    match r.2 with
    | none => sendAck (rxMark r.1 h.src h.chan h.seq 2) p h false
    | some reason => sendNack (rxMark r.1 h.src h.chan h.seq (16 + reason)) p h false reason
  | .busy => scrCount (rxTouch s h.src h.chan) 3 1
  | .answered code =>
    let s := scrCount (rxTouch s h.src h.chan) 3 1
    if code < 16 then sendAck s p h true else sendNack s p h true (code - 16)
  | .stale => scrCount (rxTouch s h.src h.chan) 4 1
  | .noChannel => scrCount s 7 1

/-! The device's own operations (R254, R255, R258–R260). -/

/-- The retry settings now in force: RETRIES, INTERVAL_US and TIMEOUT_US (R260). -/
def scrRetries (s : State) : Nat := fieldOf (settingGet s rScrRetry) 10 8
def scrInterval (s : State) : Nat := fieldOf (settingGet s rScrRetry) 7 0
def scrTimeout (s : State) : Nat := fieldOf (settingGet s rScrOpTimeout) 15 0

/-- A sequenced packet sent, or not where no port of PORTS is usable (R254). -/
def sendPkt (s : State) (o : ScrimOp) (k : TxPkt) (idx : Nat) : State :=
  let entry := peerEntry s o.peer
  let e := (k.seq + o.chan + 5 * k.attempt) % 16
  match pickPort (usablePorts s (leAt entry 16 1)) e with
  | none => s
  | some port =>
    let n := o.pkts.length
    let h : ScHdr :=
      { op := o.kind, flags := boolNat (idx + 1 == n) + 4 * k.attempt, src := ownId s, dst := o.peer, chan := o.chan
        seq := k.seq, opid := o.id, addr := k.addr, len := k.len, pkt := idx, npkt := n - 1, reason := 0, queue := 0 }
    sendFrame s port (peerIp entry) (csrField s rScrUdp 15 4 * 16 + e) (csrField s rScrUdp 31 16) o.cls
      (scrimPacket h k.payload)

/-- The pieces of at most 4,096 bytes an operation is cut into. -/
def cutPackets : Nat → Nat → Nat → List (Nat × Nat)
  | 0, _, _ => []
  | fuel + 1, off, n => if n = 0 then [] else (off, min n 4096) :: cutPackets fuel (off + min n 4096) (n - min n 4096)

/-- The operation ID the device takes next: 0x3F000–0x3FFFF in turn (R258). -/
def nextOpId (id : Nat) : Nat := if id + 1 < 0x40000 then id + 1 else 0x3F000

/-- Whether an ID of the device's own range is in use: by an operation, or by a vote (R258). -/
def ownIdUsed (s : State) (id : Nat) : Bool := s.net.ops.any (fun o => o.id == id) || s.coll.running.any (fun c => c.op == id)

/-- The next ID of the device's own that is free, none where all are in use; `fuel` bounds the search. -/
def freeOwnId (s : State) : Nat → Nat → Option Nat
  | 0, _ => none
  | fuel + 1, id => if ownIdUsed s id then freeOwnId s fuel (nextOpId id) else some id

/-- The bytes an operation moves. -/
def OpReq.bytes (r : OpReq) : Nat := if r.kind = 2 then r.len else r.data.length

/-- Whether `n` further packets may be numbered on a channel: none of them while the operation of the number 4,096
before it is undecided (R255). -/
def seqRoom (s : State) (chan n : Nat) : Bool :=
  s.net.ops.all (fun o => o.chan != chan || o.pkts.all (fun k =>
    decide ((stGet 0 s.net.seqs chan + n - 1 + 2 ^ 32 - k.seq) % 2 ^ 32 < 4096)))

/-- Whether the ledger copy is held: from S2 on with its class (R375), and outside background window 0 while that window
is in use (R316). -/
def copyHeld (s : State) : Bool :=
  decide (2 ≤ shedLevel s) || (csrField s rPlbWinCtrl 31 31 == 1 && bgClass s 0 == 5)

/-- Whether an operation may be issued now: not at shed level S4 (R268); its numbers and an ID are free; the ledger
copy's time has come. -/
def mayIssue (s : State) (r : OpReq) : Bool :=
  decide (shedLevel s < 4) && seqRoom s r.chan (max 1 (ceilDiv r.bytes 4096))
    && (r.id != 0 || (freeOwnId s 4096 s.net.nextOp).isSome) && !(r.owner == .ledger && copyHeld s)

/-- An operation issued (R258): its entry made and its packets sent. The class of what a background window protects is
taken now (R310). -/
def issueNow (s : State) (r : OpReq) : State :=
  let seq0 := stGet 0 s.net.seqs r.chan
  let n := r.bytes
  let cuts := if n = 0 then [(0, 0)] else cutPackets (n / 4096 + 1) 0 n
  let pkts := cuts.mapIdx (fun i c =>
    ({ seq := (seq0 + i) % 2 ^ 32, attempt := 0, sentAt := s.plumb, acked := false
       payload := if r.kind = 2 then [] else sliceB r.data c.1 c.2, addr := r.addr + c.1, len := c.2 } : TxPkt))
  let id := if r.id = 0 then (freeOwnId s 4096 s.net.nextOp).getD s.net.nextOp else r.id
  let o : ScrimOp :=
    { id := id, owner := r.owner, kind := r.kind, peer := r.peer, chan := r.chan
      cls := if r.owner == .mirror || r.owner == .ledger then bgClass s 0 else r.cls
      issued := s.plumb, limit := s.plumb + 1000 * scrTimeout s, retries := scrRetries s
      interval := 1000 * scrInterval s, pkts := pkts, reply := [] }
  let s := { s with net := { s.net with
    ops := s.net.ops ++ [o], seqs := stSet 0 s.net.seqs r.chan ((seq0 + pkts.length) % 2 ^ 32)
    nextOp := if r.id = 0 then nextOpId id else s.net.nextOp } }
  (pkts.mapIdx (fun i k => (i, k))).foldl (fun t p => sendPkt t o p.2 p.1) s

/-- An operation issued, or put to wait behind what waits on its channel. -/
def issueOrWait (s : State) (r : OpReq) : State :=
  if s.net.waiting.any (fun w => w.chan == r.chan) || !mayIssue s r then { s with net := { s.net with waiting := s.net.waiting ++ [r] } }
  else issueNow s r

/-- An operation asked for (R258). `kind` is the Scrim OP, `len` the bytes a GET asks for; `id` 0 takes an ID of the
device's own. The answer is none, or the reason it is decided FAILED at once for want of a VALID peer entry
(R253). -/
def issueOp (s : State) (owner : OpOwner) (id kind peer chan cls addr : Nat) (data : List Byte) (len : Nat) :
    State × Option Nat :=
  if !peerValid s peer then (s, some 1)
  else (issueOrWait s { owner := owner, id := id, kind := kind, peer := peer, chan := chan, cls := cls, addr := addr, data := data, len := len }, none)

/-- Whether a waiting operation still belongs to something: a collective, PERMUTE, mirror or fetch may have ended. -/
def OpReq.lives (s : State) (r : OpReq) : Bool :=
  match r.owner with
  | .collective op _ _ => s.coll.running.any (fun c => c.op == op) || s.coll.permute.any (fun p => p.cmd.op == op)
  | .mirror => s.snag.mirrorAcks != 0
  | .firmware => s.snag.pull.isSome
  | _ => true

/-- The operations that wait, issued in their order as far as they may. -/
def pumpOps (s : State) : State :=
  (s.net.waiting.filter (OpReq.lives s)).foldl issueOrWait { s with net := { s.net with waiting := [] } }

/-- Whether an operation of an owner is asked for or undecided. -/
def opOpen (s : State) (p : OpOwner → Bool) : Bool := s.net.ops.any (fun o => p o.owner) || s.net.waiting.any (fun r => p r.owner)

/-- The operation's entry removed: it is decided, once and for good (R258), and what waited for its number or its ID goes
out. -/
def dropOp (s : State) (o : ScrimOp) : State := pumpOps { s with net := { s.net with ops := s.net.ops.filter (· != o) } }

/-- An operation's entry replaced. -/
def putOp (s : State) (old new : ScrimOp) : State :=
  { s with net := { s.net with ops := s.net.ops.map (fun o => if o = old then new else o) } }

end Sys2Proof.Machine
end

