-- ==== Sys2Proof/Machine/Queue.lean ====
section
/-! DEFINITION. Command queues (R321–R334): entries, completions, the duplicate history, the
order of beginning, and the checks every command passes. -/

namespace Sys2Proof.Machine

/-! Entries and completions (R324, R326). -/

/-- The command of a 512-byte entry (R324). -/
def cmdOf (q : Nat) (sl : QSlot) : Cmd :=
  let b := sl.entry
  { queue := q, qseq := sl.qseq, opcode := leAt b 0 2, flags := leAt b 2 1, op := leAt b 8 4 % 2 ^ 18
    epoch := leAt b 12 2, job := leAt b 14 2, launch := leAt b 16 8
    resv := fieldOf (leAt b 2 1) 7 3 != 0 || decide (30 < leAt b 3 1) || leAt b 8 4 / 2 ^ 18 != 0 || !zeroAt b 24 8
    body := sliceB b 32 (16 * min (leAt b 3 1) 30), origin := sl.origin, late := sl.late, arrived := sl.arrived }

def Cmd.launched (c : Cmd) : Bool := bitOf c.flags 0
def Cmd.noReply (c : Cmd) : Bool := bitOf c.flags 1
def Cmd.after (c : Cmd) : Bool := bitOf c.flags 2

/-- Flag bits of a completion (R326). -/
def cfLate : Nat := 0x100
def cfTrunc : Nat := 0x200
def cfChannel : Nat := 0x400
def cfStopped : Nat := 0x80
def cfNotFinite : Nat := 0x40

/-- A completion entry (R326). -/
def compEntry (s : State) (c : Cmd) (status orig flags : Nat) (result : List Byte) : List Byte :=
  leBytes 2 status ++ leBytes 2 orig ++ leBytes 2 c.opcode ++ leBytes 2 (flags + (if c.late then cfLate else 0))
    ++ leBytes 4 c.qseq ++ leBytes 4 (c.op + c.queue <<< 18) ++ leBytes 8 s.plumb ++ sliceB result 0 8

/-- A queue that no one set up; reads past the list answer it. -/
def queueAt (s : State) (q : Nat) : Queue := nthD s.queues q queue0

/-- A queue replaced. -/
def queuePut (s : State) (q : Nat) (x : Queue) : State := { s with queues := s.queues.set q x }

def Queue.depth (x : Queue) : Nat := 2 ^ x.depthLog2

/-- The completion ring's entries the host has read dropped, by HEAD (R322); a poisoned HEAD is not consumed (R205). -/
def syncHead (s : State) (q : Nat) : State :=
  let x := queueAt s q
  if x.inHub then s
  else
    let r := readMem s x.cq 4
    match r.2 with
    | none => r.1
    | some b =>
      let k := (leNat b + 2 ^ 32 - x.seenHead) % 2 ^ 32
      if k ≤ x.unread.length then queuePut r.1 q { x with unread := x.unread.drop k, seenHead := leNat b } else r.1

/-- Whether a placed command can reserve `k` completion slots (R322); a ring in hub memory is
never full (DEDUCED 7). -/
def canReserve (x : Queue) (k : Nat) : Bool :=
  x.inHub || decide ((x.unread.filter (!·)).length + x.reserved + k ≤ x.depth)

/-- An entry written to the completion ring, and then TAIL (R322). An entry that shares its sector with a poisoned one is
not written (R205): it is lost, and counted so. -/
def ringWrite (s : State) (q : Nat) (refusal : Bool) (e : List Byte) : State :=
  let x := queueAt s q
  let size := x.depth + 64
  if x.inHub then
    queuePut s q { x with hubRing := stSet [] x.hubRing (x.tail % size) e, tail := (x.tail + 1) % 2 ^ 32 }
  else
    let w := writeMem s (x.cq + 64 + 32 * (x.tail % size)) e
    if !w.2 then csrBump w.1 (rHubQueue + 8 * q) 15 0 1
    else
      let s := (writeMem w.1 (x.cq + 4) (leBytes 4 ((x.tail + 1) % 2 ^ 32))).1
      queuePut s q { x with unread := x.unread ++ [refusal], tail := (x.tail + 1) % 2 ^ 32 }

/-- CMD_REPLY to the sender of the first copy (R261), unless NO_REPLY (R323) or RoCEv2. -/
def cmdReply (s : State) (o : Origin) (quiet : Bool) (e : List Byte) : State :=
  if quiet || o.qpn != 0 then s else sendAnswer s o 0x6 1 0 0 0 e

/-- A refusal of an entry that was not placed (R327, R328): one of the last 64 slots, or LOST. -/
def refuseEntry (s : State) (c : Cmd) (status orig : Nat) : State :=
  let s := syncHead s c.queue
  let x := queueAt s c.queue
  let e := compEntry s c status orig 0 []
  let s := if x.inHub || decide ((x.unread.filter id).length < 64) then ringWrite s c.queue true e
    else csrBump s (rHubQueue + 8 * c.queue) 15 0 1
  cmdReply s c.origin c.noReply e

/-- The status of an operation in the step's list (R175). -/
def setStepOp (l : List StepOp) (op : Nat) (st : Option Nat) : List StepOp :=
  l.filter (fun o => o.op != op) ++ [{ op := op, status := st }]

/-- Whether a command began in an earlier step: it is in flight, and the step's list has it not (R175). -/
def ofEarlierStep (s : State) (c : Cmd) : Bool :=
  s.flights.any (fun f => f.cmd.queue == c.queue && f.cmd.qseq == c.qseq) && !s.step.ops.any (fun o => o.op == c.op)

/-- A completion noted for WAIT_OP, unless the command is an earlier step's (R175). -/
def noteOp (s : State) (c : Cmd) (status : Nat) : State :=
  if ofEarlierStep s c then s else { s with step := { s.step with ops := setStepOp s.step.ops c.op (some status) } }

/-- Whether a channel's completion was sent before the step was executed again (R169). -/
def channelTold (s : State) (c : Cmd) (flags : Nat) (result : List Byte) : Bool :=
  s.step.again && bitOf flags 10 && (stGet [] (queueAt s c.queue).history c.qseq).any (fun e =>
    bitOf (leAt e 6 2) 10 && sliceB e 24 1 == result.take 1)

/-- One completion of a command (R326): remembered, written, answered, and noted for WAIT_OP. A
command replayed after the host has its completion only notes its status (R169). -/
def report (s : State) (c : Cmd) (status flags : Nat) (result : List Byte) : State :=
  if channelTold s c flags result then noteOp s c status
  else if s.step.silent.contains (c.queue, c.qseq) then
    let left := s.step.silent.filter (· != (c.queue, c.qseq))
    let s := noteOp { s with step := { s.step with silent := left } } c status
    -- the replay has reached the state the fault interrupted (R144)
    if left.isEmpty && s.step.replayTo.isNone && s.step.replayState == 1 then csrSetField s rHubStepState 2 0 1 else s
  else
  let e := compEntry s c status status flags result
  let x := queueAt s c.queue
  let s := queuePut s c.queue { x with
    history := stSet [] x.history c.qseq (stGet [] x.history c.qseq ++ [e]), reserved := x.reserved - 1 }
  let s := ringWrite s c.queue false e
  cmdReply (noteOp s c status) c.origin c.noReply e

/-- Completion slots a command reserves (R322). -/
def slotsNeeded (c : Cmd) : Nat :=
  if c.opcode = 0x0302 then
    max 1 (((List.range 32).filter (fun i => bitOf (leAt c.body 4 4) i)).length)
  else if c.opcode = 0x0304 then (if leAt c.body 0 1 = 0x20 then 32 else 16)
  else 1

/-- The command ends: its last completion, and it is in flight no more; the slots it reserved and
did not use return to the ring (R322). -/
def complete (s : State) (c : Cmd) (status flags : Nat) (result : List Byte) : State :=
  let quiet := s.step.silent.contains (c.queue, c.qseq)
  let s := report s c status flags result
  let s := { s with flights := s.flights.filter (fun f => !(f.cmd.queue == c.queue && f.cmd.qseq == c.qseq)) }
  let x := queueAt s c.queue
  let left := slotsNeeded c - (stGet [] x.history c.qseq).length
  if quiet || left == 0 then s else queuePut s c.queue { x with reserved := x.reserved - left }

/-- The command ends with a status alone. -/
def finish (s : State) (c : Cmd) (status : Nat) : State := complete s c status 0 []

/-- A command that has begun and stays in flight. -/
def fly (s : State) (c : Cmd) : State :=
  { s with flights := s.flights ++ [{ cmd := c, started := s.plumb }]
           step := { s.step with ops := setStepOp s.step.ops c.op none } }

/-- Whether an operation ID is in use: a command in flight, or a tile one kept (R84, R325). -/
def opInUse (s : State) (op : Nat) : Bool :=
  s.flights.any (fun f => f.cmd.op == op) || s.chip.tiles.any (fun t => t.2.owned && t.2.owner == op)
    || s.runs.any (fun r => r.cmd.op == op)

/-- How far a queue number lies past N. -/
def qdist (x : Queue) (qseq : Nat) : Nat := (qseq + 2 ^ 32 - x.n) % 2 ^ 32

/-- Whether an ID is still carried by a command that came earlier and has not begun (R325): of two
commands that came on one tick in different queues neither is the earlier. -/
def opPlaced (s : State) (c : Cmd) : Bool :=
  (List.range 8).any (fun q => (queueAt s q).slots.any (fun sl =>
    !sl.begun && (cmdOf q sl).op == c.op && (decide (sl.arrived < c.arrived)
      || (q == c.queue && sl.arrived == c.arrived && decide (qdist (queueAt s q) sl.qseq < qdist (queueAt s q) c.qseq)))))

/-- Whether class c commands enter the digest (R318): opcode classes 0x02–0x07. -/
def digested (c : Cmd) : Bool := decide (0x0200 ≤ c.opcode) && decide (c.opcode < 0x0800)

/-- Whether a replayed command waits for an earlier one of its ID to end (R169): the log holds every
command of the step, which may have used an ID more than once. -/
def idWaits (s : State) (c : Cmd) : Bool := s.step.again && digested c && opInUse s c.op

/-! The opcode map (R331). -/

/-- The opcodes, the least body in bytes, and the job condition: 0 any, 1 open, 2 none open. -/
def opcodeMap : List (Nat × Nat × Nat) :=
  [(0x0101, 0, 0), (0x0102, 16, 0), (0x0103, 8, 0), (0x0104, 48, 0), (0x0105, 64, 2), (0x0106, 16, 1),
   (0x0201, 16, 1), (0x0202, 48, 1), (0x0203, 32, 1), (0x0204, 16, 1),
   (0x0301, 16, 1), (0x0302, 8, 1), (0x0303, 8, 1), (0x0304, 8, 1),
   (0x0401, 32, 1), (0x0402, 32, 1), (0x0501, 16, 1), (0x0502, 32, 1), (0x0503, 48, 1), (0x0504, 48, 1),
   (0x0601, 16, 1), (0x0602, 176, 1), (0x0701, 64, 1), (0x0702, 64, 1), (0x0703, 64, 1), (0x0704, 64, 1),
   (0x0705, 64, 1), (0x0706, 64, 1), (0x0707, 64, 0), (0x0801, 16, 0), (0x0802, 16, 0), (0x0803, 0, 0),
   (0x0901, 8, 1), (0x0902, 24, 0), (0x0903, 8, 1), (0x0904, 48, 1), (0x0905, 48, 1), (0x0906, 8, 1),
   (0x0A01, 16, 1), (0x0B01, 8, 0), (0x0B02, 8, 0), (0x0B03, 8, 0), (0x0B04, 16, 0), (0x0B05, 16, 0),
   (0x0C01, 40, 0), (0x0C02, 8, 0), (0x0C03, 24, 0)]

/-- An opcode's least body and job condition, none where it is reserved. -/
def opcodeInfo (op : Nat) : Option (Nat × Nat) := (opcodeMap.find? (fun r => r.1 == op)).map (·.2)

/-- Opcodes exempt from the JOB check (R334). -/
def jobExempt : List Nat := [0x0101, 0x0102, 0x0803, 0x0902, 0x0C01, 0x0C02]

def jobOpen? (s : State) : Bool := csrField s rHubJob 31 31 == 1
def jobId (s : State) : Nat := csrField s rHubJob 15 0

/-- MAP_SET with REMAP and without INITIAL (R274, R277): the one form that needs an open job. -/
def isRemap (c : Cmd) : Bool := c.opcode == 0x0707 && bitOf (leAt c.body 10 1) 2 && !bitOf (leAt c.body 10 1) 0

/-- The checks that come before anything else in a command (R325, R331, R334): job conditions
first, then the operation ID, the opcode, the header and the body's length. None where the
command may go on. -/
def admission (s : State) (c : Cmd) : Option Nat :=
  let cond := if isRemap c then 1 else ((opcodeInfo c.opcode).map (·.2)).getD 0
  if cond = 1 ∧ !jobOpen? s then some stNotReady
  else if cond = 2 ∧ jobOpen? s then some stNotReady
  else if !jobExempt.contains c.opcode && c.job != (if jobOpen? s then jobId s else 0) then some stBadParam
  else if c.op = 0 ∨ 0x3F000 ≤ c.op ∨ opInUse s c.op ∨ (!s.step.again && opPlaced s c) then some stBadParam
  else match opcodeInfo c.opcode with
    | none => some stBadParam
    | some (need, _) =>
      if c.resv || decide (c.body.length < need) || (c.launched && decide (c.arrived + 2 ^ 36 < c.launch)) then some stBadParam
      else none

/-! Order of beginning (R329). -/

/-- The units a command names; none for a barrier (R329). Logical core `i` is `i`, Topcoat
1000, the collective engine 1001, Stencil block `b` 2000 + b. -/
def unitsOf (c : Cmd) : Option (List Nat) :=
  if c.opcode = 0x0401 ∨ c.opcode = 0x0402 then
    some ((List.range 256).filter (fun i => bitOf (leAt c.body 0 4) (i / 8) && bitOf (leAt c.body 4 1) (i % 8)))
  else if c.opcode = 0x0602 then some [1000]
  else if 0x0701 ≤ c.opcode ∧ c.opcode ≤ 0x0705 then some [1001]
  else if 0x0301 ≤ c.opcode ∧ c.opcode ≤ 0x0304 then some [2000 + leAt c.body 0 1]
  else none

/-- Whether two commands of a queue keep their order of beginning (R329). -/
def ordered (a b : Cmd) : Bool :=
  match unitsOf a, unitsOf b with
  | some u, some v => u.any (fun x => v.contains x)
  | _, _ => true

/-- The slot of a number. -/
def slotOf (x : Queue) (qseq : Nat) : Option QSlot := x.slots.find? (fun sl => sl.qseq == qseq)

/-- Whether a launched command's tick has come (R308): its slot was marked by LAUNCH. -/
def launchOk (sl : QSlot) (c : Cmd) : Bool := !c.launched || sl.launched

/-- Whether every earlier command allows this one to begin (R329): none missing; none placed
and not begun that is a barrier or shares a unit; with AFTER, none in flight. -/
def mayBegin (s : State) (c : Cmd) : Bool :=
  let x := queueAt s c.queue
  (List.range (qdist x c.qseq)).all (fun i =>
    match slotOf x ((x.n + i) % 2 ^ 32) with
    | none => false
    | some sl =>
      -- a command that waits for its launch tick holds those behind it (R308)
      let e := cmdOf c.queue sl
      sl.begun || (!c.after && launchOk sl e && !ordered e c))
  && (!c.after || !s.flights.any (fun f => f.cmd.queue == c.queue && decide ((c.qseq + 2 ^ 32 - f.cmd.qseq) % 2 ^ 32 < 2 ^ 31)))

/-- Slots marked, as a tick ends, whose command stands at the head of its queue with its launch tick not yet passed:
its launch, whenever its row comes, is not late (R308). -/
def markTimely (s : State) : State :=
  { s with queues := s.queues.mapIdx (fun q x => { x with slots := x.slots.map (fun sl =>
      let c := cmdOf q sl
      if !sl.begun && c.launched && decide (s.plumb ≤ c.launch) && mayBegin s c then { sl with timely := true } else sl) }) }

/-- Whether LAUNCH_AT holds a queue's head now (R308). -/
def launchHeld (s : State) (q : Nat) : Bool :=
  match (queueAt s q).launchHold with
  | some (t, _) => decide (s.plumb < t)
  | none => false

/-- The replay log's first byte and its room in entries: the ledger region holds the ring, the
512-byte input table, then the log (R340). -/
def logBase (s : State) : Nat := s.job.ledger.base + 1024 * 2 ^ csrField s rHubLedgerCtrl 31 28 + 512
def logRoom (s : State) : Nat :=
  if s.job.ledger.len = 0 then 0 else (s.job.ledger.base + s.job.ledger.len - logBase s) / 512

/-- An entry of the step kept for its digest and in the replay log (R318, R320); the step an
entry belongs to is the one in which it begins (DEDUCED 8). -/
def logEntry (s : State) (q : Nat) (entry : List Byte) : State :=
  let k := s.step.cmdLog.length
  let s := { s with step := { s.step with cmdLog := s.step.cmdLog ++ [(q, entry)] } }
  if k < logRoom s then (writeMem s (logBase s + 512 * k) entry).1
  else csrSetField s rHubLedgerCtrl 27 27 1

/-- N passes the begun slots that now lead the queue, which fall FREE; the history keeps N −
4,096 onward (R327). `fuel` bounds the walk. -/
def passBegun : Nat → Queue → Queue
  | 0, x => x
  | fuel + 1, x =>
    match slotOf x x.n with
    | some sl =>
      if sl.begun then
        passBegun fuel { x with n := (x.n + 1) % 2 ^ 32, slots := x.slots.filter (fun t => t.qseq != sl.qseq) }
      else x
    | none => x

/-- History entries older than N − 4,096 forgotten (R327). -/
def trimHistory (x : Queue) : Queue :=
  { x with history := x.history.filter (fun p => decide ((x.n + 2 ^ 32 - p.1) % 2 ^ 32 ≤ 4096)
      || decide ((p.1 + 2 ^ 32 - x.n) % 2 ^ 32 < x.depth)) }

/-- A slot BEGUN (R327), and the entry logged for its step. -/
def markBegun (s : State) (q qseq : Nat) : State :=
  let x := queueAt s q
  match slotOf x qseq with
  | none => s
  | some sl =>
    let c := cmdOf q sl
    let x := { x with slots := x.slots.map (fun t => if t.qseq = qseq then { t with begun := true } else t) }
    let s := queuePut s q (trimHistory (passBegun x.slots.length x))
    let ph := if csrField s rHubStepState 2 0 = 5 then s.step.phase else csrField s rHubStepState 2 0
    if digested c && (ph != 0 || c.opcode == 0x0501) then logEntry s q sl.entry else s

/-- Opcodes the recovery responder serves (R402). -/
def safeOpcodes : List Nat := [0x0101, 0x0102, 0x0902, 0x0C01, 0x0C02, 0x0C03]

/-! The order of one tick (R33). -/

/-- Whether a shed level is entered or left on this tick (R375, R376). -/
def shedDue (s : State) : Bool := s.plumb % 4096 == 0 && (!s.power.pendEnter.isEmpty || s.power.pendLeave.isSome)

/-- Whether a background window ends, or starts, on this tick and has not yet. -/
def winEndDue (s : State) : Bool := s.time.winOpen.any (fun x => decide (x / 4 ≤ s.plumb))

/-- Whether window `w` starts on this tick (R310): in use, its registers' phase, and not open. -/
def winStarts (s : State) (w : Nat) : Bool :=
  let c := csrGet s (rPlbWinCtrl + 8 * w)
  decide (w < 4) && released s && bitOf c 31 && fieldOf c 23 0 != 0
    && s.plumb % 2 ^ fieldOf c 28 24 == csrGet s (rPlbWinPhase + 8 * w) && !s.time.winOpen.any (fun x => x % 4 == w)

/-- The place of a launch in the order of its tick: seams, then the queues in their priority order, then
telemetry sampling; within one queue by sequence number. -/
def launchRank (c : Cmd) : Nat := (if c.opcode = 0x0502 then 0 else if c.opcode = 0x0A01 then 16 else 8) + c.queue

/-- Whether a launch of this tick still waits in front of a rank: a command launched for this tick that is at its
queue's head and does not wait there for tiles, for OPEN or for a tensor. -/
def launchAhead (s : State) (rank : Nat) : Bool :=
  (List.range 8).any (fun q => (queueAt s q).slots.any (fun sl =>
    let c := cmdOf q sl
    let waits := [0x0401, 0x0402, 0x0602].contains c.opcode
      && (csrField s rHubStepState 2 0 != 1 || s.held.any (fun h => h.q == q && h.qseq == sl.qseq)
        || s.topcoat.waiting.contains (q, sl.qseq))
    !sl.begun && c.launched && c.launch == s.plumb && decide (launchRank c < rank) && !waits && !launchHeld s q && mayBegin s c))

/-- Whether a command launched for this tick waits for events that R33 places before it. -/
def afterOthers (s : State) (c : Cmd) : Bool :=
  c.launched && c.launch == s.plumb
    && (shedDue s || (decide (8 ≤ launchRank c) && (winEndDue s || (List.range 4).any (winStarts s))) || launchAhead s (launchRank c))

/-- Whether commands may begin at the shed level (R268, R375, R378): all below S4, a launched one at S4. -/
def levelAllows (s : State) (c : Cmd) : Bool := decide (shedLevel s < 4) || (shedLevel s == 4 && c.launched)

/-- The host command at a place in a queue, if it can begin now: the device released and its shed level allowing
it, or in the safe state and the queue 0; placed and not begun; its launch tick come, with nothing of that tick
before it; and every earlier command out of its way. -/
def readyCmd (s : State) (q qseq : Nat) : Option Cmd :=
  if !released s && !(inSafe s && q == 0) then none
  else if 8 ≤ q ∨ launchHeld s q then none
  else match slotOf (queueAt s q) qseq with
    | none => none
    | some sl =>
      let c := cmdOf q sl
      if sl.begun || !(levelAllows s c || inSafe s) || !launchOk sl c || !mayBegin s c || idWaits s c || afterOthers s c then none
      else some c

/-- Whether a fence covers a command of a queue (R342). -/
def Fence.covers (f : Fence) (q qseq : Nat) : Bool :=
  bitOf f.mask q && decide ((nthD f.seqs q 0 + 2 ^ 32 - qseq) % 2 ^ 32 < 2 ^ 31)

/-- Whether the UPDATE of a place has taken its tensor, with which it has begun, and waits for its readers
(R160). -/
def tensorTaken (s : State) (q qseq : Nat) : Bool := s.topcoat.taken.any (fun k => k.1 == q && k.2.1 == qseq)

/-- Whether a STEP_SKIP with EARLY completes a command instead of starting it (R166). -/
def earlySkip (s : State) (q qseq : Nat) : Bool :=
  match s.step.fence with
  | some f => f.early && f.covers q qseq && !tensorTaken s q qseq
  | none => false

/-- A host command taken from its queue: the common checks, and then its own meaning over the
state in which it has begun. `sel` says whether the row is the command's; a meaning that
answers none waits, and nothing has happened. -/
def hostRow (s : State) (q qseq : Nat) (sel : Cmd → Bool) (body : Cmd → State → Option State) : State :=
  match readyCmd s q qseq with
  | none => s
  | some c =>
    if !sel c then s
    else
      let t := markBegun s q qseq
      if earlySkip s q qseq then finish t c stSkipped
      else if inSafe s && !safeOpcodes.contains c.opcode then finish t c stNotReady
      else match admission s c with
        | some st => finish t c st
        | none => (body c t).getD s

/-- A host command that may wait at its queue's head without beginning (R85, R146, R172): `wait`
answers the state in which it waits, none where it begins with `body`. -/
def waitRow (s : State) (q qseq : Nat) (sel : Cmd → Bool) (wait : Cmd → State → Option State) (body : Cmd → State → State) :
    State :=
  match readyCmd s q qseq with
  | none => s
  | some c =>
    if !sel c then s
    else if earlySkip s q qseq then finish (markBegun s q qseq) c stSkipped
    else match admission s c with
      | some st => finish (markBegun s q qseq) c st
      | none => match wait c s with
        | some t => t
        | none => body c (markBegun s q qseq)

/-- A meaning that ends at once with a status, where refused, or goes on. -/
def refuseOr (s : State) (c : Cmd) (chk : Option Nat) (go : State) : Option State :=
  match chk with
  | some st => some (finish s c st)
  | none => some go

/-! Device addresses a command names (R196, R402). -/

/-- Whether a command may name `[a, a + n)`: the recovery buffer in the safe state (R402). -/
def cmdRangeOk (s : State) (a n : Nat) : Bool := if inSafe s then decide (a + n ≤ 0x10000) else rangeOk s a n

/-- Bytes written where a command names them; false where a poisoned sector kept some of them out (R205). -/
def cmdWrite (s : State) (a : Nat) (bs : List Byte) : State × Bool :=
  if inSafe s then ({ s with boot := { s.boot with recovery := stSetMany 0 s.boot.recovery a bs } }, true)
  else writeMem s a bs

/-- A command that writes its answer and completes, or ends with ABORTED_FAULT where the answer could not be written
whole. -/
def cmdAnswer (s : State) (c : Cmd) (a : Nat) (bs result : List Byte) : State :=
  let w := cmdWrite s a bs
  if w.2 then complete w.1 c stOk 0 result else finish w.1 c stFault

/-- Bytes read where a command names them; none for a poisoned sector. -/
def cmdRead (s : State) (a n : Nat) : State × Option (List Byte) :=
  if inSafe s then (s, some (stGetMany 0 s.boot.recovery a n)) else readMem s a n

/-- A 42-bit address field whose upper bits are reserved (R11). -/
def addrField (b : List Byte) (off : Nat) : Option Nat := if leAt b off 8 < 2 ^ 42 then some (leAt b off 8) else none

/-! Placing (R327). -/

/-- A completion resent for a repeated number (R327), with STATUS DUPLICATE. It goes to the ring only where a
slot beside the last 64 is free, which serve refusals alone (R322). -/
def resend (s : State) (c : Cmd) (e : List Byte) : State :=
  let e' := leBytes 2 stDuplicate ++ leBytes 2 (leAt e 0 2) ++ sliceB e 4 28
  cmdReply (if canReserve (queueAt s c.queue) 1 then ringWrite s c.queue false e' else s) c.origin c.noReply e'

/-- Whether the command of a number has completed, by its history and its flight. -/
def completedOf (s : State) (q qseq : Nat) : List (List Byte) :=
  if s.flights.any (fun f => f.cmd.queue == q && f.cmd.qseq == qseq) then []
  else stGet [] (queueAt s q).history qseq

/-- An arriving entry placed, refused, answered as a duplicate, or discarded (R327). -/
def placeEntry (s : State) (q : Nat) (entry : List Byte) (o : Origin) : State :=
  let s := syncHead s q
  let x := queueAt s q
  let sl : QSlot :=
    { qseq := leAt entry 4 4, begun := false, entry := entry, origin := o, arrived := s.plumb, launched := false, late := false
      timely := false }
  let c := cmdOf q sl
  let d := qdist x sl.qseq
  let depth := if inSafe s then 1 else x.depth
  let dup := (completedOf s q sl.qseq).foldl (fun t e => resend t c e) s
  if d < depth then
    match slotOf x sl.qseq with
    | none =>
      if canReserve x (slotsNeeded c) then
        -- the entry stands in its slot of the ring (R321)
        let s := if x.inHub then s else (writeMem s (x.ring + 512 * (sl.qseq % x.depth)) entry).1
        queuePut s q { x with slots := x.slots ++ [sl], reserved := x.reserved + slotsNeeded c
                              history := stErase x.history sl.qseq }
      else refuseEntry s c stQueueFull stQueueFull
    | some _ => dup
  else if 2 ^ 32 - 4096 ≤ d then dup
  else if d < 2 ^ 31 then refuseEntry s c stQueueFull stQueueFull
  else refuseEntry s c stBadParam 0xFFFF

/-- CMD (R261, R327): one 512-byte entry; QUEUE above 7 or a wrong length is NACKed. -/
def cmdState (p : Packet) (s : State) : State :=
  match acceptScrim s p 0x5 with
  | (s, none) => s
  | (s, some (h, payload)) =>
    sequenced s p h (fun s =>
      if payload.length ≠ 512 ∨ h.len ≠ 512 ∨ 7 < h.queue ∨ (inSafe s ∧ h.queue ≠ 0) then (s, some 6)
      else (placeEntry s h.queue payload (originOf p h), none))

/-! The meanings of the rows. -/

/-- CMD (R327). A Scrim CMD entry is placed in its queue, refused or treated as duplicate, and answered ACK. -/
def execCmd (p : Packet) (s : State) : Host.Outcome State Fault Refusal :=
  .next (cmdState p s)

end Sys2Proof.Machine
end

