-- ==== Sys2Proof/Machine/Csr.lean ====
section
/-! DEFINITION. READ_CSR, WRITE_CSR and IDENTIFY (R7–R9, R335): the registers that are views of
other state, read-to-clear fields, and the value checks of a write. -/

namespace Sys2Proof.Machine

/-! Stencil blocks by number: 0–31 physical clusters, 32 the hub (R243). -/

/-- A Stencil block. -/
def blockGet (s : State) (b : Nat) : Block := if b = 32 then s.hubBlock else stGet (block0 16) s.blocks b

/-- A Stencil block replaced. -/
def blockPut (s : State) (b : Nat) (x : Block) : State :=
  if b = 32 then { s with hubBlock := x } else { s with blocks := stSet (block0 16) s.blocks b x }

/-- A channel of a block. -/
def chanGet (s : State) (b c : Nat) : Chan := nthD (blockGet s b).chans c chan0

/-- A channel of a block replaced. -/
def chanPut (s : State) (b c : Nat) (x : Chan) : State :=
  let k := blockGet s b
  blockPut s b { k with chans := k.chans.set c x }

/-- A tally of a block's node counted up by payload bytes, saturating (R229). -/
def tallyBump (s : State) (b t n : Nat) : State :=
  let k := blockGet s b
  if t = 0xFF then s
  else blockPut s b { k with tallies := stSet 0 k.tallies t (BitVec.ofNat 32 (satAdd 32 (stGet 0 k.tallies t).toNat n)) }

/-- What a tally reads. -/
def tallyGet (s : State) (b t : Nat) : Nat := (stGet 0 (blockGet s b).tallies t).toNat

/-! Views. -/

/-- Words of a queue's two registers (R334). -/
def queueWord (s : State) (q : Nat) : Nat :=
  let x := queueAt s q
  let placed := (x.slots.filter (fun sl => !sl.begun)).length
  let gap := (slotOf x x.n).isNone && x.slots.any (fun sl => !sl.begun)
  x.depthLog2 <<< 28 + placed <<< 17 + boolNat gap <<< 16 + csrField s (rHubQueue + 8 * q) 15 0

/-- ENG_TILE_STATE of a physical engine (R82). -/
def tileWord (s : State) (pe : Nat) : Nat :=
  (List.range 8).foldl (fun w t =>
    let x := tileGet s pe t
    w + (boolNat x.owned + 2 * boolNat x.kept + 4 * boolNat x.trans + 8 * boolNat x.halted) <<< (4 * t)) 0

/-- MEM_HAWK_DEPTH of a stack (R158). -/
def hawkDepthWord (s : State) (m : Nat) : Nat :=
  let h := hawkOf s m
  let ovf := decide ((rangeOf s.job.hawkHbm m).len < 4096 * hawkTop h)
  boolNat h.carried <<< 31 + boolNat ovf <<< 30 + h.frames.length

/-- STM_CHAN_STATUS of a channel (R243). -/
def chanWord (c : Chan) : Nat := c.state <<< 28 + c.wait <<< 24 + c.pc <<< 16 + c.window.length <<< 8

/-- Offset of an address in a register block, and the block's number: Stencil blocks (R243). -/
def stencilReg (a : Nat) : Option (Nat × Nat) :=
  if 0x48000000 ≤ a ∧ a < 0x4C000000 ∧ a % 0x100000 < 0x1000 ∧ a / 0x100000 % 16 < 8 then
    some ((a - 0x48000000) / 0x1000000 * 8 + a / 0x100000 % 16, a % 0x100000)
  else if 0x4C000000 ≤ a ∧ a < 0x4C001000 then some (32, a - 0x4C000000)
  else none

/-- What a Stencil block's register reads as where it is a view (R243). -/
def stencilView (s : State) (b off : Nat) : Option Nat :=
  if 0x800 ≤ off then some (stGet 0 (blockGet s b).tallies ((off - 0x800) / 4)).toNat
  else if 0x100 ≤ off then
    let c := chanGet s b ((off - 0x100) / 16)
    match off % 16 with
    | 0 => some (chanWord c)
    | 4 => some (c.moves % 2 ^ 32)
    | 8 => some (c.moves / 2 ^ 32)
    | _ => none
  else none

/-- Cells now in a die's rings and links (R244): die 4 is the hub. -/
def inflight (s : State) (d : Nat) : Nat :=
  (s.lath.rings.filter (fun p => p.1 / 16 % 8 == d)).foldl (fun n p => n + p.2.length) 0

/-- The registers whose home is elsewhere in the state. -/
def csrView (s : State) (a : Nat) : Option Nat :=
  if 0x500 ≤ a ∧ a < 0x540 then
    some (if a % 8 = 0 then queueWord s ((a - 0x500) / 8) else (queueAt s ((a - 0x500) / 8)).n)
  else if 0x4000 ≤ a ∧ a < 0x4080 then
    some (if a % 8 = 0 then hawkTop (hawkOf s ((a - 0x4000) / 8)) else hawkDepthWord s ((a - 0x4000) / 8))
  else if 0x8100 ≤ a ∧ a < 0x81A0 ∧ a % 0x20 = 0x18 then some (inflight s ((a - 0x8100) / 0x20))
  else if a = rPlbCountLo then some (s.plumb % 2 ^ 32)
  else if a = rPlbCountHi then some (s.plumb / 2 ^ 32)
  else if a = rPlbStatus then some (putField (csrGet s rPlbStatus) 18 12 s.time.children.length)
  else if a = rSngTimeLo then some (s.snag.time % 2 ^ 32)
  else if a = rSngTimeHi then some (s.snag.time / 2 ^ 32)
  else if 0x60000000 ≤ a ∧ a < 0x60080000 ∧ a % 0x10000 = 0 then
    -- HALTED of TOP_STATUS (R192)
    let x := nthD s.topcoat.tops ((a - 0x60000000) / 0x10000) topStack0
    some (putField (csrGet s a) 30 30 (boolNat (x.halted || (x.busy && decide (4 ≤ shedLevel s) && x.param == 0 && x.fresh))))
  else if rSecFuse ≤ a ∧ a < rSecFuse + 512 then
    let j := a - rSecFuse
    -- IDENTITY_SEED, bits 3583 to 3328, reads as 0 (R393)
    some (if 416 ≤ j ∧ j < 448 then 0 else leNat (stGetMany 0 s.boot.fuses j 4))
  else if 0x40000000 ≤ a ∧ a < 0x44000000 then
    let pe := (a - 0x40000000) / 0x1000000 * 288 + a / 0x100000 % 16 * 36 + a / 0x10000 % 16 * 4 + a / 0x1000 % 16
    let off := a % 0x1000
    if off = 0 then some (tileWord s pe)
    else if 0x40 ≤ off ∧ off < 0x60 then some (tileGet s pe ((off - 0x40) / 4)).owner
    else none
  else match stencilReg a with
    | some (b, off) => stencilView s b off
    | none => none

/-- What a register reads as. -/
def csrValue (s : State) (a : Nat) : Nat := (csrView s a).getD (csrGet s a) % 2 ^ 32

/-- The fields of one access kind in a family as a mask. -/
def accMask (f : RegFam) (k : Access) : Nat :=
  f.fields.foldl (fun m x => if x.acc = k then m + (2 ^ (x.hi + 1 - x.lo) - 1) <<< x.lo else m) 0

/-- One register read by a command (R8): WO fields read as 0, RC fields are cleared. -/
def csrRead (s : State) (f : RegFam) (a : Nat) : Nat × State :=
  let v := csrValue s a
  let rc := accMask f .rc
  let v' := v &&& (2 ^ 32 - 1 - accMask f .wo)
  (v', if rc = 0 then s else csrPut s a (csrGet s a &&& (2 ^ 32 - 1 - rc)))

/-- Consecutive registers read in ascending order (R335). -/
def csrReads (s : State) (a n : Nat) : List Nat × State :=
  (List.range n).foldl (fun (r : List Nat × State) i =>
    match regAt (a + 4 * i) with
    | some f => let x := csrRead r.2 f (a + 4 * i); (r.1 ++ [x.1], x.2)
    | none => r) ([], s)

/-- Whether some field of a family can be written (R335). -/
def writable (f : RegFam) : Bool := f.fields.any (fun x => x.acc == .rw || x.acc == .w1c || x.acc == .wo)

/-- The word a WRITE_CSR leaves: RW and WO fields set, W1C bits written 1 cleared, RO and RC
fields kept (R8, R9). -/
def writeWord (f : RegFam) (old v : Nat) : Nat :=
  let rw := accMask f .rw + accMask f .wo
  let w1c := accMask f .w1c
  ((old &&& (2 ^ 32 - 1 - rw)) ||| (v &&& rw)) &&& (2 ^ 32 - 1 - (v &&& w1c))

/-- The floor of a retry register: (RETRIES + 1) × INTERVAL_US + 40 µs (R244, R260). -/
def retryFloor (w : Nat) : Nat := (fieldOf w 10 8 + 1) * fieldOf w 7 0 + 40

/-- The value checks of WRITE_CSR; `w` is the word the write would leave (R86, R244, R260,
R297, R310, R357, R360). -/
def csrWriteCheck (s : State) (a w : Nat) : Option Nat :=
  if a = rScdTileHold then (if 100 ≤ fieldOf w 15 0 ∧ fieldOf w 15 0 ≤ 60000 then none else some stBadParam)
  else if a = rLthRetry then
    if fieldOf w 7 0 = 0 then some stBadParam
    else if csrField s rStmWaitTimeout 15 0 < retryFloor w then some stTimeoutFloor else none
  else if a = rStmWaitTimeout then (if fieldOf w 15 0 < retryFloor (csrGet s rLthRetry) then some stTimeoutFloor else none)
  else if a = rScrRetry then
    if fieldOf w 7 0 = 0 then some stBadParam
    else if csrField s rScrOpTimeout 15 0 < retryFloor w then some stTimeoutFloor else none
  else if a = rScrOpTimeout then (if fieldOf w 15 0 < retryFloor (csrGet s rScrRetry) then some stTimeoutFloor else none)
  else if a = rScrUdp ∨ a = rScrDscp then (if s.net.ops.isEmpty then none else some stNotReady)
  else if a = rColTimeout then (if fieldOf w 15 0 < csrField s rScrOpTimeout 15 0 + 40 then some stTimeoutFloor else none)
  else if rPlbWinCtrl ≤ a ∧ a < rPlbWinCtrl + 32 then
    let k := (a - rPlbWinCtrl) / 8
    let ctrl := if a % 8 = 0 then w else csrGet s (rPlbWinCtrl + 8 * k)
    let phase := if a % 8 = 0 then csrGet s (rPlbWinPhase + 8 * k) else w
    let p := fieldOf ctrl 28 24
    if 12 ≤ p ∧ p ≤ 31 ∧ 256 * fieldOf ctrl 23 0 < 2 ^ p ∧ phase < 2 ^ p then none else some stBadParam
  else if a = rSngCheckCfg then (if 4 ≤ fieldOf w 3 0 then none else some stBadParam)
  else if a = rSngPatchCfg then
    if 1 ≤ fieldOf w 27 24 ∧ 30 ≤ fieldOf w 15 0 ∧ fieldOf w 15 0 ≤ 240 then none else some stBadParam
  else none

/-- The settings that apply to what arrives after the tick of their write (R86, R244, R260, R297,
R426). -/
def timedSettings : List Nat := [rScdTileHold, rLthRetry, rStmWaitTimeout, rScrRetry, rScrOpTimeout, rColTimeout]

/-- A WRITE_CSR carried out (R335): a status, and the state it leaves. -/
def csrWrite (s : State) (a v : Nat) : Nat × State :=
  match regAt a with
  | none => (stBadParam, s)
  | some f =>
    if !writable f then (stBadParam, s)
    else
      let w := writeWord f (csrGet s a) v
      match csrWriteCheck s a w with
      | some st => (st, s)
      | none =>
        let s := csrPut (if timedSettings.contains a then settingNote s a else s) a w
        if a = rTelRingRead then
          let u := (csrField s rTelRingWrite 15 0 + 2 ^ s.job.telLog2 - w % 2 ^ 16) % 2 ^ s.job.telLog2
          (stOk, { s with step := { s.step with telUnread := u } })
        else (stOk, s)

/-- The word IDENTIFY and ATTEST give of COL_ID (R335, R408). -/
def idWord (s : State) : Nat :=
  if csrField s rColId 30 30 = 1 then csrField s rColId 11 0 else 0x8000

/-- IDENTIFY (R335). -/
def bodyIdentify (c : Cmd) (s : State) : Option State :=
  some (complete s c stOk 0 (leBytes 2 Config.firmwareVersion.toNat
    ++ [byteOf (csrField s rHubGrade 3 0), byteOf (csrField s rHubGrade 15 8)] ++ leBytes 2 (idWord s)
    ++ [byteOf (boolNat (jobOpen? s) + 2 * boolNat (released s)), 0]))

/-- READ_CSR (R335): every register named must exist; in the safe state only SEC_ and BOOT_
registers are served (R402). -/
def bodyReadCsr (c : Cmd) (s : State) : Option State :=
  let a := leAt c.body 0 4
  let n := leAt c.body 4 2
  let named := (List.range n).all (fun i => (regAt (a + 4 * i)).isSome)
  let safeOk := !inSafe s || (decide (0xE000 ≤ a) && decide (a + 4 * n ≤ 0xE234))
  match addrField c.body 8 with
  | none => some (finish s c stBadParam)
  | some dst =>
    if n = 0 ∨ 256 < n ∨ !zeroAt c.body 6 2 ∨ a % 4 ≠ 0 ∨ !named then some (finish s c stBadParam)
    else if !safeOk then some (finish s c stNotReady)
    else if 2 < n ∧ !cmdRangeOk s dst (4 * n) then some (finish s c stBadParam)
    else
      let r := csrReads s a n
      if n ≤ 2 then some (complete r.2 c stOk 0 (r.1.flatMap (leBytes 4)))
      else some (cmdAnswer r.2 c dst (r.1.flatMap (leBytes 4)) [])

/-- WRITE_CSR (R335). -/
def bodyWriteCsr (c : Cmd) (s : State) : Option State :=
  let r := csrWrite s (leAt c.body 0 4) (leAt c.body 4 4)
  some (finish r.2 c r.1)

/-- IDENTIFY (R335). A command of a reserved opcode, whose one effect is its refusal (R331), begins by
this row too (DESIGN CHOICE 53). -/
def identifyState (q qseq : Nat) (s : State) : State :=
  hostRow s q qseq (fun c => c.opcode == 0x0101 || (opcodeInfo c.opcode).isNone) bodyIdentify

/-- READ_CSR (R335). -/
def readCsrState (q qseq : Nat) (s : State) : State := hostRow s q qseq (fun c => c.opcode == 0x0102) bodyReadCsr

/-- WRITE_CSR (R335). -/
def writeCsrState (q qseq : Nat) (s : State) : State := hostRow s q qseq (fun c => c.opcode == 0x0103) bodyWriteCsr

/-! The meanings of the rows. -/

/-- IDENTIFY (R335). Returns firmware version, grade, enabled clusters, device ID and job and READY state in the completion. -/
def execIdentify (q qseq : Nat) (s : State) : Host.Outcome State Fault Refusal :=
  .next (identifyState q qseq s)

/-- READ_CSR (R335). Reads 1 to 256 consecutive registers in ascending address order, into RESULT or to DEST. -/
def execReadCsr (q qseq : Nat) (s : State) : Host.Outcome State Fault Refusal :=
  .next (readCsrState q qseq s)

/-- WRITE_CSR (R335). Writes one register's RW, W1C or WO fields and ignores its RO fields; names no register or a register with no writable field are refused. -/
def execWriteCsr (q qseq : Nat) (s : State) : Host.Outcome State Fault Refusal :=
  .next (writeCsrState q qseq s)

end Sys2Proof.Machine
end

