-- ==== Sys2Proof/Machine/FloatEdge.lean ====
section
/-! DEFINITION. The Float edge (chapter 04): rotation, outliers, block exponents, the error
meter, fall-back, the feed masks, and the return path. Element arithmetic is F32, rounded to
nearest even at each step. -/

namespace Sys2Proof.Machine

/-- F32 arithmetic, rounded once (R57). -/
def fAdd (a b : FV) : FV := f32.round (a.add b)
def fSub (a b : FV) : FV := f32.round (a.sub b)
def fMul (a b : FV) : FV := f32.round (a.mul b)
def fDiv (a b : FV) : FV := f32.div a b

/-- F64 arithmetic, rounded once (R57). -/
def dAdd (a b : FV) : FV := f64.round (a.add b)
def dSub (a b : FV) : FV := f64.round (a.sub b)
def dMul (a b : FV) : FV := f64.round (a.mul b)

/-- One level of the butterfly at distance `h` (R100). -/
def butterflyLevel (h : Nat) (v : List FV) : List FV :=
  v.mapIdx (fun i x =>
    if i / h % 2 = 0 then fAdd x (nthD v (i + h) fvZero) else fSub (nthD v (i - h) fvZero) x)

/-- The butterfly over a run of n elements: distances 1, 2, 4, … below n (R100). -/
def butterfly (n : Nat) (v : List FV) : List FV :=
  (List.range n.log2).foldl (fun u k => butterflyLevel (2 ^ k) u) v

/-- The butterfly over each run of n elements of a row (R99, R111). -/
def rotateRow (n : Nat) (row : List FV) : List FV :=
  if n ≤ 1 then row else (chunksOf n row.length row).flatMap (butterfly n)

/-- The Float control word (R97). -/
structure FloatCtl where
  flags    : Nat
  target   : Nat
  floor    : Nat
  offMax   : Nat
  scale    : Nat
  sgrad    : Nat
deriving DecidableEq, Repr

/-- The control word of a stage's CTRL bytes, reserved fields ignored (R11); none where it is refused by itself
(R97). -/
def FloatCtl.ofBytes (b : List Byte) : Option FloatCtl :=
  let c : FloatCtl :=
    { flags := leAt b 0 1, target := leAt b 1 1, floor := leAt b 2 1, offMax := leAt b 3 1 % 32
      scale := leAt b 4 4, sgrad := leAt b 8 4 }
  if c.floor != 0xFF && fieldOf c.flags 7 6 != 3
    && c.scale % 64 == 0 && c.sgrad % 64 == 0 then some c else none

def FloatCtl.ret (c : FloatCtl) : Nat := fieldOf c.flags 7 6
def FloatCtl.sgradEn (c : FloatCtl) : Bool := bitOf c.flags 5
def FloatCtl.levelBit (c : FloatCtl) : Bool := bitOf c.flags 4
def FloatCtl.fbEn (c : FloatCtl) : Bool := bitOf c.flags 3
def FloatCtl.outEn (c : FloatCtl) : Bool := bitOf c.flags 2
def FloatCtl.rotEn (c : FloatCtl) : Bool := bitOf c.flags 1
def FloatCtl.scaleEn (c : FloatCtl) : Bool := bitOf c.flags 0

/-- What a quantise stage counts (R113, R117, R127). -/
structure QCounts where
  blocks   : Nat
  fbDone   : Nat
  refused  : Nat
  outliers : Nat
  overflow : Nat
  window   : Nat
  floored  : Nat
  groups   : Nat
  qerr     : FV
deriving DecidableEq, Repr

/-- A stage's output as it grows: codes, exponents, outlier records and fall-back records of
the row in work, and the budget left. -/
structure QOut where
  codes  : List Nat
  exps   : List Nat
  recs   : List OutRec
  fbs    : List (Nat × List Nat)
  block  : Nat
  budget : Nat
  counts : QCounts
deriving DecidableEq, Repr

/-- The outliers taken from a finite group: the candidates above τ, the four of largest
magnitude, lower positions first among equals (R102). -/
def takeOutliers (tau : FV) (g : List FV) : List (Nat × FV) × Bool :=
  let cands := (g.mapIdx (fun i x => (i, x))).filter (fun p => tau.lt p.2.abs)
  let rank (p : Nat × FV) : Nat :=
    (cands.filter (fun q => p.2.abs.lt q.2.abs || (p.2.abs.eq q.2.abs && decide (q.1 < p.1)))).length
  (cands.filter (fun p => decide (rank p < 4)), decide (4 < cands.length))

/-- The outlier record of a group, and whether its exponent was lowered (R102). -/
def outlierRec (floor offMax : Nat) (taken : List (Nat × FV)) : OutRec × Bool :=
  if taken.isEmpty then ({ eo := 0x00, entries := [] }, false)
  else
    let (eo, low) := windowExp floor offMax (canonicalExp .i8b32 [] (taken.map (·.2)))
    ({ eo := eo, entries := taken.map (fun p =>
        let q := scaled p.2 eo
        (p.1, satInt (rneSigned q.1 q.2.1 q.2.2) (-128) 127)) }, low)

/-- `x / 2^(E − 127)` as a value. -/
def unscale (E : Nat) (x : FV) : FV :=
  match x with
  | .fin s m e => .fin s m (e - ((E : Int) - 127))
  | v => v

/-- Meter and energy of a block (R105): `q_i` and `r_i` each rounded to F32, the sums taken
in ascending order in F32. -/
def meterOf (E : Nat) (xs vals : List FV) : FV × FV :=
  (List.zip xs vals).foldl (fun (m : FV × FV) p =>
    let q := f32.round (unscale E p.1)
    let r := f32.round ((unscale E p.1).sub p.2)
    (fAdd m.1 (fMul r r), fAdd m.2 (fMul q q))) (fvZero, fvZero)

/-- Whether a block fails its bound: meter > β × energy, the product in F32; never with
energy 0 (R105). -/
def failsBound (beta : FV) (m : FV × FV) : Bool :=
  !m.2.isZero && (fMul beta m.2).lt m.1

/-- `meter × 2^(2 × (E − 127))` added to the F64 sum (R105). -/
def addQerr (acc m : FV) (E : Nat) : FV :=
  match m with
  | .fin s k e => dAdd acc (f64.round (.fin s k (e + 2 * ((E : Int) - 127))))
  | v => dAdd acc v

/-- The settings of a quantise stage as the device applies them (R96, R97, R115). -/
structure QSet where
  form    : Format
  levels  : List Int
  recipe  : Recipe
  floor   : Nat
  offMax  : Nat
  outEn   : Bool
  fbEn    : Bool
  level   : Bool
deriving DecidableEq, Repr

/-- The decoded values of a block in code units, an outlier's position at `v × 2^(EO − E)`
(R105). -/
def decodedUnits (q : QSet) (E : Nat) (codes : List Nat) (base : Nat) (orec : OutRec) : List FV :=
  codes.mapIdx (fun i c =>
    match orec.entries.find? (fun e => e.1 == base + i) with
    | some e => fvInt e.2 ((orec.eo : Int) - E)
    | none => fvInt (if q.form.isPalette then nthD q.levels c 0 else q.form.codeInt c) 0)

/-- One 32-element block (R99, R101, R105–R107): exponent, codes, meter and fall-back.
`xs` are the values, `zs` the same with outlier positions as 0, `base` the block's position
in its group. In Level mode every target, a gradient's G16B32 too, takes the canonical exponent and counts
FLT_LEVEL_FLOOR (R115 says it of activations: DESIGN CHOICE 88). -/
def quantOneBlock (q : QSet) (o : QOut) (xs zs : List FV) (base : Nat) (orec : OutRec) : QOut :=
  let c := o.counts
  let c := { c with blocks := c.blocks + 1 }
  if !xs.all FV.isFin then
    { o with codes := o.codes ++ xs.map (fun _ => 0), exps := o.exps ++ [0xFF], block := o.block + 1, counts := c }
  else
    let canon := canonicalExp q.form q.levels zs
    let start := if q.level then canon else startExp q.recipe q.floor canon
    let E := (windowExp q.floor q.offMax start).1
    -- a block counts once where its codes saturate, that is below the canonical exponent (R49; at FIXED's
    -- exponent too, DEDUCED 54)
    let lowered := decide (E < canon)
    let c := { c with window := c.window + boolNat lowered
                      floored := c.floored + boolNat (q.level && decide (canon < q.floor)) }
    let codes := quantBlock q.form q.levels E zs
    let m := meterOf E xs (decodedUnits q E codes base orec)
    let fails := q.form == .i4b32 && q.fbEn && failsBound (f32Val q.recipe.bound) m
    if fails && decide (0 < o.budget) then
      let canon8 := canonicalExp .i8b32 [] zs
      let top := min (q.floor + q.offMax) 254 - 4
      let E8 := min (max canon8 q.floor) top
      let low8 := decide (top < max canon8 q.floor)
      let ws := zs.map (fun z => let p := scaled z E8; satInt (rneSigned p.1 p.2.1 p.2.2) (-128) 127)
      let vals := ws.mapIdx (fun i w =>
        match orec.entries.find? (fun e => e.1 == base + i) with
        | some e => fvInt e.2 ((orec.eo : Int) - E8)
        | none => fvInt w 0)
      let m8 := meterOf E8 xs vals
      let c := { c with fbDone := c.fbDone + 1, window := c.window + boolNat (low8 && !lowered)
                        qerr := addQerr c.qerr m8.1 E8 }
      { o with codes := o.codes ++ ws.map (fun w => wrapInt 4 (w / 16)), exps := o.exps ++ [E8 + 4]
               fbs := o.fbs ++ [(o.block, ws.map (fun w => (w % 16).toNat))], block := o.block + 1
               budget := o.budget - 1, counts := c }
    else
      let c := { c with refused := c.refused + boolNat fails, qerr := addQerr c.qerr m.1 E }
      { o with codes := o.codes ++ codes, exps := o.exps ++ [E], block := o.block + 1, counts := c }

/-- One 128-element group (R99, R102): outliers first, then its blocks in ascending order. -/
def quantGroup (q : QSet) (o : QOut) (g : List FV) : QOut :=
  let finite := g.all FV.isFin
  let c := o.counts
  let (taken, crowd) := if q.outEn && finite then takeOutliers (f32Val q.recipe.thresh) g else ([], false)
  let (orec, lowered) :=
    if q.outEn && !finite then (({ eo := 0xFF, entries := [] } : OutRec), false)
    else outlierRec q.floor q.offMax taken
  let c := { c with outliers := c.outliers + taken.length, overflow := c.overflow + boolNat crowd
                    window := c.window + boolNat lowered, groups := c.groups + boolNat (q.outEn && finite) }
  let zs := g.mapIdx (fun i x => if taken.any (fun t => t.1 == i) then fvZero else x)
  let o := { o with recs := o.recs ++ [orec], counts := c }
  (List.range (g.length / 32)).foldl (fun o b =>
    quantOneBlock q o ((g.drop (32 * b)).take 32) ((zs.drop (32 * b)).take 32) (32 * b) orec) o

/-- A quantise stage over its rows, after scale and rotation (R99). -/
def quantRows (q : QSet) (o : QOut) (rows : List (List FV)) : QOut :=
  rows.foldl (fun o row => (chunksOf 128 row.length row).foldl (quantGroup q) o) o

/-- The counts a stage starts from. -/
def qCounts0 : QCounts :=
  { blocks := 0, fbDone := 0, refused := 0, outliers := 0, overflow := 0, window := 0, floored := 0
    groups := 0, qerr := fvZero }

/-- A fall-back record (R107). -/
def fbRecord (block : Nat) (lows : List Nat) : List Byte :=
  leBytes 4 block ++ packCodes 4 lows ++ List.replicate 12 0

/-- An unused fall-back record (R107). -/
def fbUnused : List Byte := leBytes 4 0xFFFFFFFF ++ List.replicate 28 0

/-- A core's part of a fall-back list: its records and then unused ones up to the budget. -/
def fbPart (block0 budget : Nat) (fbs : List (Nat × List Nat)) : List Byte :=
  fbs.flatMap (fun p => fbRecord (block0 + p.1) p.2)
    ++ (List.replicate (budget - fbs.length) fbUnused).flatten

/-- A core's part of a fall-back list as read (R108): block and low nibbles of each used
record; none for a malformed part. -/
def readFbPart (block0 nblocks : Nat) (part : List Byte) : Option (List (Nat × List Nat)) :=
  let recs := chunksOf 32 part.length part
  let used := recs.takeWhile (fun r => leAt r 0 4 != 0xFFFFFFFF)
  let rest := recs.drop used.length
  let bs := used.map (fun r => leAt r 0 4)
  let ok := rest.all (fun r => leAt r 0 4 == 0xFFFFFFFF)
    && (List.zip bs (bs.drop 1)).all (fun p => decide (p.1 < p.2))
    && bs.all (fun b => decide (block0 ≤ b) && decide (b < block0 + nblocks))
  if ok then some (used.map (fun r => (leAt r 0 4 - block0, unpackCodes 4 (sliceB r 4 16)))) else none

/-- The processed-digit count of a G16B32 block under digit budget B (R109). -/
def digitCount (budget E : Nat) : Nat :=
  if budget = 0xFF then 4
  else
    let c : Int := 4 - ((budget : Int) - E) / 4
    (satInt c 1 4).toNat

/-- The needed-digits mask of an element (R110); a not-finite block carries the bit of the
highest digit the stage allows; a Level stage processes every digit (R78). -/
def neededMask (level : Bool) (digitMask count E : Nat) (m : Int) : Nat :=
  if level then 0xF
  else if E = 0xFF then 2 ^ digitMask.log2
  else [0, 1, 2, 3].foldl (fun a d => a + (if 4 ≤ d + count ∧ g16Digit m d ≠ 0 then 2 ^ d else 0)) 0

/-- One row of a return stage (R111). -/
def returnRow (ret n : Nat) (scales : Option (List FV)) (row : List FV) : List FV :=
  if ret = 0 then row
  else
    let v := rotateRow n row
    let v := if ret = 2 then v.map (fun x => fMul x (.fin false 1 (-(n.log2 : Int)))) else v
    match scales with
    | none => v
    | some a => v.mapIdx (fun k x => if ret = 1 then fMul x (nthD a k fvOne) else fDiv x (nthD a k fvOne))

/-- One row of the scale-gradient partials (R112): `dx` the result row, `wide` the wide
source's row, `stash` the decoded stash row. -/
def sgradRow (n : Nat) (a dx wide stash g : List FV) : List FV :=
  let z := rotateRow n (wide.mapIdx (fun k x => fMul x (nthD a k fvOne)))
  let e := stash.mapIdx (fun j v => fSub v (nthD z j fvZero))
  let u := rotateRow n e
  g.mapIdx (fun k gk =>
    let ak := nthD a k fvOne
    let p := fMul (nthD dx k fvZero) (nthD u k fvZero)
    let p := fDiv (fDiv p ak) ak
    let p := fMul p (.fin false 1 (-(n.log2 : Int)))
    fSub gk p)

end Sys2Proof.Machine
end

