-- ==== Sys2Proof/Machine/Tables.lean ====
section
/-! DEFINITION. The parameter table (R338) and the regions its planes lie in (R198–R200): the
checks that JOB_OPEN, REGION_MAP and PERMUTE share, and a plane's place in memory. -/

namespace Sys2Proof.Machine

/-! Step states (R144). -/

def sIdle : Nat := 0
def sOpen : Nat := 1
def sDeciding : Nat := 2
def sCommitted : Nat := 3
def sSkipped : Nat := 4
def sReplaying : Nat := 5

/-- STATE of HUB_STEP_STATE. -/
def stepState (s : State) : Nat := csrField s rHubStepState 2 0

/-- STATE set. -/
def setStepState (s : State) (v : Nat) : State := csrSetField s rHubStepState 2 0 v

/-- Where the step stands (R144): STATE, and in REPLAYING the place of the step being replayed. -/
def stepPhase (s : State) : Nat := if stepState s = sReplaying then s.step.phase else stepState s

/-- The step moved on; in REPLAYING STATE stays (R144, R366). -/
def setPhase (s : State) (v : Nat) : State :=
  if stepState s = sReplaying then { s with step := { s.step with phase := v } } else setStepState s v

/-- STEPS (R145). -/
def stepsOf (s : State) : Nat := csrGet64 s rHubStepCountLo

/-- Whether the step state is IDLE, COMMITTED or SKIPPED. -/
def betweenSteps (s : State) : Bool := stepState s == sIdle || stepState s == sCommitted || stepState s == sSkipped

/-! Parameter-table entries (R338). -/

/-- A slot record with another VERSION (R184, R338). -/
def recWithVersion (r : List Byte) (v : Nat) : List Byte := leBytes 2 v ++ r.drop 2

/-- The tensor of a 64-byte entry; none where KIND, K, CURRENT or a reserved value breaks R338. -/
def tensorOf (b : List Byte) : Option Tensor :=
  let kind := leAt b 0 1
  let cur := leAt b 1 1
  let v := leAt b 2 2
  let other := bitOf cur 1
  let r := sliceB b 32 16
  let prev := if other then recWithVersion r ((v + 65535) % 65536) else []
  if 1 ≤ kind ∧ kind ≤ 3 ∧ cur < 4 ∧ leAt b 8 4 % 128 = 0 ∧ zeroAt b 48 16 ∧ leAt b 39 1 < 4 ∧ leAt b 40 6 < 2 ^ 42 then
    some { kind := kind, rows := leAt b 4 4, k := leAt b 8 4, start := leAt b 12 4
           planes := (sliceB b 16 16).map BitVec.toNat, cur := cur % 2, version := v, prevOk := other, pending := false
           rec0 := if cur % 2 = 0 then r else prev, rec1 := if cur % 2 = 0 then prev else r, sc0 := 0, sc1 := 0 }
  else none

/-- The 64-byte entry of a tensor as it now stands (R361). -/
def tensorBytes (t : Tensor) : List Byte :=
  [byteOf t.kind, byteOf (t.cur + 2 * boolNat t.prevOk)] ++ leBytes 2 t.version ++ leBytes 4 t.rows ++ leBytes 4 t.k
    ++ leBytes 4 t.start ++ t.planes.map byteOf ++ sliceB (if t.cur = 0 then t.rec0 else t.rec1) 0 16 ++ List.replicate 16 0

/-- The S16 slots the copies of a table were built with (R115): a current copy goes with its scale
tensor's current slot, a previous one with the previous slot where that is readable. -/
def linkScales (ts : List Tensor) : List Tensor :=
  ts.map (fun t =>
    let r := if t.cur = 0 then t.rec0 else t.rec1
    if !bitOf (leAt r 7 1) 0 then t
    else match ts[leAt r 14 2]? with
      | none => t
      | some x =>
        let prev := if x.prevOk then 1 - x.cur else x.cur
        if t.cur = 0 then { t with sc0 := x.cur, sc1 := prev } else { t with sc0 := prev, sc1 := x.cur })

/-- A table of `n` entries read at an address; none where an entry breaks R338 or the table
cannot be read. -/
def readTable (s : State) (a n : Nat) : State × Option (List Tensor) :=
  let r := readMem s a (64 * n)
  let es (b : List Byte) := (List.range n).map (fun i => tensorOf (sliceB b (64 * i) 64))
  (r.1, (r.2.bind (fun b => (es b).foldr (fun x acc => match x, acc with
    | some t, some l => some (t :: l)
    | _, _ => none) (some []))).map linkScales)

/-- Tensor `i` of the job. -/
def tensorAt (s : State) (i : Nat) : Option Tensor := s.job.tensors[i]?

/-- Tensor `i` replaced. -/
def tensorPut (s : State) (i : Nat) (t : Tensor) : State :=
  { s with job := { s.job with tensors := s.job.tensors.set i t } }

/-- Slot record of slot `j` (R184). -/
def Tensor.slotRec (t : Tensor) (j : Nat) : List Byte := if j = 0 then t.rec0 else t.rec1

/-- Parameters of a tensor in groups of 128. -/
def Tensor.groups (t : Tensor) : Nat := t.rows * t.k / 128

/-- Plane numbers in PLANES (R338): slot `j` of each double-buffered plane, and the gradient's. -/
def plHi (j : Nat) : Nat := j
def plLo (j : Nat) : Nat := 2 + j
def plM1 (j : Nat) : Nat := 4 + j
def plM2 (j : Nat) : Nat := 6 + j
def plCode (j : Nat) : Nat := 8 + j
def plExp (j : Nat) : Nat := 10 + j
def plGrad : Nat := 12
def plGradExp : Nat := 13
def plS16 (j : Nat) : Nat := 14 + j

/-- The region number of a plane, 0xFF absent. -/
def Tensor.plane (t : Tensor) (i : Nat) : Nat := nthD t.planes i 0xFF

/-- The bytes a plane takes in a region of group size 2^b, none where b is not the one R338
requires for it. M2 planes in a region of another group size are row factors (DEDUCED 17);
a residual's codes are gradient codes, so b is 8 (DEDUCED 96). -/
def planeLen (t : Tensor) (i b : Nat) : Option Nat :=
  let g := t.groups
  if i < 4 ∨ i = plGrad then (if b = 8 then some (256 * g) else none)
  else if i < 6 then (if b = 8 ∨ b = 9 then some (g * 2 ^ b) else none)
  else if i < 8 then (if b = 8 ∨ b = 9 then some (g * 2 ^ b) else some (4 * t.rows))
  else if i < 10 then (if t.kind = 3 then (if b = 8 then some (256 * g) else none) else if b = 6 then some (64 * g) else none)
  else if i < 12 ∨ i = plGradExp then (if b = 2 then some (4 * g) else none)
  else if t.kind = 2 then some (256 * g)
  else some (4 * t.k)

/-- Whether a plane of a valid region fits it (R200); a plane of a region not valid is not
checked. -/
def planeFits (s : State) (t : Tensor) (i : Nat) : Bool :=
  let r := t.plane i
  if 64 ≤ r || !pregValid s r then true
  else match planeLen t i (pregLog2 s r) with
    | none => false
    | some n => decide (t.start * 2 ^ pregLog2 s r + n ≤ pregLen s r)

/-- Whether every plane of a table fits (R200). -/
def tableFits (s : State) (ts : List Tensor) : Bool := ts.all (fun t => (List.range 16).all (planeFits s t))

/-- Where a plane starts in memory: none while its region is not valid (R200). -/
def planeAddr (s : State) (t : Tensor) (i : Nat) : Option Nat :=
  let r := t.plane i
  if 64 ≤ r || !pregValid s r then none else some (pregBase s r + t.start * 2 ^ pregLog2 s r)

/-! Regions (R340). -/

/-- Whether `[a, a + n)` is non-empty and lies in interleaved space. -/
def placedHbm (s : State) (a n : Nat) : Bool := decide (0 < n) && inInterleaved s a n

/-- Whether `[a, a + n)` is non-empty and lies in the tier. -/
def placedTier (a n : Nat) : Bool := decide (0 < n) && inTier a n

/-- Whether a range that may be unmapped satisfies a placement. -/
def rangeFits (r : Range) (ok : Nat → Nat → Bool) : Bool := r.len == 0 || ok r.base r.len

/-- Code bytes of one block of a stored blocked form (R46), none for another byte (R35). -/
def blockBytes (fb : Nat) : Option Nat :=
  match Format.ofByte fb with
  | some (f, _) => if f.blocked then some (f.bits * 4) else none
  | none => none

/-- Whether the parameter regions obey R199: inside parameter space, and no two overlap. -/
def pregsOk (s : State) : Bool :=
  let vs := (List.range 64).filter (pregValid s)
  vs.all (fun n => decide (paramBase s ≤ pregBase s n) && decide (0 < pregLen s n)
      && decide (pregBase s n + pregLen s n ≤ 2 ^ 39) && decide (2 ≤ pregLog2 s n) && decide (pregLog2 s n ≤ 9)
      && vs.all (fun m => m == n || decide (pregBase s m + pregLen s m ≤ pregBase s n)
          || decide (pregBase s n + pregLen s n ≤ pregBase s m)))

/-- Whether the regions of the state obey their placement (R198–R200, R220, R316, R340). -/
def regionsOk (s : State) : Bool :=
  let j := s.job
  let e := csrField s rHubLedgerCtrl 31 28
  pregsOk s
    && j.hawkHbm.all (fun p => placedHbm s p.2.base p.2.len && p.2.base % 4096 == 0 && p.2.len % 4096 == 0)
    && j.hawkOvf.all (fun p => placedTier p.2.base p.2.len && p.2.base % 4096 == 0 && p.2.len % 4096 == 0)
    && rangeFits j.mirror placedTier && rangeFits j.ledgerCopy placedTier
    && rangeFits j.ledger (fun a n => placedHbm s a n && a % 2 ^ 20 == 0 && decide (6 ≤ e) && decide (e ≤ 15)
        && decide (1024 * 2 ^ e + 512 ≤ n))
    && rangeFits j.telemetry (fun a n => placedHbm s a n && decide (j.telLog2 ≤ 16) && decide (0 < j.telSlot)
        && decide (j.telSlot * 4096 * 2 ^ j.telLog2 ≤ n))
    && j.converts.all (fun c => match blockBytes c.stored with
        | none => false
        | some k => decide (c.stored < 256) && rangeOk s c.base c.len && decide (0 < c.len) && c.len % k == 0 && c.base % k == 0
            && rangeOk s c.exp (c.len / k) && (c.target == 0x11 || c.target == 0x12))
    && j.rkeys.all (fun p => rangeOk s p.2.base p.2.len && decide (p.1 < 64))
    && tableFits s j.tensors

/-- A parameter region's registers set (R200). -/
def setPreg (s : State) (n valid b base len : Nat) : State :=
  csrPut (csrPut s (rMemPregionLo + 8 * n) (valid <<< 31 + b <<< 16 + base)) (rMemPregionHi + 8 * n) len

/-- One region entry applied (R340): the state, or the status that refuses the list. -/
def applyRegion (s : State) (b : List Byte) : Except Nat State :=
  let kind := leAt b 0 1
  let arg := leAt b 1 1
  let flags := leAt b 2 1
  let index := leAt b 3 1
  let aux := leAt b 4 4
  let base := leAt b 8 8
  let len := leAt b 16 8
  let rng : Range := if bitOf flags 2 then noRange else { base := base, len := len }
  let gone := bitOf flags 2
  let j := s.job
  if 8 ≤ flags ∨ 2 ^ 42 ≤ base then .error stBadParam
  else if !gone ∧ kind ≠ 1 ∧ len = 0 then .error stBadParam
  else match kind with
    | 1 =>
      if (List.range 64).any (pregValid s) then .error stNotReady
      else if 512 < len then .error stBadParam else .ok (csrSetField s rMemParamBase 9 0 len)
    | 2 =>
      if 64 ≤ index then .error stBadParam
      else if gone then .ok (setPreg s index 0 0 0 0)
      else if base % 2 ^ 23 ≠ 0 ∨ len % 2 ^ 23 ≠ 0 ∨ 2 ^ 40 ≤ len ∨ 2 ^ 39 ≤ base ∨ 15 < arg then .error stBadParam
      else .ok (setPreg s index 1 arg (base / 2 ^ 23) (len / 2 ^ 23))
    | 3 => if 16 ≤ arg then .error stBadParam
      else .ok { s with job := { j with hawkHbm := stSet noRange j.hawkHbm arg rng } }
    | 4 => if 16 ≤ arg then .error stBadParam
      else .ok { s with job := { j with hawkOvf := stSet noRange j.hawkOvf arg rng } }
    | 5 => .ok { s with job := { j with mirror := rng } }
    | 6 =>
      let s := { s with job := { j with ledger := rng } }
      if gone then .ok s
      else if 15 < arg then .error stBadParam
      else .ok (csrPut64 (csrPut s rHubLedgerCtrl (arg <<< 28)) rHubLedgerBaseLo base)
    | 7 => .ok { s with job := { j with ledgerCopy := rng } }
    | 8 =>
      let s := { s with job := { j with telemetry := rng, telLog2 := if gone then 0 else arg, telSlot := if gone then 0 else aux }
                        step := { s.step with telUnread := 0 } }
      .ok (csrPut (csrPut s rTelRingWrite 0) rTelRingRead 0)
    | 9 =>
      let keep := j.converts.filter (fun c => c.base != base)
      if gone then .ok { s with job := { j with converts := keep } }
      else if 2 ^ 42 ≤ leAt b 24 8 then .error stBadParam
      else
        let c : ConvertRegion := { base := base, len := len, stored := aux, target := arg, exp := leAt b 24 8 }
        .ok { s with job := { j with converts := keep ++ [c] } }
    | 10 =>
      if 64 ≤ arg then .error stBadParam
      else if gone then .ok { s with job := { j with rkeys := stErase j.rkeys arg } }
      else
        let k : RKey := { key := leAt b 24 4, base := base, len := len, read := bitOf flags 0, write := bitOf flags 1 }
        .ok { s with job := { j with rkeys := stInsert arg k (stErase j.rkeys arg) } }
    | _ => .error stBadParam

/-- A list of entries applied in order. -/
def applyRegions : List (List Byte) → State → Except Nat State
  | [], s => .ok s
  | b :: r, s => match applyRegion s b with
    | .ok t => applyRegions r t
    | .error e => .error e

end Sys2Proof.Machine
end

