-- ==== Sys2Proof/Machine/CopyForm.lean ====
section
/-! DEFINITION. The compute-copy transform (R183), which Topcoat and a Level stage (R115) share:
division by the learned scale, multiplication by the fold, rotation and its factor; and the
reading of the hi16 view, the scale and the fold it takes. -/

namespace Sys2Proof.Machine

/-- The transform of one 128-group, F32, rounded at every step (R183). -/
def copyTransform (n : Nat) (scale fold : Option (List FV)) (h : List FV) : List FV :=
  let h := match scale with
    | some a => h.mapIdx (fun k x => fDiv x (nthD a k fvOne))
    | none => h
  let h := match fold with
    | some f => h.mapIdx (fun k x => fMul x (nthD f k fvOne))
    | none => h
  if n ≤ 1 then h else (rotateRow n h).map (fun x => fMul x (.fin false 1 (-(n.log2 : Int))))

/-- Fields of a slot record (R184). -/
def recVersion (r : List Byte) : Nat := leAt r 0 2
def recRot (r : List Byte) : Nat := leAt r 3 1
def recWpal (r : List Byte) : Nat := leAt r 4 1
def recFloor (r : List Byte) : Nat := leAt r 5 1
def recMax (r : List Byte) : Nat := leAt r 6 1 % 32
def recScaleEn (r : List Byte) : Bool := bitOf (leAt r 7 1) 0
def recFoldEn (r : List Byte) : Bool := bitOf (leAt r 7 1) 1
def recFold (r : List Byte) : Nat := leAt r 8 6 % 2 ^ 42
def recScale (r : List Byte) : Nat := leAt r 14 2

/-- Rotation size n of a ROT_SIZE (R96). -/
def rotOf (size : Nat) : Nat := if size = 0 then 1 else 2 ^ size

/-- The S16 scales of elements `[k, k + 128)` in S16 slot `j` of scale tensor `t` (R55, R186). -/
def readScales (s : State) (t j k : Nat) : State × Option (List FV) :=
  match (tensorAt s t).bind (fun x => planeAddr s x (plS16 j)) with
  | none => (s, none)
  | some a =>
    let r := readMem s (a + 2 * k) 256
    (r.1, r.2.map (fun b => (unpackCodes 16 b).map s16Val))

/-- The fold vector's entries of elements `[k, k + 128)` (R174, R184). -/
def readFold (s : State) (a k : Nat) : State × Option (List FV) :=
  let r := readMem s (a + 4 * k) 512
  (r.1, r.2.map (fun b => (unpackCodes 32 b).map f32Val))

/-- One optional reading: none asked for reads as nothing, and is not a failure. -/
def orNone (en : Bool) (s : State) (r : State → State × Option (List FV)) : State × Option (Option (List FV)) :=
  if en then let x := r s; (x.1, x.2.map some) else (s, some none)

/-- The hi16 view of group `g` of a tensor in slot `j` (R60, R61). -/
def readHi (s : State) (t : Tensor) (j g : Nat) : State × Option (List FV) :=
  match planeAddr s t (plHi j) with
  | none => (s, none)
  | some a =>
    let r := readMem s (a + 256 * g) 256
    (r.1, r.2.map (fun b => (unpackCodes 16 b).map b16.decode))

/-- One group of a weight as a Level stage forms it (R115), from the slot its version resolved
to, by that slot's record; none where a plane cannot be read. -/
def levelGroup (s : State) (t : Tensor) (j g : Nat) : State × Option (List FV) :=
  let r := t.slotRec j
  let k := 128 * g % t.k
  let h := readHi s t j g
  let a := orNone (recScaleEn r) h.1 (fun s => readScales s (recScale r) (if j = 0 then t.sc0 else t.sc1) k)
  let f := orNone (recFoldEn r) a.1 (fun s => readFold s (recFold r) k)
  (f.1, match h.2, a.2, f.2 with
    | some x, some sc, some fo => some (copyTransform (rotOf (recRot r)) sc fo x)
    | _, _, _ => none)

/-- Groups `[g, g + n)` one after another. -/
def levelGroups (t : Tensor) (j : Nat) : Nat → Nat → State → State × Option (List FV)
  | 0, _, s => (s, some [])
  | n + 1, g, s =>
    let x := levelGroup s t j g
    let y := levelGroups t j n (g + 1) x.1
    (y.1, match x.2, y.2 with
      | some u, some v => some (u ++ v)
      | _, _ => none)

/-- A weight operand of a Level stage (R64, R115, R429): `n` blocks of I8B32 from element `e` of the
tensor on, as exponents and codes, with the blocks raised to the floor and those lowered to the
window. -/
def levelWeights (s : State) (t : Tensor) (j e n : Nat) : State × Option (List Nat × List (List Nat) × Nat × Nat) :=
  let r := t.slotRec j
  let g := e / 128
  let x := levelGroups t j ((e + 32 * n + 127) / 128 - g) g s
  (x.1, x.2.map (fun vs =>
    let bs := (chunksOf 32 vs.length ((vs.drop (e % 128)).take (32 * n)))
    let one (b : List FV) : Nat × List Nat × Bool × Bool :=
      if !b.all FV.isFin then (0xFF, b.map (fun _ => 0), false, false)
      else
        let c := canonicalExp .i8b32 [] b
        let w := windowExp (recFloor r) (recMax r) c
        (w.1, quantBlock .i8b32 [] w.1 b, decide (c < recFloor r), w.2)
    let os := bs.map one
    (os.map (·.1), os.map (·.2.1), (os.filter (·.2.2.1)).length, (os.filter (·.2.2.2)).length)))

end Sys2Proof.Machine
end

