-- ==== Sys2Proof/Machine/Transc.lean ====
section
/-! DEFINITION. The element functions of R129 and their derivatives, correctly rounded to
F32: the exact result is enclosed between two fixed-point numbers with `w` fraction bits,
and the precision rises until both ends round to the same F32 value. -/

namespace Sys2Proof.Machine

/-- An enclosure `[lo, hi] / 2^w` of a number that is not negative. -/
structure Enc where
  lo : Nat
  hi : Nat
deriving DecidableEq, Repr

/-- The sum of two enclosures. -/
def Enc.add (a b : Enc) : Enc := { lo := a.lo + b.lo, hi := a.hi + b.hi }

/-- The difference of two enclosures whose true difference is not negative. -/
def Enc.sub (a b : Enc) : Enc := { lo := a.lo - b.hi, hi := a.hi - b.lo }

/-- The product at `w` fraction bits. -/
def Enc.mul (w : Nat) (a b : Enc) : Enc :=
  { lo := (a.lo * b.lo) >>> w, hi := ceilDiv (a.hi * b.hi) (2 ^ w) }

/-- The quotient at `w` fraction bits, for a positive divisor. -/
def Enc.div (w : Nat) (a b : Enc) : Enc :=
  { lo := (a.lo <<< w) / b.hi, hi := ceilDiv (a.hi <<< w) b.lo }

/-- An enclosure divided by a positive integer. -/
def Enc.divNat (a : Enc) (n : Nat) : Enc := { lo := a.lo / n, hi := ceilDiv a.hi n }

/-- An enclosure times an integer. -/
def Enc.mulNat (a : Enc) (n : Nat) : Enc := { lo := a.lo * n, hi := a.hi * n }

/-- The number 1. -/
def encOne (w : Nat) : Enc := { lo := 2 ^ w, hi := 2 ^ w }

/-- The number `n / d · 2^e`. -/
def encRatio (w n d : Nat) (e : Int) : Enc :=
  let k : Int := e + w
  if 0 ≤ k then { lo := (n <<< k.toNat) / d, hi := ceilDiv (n <<< k.toNat) d }
  else { lo := n / (d <<< (-k).toNat), hi := ceilDiv n (d <<< (-k).toNat) }

/-- `Σ r^i / i!` from term `i` on, where `t` is the term before it, for `r ≤ 1/2`: the tail
after the last term is at most that term. -/
def expTail (w : Nat) (r : Enc) : Nat → Nat → Enc → Enc → Enc
  | 0, _, t, acc => { lo := acc.lo, hi := acc.hi + t.hi + 1 }
  | fuel + 1, i, t, acc =>
    let t' := (Enc.mul w t r).divNat i
    if t'.hi ≤ 1 then { lo := acc.lo, hi := acc.hi + 2 }
    else expTail w r fuel (i + 1) t' (acc.add t')

/-- An enclosure squared `k` times. -/
def encSquares (w : Nat) : Nat → Enc → Enc
  | 0, x => x
  | k + 1, x => encSquares w k (Enc.mul w x x)

/-- `e^y` for an enclosed `y` with `0 ≤ y ≤ 2^8`: the argument is divided by `2^16`, and the
series' sum is squared 16 times. -/
def encExp (w : Nat) (y : Enc) : Enc :=
  let r := y.divNat (2 ^ 16)
  encSquares w 16 (expTail w r w 1 (encOne w) (encOne w))

/-- `Σ t^(2i+1) / (2i+1)` from `i` on, `p` the power of `t` reached; `t ≤ 1/3`. -/
def atanhTail (w : Nat) (t2 : Enc) : Nat → Nat → Enc → Enc → Enc
  | 0, _, p, acc => { lo := acc.lo, hi := acc.hi + p.hi + 1 }
  | fuel + 1, i, p, acc =>
    let p' := Enc.mul w p t2
    if p'.hi ≤ 1 then { lo := acc.lo, hi := acc.hi + 2 }
    else atanhTail w t2 fuel (i + 1) p' (acc.add (p'.divNat (2 * i + 1)))

/-- `atanh(n / d)` for `0 ≤ n / d ≤ 1/3`. -/
def encAtanh (w n d : Nat) : Enc :=
  let t := encRatio w n d 0
  atanhTail w (Enc.mul w t t) w 1 t t

/-- `ln(n / d)` for `n ≥ d > 0`. -/
def encLn (w n d : Nat) : Enc :=
  let k := (log2Ratio n d).toNat
  let d' := d <<< k
  ((encAtanh w 1 3).mulNat (2 * k)).add ((encAtanh w (n - d') (n + d')).mulNat 2)

/-- `Σ (−1)^i t^(2i+1) / (2i+1)` in two sums, those added and those taken away, `t ≤ 1/5`. -/
def atanTail (w : Nat) (t2 : Enc) : Nat → Nat → Enc → Enc → Enc → Enc × Enc
  | 0, _, p, a, b => ({ lo := a.lo, hi := a.hi + p.hi + 1 }, { lo := b.lo, hi := b.hi + p.hi + 1 })
  | fuel + 1, i, p, a, b =>
    let p' := Enc.mul w p t2
    if p'.hi ≤ 1 then ({ lo := a.lo, hi := a.hi + 2 }, { lo := b.lo, hi := b.hi + 2 })
    else
      let q := p'.divNat (2 * i + 1)
      if i % 2 = 1 then atanTail w t2 fuel (i + 1) p' a (b.add q)
      else atanTail w t2 fuel (i + 1) p' (a.add q) b

/-- `atan(1 / d)` for `d ≥ 5`. -/
def encAtanInv (w d : Nat) : Enc :=
  let t := encRatio w 1 d 0
  let r := atanTail w (Enc.mul w t t) w 1 t t { lo := 0, hi := 0 }
  r.1.sub r.2

/-- `π`, by Machin's formula. -/
def encPi (w : Nat) : Enc := ((encAtanInv w 5).mulNat 16).sub ((encAtanInv w 239).mulNat 4)

/-- The square root of an enclosure. -/
def encSqrt (w : Nat) (a : Enc) : Enc :=
  { lo := isqrt (a.lo <<< w), hi := isqrt (a.hi <<< w) + 1 }

/-- `φ(x) = e^(−x²/2) / √(2π)` for the magnitude `m · 2^e` of `x`. -/
def encPdf (w m : Nat) (e : Int) : Enc :=
  let x2 := encRatio w (m * m) 2 (2 * e)
  Enc.div w (encOne w) (Enc.mul w (encExp w x2) (encSqrt w ((encPi w).mulNat 2)))

/-- `Σ x^(2i+1) / (1·3·…·(2i+1))` from `i` on; once a term is below half its predecessor the
tail is at most the last term. -/
def cdfTail (w : Nat) (x2 : Enc) : Nat → Nat → Enc → Enc → Enc
  | 0, _, t, acc => { lo := acc.lo, hi := acc.hi + t.hi + 1 }
  | fuel + 1, i, t, acc =>
    let t' := (Enc.mul w t x2).divNat (2 * i + 1)
    if t'.hi ≤ 2 then { lo := acc.lo, hi := acc.hi + 4 }
    else cdfTail w x2 fuel (i + 1) t' (acc.add t')

/-- `Φ(x) − 1/2` for the magnitude of `x`, with `|x| ≤ 16`. -/
def encHalfCdf (w m : Nat) (e : Int) : Enc :=
  let x := encRatio w m 1 e
  let x2 := encRatio w (m * m) 1 (2 * e)
  Enc.mul w (encPdf w m e) (cdfTail w x2 (4 * w) 1 x x)

/-- `Φ(x)` for a finite `x` with `|x| ≤ 16`. -/
def encCdf (w : Nat) (s : Bool) (m : Nat) (e : Int) : Enc :=
  let h := encHalfCdf w m e
  let half : Enc := { lo := 2 ^ (w - 1), hi := 2 ^ (w - 1) }
  if s then half.sub h else half.add h

/-- `e^(−|x|)`. -/
def encExpNeg (w m : Nat) (e : Int) : Enc :=
  Enc.div w (encOne w) (encExp w (encRatio w m 1 e))

/-- `σ(x)`. -/
def encSigmoid (w : Nat) (s : Bool) (m : Nat) (e : Int) : Enc :=
  let t := encExpNeg w m e
  let d := (encOne w).add t
  if s then Enc.div w t d else Enc.div w (encOne w) d

/-- A signed enclosure. -/
structure SEnc where
  lo : Int
  hi : Int
deriving DecidableEq, Repr

/-- An enclosure with a sign. -/
def Enc.signed (a : Enc) (neg : Bool) : SEnc :=
  if neg then { lo := -(a.hi : Int), hi := -(a.lo : Int) } else { lo := a.lo, hi := a.hi }

/-- `a − b`, of either sign. -/
def Enc.minus (a b : Enc) : SEnc := { lo := (a.lo : Int) - b.hi, hi := (a.hi : Int) - b.lo }

/-- The value both ends of an enclosure round to in F32, if they agree. -/
def SEnc.agreed (w : Nat) (x : SEnc) : Option FV :=
  let a := f32.round (.fin (decide (x.lo < 0)) x.lo.natAbs (-(w : Int)))
  let b := f32.round (.fin (decide (x.hi < 0)) x.hi.natAbs (-(w : Int)))
  if f32.encode a = f32.encode b then some a
  else if a.isZero && b.isZero then some (if x.lo < 0 then a else b)
  else none

/-- The first precision at which the enclosure decides the rounding; where the last one
leaves it open, its lower end's rounding. -/
def decideRound (f : Nat → SEnc) : List Nat → FV
  | [] => .nan
  | [w] => (SEnc.agreed w (f w)).getD
      (f32.round (.fin (decide ((f w).lo < 0)) (f w).lo.natAbs (-(w : Int))))
  | w :: r => match SEnc.agreed w (f w) with
      | some v => v
      | none => decideRound f r

/-- The precisions tried, in fraction bits. -/
def precisions : List Nat := [224, 448, 896]

/-- Whether a finite magnitude is at least `2^k`. -/
def atLeast (m : Nat) (e k : Int) : Bool := m != 0 && decide (k < (m.log2 : Int) + 1 + e)

/-- A value of tiny magnitude with a sign: the exact result underflows (R57). -/
def tiny (neg : Bool) : FV := .fin neg 0 0

/-- e^x (R129, SUB 0x6). -/
def fnExp : FV → FV
  | .nan => .nan
  | .inf s => if s then fvZero else .inf false
  | .fin s m e =>
    if m = 0 then fvOne
    else if atLeast m e 7 then (if s then fvZero else .inf false)
    else decideRound (fun w =>
      (if s then encExpNeg w m e else encExp w (encRatio w m 1 e)).signed false) precisions

/-- σ(x) (R129, SUB 0x5). -/
def fnSigmoid : FV → FV
  | .nan => .nan
  | .inf s => if s then fvZero else fvOne
  | .fin s m e =>
    if m = 0 then .fin false 1 (-1)
    else if atLeast m e 7 then (if s then fvZero else fvOne)
    else decideRound (fun w => (encSigmoid w s m e).signed false) precisions

/-- σ′(x) = σ(x) · (1 − σ(x)), which is σ(|x|) · σ(−|x|). -/
def dSigmoid : FV → FV
  | .nan => .nan
  | .inf _ => fvZero
  | .fin _ m e =>
    if m = 0 then .fin false 1 (-2)
    else if atLeast m e 7 then fvZero
    else decideRound (fun w =>
      (Enc.mul w (encSigmoid w false m e) (encSigmoid w true m e)).signed false) precisions

/-- tanh(x) (R129, SUB 0x4). -/
def fnTanh : FV → FV
  | .nan => .nan
  | .inf s => .fin s 1 0
  | .fin s m e =>
    if m = 0 then .fin false 0 0
    else if atLeast m e 6 then .fin s 1 0
    else decideRound (fun w =>
      let t := encExpNeg w m (e + 1)
      (Enc.div w ((encOne w).sub t) ((encOne w).add t)).signed s) precisions

/-- tanh′(x) = 1 − tanh²(x), which is 4e^(−2|x|) ÷ (1 + e^(−2|x|))². -/
def dTanh : FV → FV
  | .nan => .nan
  | .inf _ => fvZero
  | .fin _ m e =>
    if m = 0 then fvOne
    else if atLeast m e 6 then fvZero
    else decideRound (fun w =>
      let t := encExpNeg w m (e + 1)
      let d := (encOne w).add t
      (Enc.div w (t.mulNat 4) (Enc.mul w d d)).signed false) precisions

/-- silu(x) = x · σ(x) (R129, SUB 0x3). -/
def fnSilu : FV → FV
  | .nan => .nan
  | .inf s => if s then fvZero else .inf false
  | .fin s m e =>
    if m = 0 then fvZero
    else if atLeast m e 7 then (if s then tiny true else .fin s m e)
    else decideRound (fun w =>
      (Enc.mul w (encRatio w m 1 e) (encSigmoid w s m e)).signed s) precisions

/-- silu′(x) = σ(x) · (1 + x · (1 − σ(x))). -/
def dSilu : FV → FV
  | .nan => .nan
  | .inf s => if s then fvZero else fvOne
  | .fin s m e =>
    if m = 0 then .fin false 1 (-1)
    else if atLeast m e 7 then (if s then tiny true else fvOne)
    else decideRound (fun w =>
      let a := encSigmoid w s m e
      let b := Enc.mul w (Enc.mul w a (encRatio w m 1 e)) (encSigmoid w (!s) m e)
      if s then a.minus b else (a.add b).signed false) precisions

/-- gelu(x) = x · Φ(x) (R129, SUB 0x2). -/
def fnGelu : FV → FV
  | .nan => .nan
  | .inf s => if s then fvZero else .inf false
  | .fin s m e =>
    if m = 0 then fvZero
    else if atLeast m e 4 then (if s then tiny true else .fin s m e)
    else decideRound (fun w =>
      (Enc.mul w (encRatio w m 1 e) (encCdf w s m e)).signed s) precisions

/-- gelu′(x) = Φ(x) + x · φ(x). -/
def dGelu : FV → FV
  | .nan => .nan
  | .inf s => if s then fvZero else fvOne
  | .fin s m e =>
    if m = 0 then .fin false 1 (-1)
    else if atLeast m e 4 then (if s then tiny true else fvOne)
    else decideRound (fun w =>
      let a := encCdf w s m e
      let b := Enc.mul w (encRatio w m 1 e) (encPdf w m e)
      if s then a.minus b else (a.add b).signed false) precisions

/-- ln x (R129, SUB 0x8): `ln(±0)` is `−∞`, of a number below zero a NaN. -/
def fnLn : FV → FV
  | .nan => .nan
  | .inf s => if s then .nan else .inf false
  | .fin s m e =>
    if m = 0 then .inf true
    else if s then .nan
    else if cmpFin false m e false 1 0 = 0 then fvZero
    else
      let up := decide (cmpFin false m e false 1 0 = 1)
      let n := if 0 ≤ e then m <<< e.toNat else m
      let d := if 0 ≤ e then 1 else 2 ^ (-e).toNat
      decideRound (fun w => (if up then encLn w n d else encLn w d n).signed (!up)) precisions

/-- A value of limit or exact result 0 has no sign here (R129). -/
def plusZero (v : FV) : FV := if v.isZero then fvZero else v

/-- A result at an infinite argument whose limit is 0 is `+0` (R129). -/
def limZero (x v : FV) : FV := if x.isFin then v else plusZero v

/-- The element function of SUB (R129); the reserved SUB values are refused before. -/
def elemFn (sub : Nat) (x : FV) : FV :=
  match sub with
  | 0x0 => plusZero x
  | 0x1 => if x.isNan then .nan else if fvZero.lt x then x else fvZero
  | 0x2 => fnGelu x
  | 0x3 => fnSilu x
  | 0x4 => fnTanh x
  | 0x5 => fnSigmoid x
  | 0x6 => fnExp x
  | 0x7 => f32.round (x.mul x)
  | 0x8 => fnLn x
  | 0x9 => limZero x (f32.div fvOne x)
  | _ => f32.rsqrt x

/-- The derivative of SUB (R129). -/
def elemDeriv (sub : Nat) (x : FV) : FV :=
  match sub with
  | 0x0 => if x.isNan then .nan else fvOne
  | 0x1 => if x.isNan then .nan else if fvZero.lt x then fvOne else fvZero
  | 0x2 => dGelu x
  | 0x3 => dSilu x
  | 0x4 => dTanh x
  | 0x5 => dSigmoid x
  | 0x6 => fnExp x
  | 0x7 => plusZero (f32.round (x.mul (fvNat 2)))
  | 0x8 => if x.neg? && !x.isZero then .nan else limZero x (f32.div fvOne x)
  | 0x9 => (match x with
      | .nan => .nan
      | .inf _ => fvZero
      | .fin _ m e => if m = 0 then .inf true else f32.roundRatio true 1 (m * m) (-2 * e))
  | _ => (match x with
      | .nan => .nan
      | .inf s => if s then .nan else fvZero
      | .fin s m e =>
        if m = 0 then .inf true
        else if s then .nan
        else (f32.rootRatio 1 (4 * m * m * m) (-3 * e)).negate)

/-- The cause of a not-finite origin (R140): 0 none, 1 INVALID, 2 OVERFLOW, 3 POLE. -/
def originCause (operandsFinite : Bool) (pole : Bool) (res : FV) : Nat :=
  if !operandsFinite then 0
  else match res with
    | .nan => 1
    | .inf _ => if pole then 3 else 2
    | .fin _ _ _ => 0

/-- Whether an element function (or its derivative) has a pole at zero (R129). -/
def hasPole (sub : Nat) (x : FV) : Bool := x.isZero && (sub == 0x8 || sub == 0x9 || sub == 0xA)

end Sys2Proof.Machine
end

