-- ==== Sys2Proof/Machine/Trowel.lean ====
section
/-! DEFINITION. The Trowel engine: lane values and passes (R68–R71, R77, R78), the two
dataflows (R73, R75, R428), the accumulator (R79–R81), Yarna spills (R88) and the tell-tale
residues (R90, R91). -/

namespace Sys2Proof.Machine

/-- The element kinds of R68; blocked forms count as their element format. -/
inductive ElKind where
  | i4 | u4 | p4 | i8 | u8 | g16
deriving DecidableEq, Repr

/-- The element kind of a format, none for an operand the arrays do not take (R68). -/
def Format.elKind : Format → Option ElKind
  | .i4 | .i4b32 => some .i4
  | .u4 => some .u4
  | .p4 | .p4b32 => some .p4
  | .i8 | .i8b32 => some .i8
  | .u8 => some .u8
  | .g16b32 => some .g16
  | _ => none

/-- Whether a pair of element kinds is accepted (R68). -/
def pairOk (a b : ElKind) : Bool := !(a == .p4 && b == .p4) && !(a == .g16 && b == .g16)

/-- One element of an operand: its integer, level or mantissa, its block offset against the
stage's floor, whether its block is not finite, the needed-digits mask (R78), its
fall-back low nibble (R108), and the code it is stored as. -/
structure Elt where
  val  : Int
  off  : Int
  nf   : Bool
  mask : Nat
  low  : Option Nat
  code : Nat
deriving DecidableEq, Repr

/-- An outlier as the lane feeds it: its place, its I8 value, its offset and whether its
record is not finite (R103). -/
structure OutElt where
  row : Nat
  col : Nat
  val : Int
  off : Int
  nf  : Bool
deriving DecidableEq, Repr

/-- An operand of a multiply stage. -/
structure OpMat where
  kind : ElKind
  rows : List (List Elt)
  outl : List OutElt
deriving DecidableEq, Repr

/-- A value at a lane in one pass. -/
structure Lane where
  val : Int
  off : Int
  nf  : Bool
deriving DecidableEq, Repr

/-- A pass of one operand: the whole 4-bit value, a nibble, a digit, or the fall-back pass. -/
inductive Pass where
  | whole
  | high
  | low
  | digit (d : Nat)
  | fallBack
deriving DecidableEq, Repr

/-- The shift a pass carries (R69): 4 for a high nibble, 4 × d for digit d. -/
def Pass.shift : Pass → Nat
  | .high => 4
  | .digit d => 4 * d
  | _ => 0

/-- The passes of an operand, most significant first (R77, R78, R108). -/
def OpMat.passes (m : OpMat) (digitMask : Nat) : List Pass :=
  match m.kind with
  | .i8 | .u8 => [.high, .low]
  | .g16 => ([3, 2, 1, 0].filter (bitOf digitMask)).map Pass.digit
  | _ => if m.rows.any (fun r => r.any (fun e => e.low.isSome)) then [.whole, .fallBack] else [.whole]

/-- An element at a lane in a pass; none where it enters as zero (R78, R108). -/
def laneIn (p : Pass) (e : Elt) : Option Lane :=
  match p with
  | .whole => some { val := e.val, off := e.off, nf := e.nf }
  | .high => some { val := e.val / 16, off := e.off, nf := e.nf }
  | .low => some { val := e.val % 16, off := e.off, nf := e.nf }
  | .digit d => if bitOf e.mask d then some { val := g16Digit e.val d, off := e.off, nf := e.nf } else none
  | .fallBack => e.low.map (fun l => { val := l, off := e.off - 4, nf := false })

/-- A sum of contributions: its value, whether any was marked, and how many count in WINDOW
(R71). -/
structure PSum where
  val    : Int
  marked : Bool
  window : Nat
deriving DecidableEq, Repr

/-- The contribution of two lane values added to a sum (R69, R71): marked for a not-finite
block, a negative offset, or offsets above 31 together; counted in WINDOW unless a block
exponent is 0xFF. -/
def PSum.addPair (s : PSum) (a b : Lane) : PSum :=
  if a.nf || b.nf then { s with marked := true }
  else if a.off < 0 || b.off < 0 || 31 < a.off + b.off then { s with marked := true, window := s.window + 1 }
  else { s with val := s.val + a.val * b.val * (2 ^ (a.off + b.off).toNat : Nat) }

/-- Lane by lane over two lines. A lane that enters as zero (a digit not needed, a place outside the
extent) forms no contribution, so it is never marked, whatever it meets (DEDUCED 78). -/
def dotFrom (s : PSum) : List (Option Lane) → List (Option Lane) → PSum
  | some a :: x, some b :: y => dotFrom (s.addPair a b) x y
  | _ :: x, _ :: y => dotFrom s x y
  | _, _ => s

/-- Contributions of outliers on one side, each meeting the other operand's lane at its
contraction index (R103). -/
def dotOutliers (s : PSum) (outs : List (Nat × Lane)) (line : List (Option Lane)) : PSum :=
  outs.foldl (fun t o => match nthD line o.1 none with
    | some b => t.addPair o.2 b
    | none => t) s

/-- Two sums that meet in the add stage (R103). -/
def PSum.plus (a b : PSum) : PSum := { val := a.val + b.val, marked := a.marked || b.marked, window := a.window + b.window }

/-- No contribution. -/
def psum0 : PSum := { val := 0, marked := false, window := 0 }

/-- A sum with its pass's shift (R69). -/
def PSum.shifted (s : PSum) (k : Nat) : PSum := { s with val := s.val * (2 ^ k : Nat) }

/-- The residue modulo 255 (R90). -/
def res255 (v : Int) : Nat := (v % 255).toNat

/-- The mark of R80. -/
def accMark : Acc := 0x800000000000

/-- The 64-bit mark of a spill word (R88). -/
def spillMark : Int := -(2 ^ 63 : Nat)

/-- An accumulator add (R80) whose running total is `base + entry`: the entry, and whether
the range test marked it. An entry that spilled as a mark is drained as M whatever is added, so
nothing more is added to it (R88, DEDUCED 79). -/
def accAdd (base : Int) (entry : Acc) (out : PSum) : Acc × Bool :=
  if base = spillMark then (entry, false)
  else if entry = accMark ∨ out.marked then (accMark, false)
  else
    let total := base + entry.toInt + out.val
    if total < -((2 ^ 47 - 1 : Nat) : Int) ∨ ((2 ^ 47 - 1 : Nat) : Int) < total then (accMark, true)
    else (BitVec.ofInt 48 (entry.toInt + out.val), false)

/-- A tile's number of rows and columns (R73, R75). -/
def tileRows (trans : Bool) : Nat := if trans then 32 else 128
def tileCols (trans : Bool) : Nat := if trans then 128 else 32

/-- A tile opened with entries zero (R83, R90). -/
def Tile.opened (t : Tile) (trans : Bool) (tx : Int) (yarna : Bool) (spill : Nat) : Tile :=
  { t with trans := trans, halted := false, tx := tx, kcount := 0, range := 0, yarna := yarna, spill := spill
           rows := List.replicate (tileRows trans) (List.replicate (tileCols trans) 0)
           rowres := List.replicate (tileRows trans) 0 }

/-- The image of a tile: entries in row order, 6 bytes each (R81). -/
def Tile.image (t : Tile) : List Byte := t.rows.flatten.flatMap (fun a => leBytes 6 a.toNat)

/-- The 32-byte tile record (R81). -/
def Tile.record (t : Tile) : List Byte :=
  leBytes 4 t.owner ++ [byteOf (boolNat t.owned + 2 * boolNat t.kept + 4 * boolNat t.trans + 8 * boolNat t.halted), 0]
    ++ leBytes 2 (wrapInt 16 t.tx) ++ leBytes 4 t.kcount ++ leBytes 2 (min t.range 0xFFFF) ++ List.replicate 18 0

/-- The sum of a row's entries as residue (R90). -/
def rowResidue (row : List Acc) : Nat := res255 (row.foldl (fun a e => a + e.toInt) 0)

/-- A tile restored from an image and its record (R87): TX, MODE and KCOUNT come from the
record, and the row residues are recomputed; RANGE, which R87 does not name, starts at 0 (DESIGN
CHOICE 80). -/
def Tile.restored (t : Tile) (image record : List Byte) : Tile :=
  let trans := bitOf (leAt record 4 1) 2
  let rows := chunksOf (tileCols trans) 4096 ((chunksOf 6 4096 image).map (fun b => BitVec.ofNat 48 (leNat b)))
  { t with trans := trans, halted := false, tx := sextNat 16 (leAt record 6 2), kcount := leAt record 8 4
           range := 0, yarna := false, spill := 0, rows := rows, rowres := rows.map rowResidue }

/-- Lines of one block of a stage as engine `e` sees it in a pass: for a streaming vector,
its lanes along the contraction; for a tile column, the stationary lanes along it. -/
structure BlockView where
  vectors : List (List (Option Lane))
  vecOut  : List (List (Nat × Lane))
  columns : List (List (Option Lane))
  colOut  : List (List (Nat × Lane))
deriving DecidableEq, Repr

/-- The contraction length of one stationary block (R73, R75). -/
def blockLen (trans : Bool) : Nat := if trans then 32 else 128

/-- The stationary block `b` of engine column base `o`: column j's elements along the
contraction. Plain: row o + j of the operand, its elements 128b on. Transposed:
rows 32b on, element o + j of each. Outside the extent: none (R428). -/
def statElts (trans : Bool) (m : OpMat) (b o : Nat) : List (List (Option Elt)) :=
  if trans then
    let rows := (List.range 32).map (fun n => nthD m.rows (32 * b + n) [])
    (List.range 128).map (fun j => rows.map (fun r => r[o + j]?))
  else
    (List.range 32).map (fun j =>
      let r := nthD m.rows (o + j) []
      (List.range 128).map (fun k => r[128 * b + k]?))

/-- The stationary lanes of block `b` in pass `p`. -/
def statColumns (trans : Bool) (m : OpMat) (p : Pass) (b o : Nat) : List (List (Option Lane)) :=
  (statElts trans m b o).map (fun col => col.map (fun x => x.bind (laneIn p)))

/-- The streaming vectors of block `b` in pass `p` (R73, R75). -/
def strmVectors (trans : Bool) (m : OpMat) (p : Pass) (b : Nat) : List (List (Option Lane)) :=
  let n := blockLen trans
  m.rows.map (fun r => (List.range n).map (fun c => (r[n * b + c]?).bind (laneIn p)))

/-- Outliers of the streaming operand by vector, at their contraction index in block `b`; the
lane works in the main pass only (R103). -/
def strmOutliers (trans : Bool) (m : OpMat) (p : Pass) (b : Nat) : List (List (Nat × Lane)) :=
  let n := blockLen trans
  (List.range m.rows.length).map (fun i =>
    if p ≠ .whole then [] else
    (m.outl.filter (fun o => o.row == i && o.col / n == b)).map (fun o =>
      (o.col % n, { val := o.val, off := o.off, nf := o.nf })))

/-- Outliers of the stationary operand by tile column (R103). -/
def statOutliers (trans : Bool) (m : OpMat) (p : Pass) (b o : Nat) : List (List (Nat × Lane)) :=
  (List.range (tileCols trans)).map (fun j =>
    if p ≠ .whole then [] else
    (m.outl.filter (fun x =>
      if trans then x.row / 32 == b && x.col == o + j else x.row == o + j && x.col / 128 == b)).map (fun x =>
        ((if trans then x.row % 32 else x.col % 128), { val := x.val, off := x.off, nf := x.nf })))

/-- Whether a line is needed in a pass: a digit or fall-back pass only where some element is
processed in it (R78, R108); a whole or nibble pass always. -/
def neededIn (p : Pass) (line : List (Option Lane)) : Bool :=
  match p with
  | .digit _ => line.any Option.isSome
  | .fallBack => line.any Option.isSome
  | _ => true

/-- One vector's array outputs at the columns (R73, R75), before the pass shift. -/
def arraySums (v : BlockView) (i : Nat) : List PSum :=
  let line := nthD v.vectors i []
  v.columns.map (fun col => dotFrom psum0 line col)

/-- The outlier lane's contributions to that vector's columns (R103), before the pass shift. -/
def laneSums (v : BlockView) (i : Nat) : List PSum :=
  let line := nthD v.vectors i []
  let outs := nthD v.vecOut i []
  v.columns.mapIdx (fun j col => dotOutliers (dotOutliers psum0 outs col) (nthD v.colOut j []) line)

/-- An issued vector of a stage: its block, its passes, and its index (R77). -/
structure Issue where
  ps  : Pass
  pv  : Pass
  vec : Nat
deriving DecidableEq, Repr

/-- The first failure of a stage on an engine (R92): the block, the issue's number in it, the
issue, the failure's kind, the residues, the word and syndrome of a SECDED error, the sums held back
(R350), and whether the array's output was marked. -/
structure EngStop where
  block     : Nat
  num       : Nat
  issue     : Issue
  kind      : Nat
  observed  : Nat
  predicted : Nat
  word      : Nat
  syn       : Nat
  sums      : List PSum
  marked    : Bool
deriving DecidableEq, Repr

/-- What one engine holds while it works a stage: its tile, and the counts for its registers
(R82). `stop` names the first failure, with the sums it held back. -/
structure EngWork where
  tile      : Tile
  window    : Nat
  ranged    : Nat
  unchecked : Nat
  words     : List (List Int)
  spills    : Nat
  stop      : Option EngStop
deriving DecidableEq, Repr

/-- A row of sums added into tile row `i`, with the range test (R80) on the running total,
the spill word included in Yarna mode (R88). -/
def EngWork.addRow (w : EngWork) (i : Nat) (sums : List PSum) (residue : Nat) : EngWork :=
  let words := nthD w.words i []
  let adds := (nthD w.tile.rows i []).mapIdx (fun j e =>
    accAdd (nthD words j 0) e (nthD sums j psum0))
  let hit := (adds.filter (·.2)).length
  { w with
    tile := { w.tile with
      rows := w.tile.rows.set i (adds.map (·.1))
      rowres := w.tile.rowres.set i ((nthD w.tile.rowres i 0 + residue) % 255)
      range := satAdd 16 w.tile.range hit }
    ranged := w.ranged + hit }

/-- A fault's error in one of the sums it strikes. -/
def strikeSums (fault : Option ArrayFault) (sums : List PSum) : List PSum :=
  match fault with
  | some f => sums.mapIdx (fun j s => if j = f.column then { s with val := s.val + f.delta } else s)
  | none => sums

/-- The residue of a list of sums (R90). -/
def sumsRes (sums : List PSum) : Nat := res255 ((sums.map (·.val)).foldl (· + ·) 0)

/-- The products outside the window that a list of sums met (R75). -/
def sumsWindow (sums : List PSum) : Nat := sums.foldl (fun n p => n + p.window) 0

/-- One vector issued (R74, R90–R92, R104): the array's sums and the outlier lane's, a fault's error
added to one of them, the check of each, and the add. A marked array output is not checked. A failed
check, or a parity or SECDED event, suppresses the add and halts the tile. -/
def EngWork.issue (fault : Option ArrayFault) (block n : Nat) (v : BlockView) (x : Issue) (w : EngWork) : EngWork :=
  let k := x.ps.shift + x.pv.shift
  let arr := (arraySums v x.vec).map (·.shifted k)
  let lane := (laneSums v x.vec).map (·.shifted k)
  let kind : Nat := (fault.map (fun f => f.kind)).getD 0
  let arr' := if kind < 4 then strikeSums fault arr else arr
  let lane' := if kind = 4 then strikeSums fault lane else lane
  let sums := List.zipWith PSum.plus arr' lane'
  let marked := arr.any (·.marked)
  let laneBad := !lane.any (·.marked) && sumsRes lane != sumsRes lane'
  let bad := !marked && sumsRes arr != sumsRes arr'
  if kind = 2 ∨ kind = 3 ∨ bad ∨ laneBad then
    let hard := kind == 2 || kind == 3
    let pair := if hard then (0, 0) else if bad then (sumsRes arr', sumsRes arr) else (sumsRes lane', sumsRes lane)
    { w with tile := { w.tile with halted := true }
             stop := some { block := block, num := n, issue := x, kind := if hard then kind else 0
                            observed := pair.1, predicted := pair.2
                            word := (fault.map (·.word)).getD 0, syn := (fault.map (·.syn)).getD 0
                            sums := sums, marked := marked } }
  else
    let w := { w with window := w.window + sumsWindow sums, unchecked := w.unchecked + boolNat marked }
    w.addRow x.vec sums ((sumsRes arr' + sumsRes lane) % 255)

/-- The issues of one block in the order of R77, with the view each is formed from. -/
def blockIssues (trans : Bool) (stat strm : OpMat) (mask b o : Nat) : List (Issue × BlockView) :=
  (stat.passes mask).flatMap (fun ps =>
    let cols := statColumns trans stat ps b o
    if !(match ps with
      | .digit _ => cols.any (neededIn ps)
      | .fallBack => cols.any (neededIn ps)
      | _ => true) then []
    else (strm.passes mask).flatMap (fun pv =>
      let view : BlockView :=
        { vectors := strmVectors trans strm pv b, vecOut := strmOutliers trans strm pv b
          columns := cols, colOut := statOutliers trans stat ps b o }
      ((List.range strm.rows.length).filter (fun i => neededIn pv (nthD view.vectors i []))).map
        (fun i => ({ ps := ps, pv := pv, vec := i }, view))))

/-- Issues worked in order from number `n` of a block on, until one stops the engine. -/
def workIssues (faults : List ArrayFault) (block : Nat) :
    Nat → List (Issue × BlockView) → EngWork → EngWork
  | _, [], w => w
  | n, (x, v) :: r, w =>
    let f := faults.find? (fun f => f.pos == block * 2 ^ 20 + n)
    let w := w.issue f block n v x
    if w.stop.isSome then w else workIssues faults block (n + 1) r w

/-- The Yarna spill (R88): every entry added into its spill word, a marked entry as the
64-bit mark, and every entry set to 0. -/
def EngWork.spill (w : EngWork) : EngWork :=
  { w with
    words := w.tile.rows.mapIdx (fun i row => row.mapIdx (fun j e =>
      let old := nthD (nthD w.words i []) j 0
      if e = accMark ∨ old = spillMark then spillMark else old + e.toInt))
    tile := { w.tile with rows := w.tile.rows.map (fun row => row.map (fun _ => 0)) }
    spills := w.spills + 1 }

/-- Blocks worked from `b` on, the first from issue `n`; a Yarna tile spills before a block
whenever KCOUNT stands at a multiple of 65,536 (R88). -/
def workBlocks (faults : List ArrayFault) (trans : Bool) (stat strm : OpMat) (mask o : Nat) :
    Nat → Nat → Nat → EngWork → EngWork
  | 0, _, _, w => w
  | left + 1, b, n, w =>
    let w := if w.tile.yarna && n == 0 && w.tile.kcount != 0 && w.tile.kcount % 65536 == 0 then w.spill else w
    let w := workIssues faults b n ((blockIssues trans stat strm mask b o).drop n) w
    if w.stop.isSome then w
    else workBlocks faults trans stat strm mask o left (b + 1) 0
      { w with tile := { w.tile with kcount := w.tile.kcount + blockLen trans } }

/-- The stationary loads of a stage on an engine, in the order of R77: block and pass. -/
def stageLoads (trans : Bool) (stat : OpMat) (mask nb o : Nat) : List (Nat × Pass) :=
  (List.range nb).flatMap (fun b => ((stat.passes mask).filter (fun ps =>
    match ps with
    | .digit _ => (statColumns trans stat ps b o).any (neededIn ps)
    | .fallBack => (statColumns trans stat ps b o).any (neededIn ps)
    | _ => true)).map (fun ps => (b, ps)))

/-- What a stationary register holds of an element in a pass (R67, R70): a palette operand's decoded
descriptor, or the pass's 4-bit value; 0 where nothing enters. The parity bit is that of even parity over
both (DEDUCED 78). -/
def latchElt (descs : List Nat) (p : Pass) (x : Option Elt) : LaneReg :=
  match x.bind (fun e => (laneIn p e).map (fun l => (e, l))) with
  | none => { value := 0, off := 0, parity := false }
  | some (e, l) =>
    let v := if descs.isEmpty then wrapInt 4 l.val else nthD descs e.code 0
    let o := wrapInt 5 l.off
    { value := v, off := o
      parity := bitOf ((List.range 21).foldl (fun a i => a + boolNat (bitOf (v + o * 65536) i)) 0) 0 }

/-- The registers of an array after a load: lane l of row r holds k = 4r + l (R67). -/
def latchedRegs (trans : Bool) (m : OpMat) (descs : List Nat) (o : Nat) (ld : Nat × Pass) : List LaneReg :=
  (statElts trans m ld.1 o).flatMap (fun col => col.map (latchElt descs ld.2))

end Sys2Proof.Machine
end

