-- ==== Sys2Proof/Machine/Screed.lean ====
section
/-! DEFINITION. The Screed (R119–R124): the fused conversion of accumulator entries with one
rounding at its end. -/

namespace Sys2Proof.Machine

/-- The Screed control word (R120). -/
structure ScreedCtl where
  flags  : Nat
  target : Nat
  floor  : Nat
  offMax : Nat
  shift  : Nat
  scale  : Nat
  bias   : Nat
  clipLo : Nat
  clipHi : Nat
deriving DecidableEq, Repr

def ScreedCtl.shiftEn (c : ScreedCtl) : Bool := bitOf c.flags 0
def ScreedCtl.scaleEn (c : ScreedCtl) : Bool := bitOf c.flags 1
def ScreedCtl.biasEn (c : ScreedCtl) : Bool := bitOf c.flags 2
def ScreedCtl.clipEn (c : ScreedCtl) : Bool := bitOf c.flags 3

/-- The control word of a stage's CTRL bytes, reserved fields ignored (R8, R11); none where it breaks R120 by
itself. -/
def ScreedCtl.ofBytes (b : List Byte) : Option ScreedCtl :=
  let c : ScreedCtl :=
    { flags := leAt b 0 1 % 16, target := leAt b 1 1, floor := leAt b 2 1, offMax := leAt b 3 1 % 32
      shift := leAt b 4 4, scale := leAt b 8 4, bias := leAt b 12 4, clipLo := leAt b 16 4, clipHi := leAt b 20 4 }
  match Format.ofByte c.target with
  | none => none
  | some (f, _) =>
    let known := f == .f32 || f == .b16 || f == .i4b32 || f == .p4b32 || f == .i8b32 || f == .g16b32 || f == .a48
    let lo := f32Val c.clipLo
    let hi := f32Val c.clipHi
    let ok := known && [c.shift, c.scale, c.bias].all (· % 64 == 0)
      && (!c.clipEn || (!lo.isNan && !hi.isNan && !hi.lt lo))
      && (f != .a48 || c.flags == 0)
      && (if f.blocked then decide (4 ≤ c.offMax) && c.floor != 0xFF else c.floor == 0)
    if ok then some c else none

/-- A column's shift, scale and bias (R120). -/
structure ColParam where
  shift : Int
  scale : Option FV
  bias  : Option FV
deriving DecidableEq, Repr

/-- The exact value of an entry before its rounding (R121): NaN where the result is not
finite, and an infinity only from an infinite clip bound. -/
def screedExact (clip : Option (FV × FV)) (tx : Int) (p : ColParam) (total : Int) (marked : Bool) : FV :=
  let okS := (p.scale.map FV.isFin).getD true
  let okB := (p.bias.map FV.isFin).getD true
  if marked || !okS || !okB then .nan
  else
    let v := fvInt total (tx + p.shift)
    let v := match p.scale with
      | some s => v.mul s
      | none => v
    let v := match p.bias with
      | some b => v.add b
      | none => v
    -- a clip bound of −0 too gives the zero without a sign
    plusZero (match clip with
    | some (lo, hi) => let v := if v.lt lo then lo else v; if hi.lt v then hi else v
    | none => v)

/-- One result of a float target (R122): the rounded value, and whether it is an origin of
cause OVERFLOW. -/
def screedFloat (f : Fmt) (v : FV) : FV × Bool :=
  let r := f.round v
  (r, v.isFin && !r.isFin)

/-- One block of a blocked target (R123): exponent, codes, saturated elements, and whether
the exponent was lowered. -/
def screedBlock (form : Format) (levels : List Int) (r : Recipe) (floor offMax : Nat) (vs : List FV) :
    Nat × List Nat × Nat × Bool :=
  if !vs.all FV.isFin then (0xFF, vs.map (fun _ => 0), 0, false)
  else
    let (E, low) := windowExp floor offMax (startExp r floor (canonicalExp form levels vs))
    (E, quantBlock form levels E vs, satCount form levels E vs, low)

end Sys2Proof.Machine
end

