-- ==== Sys2Proof/Machine/Vector.lean ====
section
/-! DEFINITION. The vector unit (R128–R139): every function on one row of its main input,
with the row-state record, the second input and the parameters. -/

namespace Sys2Proof.Machine

/-- The vector control word (R131). -/
structure VecCtl where
  func   : Nat
  sub    : Nat
  inFmt  : Nat
  outFmt : Nat
  flags  : Nat
  k      : Nat
  floor  : Nat
  offMax : Nat
  rowLen : Nat
  eps    : Nat
  state  : Nat
  param  : Nat
  aux    : Nat
deriving DecidableEq, Repr

def VecCtl.prec (c : VecCtl) : Bool := bitOf c.flags 0
def VecCtl.first (c : VecCtl) : Bool := bitOf c.flags 1
def VecCtl.last (c : VecCtl) : Bool := bitOf c.flags 2
def VecCtl.ascend (c : VecCtl) : Bool := bitOf c.flags 3

/-- The functions of R131. -/
def vecFuncs : List Nat :=
  [0x00, 0x01, 0x02, 0x03, 0x10, 0x11, 0x20, 0x21, 0x22, 0x23, 0x28, 0x29, 0x2A, 0x2B, 0x2C, 0x30, 0x38]

/-- Whether a function takes its second input, or dy, from D_AUX (R430). -/
def vecNeedsAux (f : Nat) : Bool := [0x01, 0x02, 0x03, 0x11, 0x22, 0x23, 0x2A, 0x2B].contains f

/-- Whether a function writes its output tensor; the others write row state, a list or
records only. -/
def vecWritesOut (f : Nat) : Bool := [0x00, 0x01, 0x02, 0x03, 0x10, 0x11, 0x21, 0x23, 0x29, 0x2B, 0x38].contains f

/-- Whether a function is a row reduction or reads row state, and so depends on pieces. -/
def vecUsesState (f : Nat) : Bool := decide (0x20 ≤ f)

/-- The control word of a stage's CTRL bytes, reserved fields ignored (R11); none where it is refused by itself
(R131). -/
def VecCtl.ofBytes (b : List Byte) : Option VecCtl :=
  let c : VecCtl :=
    { func := leAt b 0 1, sub := leAt b 1 1, inFmt := leAt b 2 1, outFmt := leAt b 3 1, flags := leAt b 4 1 % 16
      k := leAt b 5 1, floor := leAt b 6 1, offMax := leAt b 7 1 % 32, rowLen := fieldOf (leAt b 8 4) 23 0 + 1
      eps := leAt b 12 4, state := leAt b 16 4, param := leAt b 20 4, aux := leAt b 24 4 }
  match Format.ofByte c.inFmt, Format.ofByte c.outFmt with
  | some (fi, _), some (fo, _) =>
    let isAct := c.func == 0x10 || c.func == 0x11
    let g16 := fo == .g16b32
    let inOk := fi.float?.isSome || (fi != .a48 && fi != .m32 && fi != .s16)
    let eps := f32Val c.eps
    let ok := vecFuncs.contains c.func && (if isAct then decide (c.sub ≤ 0xA) else c.sub == 0)
      && (!c.prec || decide (c.func ≤ 0x03)) && eps.isFin && !(eps.neg? && !eps.isZero)
      && (if c.func = 0x30 then decide (1 ≤ c.k) && decide (c.k ≤ 64) else c.k == 0)
      && (!g16 || c.func == 0x00 || isAct) && (fo.float?.isSome || g16) && inOk
      && (!g16 || (decide (4 ≤ c.offMax) && c.floor != 0xFF))
      && [c.state, c.param, c.aux].all (· % 64 == 0)
    if ok then some c else none
  | _, _ => none

/-- What a function leaves for one row: its output values (F32 or F64), the new row state,
bytes stored in the core buffer, each element's origin cause (0 none, R140), and the other float results it
writes (list values, record sums, partials): element, value and cause (R141). -/
structure VecRow where
  out    : List FV
  state  : List Byte
  puts   : List (Nat × List Byte)
  causes : List Nat
  more   : List (Nat × FV × Nat)
deriving DecidableEq, Repr

/-- What a function has for one row: the input as it stands and as F32, and in the widest form the unit takes
it (an F64 input's own value, any other's F32); the second input likewise; the row state, γ, β, their
partials, the segment IDs and the top-k list. -/
structure VecIn where
  ctl    : VecCtl
  x      : List FV
  raw    : List FV
  wide   : List FV
  y      : List FV
  rawY   : List FV
  wideY  : List FV
  state  : List Byte
  gamma  : List FV
  beta   : List FV
  dgamma : List FV
  dbeta  : List FV
  ids    : List Nat
  topk   : List Byte
  row    : Nat
deriving DecidableEq, Repr

/-- The cause of a result whose operands are given (R140). -/
def causeOf (ops : List FV) (r : FV) : Nat := originCause (ops.all FV.isFin) false r

/-- The first cause among several results of one element. -/
def firstCause (cs : List Nat) : Nat := (cs.find? (· != 0)).getD 0

/-- One level of the reduction tree: `t[i] + t[i + w]` (R130). -/
def treeLevel (t : List FV) (w : Nat) : List FV :=
  (List.range w).map (fun i => dAdd (nthD t i fvZero) (nthD t (i + w) fvZero))

/-- A chunk of 128 terms reduced (R130). -/
def treeSum (t : List FV) : FV :=
  nthD ([64, 32, 16, 8, 4, 2, 1].foldl treeLevel ((List.range 128).map (fun i => nthD t i fvZero))) 0 fvZero

/-- The row sum over a piece (R130). -/
def rowSum (terms : List FV) (acc : FV) : FV :=
  (chunksOf 128 terms.length terms).foldl (fun a c => dAdd a (treeSum c)) acc

/-- F64 and F32 fields of a row-state record (R132). -/
def rsF64 (st : List Byte) (off : Nat) : FV := f64.decode (leAt st off 8)
def rsF32 (st : List Byte) (off : Nat) : FV := f32Val (leAt st off 4)

/-- Bytes put into a record at an offset. -/
def putAt (st : List Byte) (off : Nat) (bs : List Byte) : List Byte :=
  sliceB st 0 off ++ bs ++ st.drop (off + bs.length)

/-- A row-state record of 64 zero bytes: a FIRST piece initialises its fields (R132). -/
def rsZero : List Byte := List.replicate 64 0

/-- A row with no output that only changes its state. -/
def stateOnly (st : List Byte) (causes : List Nat) : VecRow := { out := [], state := st, puts := [], causes := causes, more := [] }

/-- COPY (R133): the value converted; the conversion to the output format is the stage's. Without PREC it
passes through F32, an F64 input too (DESIGN CHOICE 90). -/
def vfCopy (v : VecIn) : VecRow :=
  let out := if v.ctl.prec then v.wide else v.x
  { out := out, state := v.state, puts := [], causes := [], more := [] }

/-- ADD, SUB and MUL in the precision of PREC (R133). -/
def vfArith (op : FV → FV → FV) (v : VecIn) : VecRow :=
  let xs := if v.ctl.prec then v.wide else v.x
  let ys := if v.ctl.prec then v.wideY else v.y
  let f := if v.ctl.prec then f64 else f32
  let out := List.zipWith (fun a b => f.round (op a b)) xs ys
  { out := out, state := v.state, puts := [], more := []
    causes := List.zipWith (fun p r => causeOf [p.1, p.2] r) (List.zip xs ys) out }

def vfAdd (v : VecIn) : VecRow := vfArith FV.add v
def vfSub (v : VecIn) : VecRow := vfArith FV.sub v
def vfMul (v : VecIn) : VecRow := vfArith FV.mul v

/-- ACT: y = f(x) (R133). -/
def vfAct (v : VecIn) : VecRow :=
  let out := v.x.map (elemFn v.ctl.sub)
  { out := out, state := v.state, puts := [], more := []
    causes := List.zipWith (fun x r => originCause x.isFin (hasPole v.ctl.sub x) r) v.x out }

/-- ACT_BWD: dx = dy × f′(x), f′ rounded to F32 first (R133). -/
def vfActBwd (v : VecIn) : VecRow :=
  let ds := v.x.map (elemDeriv v.ctl.sub)
  let out := List.zipWith fMul v.y ds
  { out := out, state := v.state, puts := [], more := []
    causes := (List.range v.x.length).map (fun i =>
      let x := nthD v.x i fvZero
      let d := nthD ds i fvZero
      let dy := nthD v.y i fvZero
      firstCause [originCause x.isFin (hasPole v.ctl.sub x) d, causeOf [dy, d] (nthD out i fvZero)]) }

/-- The maximum of a row from a start (R130). -/
def rowMax (m : FV) (xs : List FV) : FV := xs.foldl FV.max m

/-- SM_STATS (R134). -/
def vfSmStats (v : VecIn) : VecRow :=
  let st := if v.ctl.first then rsZero else v.state
  let m := if v.ctl.first then .inf true else rsF32 st 0
  let s := if v.ctl.first then fvZero else rsF64 st 8
  let mNew := rowMax m v.x
  if mNew = .inf true then stateOnly (putAt (putAt st 0 (leBytes 4 (f32Code mNew))) 8 (leBytes 8 (f64.encode s))) []
  else
    let d0 := fSub m mNew
    let c0 := if fvZero.lt s then causeOf [m, mNew] d0 else 0
    let s := if fvZero.lt s then dMul s (fnExp d0) else s
    let ds := v.x.map (fun x => fSub x mNew)
    let s' := rowSum (ds.map fnExp) s
    let o := stateOnly (putAt (putAt st 0 (leBytes 4 (f32Code mNew))) 8 (leBytes 8 (f64.toCode s')))
      (List.zipWith (fun x d => causeOf [x, mNew] d) v.x ds)
    -- the rescaling of the earlier pieces' sum may overflow in its own difference
    { o with more := if c0 = 0 then [] else [(0, d0, c0)] }

/-- One softmax value (R134). -/
def smValue (m s x : FV) : FV := if m = .inf true then fvZero else f32.div (fnExp (fSub x m)) s

/-- The causes of one softmax value (R140). -/
def smCause (m s x : FV) : Nat :=
  if m = .inf true then 0
  else
    let d := fSub x m
    let e := fnExp d
    firstCause [causeOf [x, m] d, causeOf [d] e, causeOf [e, s] (f32.div e s)]

/-- SM_NORM (R134). -/
def vfSmNorm (v : VecIn) : VecRow :=
  let m := rsF32 v.state 0
  let s := rsF64 v.state 8
  { out := v.x.map (smValue m s), state := v.state, puts := [], more := [], causes := v.x.map (smCause m s) }

/-- SM_BWD_SUM (R135). -/
def vfSmBwdSum (v : VecIn) : VecRow :=
  let m := rsF32 v.state 0
  let s := rsF64 v.state 8
  let c := if v.ctl.first then fvZero else rsF64 v.state 16
  let terms := List.zipWith (fun x dy => f64.round (dy.mul (smValue m s x))) v.x v.y
  stateOnly (putAt v.state 16 (leBytes 8 (f64.toCode (rowSum terms c)))) (v.x.map (smCause m s))

/-- SM_BWD (R135); a fully masked row gives +0 everywhere. -/
def vfSmBwd (v : VecIn) : VecRow :=
  let m := rsF32 v.state 0
  let s := rsF64 v.state 8
  let c := rsF64 v.state 16
  let f (x dy : FV) : FV :=
    if m = .inf true then fvZero else f32.round ((smValue m s x).mul (dSub dy c))
  { out := List.zipWith f v.x v.y, state := v.state, puts := [], more := []
    causes := List.zipWith (fun x dy =>
      if m = .inf true then 0
      else
        let t := dSub dy c
        let y := smValue m s x
        firstCause [smCause m s x, causeOf [dy, c] t, causeOf [y, t] (f x dy)]) v.x v.y }

/-- LN_STATS and RMS_STATS (R136). -/
def vfStats (rms : Bool) (v : VecIn) : VecRow :=
  let st := if v.ctl.first then rsZero else v.state
  let s1 := if rms then rsF64 st 8 else rowSum v.x (rsF64 st 8)
  let s2 := rowSum (v.x.map (fun x => f64.round (x.mul x))) (rsF64 st 16)
  let st := putAt (putAt st 8 (leBytes 8 (f64.toCode s1))) 16 (leBytes 8 (f64.toCode s2))
  if v.ctl.last then
    let len := fvNat v.ctl.rowLen
    let mu := if rms then fvZero else f64.div s1 len
    let var := dSub (f64.div s2 len) (dMul mu mu)
    let var := if var.lt fvZero then fvZero else var
    let a := fAdd (f32.round var) (f32Val v.ctl.eps)
    let r := elemFn 0xA a
    let st := putAt (putAt st 0 (leBytes 4 (f32Code mu))) 4 (leBytes 4 (f32Code r))
    stateOnly (putAt st 40 [if rms then 0x2 else 0x1])
      [firstCause [causeOf [mu] (f32.round mu), causeOf [var] (f32.round var),
        causeOf [f32.round var, f32Val v.ctl.eps] a, originCause a.isFin (hasPole 0xA a) r]]
  else stateOnly st []

def vfLnStats (v : VecIn) : VecRow := vfStats false v
def vfRmsStats (v : VecIn) : VecRow := vfStats true v

/-- `xh = (x − μ) × r`, exact and rounded once to F32 (R136). -/
def xhat (mu r x : FV) : FV := f32.round ((x.sub mu).mul r)

/-- NORM_APPLY (R136). -/
def vfNormApply (v : VecIn) : VecRow :=
  let mu := rsF32 v.state 0
  let r := rsF32 v.state 4
  let f (i : Nat) (x : FV) : FV × Nat :=
    let g := nthD v.gamma i fvZero
    let b := nthD v.beta i fvZero
    let h := xhat mu r x
    let y := f32.round ((h.mul g).add b)
    (y, firstCause [causeOf [x, mu, r] h, causeOf [h, g, b] y])
  { out := v.x.mapIdx (fun i x => (f i x).1), state := v.state, puts := [], more := []
    causes := v.x.mapIdx (fun i x => (f i x).2) }

/-- NORM_BWD_SUM (R137). -/
def vfNormBwdSum (v : VecIn) : VecRow :=
  let mu := rsF32 v.state 0
  let r := rsF32 v.state 4
  let g := v.y.mapIdx (fun i dy => fMul dy (nthD v.gamma i fvZero))
  let h := v.x.map (xhat mu r)
  let g1 := rowSum g (if v.ctl.first then fvZero else rsF64 v.state 24)
  let g2 := rowSum (List.zipWith (fun a b => f64.round (a.mul b)) g h) (if v.ctl.first then fvZero else rsF64 v.state 32)
  stateOnly (putAt (putAt v.state 24 (leBytes 8 (f64.toCode g1))) 32 (leBytes 8 (f64.toCode g2)))
    (v.x.mapIdx (fun i x =>
      let dy := nthD v.y i fvZero
      let ga := nthD v.gamma i fvZero
      firstCause [causeOf [dy, ga] (nthD g i fvZero), causeOf [x, mu, r] (nthD h i fvZero)]))

/-- NORM_BWD (R137): dx, and the γ and β partials of this row added. -/
def vfNormBwd (v : VecIn) : VecRow :=
  let mu := rsF32 v.state 0
  let r := rsF32 v.state 4
  let len := fvNat v.ctl.rowLen
  let a := if leAt v.state 40 1 = 0x2 then fvZero else f64.div (rsF64 v.state 24) len
  let b := f64.div (rsF64 v.state 32) len
  let h := v.x.map (xhat mu r)
  let g := v.y.mapIdx (fun i dy => fMul dy (nthD v.gamma i fvZero))
  let dx (i : Nat) : FV :=
    let t := dSub (dSub (nthD g i fvZero) a) (dMul (nthD h i fvZero) b)
    f32.round (r.mul t)
  let n := v.x.length
  let dgam := (List.range n).map (fun i => fAdd (nthD v.dgamma i fvZero) (fMul (nthD v.y i fvZero) (nthD h i fvZero)))
  let dbet := (List.range n).map (fun i => fAdd (nthD v.dbeta i fvZero) (nthD v.y i fvZero))
  { out := (List.range n).map dx, state := v.state
    puts := [(v.ctl.aux, dgam.flatMap (fun x => leBytes 4 (f32Code x))),
             (v.ctl.aux + 4 * v.ctl.rowLen, dbet.flatMap (fun x => leBytes 4 (f32Code x)))]
    causes := (List.range n).map (fun i =>
      let dy := nthD v.y i fvZero
      let ga := nthD v.gamma i fvZero
      let x := nthD v.x i fvZero
      firstCause [causeOf [dy, ga] (nthD g i fvZero), causeOf [x, mu, r] (nthD h i fvZero),
        causeOf [nthD g i fvZero, a, nthD h i fvZero, b, r] (dx i)])
    more := (List.range n).flatMap (fun i =>
      let dy := nthD v.y i fvZero
      [(i, nthD dgam i fvZero, causeOf [nthD v.dgamma i fvZero, dy, nthD h i fvZero] (nthD dgam i fvZero)),
       (i, nthD dbet i fvZero, causeOf [nthD v.dbeta i fvZero, dy] (nthD dbet i fvZero))]) }

/-- Whether an element ranks before another in a top-k list (R138). -/
def ranksBefore (ascend : Bool) (a b : FV × Nat) : Bool :=
  if a.1.isNan || b.1.isNan then
    if a.1.isNan && b.1.isNan then decide (a.2 < b.2) else a.1.isNan
  else if a.1.eq b.1 then decide (a.2 < b.2)
  else if ascend then a.1.lt b.1 else b.1.lt a.1

/-- An element put into a ranked list. -/
def rankInsert (ascend : Bool) (x : FV × Nat) : List (FV × Nat) → List (FV × Nat)
  | [] => [x]
  | y :: r => if ranksBefore ascend x y then x :: y :: r else y :: rankInsert ascend x r

/-- TOPK (R138): a piece merged into the row's ranked list; F64 values within a piece rank by
their F64 value and are stored rounded to F32. -/
def vfTopk (v : VecIn) : VecRow :=
  let k := v.ctl.k
  let seen := if v.ctl.first then 0 else leAt v.state 0 4
  let old : List (FV × Nat) := if v.ctl.first then [] else
    ((chunksOf 8 k v.topk).map (fun e => (f32Val (leAt e 0 4), leAt e 4 4))).take (min k seen)
  let new := (v.wide.mapIdx (fun i x => (x, seen + i))).foldl (fun l e => (rankInsert v.ctl.ascend e l).take k) old
  let entry (e : FV × Nat) : List Byte := leBytes 4 (f32Code e.1) ++ leBytes 4 e.2
  let fill := (List.replicate (k - new.length) (entry (.inf true, 0xFFFFFFFF))).flatten
  let st := if v.ctl.first then rsZero else v.state
  { out := [], state := putAt st 0 (leBytes 4 (seen + v.wide.length))
    puts := [(v.ctl.aux + 8 * k * v.row, new.flatMap entry ++ fill)]
    -- a result is a value that this piece puts into the list
    causes := [], more := (new.filter (fun e => decide (seen ≤ e.2))).map (fun e =>
      (e.2 - seen, f32.round e.1, causeOf [e.1] (f32.round e.1))) }

/-- One open run of SEGSUM and the records closed so far. -/
structure SegAcc where
  isOpen  : Bool
  id      : Nat
  count   : Nat
  sum     : FV
  written : Nat
  out     : List (List Byte)
deriving DecidableEq, Repr

/-- A 16-byte SEGSUM record (R139). -/
def segRecord (a : SegAcc) : List Byte := leBytes 4 a.id ++ leBytes 4 a.count ++ leBytes 8 (f64.toCode a.sum)

/-- The open run closed: its record is written (R139). -/
def SegAcc.close (a : SegAcc) : SegAcc :=
  if a.isOpen then { a with isOpen := false, written := a.written + 1, out := a.out ++ [segRecord a] } else a

/-- The maximal runs of equal IDs: ID, first index and length. -/
def segRuns : List Nat → Nat → List (Nat × Nat × Nat)
  | [], _ => []
  | d :: r, i =>
    match segRuns r (i + 1) with
    | (e, _, n) :: t => if e = d then (d, i, n + 1) :: t else (d, i, 1) :: (e, i + 1, n) :: t
    | [] => [(d, i, 1)]

/-- SEGSUM (R139): each run's sum is the row sum over its chunks with every other element
excluded; a run that crosses the piece's end is carried in the row state. -/
def vfSegsum (v : VecIn) : VecRow :=
  let st := if v.ctl.first then rsZero else v.state
  let a0 : SegAcc :=
    { isOpen := !v.ctl.first && leAt st 16 4 != 0, id := leAt st 4 4, count := leAt st 16 4
      sum := rsF64 st 8, written := leAt st 0 4, out := [] }
  let a := (segRuns v.ids 0).foldl (fun (a : SegAcc) run =>
    let cont := a.isOpen && a.id == run.1
    let a := if cont then a else a.close
    let terms := v.x.mapIdx (fun i x => if run.2.1 ≤ i ∧ i < run.2.1 + run.2.2 then x else fvZero)
    let base := if cont then a.sum else fvZero
    { a with isOpen := true, id := run.1, count := (if cont then a.count else 0) + run.2.2
             sum := rowSum terms base }) a0
  let a := if v.ctl.last then a.close else a
  let st := putAt st 0 (leBytes 4 a.written)
  let st := putAt st 4 (leBytes 4 (if a.isOpen then a.id else 0))
  let st := putAt st 8 (leBytes 8 (if a.isOpen then f64.toCode a.sum else 0))
  let st := putAt st 16 (leBytes 4 (if a.isOpen then a.count else 0))
  { out := [], state := st, puts := [(a0.written, a.out.flatten)], causes := []
    more := a.out.map (fun r => (0, f64.decode (leAt r 8 8), 0)) }

end Sys2Proof.Machine
end

