-- ==== Sys2Proof/Machine/RunCheck.lean ====
section
/-! DEFINITION. RUN bodies (R343): the head, the stage records, the tile control word (R83), and
every check that refuses a RUN before it takes a tile. -/

namespace Sys2Proof.Machine

/-- A stage record (R343). -/
structure StageRec where
  kind  : Nat
  dIn   : Nat
  dOut  : Nat
  dAux  : Nat
  ctrl  : List Byte
deriving DecidableEq, Repr

/-- A RUN's head and stages (R343); reserved fields are ignored (R11). `whole` says that the body holds every
stage record. -/
structure RunHead where
  cores  : List Nat
  nstage : Nat
  mb     : Nat
  recipe : Nat
  layer  : Nat
  slabs  : Nat
  copies : List (Nat × Nat)
  stages : List StageRec
  whole  : Bool
deriving DecidableEq, Repr

/-- A stage record of 40 bytes. -/
def stageRec (b : List Byte) : StageRec :=
  { kind := leAt b 0 1 % 16, dIn := leAt b 2 2, dOut := leAt b 4 2, dAux := leAt b 6 2, ctrl := sliceB b 8 32 }

/-- The body of a RUN (R343). -/
def runHead (b : List Byte) : RunHead :=
  let n := leAt b 5 1
  { cores := (List.range 256).filter (fun i => bitOf (leAt b 0 4) (i / 8) && bitOf (leAt b 4 1) (i % 8))
    nstage := n, mb := leAt b 6 1, recipe := leAt b 7 1, layer := leAt b 8 2, slabs := leAt b 10 1
    copies := ([(leAt b 12 2, leAt b 14 2), (leAt b 16 2, leAt b 18 2)]).filter (fun w => w.1 != 0xFFFF)
    stages := (List.range (min n 8)).map (fun i => stageRec (sliceB b (32 + 40 * i) 40))
    whole := decide (32 + 40 * n ≤ b.length) }

/-- Stage kinds (R148). -/
def kLoad : Nat := 1
def kQuantise : Nat := 2
def kMultiply : Nat := 3
def kScreed : Nat := 4
def kReturn : Nat := 5
def kVector : Nat := 6
def kStore : Nat := 7
def kStash : Nat := 8
def kUnstash : Nat := 9

/-- A tile control word (R83). -/
structure TileCtl where
  yarna     : Bool
  keep      : Bool
  opn       : Nat
  trans     : Bool
  tile      : Nat
  statFmt   : Nat
  strmFmt   : Nat
  statFloor : Nat
  strmFloor : Nat
  mask      : Nat
  owner     : Nat
  addr      : Nat
deriving DecidableEq, Repr

/-- Bytes of one engine's image and record (R87) and of its spill area (R88). -/
def imageUnit : Nat := 24640
def spillUnit : Nat := 32768

/-- The control word of a stage's CTRL bytes, reserved fields ignored (R11); none where it is refused by itself
(R71, R83). -/
def TileCtl.ofBytes (b : List Byte) : Option TileCtl :=
  let f := leAt b 0 1
  let c : TileCtl :=
    { yarna := bitOf f 7, keep := bitOf f 6, opn := fieldOf f 5 4, trans := bitOf f 3, tile := f % 8
      statFmt := leAt b 1 1, strmFmt := leAt b 2 1, statFloor := leAt b 3 1, strmFloor := leAt b 4 1
      mask := leAt b 5 1 % 16, owner := leAt b 8 4 % 2 ^ 18, addr := leAt b 12 4 }
  if c.statFloor ≠ 0xFF ∧ c.strmFloor ≠ 0xFF
      ∧ c.addr % 64 = 0 ∧ !(c.yarna && c.opn == 3)
      ∧ (c.opn ≠ 3 ∨ c.addr + 4 * imageUnit ≤ 2 ^ 22) ∧ (!c.yarna ∨ c.addr + 4 * spillUnit ≤ 2 ^ 22) then some c
  else none

/-- TX of a stage (R72). -/
def TileCtl.tx (c : TileCtl) : Int := (c.statFloor : Int) + c.strmFloor - 254

/-- The control word of a stage record that is a valid MULTIPLY. -/
def StageRec.tile? (r : StageRec) : Option TileCtl := if r.kind = kMultiply then TileCtl.ofBytes r.ctrl else none

/-- The latest MULTIPLY before stage `i` (R119). -/
def lastMultiply (stages : List StageRec) (i : Nat) : Option TileCtl :=
  ((stages.take i).reverse.find? (fun r => r.kind == kMultiply)).bind StageRec.tile?

/-- Descriptor `idx` as core `i` of `n` takes it: in Level mode I4B32 and P4B32 read as I8B32
(R429), but for a compute copy, which is formed from the hi16 view (R115). -/
def stageDesc (s : State) (level : Bool) (n i idx : Nat) : Option Desc :=
  (descAt s idx).bind (fun d => (if level && d.tensor == 0xFFFF then d.levelled else d).slice n i)

/-- The planes of a slice: address and length (R46, R107). -/
def Desc.planeRanges (d : Desc) : List (Nat × Nat) :=
  [(d.code, d.codeBytes)] ++ (if d.fmt.blocked then [(d.exp, d.elems / 32)] else [])
    ++ (if d.side = 0 then [] else [(d.side, d.elems / 128 * 16)])
    ++ (if d.fbl = 0 then [] else [(d.fbl, d.budget * 32)])

/-- Length in bytes of the frame a SPACE-2 operand of stage `i` lies in (R155, R339). -/
def frameBytes (stages : List StageRec) (i : Nat) : Nat :=
  match (stages.take (i + 1)).reverse.find? (fun r => r.kind == kStash || r.kind == kUnstash) with
  | some r => leAt r.ctrl 4 4 * 4096
  | none => 0

/-- Whether the planes of a slice lie in their space (R196, R339). -/
def planesOk (s : State) (frame : Nat) (d : Desc) : Bool :=
  d.planeRanges.all (fun p =>
    match d.space with
    | 0 => rangeOk s p.1 p.2
    | 1 => decide (p.1 + p.2 ≤ 2 ^ 22)
    | _ => decide (p.1 + p.2 ≤ frame))

/-- Whether a named descriptor stands, for every core (R339, R343). -/
def descOk (s : State) (level : Bool) (h : RunHead) (i idx : Nat) : Bool :=
  let n := h.cores.length
  idx == 0xFFFF || (List.range n).all (fun k =>
    match stageDesc s level n k idx with
    | none => false
    | some d => planesOk s (frameBytes h.stages i) d && (d.tensor == 0xFFFF || h.copies.any (fun w => w.1 == d.tensor)))

/-- Whether a source can be widened (R59). -/
def Format.widens (f : Format) : Bool := f != .a48 && f != .m32 && f != .s16

/-- Whether a format is a source of the Float edge's quantise path (R93). -/
def Format.wide (f : Format) : Bool := f == .f32 || f == .b16

/-- The checks of a quantise or return stage that need no recipe (R65, R97, R98, R111, R427). -/
def floatStageOk (s : State) (r : StageRec) : Bool :=
  match FloatCtl.ofBytes r.ctrl, stageDesc s false 1 0 r.dIn, stageDesc s false 1 0 r.dOut with
  | some c, some di, some d =>
    let shape := di.dims == d.dims
    let common := c.target == d.fbyte && shape && decide (4 ≤ c.offMax) && !c.levelBit && c.ret != 3
      && (!c.outEn || (d.fmt == .i4b32 && d.side != 0 && di.width % 128 == 0)) && (!c.fbEn || (d.fmt == .i4b32 && d.fbl != 0))
    common && (if r.kind = kQuantise then
        (d.fmt == .i4b32 || d.fmt == .i8b32 || d.fmt == .g16b32) && di.fmt.wide && c.ret == 0 && !c.sgradEn
          && !(c.rotEn && d.fmt == .g16b32)
      else d.fmt == .f32 && di.fmt == .f32 && (!c.sgradEn || (c.ret == 1 && r.dAux != 0xFFFF
          && (match stageDesc s false 1 0 r.dAux, stageDesc s false 1 0 (r.dAux + 1) with
            | some a, some w => a.dims == di.dims && w.dims == di.dims && w.fmt.wide && a.fmt.widens
            | _, _ => false))))
  | _, _, _ => false

/-- Whether the contraction lengths of two operands agree and the streaming one's lines fit a tile; a stage
that breaks it is refused (R73 gives the tile's shape and no answer: DESIGN CHOICE 89). -/
def contraction (trans : Bool) (stat strm : Desc) : Bool :=
  if trans then stat.nrows == strm.width && decide (strm.nrows ≤ 32)
  else stat.width == strm.width && decide (strm.nrows ≤ 128)

/-- The checks of a MULTIPLY stage (R68, R71, R72, R83, R427, R428). -/
def multiplyOk (s : State) (h : RunHead) (i : Nat) (r : StageRec) : Bool :=
  let n := h.cores.length
  match TileCtl.ofBytes r.ctrl, stageDesc s false n 0 r.dIn, stageDesc s false n 0 r.dAux with
  | some c, some a, some b =>
    match a.fmt.elKind, b.fmt.elKind with
    | some x, some y =>
      r.dOut == 0xFFFF && c.statFmt == a.fbyte && c.strmFmt == b.fbyte && pairOk x y
        && (c.mask == 0 || x == .g16 || y == .g16) && decide (tileCols c.trans ≤ a.colStep) && contraction c.trans a b
        && (c.opn != 1 || (match ((h.stages.take i).filterMap StageRec.tile?).reverse.find? (fun p => p.tile == c.tile) with
            | some p => p.trans == c.trans && p.tx == c.tx
            | none => false))
    | _, _ => false
  | _, _, _ => false

/-- The checks of a SCREED stage (R119, R120, R339, R427). -/
def screedOk (s : State) (h : RunHead) (i : Nat) (r : StageRec) : Bool :=
  match lastMultiply h.stages i, ScreedCtl.ofBytes r.ctrl, stageDesc s false h.cores.length 0 r.dOut with
  | some m, some c, some d =>
    c.target == d.fbyte && (!d.fmt.blocked || (d.colBase % 32 == 0 && d.colStep % 32 == 0))
      && (d.fmt == .a48 || decide (tileCols m.trans ≤ d.colStep))
  | _, _, _ => false

/-- The checks of a VECTOR stage (R130, R131, R427, R430). -/
def vectorOk (s : State) (r : StageRec) : Bool :=
  match VecCtl.ofBytes r.ctrl, stageDesc s false 1 0 r.dIn with
  | some c, some d =>
    c.inFmt == d.fbyte
      && (match stageDesc s false 1 0 r.dOut with
        | some o => c.outFmt == o.fbyte && (c.func == 0x38 || !vecWritesOut c.func || o.dims == d.dims)
        | none => r.dOut == 0xFFFF && !vecWritesOut c.func)
      && (!vecNeedsAux c.func || (match stageDesc s false 1 0 r.dAux with
        | some a => a.dims == d.dims && a.fmt.widens
        | none => false))
      && (!vecUsesState c.func || c.last || d.width % 128 == 0)
  | _, _ => false

/-- The checks of a stage that moves bytes (R148, R155, R343). -/
def moveOk (s : State) (r : StageRec) : Bool :=
  let like := match stageDesc s false 1 0 r.dIn, stageDesc s false 1 0 r.dOut with
    | some a, some b => a.fbyte == b.fbyte && a.rank == b.rank && a.dims == b.dims && a.lo16 == b.lo16
    | _, _ => true
  like && (r.kind == kLoad || r.kind == kStore || (decide (leAt r.ctrl 0 2 ≤ 1023) && decide (1 ≤ leAt r.ctrl 4 4)))

/-- Whether one stage stands (R148). -/
def stageOk (s : State) (level : Bool) (h : RunHead) (i : Nat) (r : StageRec) : Bool :=
  descOk s level h i r.dIn && descOk s level h i r.dOut && descOk s level h i r.dAux
    && (if r.kind = kQuantise ∨ r.kind = kReturn then floatStageOk s r
      else if r.kind = kMultiply then multiplyOk s h i r
      else if r.kind = kScreed then screedOk s h i r
      else if r.kind = kVector then vectorOk s r
      else if 1 ≤ r.kind ∧ r.kind ≤ 9 then moveOk s r
      else false)

/-- The checks a RUN passes before it seeks its tiles (R148, R339, R343). -/
def runCheck (s : State) (level : Bool) (h : RunHead) : Bool :=
  h.whole && decide (1 ≤ h.nstage) && decide (h.nstage ≤ 8) && decide (h.mb ≤ 15) && decide (h.layer ≤ 1023)
    && decide (1 ≤ h.slabs) && decide (h.slabs ≤ 64) && !h.cores.isEmpty
    && h.cores.all (fun i => decide (i / 8 % 8 < csrField s rHubJob 19 16) && coreExists s i)
    && h.copies.all (fun w => match tensorAt s w.1 with
        | some t => t.kind == 1
        | none => false)
    && (List.range h.nstage).all (fun i => stageOk s level h i (nthD h.stages i (stageRec [])))

/-- The version a RUN names (R159): the slot it resolves to and whether that is v − 1, or the
status that refuses it. -/
def resolveVersion (t : Tensor) (named : Nat) : Except Nat (Nat × Bool) :=
  let d := sextNat 16 (named + 65536 - t.version)
  if d = 0 then .ok (t.cur, false)
  else if 0 < d then .error stBadParam
  else if d = -1 ∧ t.prevOk then .ok (1 - t.cur, true)
  else .error stVersionStale

/-- The copies of a RUN resolved: tensor, slot, and whether as v − 1. -/
def resolveCopies (s : State) : List (Nat × Nat) → Except Nat (List (Nat × Nat × Bool))
  | [] => .ok []
  | w :: r => match tensorAt s w.1 with
    | none => .error stBadParam
    | some t => match resolveVersion t w.2, resolveCopies s r with
      | .ok (j, p), .ok l => .ok ((w.1, j, p) :: l)
      | .error e, _ => .error e
      | _, .error e => .error e

/-- Whether a descriptor that names a compute copy agrees with the record of its slot (R184,
R427); `floor` is the floor of a MULTIPLY operand. -/
def copyAgrees (s : State) (copies : List (Nat × Nat × Bool)) (rc : Recipe) (floor : Option Nat) (idx : Nat) : Bool :=
  match descAt s idx with
  | none => true
  | some d =>
    match copies.find? (fun c => c.1 == d.tensor), tensorAt s d.tensor with
    | some (_, j, _), some t =>
      let r := t.slotRec j
      rc.rotLog2 == recRot r && rc.wpal == recWpal r && d.pal == recWpal r
        && (match floor with
          | some f => f == recFloor r
          | none => true)
    | _, _ => true

/-- Bytes of a stack's two parts (R153). -/
def hawkSize (s : State) (m : Nat) : Nat := (rangeOf s.job.hawkHbm m).len + (rangeOf s.job.hawkOvf m).len

/-- Whether the STASH and UNSTASH stages of a RUN, one after another, find room and their own frame on a
stack of `size` bytes (R155). -/
def stackHolds (size layer : Nat) : List StageRec → List Frame → Bool
  | [], _ => true
  | r :: rest, fs =>
    if r.kind = kStash then
      let top := hawkTop { hawkDefault with frames := fs }
      let n := leAt r.ctrl 4 4
      decide ((top + n) * 4096 ≤ size)
        && stackHolds size layer rest ({ layer := layer, slot := leAt r.ctrl 2 1, start := top, length := n } :: fs)
    else if r.kind = kUnstash then
      match fs with
      | [] => false
      | f :: gs => f.layer == leAt r.ctrl 0 2 && f.slot == leAt r.ctrl 2 1 && stackHolds size layer rest gs
    else stackHolds size layer rest fs

/-- Whether a RUN's frames are foreseen to be refused (R155, R332): it is the only RUN of its stack in
flight, so its stages find the stack as it stands now. With another one in flight its stages decide
(DEDUCED 56). -/
def framesRefused (s : State) (h : RunHead) : Bool :=
  !s.runs.any (fun r => (runHead r.cmd.body).mb == h.mb && (runHead r.cmd.body).stages.any (fun x => x.kind == kStash || x.kind == kUnstash))
    && !stackHolds (hawkSize s h.mb) h.layer h.stages (hawkOf s h.mb).frames

/-- The checks of the versions' slots and of the recipe (R98, R184) and of the frames (R155), made when
the RUN takes its tiles. -/
def takeCheck (s : State) (h : RunHead) (copies : List (Nat × Nat × Bool)) (rc : Recipe) : Bool :=
  !framesRefused s h && copies.all (fun c => match tensorAt s c.1 with
      | some t => rc.rotLog2 == recRot (t.slotRec c.2.1) && rc.wpal == recWpal (t.slotRec c.2.1)
      | none => false)
    && h.stages.all (fun r =>
      let t := r.tile?
      copyAgrees s copies rc (t.map (·.statFloor)) r.dIn && copyAgrees s copies rc none r.dOut
        && copyAgrees s copies rc (t.map (·.strmFloor)) r.dAux
        && (if r.kind = kQuantise ∨ r.kind = kReturn then
            match FloatCtl.ofBytes r.ctrl, descAt s r.dIn with
            | some c, some d => !c.rotEn || (rc.rotLog2 != 0 && d.width % rc.rot == 0)
            | _, _ => false
          else true))

end Sys2Proof.Machine
end

