-- ==== Sys2Proof/Machine/Run.lean ====
section
/-! DEFINITION. RUN and RUN_LEVEL (R343, R115): holding and taking tiles (R84–R86), versions
(R159), and completion (R113, R142, R150). -/

namespace Sys2Proof.Machine

/-! Tiles. -/

/-- The physical engines of a logical core (R19). -/
def enginesOf (s : State) (lc : Nat) : List Nat := (List.range 4).map (fun e => physCore s lc * 4 + e)

/-- The tiles a RUN takes: tile number, OPEN and OWNER of each of its MULTIPLY stages that does
not continue a tile of its own (R83, R85). -/
def tilesNamed (h : RunHead) : List TileCtl := (h.stages.filterMap StageRec.tile?).filter (fun c => c.opn != 1)

/-- Whether one tile can be taken for the stages that name it: 0 yes, 1 not yet, 2 never (R83–R85). A tile that
one of them continues by OWNER must be kept for the command, whatever the others open. -/
def tileState (x : Tile) (cs : List TileCtl) : Nat :=
  let cont := cs.filter (fun c => c.opn == 2)
  if cs.isEmpty then 0
  else if cont.isEmpty then (if x.owned then 1 else 0)
  else if !x.owned || cont.any (fun c => x.owner != c.owner) then 2
  else if x.kept && !x.halted then 0 else 1

/-- Whether every tile a RUN names can be taken: the greatest of its tiles' answers. -/
def tilesState (s : State) (h : RunHead) : Nat :=
  h.cores.foldl (fun a lc => (enginesOf s lc).foldl (fun a pe =>
    (List.range 8).foldl (fun a t => max a (tileState (tileGet s pe t) ((tilesNamed h).filter (fun c => c.tile == t)))) a) a) 0

/-- The tiles of a RUN owned by its operation ID (R84). -/
def ownTiles (s : State) (h : RunHead) (op : Nat) : State :=
  h.cores.foldl (fun s lc => (enginesOf s lc).foldl (fun s pe =>
    (tilesNamed h).foldl (fun s c =>
      tilePut s pe c.tile { tileGet s pe c.tile with owned := true, kept := false, owner := op }) s) s) s

/-- Whether the last MULTIPLY stage that names a tile sets KEEP (R84). -/
def keeps (h : RunHead) (t : Nat) : Bool :=
  match ((h.stages.filterMap StageRec.tile?).reverse.find? (fun c => c.tile == t)) with
  | some c => c.keep
  | none => false

/-- A RUN's tiles let go (R84): kept where KEEP says so and no fault ended it; a halted tile
stays owned until the fault manager acts. A tile set free still shows its last MODE and owner
(DEDUCED 57). -/
def releaseTiles (s : State) (h : RunHead) (op : Nat) (fault : Bool) : State :=
  h.cores.foldl (fun s lc => (enginesOf s lc).foldl (fun s pe =>
    (List.range 8).foldl (fun s t =>
      let x := tileGet s pe t
      if !x.owned || x.owner != op || x.halted then s
      else if !fault && keeps h t then tilePut s pe t { x with kept := true }
      else tilePut s pe t { freeTile with trans := x.trans, owner := x.owner }) s) s) s

/-! The hold clock (R86, R378). -/

/-- The command a held entry stands for. -/
def heldCmd (s : State) (h : Held) : Option Cmd := (slotOf (queueAt s h.q) h.qseq).map (cmdOf h.q)

/-- Whether the fault manager has one of these cores stopped. -/
def coreStopped (s : State) (cores : List Nat) : Bool :=
  s.runs.any (fun r => r.cores.any (fun k => k.stopped && cores.contains k.core))

/-- Whether a held command's clock runs now: the step open, no S4, its cores not stopped. -/
def holdRuns (s : State) (h : Held) : Bool :=
  stepPhase s == sOpen && decide (shedLevel s < 4) && (match heldCmd s h with
    | some c => !coreStopped s ((unitsOf c).getD [])
    | none => false)

/-- Ticks a hold clock has counted. -/
def holdUsed (s : State) (h : Held) : Nat :=
  h.used + (match h.since with
    | some t => s.plumb - t
    | none => 0)

/-- The hold clocks stopped or started after something they depend on has changed. -/
def holdClocks (s : State) : State :=
  { s with held := s.held.map (fun h =>
      if holdRuns s h = h.since.isSome then h
      else { h with used := holdUsed s h, since := if holdRuns s h then some s.plumb else none }) }

/-- The held list without a command. -/
def unhold (s : State) (q qseq : Nat) : State :=
  { s with held := s.held.filter (fun h => !(h.q == q && h.qseq == qseq)) }

def isHeld (s : State) (q qseq : Nat) : Bool := s.held.any (fun h => h.q == q && h.qseq == qseq)

/-! Beginning. -/

/-- Whether a RUN runs in Level mode (R115, R116). -/
def runLevelled (s : State) (c : Cmd) : Bool := c.opcode == 0x0402 || csrField s rHubStepState 7 7 == 1

/-- No counts. -/
def runCounts0 : RunCounts :=
  { blocks := 0, fbDone := 0, fbRefused := 0, full := 0, fed := 0, window := 0, overflow := 0, groups := 0 }

/-- A core at the head of its chain. -/
def coreRun0 (lc : Nat) : CoreRun :=
  { core := lc, next := 0, status := stOk, stopped := false, engPos := [0, 0, 0, 0], rowPos := 0, origin := false
    slabs := List.replicate 8 0, counts := runCounts0 }

/-- A RUN that begins (R84, R95, R159): its versions resolved and its recipe taken, or refused
without a tile. -/
def takeRun (c : Cmd) (s : State) : State :=
  let h := runHead c.body
  if tilesState s h = 2 then finish s c stBadParam
  else match recipeOf s h.recipe, resolveCopies s h.copies with
    | none, _ => finish s c stBadParam
    | _, .error st => finish s c st
    | some rb, .ok copies =>
      if !takeCheck s h copies (Recipe.ofBytes rb) then finish s c stBadParam
      else
        let r : Run :=
          { cmd := c, level := runLevelled s c, recipe := rb, copies := copies, cores := h.cores.map coreRun0
            frames := [] }
        let s := fly (ownTiles s h c.op) c
        { s with runs := s.runs ++ [r] }

/-- Whether a held command earlier than this one shares a core with it and could take its tiles
now (R85). -/
def earlierReady (s : State) (h : RunHead) : Bool :=
  s.held.any (fun x => match heldCmd s x with
    | some c => let g := runHead c.body; g.cores.any h.cores.contains && tilesState s g != 1
    | none => false)

/-- Whether a command of a queue of higher priority asks for a core's sequencer at the same time: it goes first (R29, R31,
R32, R321). -/
def queueAhead (s : State) (c : Cmd) (h : RunHead) : Bool :=
  (List.range c.queue).any (fun q => (queueAt s q).slots.any (fun sl =>
    !sl.begun && !isHeld s q sl.qseq && (match readyCmd s q sl.qseq with
      | some d => (d.opcode == 0x0401 || d.opcode == 0x0402) && (runHead d.body).cores.any h.cores.contains
      | none => false)))

/-- Where a RUN stands before it begins: it waits for OPEN (R146) and for commands of higher priority that reach a core of
its own with it, or is held for its tiles (R85). -/
def runWait (c : Cmd) (s : State) : Option State :=
  let h := runHead c.body
  if stepPhase s ≠ sOpen ∨ isHeld s c.queue c.qseq ∨ queueAhead s c h then some s
  else if !runCheck s (runLevelled s c) h then none
  else if tilesState s h ≠ 1 ∧ !earlierReady s h then none
  else
    let x : Held :=
      { q := c.queue, qseq := c.qseq, used := 0, since := none, limit := 1000 * fieldOf (settingGet s rScdTileHold) 15 0
        order := s.held.length }
    some (holdClocks { s with held := s.held ++ [x] })

/-- The descriptors a RUN names read from their table (R337): false where one is poisoned (R205). -/
def readDescs (s : State) (h : RunHead) : State × Bool :=
  let named := (h.stages.flatMap (fun r => [r.dIn, r.dOut, r.dAux])).eraseDups
  touchAll ((named.filter (fun i => decide (i < s.job.dtabCount) && i != 0xFFFF)).map (fun i => (s.job.dtabAddr + 64 * i, 64))) s

/-- A RUN that does not wait: refused, or begun. -/
def runChecked (c : Cmd) (s : State) : State :=
  if !runCheck s (runLevelled s c) (runHead c.body) then finish s c stBadParam else takeRun c s

/-- The same once its descriptors have been read; a poisoned one is not consumed and ends it (R34, R205). -/
def runBegin (c : Cmd) (s : State) : State :=
  let d := readDescs s (runHead c.body)
  if d.2 then runChecked c d.1 else finish d.1 c stFault

/-- RUN (R343). -/
def runState (q qseq : Nat) (s : State) : State := waitRow s q qseq (fun c => c.opcode == 0x0401) runWait runBegin

/-- RUN_LEVEL (R115, R343). -/
def runLevelState (q qseq : Nat) (s : State) : State := waitRow s q qseq (fun c => c.opcode == 0x0402) runWait runBegin

/-- The first held command, in arrival order, that names a core and whose tiles are all
available (R85). -/
def nextHeld (s : State) (core : Nat) : Option (Held × Cmd) :=
  s.held.findSome? (fun x => match heldCmd s x with
    | some c => if (runHead c.body).cores.contains core && tilesState s (runHead c.body) != 1 then some (x, c) else none
    | none => none)

/-- TAKE_TILES (R85): on a release, that command takes its tiles; before its hold limit only
(R86). -/
def takeTilesState (core : Nat) (s : State) : State :=
  match nextHeld s core with
  | none => s
  | some (x, c) =>
    if stepPhase s ≠ sOpen ∨ x.limit ≤ holdUsed s x ∨ (readyCmd s x.q x.qseq).isNone then s
    else if earlySkip s x.q x.qseq then finish (markBegun (unhold s x.q x.qseq) x.q x.qseq) c stSkipped
    else holdClocks (runBegin c (markBegun (unhold s x.q x.qseq) x.q x.qseq))

/-- TILE_CONFLICT (R86): the hold window has run out; the command is not executed. -/
def tileConflictState (q qseq : Nat) (s : State) : State :=
  match s.held.find? (fun h => h.q == q && h.qseq == qseq) with
  | none => s
  | some x => match heldCmd s x with
    | none => s
    | some c => if holdUsed s x < x.limit then s else finish (markBegun (unhold s q qseq) q qseq) c stTileConflict

/-! Completion. -/

/-- A RUN of an operation ID. -/
def runOf (s : State) (op : Nat) : Option Run := s.runs.find? (fun r => r.cmd.op == op)

/-- Counts of two cores together. -/
def RunCounts.plus (a b : RunCounts) : RunCounts :=
  { blocks := a.blocks + b.blocks, fbDone := a.fbDone + b.fbDone, fbRefused := a.fbRefused + b.fbRefused
    full := a.full + b.full, fed := a.fed + b.fed, window := a.window + b.window
    overflow := a.overflow + b.overflow, groups := a.groups + b.groups }

/-- The RECIPE causes of a RUN over its own counts (R113). -/
def runCauses (rc : Recipe) (c : RunCounts) : Nat :=
  boolNat (decide (rc.fbRate * c.blocks < c.fbDone * 256))
    + 2 * boolNat (decide (0 < c.fbRefused))
    + 4 * boolNat (rc.budget != 0xFF && decide (rc.dsRate * c.fed < c.full * 256))
    + 8 * boolNat (decide (0 < c.window))
    + 16 * boolNat (decide (rc.ovRate * c.groups < c.overflow * 256))

/-- Cause bits set in a core's FLT_CAUSE, with FIRST_RECIPE on the first since all clear (R117). -/
def setCause (s : State) (pc recipe causes : Nat) : State :=
  let a := coreBlock pc
  let w := csrGet s a
  if causes = 0 then s
  else
    let s := csrSetField s a 5 0 (w % 64 ||| causes)
    if w % 64 = 0 then csrSetField s a 31 24 recipe else s

/-- The RECIPE causes of one core of a RUN, over its own counts (R113); none in Level mode. -/
def coreCauses (r : Run) (k : CoreRun) : Nat := if r.level then 0 else runCauses (Recipe.ofBytes r.recipe) k.counts

/-- The status of a RUN, of highest precedence among its cores (R142, R150): a fault status, another that ended
a core's chain, NAN_TRAP, OK_FLAGGED, OK. -/
def runStatus (r : Run) : Nat :=
  let sts := (r.cores.map (·.status)).filter (· != stOk)
  match sts.find? (fun st => st / 256 == 3), sts with
  | some st, _ => st
  | none, st :: _ => st
  | none, [] =>
    if r.cores.any (·.origin) then stNanTrap else if r.cores.any (fun k => coreCauses r k != 0) then stFlagged else stOk

/-- Whether a core's chain has ended. -/
def CoreRun.ended (k : CoreRun) (n : Nat) : Bool := !k.stopped && (k.status != stOk || decide (n ≤ k.next))

/-- RUN_COMPLETE (R150): each core's Float edge judges its own counts (R113), and the completion carries the causes
of all. -/
def runCompleteState (op : Nat) (s : State) : State :=
  match runOf s op with
  | none => s
  | some r =>
    let h := runHead r.cmd.body
    if !r.cores.all (·.ended h.nstage) then s
    else
      let causes := r.cores.foldl (fun a k => a ||| coreCauses r k) 0
      let st := runStatus r
      let s := { s with runs := s.runs.filter (fun x => x.cmd.op != op) }
      let s := releaseTiles s h op (st == stFault || st == stBadParam)
      let s := r.cores.foldl (fun s k => setCause s (physCore s k.core) h.recipe (coreCauses r k)) s
      let s := if st = stNanTrap ∨ r.cores.any (·.origin) then { s with step := { s.step with nfLocal := true } } else s
      complete s r.cmd st causes []

/-! The meanings of the rows. -/

/-- RUN (R343). Runs a chain of one to eight stages on every logical core of its mask, after resolving versions and taking its tiles. -/
def execRun (q qseq : Nat) (s : State) : Host.Outcome State Fault Refusal :=
  .next (runState q qseq s)

/-- RUN_LEVEL (R115). Runs a RUN in Level mode, with I8 operands formed from the hi16 view and every digit fed. -/
def execRunLevel (q qseq : Nat) (s : State) : Host.Outcome State Fault Refusal :=
  .next (runLevelState q qseq s)

/-- TAKE_TILES (R85). On a tile release, the first held command whose tiles are all available takes them. -/
def execTakeTiles (core : Nat) (s : State) : Host.Outcome State Fault Refusal :=
  .next (takeTilesState core s)

/-- TILE_CONFLICT (R86). A held command whose tile-hold limit runs out completes with TILE_CONFLICT. -/
def execTileConflict (q qseq : Nat) (s : State) : Host.Outcome State Fault Refusal :=
  .next (tileConflictState q qseq s)

/-- RUN_COMPLETE (R150). A RUN completes once every core has finished and released its tiles, with the highest-precedence status. -/
def execRunComplete (op : Nat) (s : State) : Host.Outcome State Fault Refusal :=
  .next (runCompleteState op s)

end Sys2Proof.Machine
end

