-- ==== Sys2Proof/Machine/Retire.lean ====
section
/-! DEFINITION. What the fault manager does with a unit (R24–R26, R348, R352): core exchange,
core and cluster retirement, events and permanent faults, and the step replay it orders (R169). -/

namespace Sys2Proof.Machine

/-! Maps and spares (R20, R24–R26). -/

/-- Physical core `p` of cluster `n` of the package. -/
def coreNo (n p : Nat) : Nat := n * 9 + p

/-- The logical core of cluster `n` that physical core `p` serves. -/
def logicalOf (s : State) (n p : Nat) : Option Nat :=
  (List.range 8).find? (fun k => fieldOf (csrGet s (rHubCoreMap + 4 * n)) (4 * k + 3) (4 * k) == p)

def spareCore (s : State) (n : Nat) : Nat := csrField s (rHubSpare + 4 * n) 3 0
def spareState (s : State) (n : Nat) : Nat := csrField s (rHubSpare + 4 * n) 5 4

/-- A core's whole state copied from physical core `a` to `b` (R24): core buffer, operand
buffers, tiles with their ownership, which leaves the outgoing core. -/
def copyCore (s : State) (a b : Nat) : State :=
  let c := s.chip
  { s with chip := { c with
      coreBuf := stMove 0 c.coreBuf c.coreBuf (a * 2 ^ 22) (b * 2 ^ 22) (2 ^ 22)
      opBanks := stMove [] c.opBanks c.opBanks (a * 8) (b * 8) 8
      opReads := stMove 0 c.opReads c.opReads (a * 4) (b * 4) 4
      passHold := stClear (stMove none c.passHold c.passHold (a * 4) (b * 4) 4) (a * 4) (a * 4 + 4)
      tiles := stClear (stMove freeTile c.tiles c.tiles (a * 32) (b * 32) 32) (a * 32) (a * 32 + 32) } }

/-- Logical core `k` of cluster `n` moved to the spare, and the core map changed (R24). -/
def exchangeCore (s : State) (n k : Nat) : State :=
  let p := fieldOf (csrGet s (rHubCoreMap + 4 * n)) (4 * k + 3) (4 * k)
  csrSetField (copyCore s (coreNo n p) (coreNo n (spareCore s n))) (rHubCoreMap + 4 * n) (4 * k + 3) (4 * k) (spareCore s n)

/-- A unit's counter entry marked RETIRED (R355). -/
def markRetired (s : State) (unit : Nat) : State :=
  let c := snagEntry s.snag unit
  let g := snagPutEntry s.snag { c with flags := putField c.flags 0 0 1 }
  { s with snag := { g with retired := g.retired + boolNat (!bitOf c.flags 0) } }

/-- CLUSTERS_AVAIL of BOOT_STATUS kept current (R333, R399): the fewest logical clusters any die
still maps. -/
def syncAvail (s : State) : State :=
  let cnt (d : Nat) : Nat := ((List.range 8).filter (fun c => physCluster s d c != 15)).length
  csrSetField s rBootStatus 15 12 (min (min (cnt 0) (cnt 1)) (min (cnt 2) (cnt 3)))

/-- Clusters the open job declares, 0 while none is open. -/
def jobClusters (s : State) : Nat := if jobOpen? s then csrField s rHubJob 19 16 else 0

/-- The idle logical cluster of a die that can stand in for logical cluster `l` (R26). -/
def idleCluster (s : State) (d l : Nat) : Option Nat :=
  ((List.range 8).reverse).find? (fun c => c != l && decide (jobClusters s ≤ c) && physCluster s d c != 15)

/-- Whether a failed cluster leaves the device able to hold the job (R26). -/
def clusterFits (s : State) (n : Nat) : Bool :=
  match (List.range 8).find? (fun c => physCluster s (n / 8) c == n % 8) with
  | none => true
  | some l => decide (jobClusters s ≤ l) || (idleCluster s (n / 8) l).isSome

/-! Step replay (R169, R352). -/

/-- Pending slots discarded: the tensors written in the step keep no readable v − 1 (R161). -/
def discardPending (s : State) : State :=
  { s with job := { s.job with tensors := s.job.tensors.map (fun t => { t with pending := false }) }
           topcoat := { s.topcoat with waiting := [], taken := [], named := [], running := none, tops := List.replicate 8 topStack0 } }

/-- Hawk stacks as they stood at the last seam (R169). -/
def restoreHawk (s : State) : State := { s with hawk := s.hawk.map (fun p => (p.1, { p.2 with frames := p.2.atSeam, migrated := [] })) }

/-- Every channel that works for a command of the step put back to LOADED. -/
def dropStreams (s : State) : State :=
  let reset (c : Chan) : Chan :=
    if c.cmd.isNone then c
    else { c with state := 1, wait := 0, window := [], marks := [], issued := 0, cmd := none, loops := [], stopping := false }
  let blk (b : Block) : Block := { b with chans := b.chans.map reset, held := none, errs := [], stops := false }
  let gone (o : OpOwner) : Bool := match o with
    | .parcel b ch _ => (chanGet s b ch).cmd.isSome
    | _ => false
  { s with blocks := s.blocks.map (fun p => (p.1, blk p.2)), hubBlock := blk s.hubBlock
           net := { s.net with waiting := s.net.waiting.filter (fun r => !gone r.owner) } }

/-- Tiles owned by the named operations freed. -/
def dropTiles (s : State) (ops : List Nat) : State :=
  { s with chip := { s.chip with tiles := s.chip.tiles.filter (fun p => !(p.2.owned && ops.contains p.2.owner)) } }

/-- The origin of a command whose answer the host has already. -/
def noOrigin : Origin :=
  { port := 0, mac := [], ip := [], sport := 0, dev := 0, chan := 0, seq := 0, qpn := 1, opid := 0 }

/-- The slot of a logged entry placed again (R169). -/
def replaySlot (s : State) (q : Nat) (e : List Byte) : QSlot :=
  let qseq := leAt e 4 4
  match s.flights.find? (fun f => f.cmd.queue == q && f.cmd.qseq == qseq) with
  | some f => { qseq := qseq, begun := false, entry := e, origin := f.cmd.origin, arrived := f.cmd.arrived, launched := true, late := f.cmd.late, timely := true }
  | none => { qseq := qseq, begun := false, entry := e, origin := noOrigin, arrived := s.plumb, launched := true, late := false, timely := true }

/-- A queue with the step's entries placed again: N falls back to the first of them, and the
numbers between that are not replayed stay begun. -/
def rewindQueue (s : State) (q : Nat) (entries : List (List Byte)) (x : Queue) : Queue :=
  match entries with
  | [] => x
  | e :: _ =>
    let first := entries.foldl (fun m b => if (leAt b 4 4 + 2 ^ 32 - m) % 2 ^ 32 < 2 ^ 31 then m else leAt b 4 4) (leAt e 4 4)
    let span := (x.n + 2 ^ 32 - first) % 2 ^ 32
    let redo := entries.map (replaySlot s q)
    let gap := ((List.range span).map (fun i => (first + i) % 2 ^ 32)).filter (fun k =>
      !redo.any (fun r => r.qseq == k))
    let filler := gap.map (fun k =>
      ({ qseq := k, begun := true, entry := [], origin := noOrigin, arrived := s.plumb, launched := true, late := false, timely := true } : QSlot))
    { x with n := first, slots := filler ++ redo ++ x.slots.filter (fun sl => !redo.any (fun r => r.qseq == sl.qseq)) }

/-- The open step executed again from its log (R169): pending slots discarded, Hawk pointers
restored, the selectors and ATTEMPT as they are, its commands placed again with their IDs and
numbers, and what the host has already answered kept silent. -/
def replayStep (s : State) : State :=
  let log := s.step.cmdLog.filter (fun e => leAt e.2 0 2 != 0x0501)
  let begin := s.step.cmdLog.filter (fun e => leAt e.2 0 2 == 0x0501)
  let inFlight (q k : Nat) : Bool := s.flights.any (fun f => f.cmd.queue == q && f.cmd.qseq == k)
  let silent := (log.filter (fun e => !inFlight e.1 (leAt e.2 4 4))).map (fun e => (e.1, leAt e.2 4 4))
  let was := if stepState s = sReplaying then s.step.replayState else stepState s
  let queues := s.queues.mapIdx (fun q x => rewindQueue s q ((log.filter (fun e => e.1 == q)).map (·.2)) x)
  let logged (f : Flight) : Bool := log.any (fun e => e.1 == f.cmd.queue && leAt e.2 4 4 == f.cmd.qseq)
  let u := dropStreams (restoreHawk (discardPending (dropTiles s (log.map (fun e => leAt e.2 8 4 % 2 ^ 18)))))
  let host := stepState s = sReplaying && s.step.replayTo.isSome
  let left := silent ++ s.step.silent.filter (fun e => !silent.contains e)
  let v := if left.isEmpty && was == sOpen && !host then setStepState u sOpen else setStepState u sReplaying
  { v with queues := queues, runs := [], held := [], flights := s.flights.filter (fun f => !logged f)
           step := { v.step with nfLocal := false, fence := none, fenceOps := none, again := true, vote := none, voteDone := false, ops := []
                                 cmdLog := begin, norms := [], phase := sOpen, replayState := was
                                 silent := left, colStarted := false
                                 metBefore := s.step.metBefore ++ s.step.met, met := [] } }

/-- Every open command ended with ABORTED_FAULT (R352, R365). -/
def abortOpen (s : State) : State :=
  let cs := s.flights.map (·.cmd)
  let hs := s.held
  let ts := s.topcoat.taken
  let s := { s with runs := [], held := [] }
  let s := dropStreams (dropTiles s (cs.map (·.op)))
  let s := { s with coll := { s.coll with running := [], permute := none }, topcoat := { s.topcoat with running := none, waiting := [], taken := [], tops := List.replicate 8 topStack0 }
                    step := { s.step with fence := none, fenceOps := none, vote := none, voteDone := false } }
  let s := { s with snag := { s.snag with testCmds := [], pull := none }
                    queues := s.queues.map (fun (x : Queue) => { x with launchHold := none }) }
  let s := csrSetField { s with net := { s.net with waiting := [] } } rColEpoch 17 16 0
  let s := cs.foldl (fun s c => finish s c stFault) s
  let s := ts.foldl (fun s k => match slotOf (queueAt s k.1) k.2.1 with
    | some sl => finish (markBegun s k.1 k.2.1) (cmdOf k.1 sl) stFault
    | none => s) s
  hs.foldl (fun s h => match heldCmd s h with
    | some c => finish (markBegun s h.q h.qseq) c stFault
    | none => s) s

/-- The step's entries read back from the replay log of the ledger region (R320), each with its queue; none where one can
no longer be read. -/
def readLog (s : State) : State × Option (List (Nat × List Byte)) :=
  let qs := s.step.cmdLog.map (·.1)
  let r := readMem s (logBase s) (512 * qs.length)
  (r.1, r.2.map (fun b => List.zip qs (chunksOf 512 b.length b)))

/-- A step replay ordered by the fault manager (R352): local while no collective of the step has
started and the log is whole and can be read (R320); otherwise the open commands end with ABORTED_FAULT and the
host orders it. -/
def orderReplay (s : State) (unit check : Nat) : State :=
  let s := snagRecord s (errRec unit check 0 1 6)
  let ph := stepPhase s
  if ph ≠ sOpen ∧ ph ≠ sDeciding then s
  else if s.step.colStarted || csrField s rHubLedgerCtrl 27 27 == 1 then abortOpen s
  else
    let r := readLog s
    match r.2 with
    | none => abortOpen r.1
    | some log => replayStep { r.1 with step := { r.1.step with cmdLog := log } }

/-! Clusters and cores (R19, R21, R24–R26, R236). -/

/-- The loaded programs of a retired cluster's block carried to the cluster that stands in (R26): their
channels LOADED, nothing of their work kept. -/
def carryPrograms (s : State) (a b : Nat) : State :=
  let k := blockGet s a
  let load (c : Chan) : Chan := if c.image.isEmpty then chan0 else { chan0 with state := 1, image := c.image }
  blockPut (blockPut s b { block0 16 with chans := k.chans.map load, chanMap := k.chanMap }) a (block0 16)

/-- The map change of a retired cluster (R26): its logical number goes to the die's idle cluster, or is
absent where it is idle itself; the step is executed again where the number moved (R352), and takeover is
requested where no idle cluster is left. Before release the maps are made at its end. -/
def clusterOut (s : State) (n check : Nat) : State :=
  let d := n / 8
  match (List.range 8).find? (fun c => physCluster s d c == n % 8) with
  | none => s
  | some l =>
    let a := rHubClusterMap + 4 * d
    let gone (s : State) : State := syncAvail (csrSetField s a (4 * l + 3) (4 * l) 15)
    if !s.boot.ready ∨ (jobClusters s ≤ l ∧ jobOpen? s) then gone s
    else match idleCluster s d l with
      | some c =>
        if c < l then gone s
        else
          let p := physCluster s d c
          let s := syncAvail (csrSetField (csrSetField s a (4 * l + 3) (4 * l) p) a (4 * c + 3) (4 * c) 15)
          orderReplay (carryPrograms s n (d * 8 + p)) (unitCluster n 0xFFF) check
      | none => requestTakeover (gone s) (unitCluster n 0xFFF) check

/-- A cluster retired (R26); its die's map waits until no cell is in its rings or links (R236). -/
def retireCluster (s : State) (n check : Nat) : State :=
  let s := markRetired s (unitCluster n 0xFFF)
  if inflight s (n / 8) = 0 then clusterOut s n check
  else { s with snag := { s.snag with mapWait := s.snag.mapWait ++ [(n, check)] } }

/-- The map changes that wait made once their die's rings and links are empty (R236). -/
def mapChanges (s : State) : State :=
  let now := s.snag.mapWait.filter (fun p => inflight s (p.1 / 8) == 0)
  now.foldl (fun s p => clusterOut s p.1 p.2)
    { s with snag := { s.snag with mapWait := s.snag.mapWait.filter (fun p => inflight s (p.1 / 8) != 0) } }

/-- The physical core of a core's unit ID. -/
def unitCoreNo (unit : Nat) : Nat := (fieldOf unit 27 24 * 8 + fieldOf unit 23 20) * 9 + fieldOf unit 19 16

/-- The cores of a cluster that have passed their test become its spare (R25), now that its maps may change
(R21). -/
def takeSpares (s : State) (n : Nat) : State :=
  let mine (p : Nat × Nat) : Bool := unitCoreNo p.1 / 9 == n
  let t := { s with snag := { s.snag with newSpares := s.snag.newSpares.filter (fun p => !mine p) } }
  (s.snag.newSpares.filter mine).foldl (fun s p =>
    csrSetField (csrSetField s (rHubSpare + 4 * n) 3 0 (unitCoreNo p.1 % 9)) (rHubSpare + 4 * n) 5 4 0) t

/-- A core's RETIRED bit in its cluster's HUB_SPARE, and its counter entry (R20, R26). -/
def markCore (s : State) (n p : Nat) : State :=
  let a := rHubSpare + 4 * n
  markRetired (csrSetField s a 16 8 (csrField s a 16 8 ||| 2 ^ p)) (unitCore (coreNo n p) 0xFFF)

/-- A save-path error in the exchange of physical core `p` (R352): the map is as it was and the core keeps its
role; one event on the core's save path, and the step is executed again. -/
def saveFails (s : State) (n p : Nat) : State :=
  let u := unitCore (coreNo n p) 0x106
  let key := (u, 0x05, 0)
  let s := { s with chip := { s.chip with saveBad := s.chip.saveBad.filter (· != n) }
                    step := { s.step with met := s.step.met ++ [key] }, snag := snagEvent s.snag u }
  orderReplay (snagRecord s (errRec u 0x05 0 1 6)) u 0x05

/-- A core retired (R19, R26, R352): exchanged with its cluster's idle spare, or the cluster is
retired. An error of the save path stops the exchange; met again, the spare counts as faulty. -/
def retireCore (s : State) (n p check : Nat) : State :=
  let s := takeSpares s n
  let a := rHubSpare + 4 * n
  if bitOf (csrField s a 16 8) p then s
  else match logicalOf s n p with
    | none => csrSetField (markCore s n p) a 5 4 2
    | some k =>
      let free := spareState s n == 0 && spareCore s n != p
      if free && s.chip.saveBad.contains n then
        if (s.step.met ++ s.step.metBefore).contains (unitCore (coreNo n p) 0x106, 0x05, 0) then
          let s := { s with chip := { s.chip with saveBad := s.chip.saveBad.filter (· != n) } }
          retireCluster (csrSetField (markCore (markCore s n (spareCore s n)) n p) a 5 4 2) n check
        else saveFails s n p
      else if free then csrSetField (exchangeCore (markCore s n p) n k) a 5 4 2
      else retireCluster (markCore s n p) n check

/-- Whether firmware gates a cluster or core for the open job (R23, R385): a physical cluster that serves no
logical cluster below the job's n, and all its cores; the idle spare of a cluster. -/
def jobGated (s : State) (u : Nat) : Bool :=
  let n := fieldOf u 27 24 * 8 + fieldOf u 23 20
  let idle := !(List.range (jobClusters s)).any (fun c => physCluster s (n / 8) c == n % 8)
  jobOpen? s && (match fieldOf u 31 28 with
    | 1 => idle || (spareState s n == 0 && spareCore s n == fieldOf u 19 16)
    | 2 => idle || (spareState s n == 0 && spareCore s n == fieldOf u 19 16)
    | 3 => idle
    | _ => false)

/-! Retirement (R352). -/

/-- The Stencil block and channel of a channel's unit ID, as block 0–31 or 32 (R28). -/
def chanUnit (unit : Nat) : Option (Nat × Nat) :=
  let sub := fieldOf unit 11 0
  if fieldOf unit 31 28 = 3 ∧ 0x300 ≤ sub ∧ sub < 0x310 then
    some (fieldOf unit 27 24 * 8 + fieldOf unit 23 20, sub - 0x300)
  else if fieldOf unit 31 28 = 9 ∧ 0x430 ≤ sub ∧ sub < 0x450 then some (32, sub - 0x430)
  else none

/-- A channel's logical number mapped to a physical channel no loaded program uses; false where
none is free (R352). -/
def remapChannel (s : State) (b p : Nat) : State × Bool :=
  let k := blockGet s b
  match (List.range k.chanMap.length).find? (fun l => nthD k.chanMap l 0 == p) with
  | none => (s, true)
  | some l =>
    let free := (List.range k.chanMap.length).find? (fun l' => l' != l && (nthD k.chans l' chan0).image.isEmpty)
    match free with
    | none => (s, false)
    | some l' =>
      (blockPut s b { k with chanMap := (k.chanMap.set l (nthD k.chanMap l' 0)).set l' p }, true)

/-- A Stencil channel retired at a seam (R352): mapped to a channel that no loaded program uses, or its
cluster is retired; a hub channel without one leaves takeover. -/
def retireChan (s : State) (unit b p check : Nat) : State :=
  let r := remapChannel s b p
  if r.2 then r.1 else if b = 32 then requestTakeover r.1 unit check else retireCluster r.1 b check

/-- A unit retired (R352): at once, but for a pseudo-channel and a Stencil channel, which wait for the next
seam. `check` is the check that condemned it. An engine goes with its core, and its own entry says which
unit was faulty (R19). -/
def retireUnit (s : State) (unit check : Nat) : State :=
  let n := fieldOf unit 27 24 * 8 + fieldOf unit 23 20
  let sub := fieldOf unit 11 0
  match fieldOf unit 31 28 with
  | 1 => retireCore (markRetired s unit) n (fieldOf unit 19 16) check
  | 2 => retireCore s n (fieldOf unit 19 16) check
  | 3 =>
    match chanUnit unit with
    | some _ => retireLater (markRetired s unit) unit
    | none => if sub = 0x310 then requestTakeover (markRetired s unit) unit check else retireCluster s n check
  | 6 =>
    if fieldOf unit 23 16 = 0xFF then requestTakeover (markRetired s unit) unit check
    else retireLater (markRetired s unit) unit
  | 7 =>
    markPort (markRetired s unit) unit
  | 8 => requestTakeover (markRetired (csrSetField s (rCapStatus + 0x20 * (fieldOf unit 3 0 % 8)) 31 31 1) unit) unit check
  | _ =>
    match chanUnit unit with
    | some _ => retireLater (markRetired s unit) unit
    | none => requestTakeover (markRetired s unit) unit check

/-- ACTION of a retirement's record (R353). -/
def retireAction (unit : Nat) : Nat :=
  match fieldOf unit 31 28 with
  | 1 => 4
  | 2 => 4
  | 6 => if fieldOf unit 23 16 = 0xFF then 7 else 8
  | 3 => 5
  | 7 => 5
  | _ => 7

/-- One event decided on a unit (R348): permanent where it recurred (as the decision says, or because the
same operation met it before the step was replayed, R352) or is the third within 72 hours, and then the
unit is retired after its record. -/
def decideEvent (s : State) (r : ErrRec) (recurs : Bool) : State :=
  let key := (r.unit, r.check, r.op)
  let again := s.step.metBefore.contains key
  let s := { s with snag := snagEvent s.snag r.unit, step := { s.step with met := s.step.met ++ [key] } }
  if recurs || again || thirdEvent s.snag r.unit then
    retireUnit (snagRecord s { r with severity := 2, action := retireAction r.unit }) r.unit r.check
  else snagRecord s { r with severity := 1 }

/-- A word of a buffer corrected in place (R17, R349): recorded, and counted towards the buffer's 16 within 24
hours, which make one event, and the word's three within 72 hours, which make a permanent fault. -/
def secdedCorrected (s : State) (unit word syn : Nat) : State :=
  let r : ErrRec :=
    { unit := unit, check := 0x04, detail := 0, severity := 0, action := 1, opcode := 0, op := 0
      syndrome := leBytes 8 word ++ [byteOf syn] }
  let c := snagEntry s.snag unit
  let s := snagRecord { s with snag := snagPutEntry s.snag { c with corrs := satAdd 32 c.corrs 1 } } r
  let s := noteCorr (noteCorr s 3 unit 0) 4 unit word
  if corrCount s 4 unit word hours72 = 3 then decideEvent s r true
  else if corrCount s 3 unit 0 hours24 = 16 then decideEvent s { r with action := 3 } false
  else s

/-- RECOVERING of SNG_STATUS: a decision is in progress while a core stands stopped (R357). -/
def syncRecovering (s : State) : State :=
  csrSetField s rSngStatus 29 29 (boolNat (s.runs.any (fun r => r.cores.any (·.stopped))))

end Sys2Proof.Machine
end

