-- ==== Sys2Proof/Machine/MemAdd.lean ====
section
/-! DEFINITION. The memory-side adders (R208–R211): one add by kind and address, sector by sector
or block by block, and the reason it fails for. -/

namespace Sys2Proof.Machine

/-- The reason an access to `[a, a + n)` is refused for (R234, R252): the aperture, an address that
is no memory, or a range in two spaces of R196. -/
def spaceOf (s : State) (a : Nat) : Nat :=
  if a < paramBase s ∧ a < 2 ^ 39 then 0
  else if a < 2 ^ 39 then 1
  else if a < 2 ^ 40 then 2
  else if 0x20000000000 ≤ a ∧ a < 0x3BE00000000 then 3
  else 4

def accessFault (s : State) (a n : Nat) : Option Nat :=
  let z := a + max n 1 - 1
  if spaceOf s a = 2 ∨ spaceOf s z = 2 then some 5
  else if !rangeOk s a (max n 1) then some 1
  else if spaceOf s a ≠ spaceOf s z then some 6
  else none

/-- An element of R209 added: kinds 1 to 3. -/
def addElem (kind t x : Nat) : Nat :=
  match kind with
  | 1 => (t + x) % 2 ^ 32
  | 2 => f32.toCode ((f32.decode t).add (f32.decode x))
  | _ => b16.toCode ((b16.decode t).add (b16.decode x))

/-- Bytes of an element. -/
def addWidth (kind : Nat) : Nat := if kind = 3 then 2 else 4

/-- A run of elements added to the bytes there. -/
def addElems (kind : Nat) (old new : List Byte) : List Byte :=
  let w := addWidth kind
  (List.zip (chunksOf w old.length old) (chunksOf w new.length new)).flatMap (fun p => leBytes w (addElem kind (leNat p.1) (leNat p.2)))

/-- `rne(m · 2^k)` for a signed mantissa. -/
def shiftRne (m k : Int) : Int := rneSigned (decide (m < 0)) m.natAbs k

/-- A G16B32 block added (R209): exponent, codes, and whether it was marked for its range. -/
def addBlock (et : Nat) (mt : List Int) (ei : Nat) (mi : List Int) : Nat × List Int × Bool :=
  let dead := (0xFF, mt.map (fun _ => (0 : Int)), false)
  if et = 0xFF ∨ ei = 0xFF then dead
  else
    let ns := mi.map (fun m => shiftRne m ((ei : Int) - et))
    let ss := List.zipWith (· + ·) mt ns
    if (ns ++ ss).all (fun v => decide (-32768 ≤ v) && decide (v ≤ 32767)) then (et, ss, false)
    else (dead.1, dead.2.1, true)

/-- The pieces of `[a, a + n)` by sector; `fuel` bounds them. -/
def cutSectors : Nat → Nat → Nat → List (Nat × Nat)
  | 0, _, _ => []
  | fuel + 1, a, n => if n = 0 then [] else
    let k := min n (64 - a % 64)
    (a, k) :: cutSectors fuel (a + k) (n - k)

/-- Elements added sector by sector (R210); a poisoned sector is left as it is, and the whole add
then reported as failed (R205). -/
def addSectors (kind a : Nat) (data : List Byte) : List (Nat × Nat) → State → State × Option Nat
  | [], s => (s, none)
  | p :: r, s =>
    let x := readMem s p.1 p.2
    match x.2 with
    | none => ((addSectors kind a data r x.1).1, some 2)
    | some old => addSectors kind a data r (writeMem x.1 p.1 (addElems kind old (sliceB data (p.1 - a) p.2))).1

/-- Codes of a G16B32 block as mantissas, and back. -/
def mantissas (b : List Byte) : List Int := (unpackCodes 16 b).map (sextNat 16)
def mantBytes (m : List Int) : List Byte := m.flatMap (fun v => leBytes 2 (wrapInt 16 v))

/-- The counter of marked blocks of the stack that holds an address. -/
def countAddMark (s : State) (a : Nat) : State :=
  match locOf s a with
  | .hbm st _ _ => csrBump s (rMemAddMark + 0x10000 * st) 31 0 1
  | _ => s

/-- Blocks added one by one (R209, R210). -/
def addBlocks (a e : Nat) (data : List Byte) (n : Nat) : Nat → Nat → State → State × Option Nat
  | 0, _, s => (s, none)
  | left + 1, i, s =>
    let x := readMem s (a + 64 * i) 64
    let y := readMem x.1 (e + i) 1
    match x.2, y.2 with
    | some c, some ex =>
      let r := addBlock (leNat ex) (mantissas c) (leAt data (64 * n + i) 1) (mantissas (sliceB data (64 * i) 64))
      let s := (writeMem (writeMem y.1 (a + 64 * i) (mantBytes r.2.1)).1 (e + i) [byteOf r.1]).1
      addBlocks a e data n left (i + 1) (if r.2.2 then countAddMark s (a + 64 * i) else s)
    | _, _ => ((addBlocks a e data n left (i + 1) y.1).1, some 2)

/-- Whether the planes of a G16B32 add share their stacks (R208): regions with b 8 and 2, and the
same group index. -/
def addPlanesOk (s : State) (a e n : Nat) : Bool :=
  match pregionOf s a, pregionOf s e with
  | some r, some q =>
    pregLog2 s r == 8 && pregLog2 s q == 2 && a % 64 == 0 && (a - pregBase s r) / 64 == e - pregBase s q
      && pregionOf s (a + 64 * n - 1) == some r && pregionOf s (e + n - 1) == some q
  | _, _ => false

/-- An add carried out (R208–R210), or the reason it fails for: 0x3, or 0x2 for a poisoned
sector. -/
def memAdd (s : State) (desc : List Byte) (a : Nat) (data : List Byte) : State × Option Nat :=
  let kind := leAt desc 0 1
  let e := leAt desc 8 8
  let n := data.length
  if kind = 0 ∨ 4 < kind ∨ !zeroAt desc 1 7 ∨ (kind ≠ 4 ∧ e ≠ 0) ∨ 2 ^ 39 < a + n ∨ !rangeOk s a n then (s, some 3)
  else if kind = 4 then
    let k := n / 65
    if n % 65 ≠ 0 ∨ k = 0 ∨ 2 ^ 39 ≤ e ∨ !addPlanesOk s a e k then (s, some 3) else addBlocks a e data k k 0 s
  else if a % addWidth kind ≠ 0 ∨ n % addWidth kind ≠ 0 then (s, some 3)
  else addSectors kind a data (cutSectors (n / 64 + 2) a n) s

end Sys2Proof.Machine
end

