-- ==== Sys2Proof/Machine/Lath.lean ====
section
/-! DEFINITION. The Lath fabric (R233–R238): cells, intermediates and routes, arbitration, ejection
and reassembly at every node, and the window engine (R263). A node is named by its die and its
number there: on a compute die 0 to 7 the physical clusters, 8 and 9 the memory nodes, 10 GX, 11 GY,
12 GH; on the hub die (4) 0 HS, 1 HC, 2 HK, 3 to 6 the gateways to CD0 to CD3. -/

namespace Sys2Proof.Machine

/-! Arbitration (R29, R30). -/

/-- One grant among requesters numbered below `n`, each asserting a class, at the arbiter `base`. -/
def grant (s : State) (base n : Nat) (reqs : List (Nat × Nat)) : Option (Nat × State) :=
  match reqs.map (·.2) with
  | [] => none
  | k :: ks =>
    let c := ks.foldl min k
    let p := stGet 0 s.mem.ptrs (base * 8 + c)
    match ((List.range n).map (fun i => (p + i) % n)).find? (fun j => reqs.contains (j, c)) with
    | none => none
    | some j => some (j, { s with mem := { s.mem with ptrs := stSet 0 s.mem.ptrs (base * 8 + c) ((j + 1) % n) } })

/-! Rings and routes (R233, R236, R237). -/

/-- A die's nodes in clockwise order. -/
def ringOf (die : Nat) : List Nat := if die < 4 then [0, 1, 2, 3, 8, 10, 7, 6, 5, 4, 9, 11, 12] else [3, 0, 4, 1, 5, 2, 6]

def ringKey (plane die node : Nat) : Nat := plane * 128 + die * 16 + node

/-- The node `k` places clockwise of a node. -/
def ringStep (die node k : Nat) : Nat :=
  let r := ringOf die
  nthD r ((r.idxOf node + k) % r.length) 0

/-- The gateway of a die towards another; two diagonal dies are never linked (R15). -/
def gateway (die other : Nat) : Nat :=
  if die = 4 then 3 + other else if other = 4 then 12 else if other = die ^^^ 2 then 11 else 10

/-- Where a gateway's link leads: die and node; none at another node. -/
def linkOf (die node : Nat) : Option (Nat × Nat) :=
  if die = 4 then (if 3 ≤ node ∧ node ≤ 6 then some (node - 3, 12) else none)
  else match node with
    | 10 => some (die ^^^ 1, 10)
    | 11 => some (die ^^^ 2, 11)
    | 12 => some (4, 3 + die)
    | _ => none

/-- The physical node of a destination code (R234): logical clusters go through the cluster map. -/
def physNode (s : State) (code : Nat) : Nat :=
  if code / 16 < 4 ∧ code % 16 < 8 then physCluster s (code / 16) (code % 16) else code % 16

/-- The logical number of physical cluster `p` of a die. -/
def logicalCluster (s : State) (die p : Nat) : Nat := ((List.range 8).find? (fun c => physCluster s die c == p)).getD 15

/-- Logical clusters present on a die, ascending (R236). -/
def presentClusters (s : State) (die : Nat) : List Nat := (List.range 8).filter (fun c => physCluster s die c != 15)

/-- INTER of a cell (R236). Between two nodes of the hub die there is none (DEDUCED 36). -/
def interOf (s : State) (src tag seq sdie ddie : Nat) : Nat :=
  let x := ((src <<< 18) ^^^ (tag <<< 6) ^^^ seq) * 0x9E3779B1 % 2 ^ 32
  let die :=
    if sdie = ddie ∨ sdie = 4 then ddie
    else if ddie = 4 then sdie
    else if ddie = sdie ^^^ 1 ∨ ddie = sdie ^^^ 2 then ddie
    else if bitOf x 15 then sdie ^^^ 2 else sdie ^^^ 1
  let cs := presentClusters s die
  die * 16 + nthD cs (((x >>> 16) * cs.length) >>> 16) 0

/-- The header of a cell without its CRC, bit i of it header bit i (R234). -/
def cellHead (c : Cell) : Nat :=
  c.cls % 8 * 2 ^ 109 + boolNat c.phase * 2 ^ 108 + c.kind % 16 * 2 ^ 104 + c.defl % 64 * 2 ^ 98 + c.dest % 256 * 2 ^ 90
    + c.inter % 256 * 2 ^ 82 + c.src % 4096 * 2 ^ 70 + c.tag % 4096 * 2 ^ 58 + c.seq % 64 * 2 ^ 52 + c.ncell % 64 * 2 ^ 46
    + c.tally % 256 * 2 ^ 38 + c.addr / 32 % 2 ^ 37 * 2

/-- The CRC of a cell (R235): over header bytes 0 to 13 and the payload. -/
def cellCrc (c : Cell) : Nat := crc16 (leBytes 14 (cellHead c) ++ c.payload)

/-- The 48 bytes of a cell (R234). -/
def cellBytes (c : Cell) : List Byte := leBytes 16 (cellHead c + c.crc * 2 ^ 112) ++ c.payload

/-- A cell with the CRC of what it now holds. -/
def sealCell (c : Cell) : Cell := { c with crc := cellCrc c }

/-- A cell that a router has changed, its CRC brought up to date by the difference alone, so that the payload's cover is
not broken (R344). -/
def updateCrc (old new : Cell) : Cell := { new with crc := old.crc ^^^ cellCrc old ^^^ cellCrc new }

/-- Whether a cell passes its check (R235). -/
def cellSound (c : Cell) : Bool := c.crc == cellCrc c

/-- A cell made at a node of die `sdie` (R234). -/
def mkCell (s : State) (sdie cls kind dest src tag seq ncell tally addr : Nat) (payload : List Byte) : Cell :=
  sealCell {
    cls := cls, phase := sdie == 4 && dest / 16 == 4, kind := kind, defl := 0, dest := dest
    inter := interOf s src tag seq sdie (dest / 16), src := src, tag := tag, seq := seq, ncell := ncell, tally := tally
    addr := addr, payload := sliceB payload 0 32, way := 0, crc := 0 }

/-- The output a cell at a node asks for: none for ejection, 0 clockwise, 1 the other way, 2 the
link (R237). -/
def preferred (s : State) (die node : Nat) (c : Cell) : Option Nat :=
  let code := if c.phase then c.dest else c.inter
  let round (n : Nat) : Nat :=
    let r := ringOf die
    let d := (r.idxOf n + r.length - r.idxOf node) % r.length
    if 2 * d ≤ r.length then 0 else 1
  if code / 16 = die then (if physNode s code = node then none else some (round (physNode s code)))
  else if node = gateway die (code / 16) then some 2
  else some (round (gateway die (code / 16)))

/-! Counters (R244). -/

/-- Lath counter `k` of a die. -/
def lathCount (s : State) (die k n : Nat) : State := csrBump s (0x8100 + 0x20 * die + 4 * k) 31 0 n

/-- Cells given to a node to inject. -/
def injectCells (s : State) (die node : Nat) (cs : List Cell) : State :=
  let k := die * 16 + node
  { s with lath := { s.lath with inject := stSet [] s.lath.inject k (stGet [] s.lath.inject k ++ cs) } }

/-! Owners and answers (R234, R238). -/

/-- The die, node code and channel of an owner. -/
def ownerDie (src : Nat) : Nat := src / 512
def ownerCode (src : Nat) : Nat := src / 512 * 16 + src / 32 % 16

/-- The Stencil block of a node, by die and physical node. -/
def blockOfNode (die node : Nat) : Nat := if die = 4 then 32 else die * 8 + node

/-- The Stencil block of an owner. -/
def ownerBlock (s : State) (src : Nat) : Nat := blockOfNode (ownerDie src) (physNode s (ownerCode src))

/-- An ACK sent to a parcel's owner. -/
def lathAck (s : State) (die node src tag : Nat) : State :=
  injectCells s die node [mkCell s die 1 5 (ownerCode src) src tag 0 0 0xFF 0 []]

/-- A NACK with its reason and failing address. -/
def lathNack (s : State) (die node src tag reason addr : Nat) : State :=
  injectCells s die node [mkCell s die 1 6 (ownerCode src) src tag 0 0 0xFF 0 (leBytes 6 addr ++ [byteOf reason])]

/-- Cells `seq0` on of a reply of `total` cells, over the bytes they carry. -/
def lathReply (s : State) (die node src tag seq0 total dst tally : Nat) (b : List Byte) : State :=
  injectCells s die node ((List.range (b.length / 32)).map (fun i =>
    mkCell s die 1 3 (ownerCode src) src tag (seq0 + i) (total - 1) tally (dst + 32 * (seq0 + i)) (sliceB b (32 * i) 32)))

/-! Reassembly slots (R238). -/

def slotKey (die node src tag : Nat) : Nat := ((die * 16 + node) * 4096 + src) * 16 + tag % 16

def slot0 : Slot := { tag := 0, mask := 0, left := 0, fail := none, failAt := 0, halves := [] }

def slotGet (s : State) (k : Nat) : Slot := stGet slot0 s.lath.slots k

def slotPut (s : State) (k : Nat) (x : Slot) : State := { s with lath := { s.lath with slots := stSet slot0 s.lath.slots k x } }

/-- Whether every cell of a parcel of `n + 1` has come. -/
def Slot.whole (x : Slot) (n : Nat) : Bool := x.mask == 2 ^ (n + 1) - 1

/-- The answer of a whole parcel whose accesses are done: ACK, or NACK with its first failure. -/
def slotAnswer (s : State) (die node src tag ncell : Nat) : State :=
  let x := slotGet s (slotKey die node src tag)
  if x.tag ≠ tag ∨ !x.whole ncell ∨ 0 < x.left then s
  else match x.fail with
    | none => lathAck s die node src tag
    | some reason => lathNack s die node src tag reason x.failAt

/-- A failure noted in a slot; the first counts. -/
def slotFail (s : State) (k reason addr : Nat) : State :=
  let x := slotGet s k
  if x.fail.isNone then slotPut s k { x with fail := some reason, failAt := addr } else s

/-! Accesses at a memory node (R195). -/

/-- A request given to the pseudo-channel or the capacity controller that serves its address; false
where none does. -/
def enqueueMem (s : State) (r : MemReq) : State × Bool :=
  match physLoc s r.addr with
  | .hbm st pc _ =>
    let k := st * 64 + pc
    ({ s with mem := { s.mem with queues := stSet [] s.mem.queues k (stGet [] s.mem.queues k ++ [r]) } }, true)
  | .tier ctl _ _ => ({ s with mem := { s.mem with tierQ := stSet [] s.mem.tierQ ctl (stGet [] s.mem.tierQ ctl ++ [r]) } }, true)
  | _ => (s, false)

/-- The reason a cell's access is refused for before it reaches memory (R234). -/
def cellFault (s : State) (a n : Nat) : Option Nat := (accessFault s a n).map (fun r => if r = 5 then 5 else 1)

/-- One access of a parcel put to memory, or its failure noted. -/
def parcelAccess (s : State) (die node : Nat) (c : Cell) (kind a n : Nat) (data : List Byte) : State :=
  let k := slotKey die node c.src c.tag
  match cellFault s a n with
  | some r => slotFail s k r a
  | none =>
    let q : MemReq :=
      { cls := c.cls, src := ownerDie c.src, kind := kind, addr := a, data := data, ctx := [die, node, c.src, c.tag, c.ncell] }
    let r := enqueueMem s q
    if r.2 then let x := slotGet r.1 k; slotPut r.1 k { x with left := x.left + 1 } else slotFail s k 1 a

/-- A cell of a WRITE parcel put to memory: its sector whole once both halves have come, where the parcel holds both, so
that no read comes between them (R195). -/
def writeCell (s : State) (die node : Nat) (c : Cell) : State :=
  let first := c.addr - 32 * c.seq
  let other := if c.addr % 64 = 0 then c.addr + 32 else c.addr - 32
  let k := slotKey die node c.src c.tag
  let x := slotGet s k
  if other < first ∨ first + 32 * (c.ncell + 1) ≤ other then parcelAccess s die node c 1 c.addr 32 c.payload
  else match x.halves.find? (fun h => h.1 == other) with
    | none => slotPut s k { x with halves := x.halves ++ [(c.addr, c.payload)] }
    | some h =>
      let s := slotPut s k { x with halves := x.halves.filter (fun g => g.1 != other) }
      parcelAccess s die node c 1 (min c.addr other) 64 (if other < c.addr then h.2 ++ c.payload else c.payload ++ h.2)

/-- The pieces a read of a memory node is served in, one for each sector, with the first cell of
each. -/
def readPieces (a n : Nat) : List (Nat × Nat × Nat) := (cutSectors (n / 32 + 2) a n).map (fun p => (p.1, p.2, (p.1 - a) / 32))

/-- A read request at a memory node or at the capacity controllers. -/
def serveRead (s : State) (die node : Nat) (c : Cell) (a n dst tally : Nat) : State :=
  match cellFault s a n with
  | some r => lathNack s die node c.src c.tag r a
  | none => (readPieces a n).foldl (fun s p =>
      let q : MemReq :=
        { cls := c.cls, src := ownerDie c.src, kind := 2, addr := p.1, data := []
          ctx := [die, node, c.src, c.tag, p.2.1, p.2.2, n / 32, dst, tally] }
      (enqueueMem s q).1) s

/-- What follows a granted access: the reply's cells, or the parcel's answer. -/
def memServed (s : State) (r : MemReq) : State :=
  let x (i : Nat) : Nat := nthD r.ctx i 0
  if r.kind = 2 then
    let m := readMem s r.addr (x 4)
    match m.2 with
    | some b => lathReply m.1 (x 0) (x 1) (x 2) (x 3) (x 5) (x 6) (x 7) (x 8) b
    | none => lathNack m.1 (x 0) (x 1) (x 2) (x 3) 2 r.addr
  else
    let w := if r.kind = 1 then (let y := writeMem s r.addr r.data; (y.1, if y.2 then none else some 2))
      else memAdd s (sliceB r.data 0 16) r.addr (r.data.drop 16)
    let k := slotKey (x 0) (x 1) (x 2) (x 3)
    let v := slotGet w.1 k
    if v.tag ≠ x 3 then w.1
    else
      let t := slotPut w.1 k { v with left := v.left - 1 }
      let t := match w.2 with
        | some reason => slotFail t k reason r.addr
        | none => t
      slotAnswer t (x 0) (x 1) (x 2) (x 3) (x 4)

/-! Add and window assemblies (R238, R263). -/

def assemblyAt (s : State) (node : Nat) : List Assembly := stGet [] s.lath.assembly node

def assemblyPut (s : State) (node : Nat) (l : List Assembly) : State :=
  { s with lath := { s.lath with assembly := stSet [] s.lath.assembly node l } }

/-- The retry budget that a setting of LTH_RETRY gives, in ticks (R244). -/
def lathBudget (s : State) : Nat := (fieldOf (settingGet s rLthRetry) 10 8 + 1) * fieldOf (settingGet s rLthRetry) 7 0 * 1000

/-- The retry budget of the parcel a cell belongs to, by the setting it was injected under (R244, R426). -/
def parcelBudget (s : State) (c : Cell) : Nat :=
  match (chanGet s (ownerBlock s c.src) (c.src % 32)).window.find? (fun p => p.tag == c.tag) with
  | some p => if p.interval = 0 then lathBudget s else (p.retries + 1) * p.interval
  | none => lathBudget s

/-- A cell held for its parcel. -/
def holdCell (s : State) (node : Nat) (c : Cell) : State :=
  let l := assemblyAt s node
  let mine (a : Assembly) : Bool := a.src == c.src && a.win == c.tag % 16
  let l := l.map (fun a => if mine a && !a.cells.all (fun d => d.tag == c.tag) then { a with cells := [] } else a)
  if l.any mine then assemblyPut s node (l.map (fun a => if mine a then { a with cells := a.cells ++ [c], since := s.plumb } else a))
  else assemblyPut s node (l ++ [{ src := c.src, win := c.tag % 16, cells := [c], since := s.plumb, limit := parcelBudget s c }])

/-- A whole parcel's bytes taken out of its assembly, with its address. -/
def takeAssembly (s : State) (node : Nat) (c : Cell) : State × Nat × List Byte :=
  let mine (a : Assembly) : Bool := a.src == c.src && a.win == c.tag % 16
  let cells := ((assemblyAt s node).find? mine).elim [] (·.cells)
  let cell (i : Nat) : List Byte := (cells.find? (fun d => d.seq == i)).elim [] (·.payload)
  let first := (cells.find? (fun d => d.seq == 0)).elim 0 (·.addr)
  (assemblyPut s node ((assemblyAt s node).filter (fun a => !mine a)), first, (List.range (c.ncell + 1)).flatMap (fun i => sliceB (cell i) 0 32))

/-- The pieces of an add: by sector, or the block whole (R210). -/
def addPieces (desc : List Byte) (a n : Nat) : List (Nat × Nat) :=
  if leAt desc 0 1 = 4 then [(a, n)] else cutSectors (n / 32 + 2) a n

/-- A whole ADD parcel applied at a memory node (R208, R238); the tier has no adders. Its bytes are
the descriptor, the data, and the fill of the last cell. -/
def applyAdd (s : State) (die node : Nat) (c : Cell) : State :=
  let t := takeAssembly s (die * 16 + node) c
  let desc := sliceB t.2.2 0 16
  let n := if leAt desc 0 1 = 4 then 65 else 32 * c.ncell
  let k := slotKey die node c.src c.tag
  if die = 4 then slotFail t.1 k (if node = 2 then 3 else 5) t.2.1
  else (addPieces desc t.2.1 n).foldl (fun s p =>
    parcelAccess s die node c 4 p.1 (if leAt desc 0 1 = 4 then 64 else p.2) (desc ++ sliceB t.2.2 (16 + p.1 - t.2.1) p.2)) t.1

/-- The host window that holds `[a, a + n)` with a right (R263). -/
def windowFor (s : State) (a n : Nat) (write : Bool) : Option Window :=
  s.job.windows.find? (fun w => decide (w.base ≤ a) && decide (a + n ≤ w.base + w.len) && (if write then w.write else w.read))

/-- A parcel of the aperture refused: its NACK, which a resent parcel gets again (R238, R252). -/
def windowRefuse (s : State) (c : Cell) (write : Bool) (reason a : Nat) : State :=
  let r := if reason = 6 then 5 else reason
  lathNack (if write then slotFail s (slotKey 4 0 c.src c.tag) r a else s) 4 0 c.src c.tag r a

/-- A parcel of the aperture as one Scrim operation (R263); its refusal answers without leaving
the device. -/
def windowOp (s : State) (c : Cell) (write : Bool) (a n dst tally : Nat) (data : List Byte) : State :=
  match windowFor s a n write with
  | none => windowRefuse s c write 5 a
  | some w =>
    let r := issueOp s (.window c.src c.tag dst (n / 32 - 1) tally) 0 (if write then 1 else 2) w.peer (c.src % 32) c.cls
      (w.host + (a - w.base)) data n
    match r.2 with
    | none => r.1
    | some reason => windowRefuse r.1 c write reason a

/-- Whether a window operation of a parcel is still open. -/
def windowOpen (s : State) (src tag : Nat) : Bool :=
  opOpen s (fun o => match o with
    | .window x t _ _ _ => x == src && t == tag
    | _ => false)

/-! Requests at their node (R229, R238). -/

/-- A cell of a parcel accepted at its node. -/
def acceptCell (s : State) (die node : Nat) (c : Cell) : State :=
  if c.kind = 4 then holdCell s (die * 16 + node) c
  else if die < 4 ∧ node < 8 then
    { s with chip := { s.chip with clusterBuf := stSetMany 0 s.chip.clusterBuf ((die * 8 + node) * 2 ^ 24 + c.addr % 2 ^ 24) c.payload } }
  else if die = 4 ∧ node = 0 then
    if c.addr < 2 ^ 24 then { s with chip := { s.chip with hubBuf := stSetMany 0 s.chip.hubBuf c.addr c.payload } }
    else holdCell s (die * 16 + node) c
  else writeCell s die node c

/-- A parcel whose last cell has come (R229). -/
def parcelWhole (s : State) (die node : Nat) (c : Cell) : State :=
  if c.kind = 4 then slotAnswer (applyAdd s die node c) die node c.src c.tag c.ncell
  else if die = 4 ∧ node = 0 ∧ 2 ^ 24 ≤ c.addr then
    let t := takeAssembly s 64 c
    windowOp t.1 c true t.2.1 (32 * (c.ncell + 1)) 0 c.tally t.2.2
  else
    let s := if (die < 4 ∧ node < 8) ∨ (die = 4 ∧ node = 0) then tallyBump s (blockOfNode die node) c.tally (32 * (c.ncell + 1)) else s
    slotAnswer s die node c.src c.tag c.ncell

/-- A WRITE or ADD cell through its reassembly slot (R238). -/
def reassemble (s : State) (die node : Nat) (c : Cell) : State :=
  let k := slotKey die node c.src c.tag
  let x := slotGet s k
  let d := (x.tag + 4096 - c.tag) % 4096
  if d = 0 ∧ bitOf x.mask c.seq then
    let s := lathCount s die 4 1
    if windowOpen s c.src c.tag then s else slotAnswer s die node c.src c.tag c.ncell
  else if 16 ≤ d ∧ d ≤ 2047 then lathAck (lathCount s die 4 1) die node c.src c.tag
  else
    let x := if d = 0 then x else { slot0 with tag := c.tag }
    let x := { x with mask := x.mask ||| 2 ^ c.seq }
    let s := acceptCell (slotPut s k x) die node c
    if x.whole c.ncell then parcelWhole s die node c else s

/-- A READ request at its node (R230): served from a cluster's buffer at once, from memory sector by
sector, from a window by a GET. -/
def readRequest (s : State) (die node : Nat) (c : Cell) : State :=
  let a := leAt c.payload 0 6 % 2 ^ 42
  let n := leAt c.payload 6 3
  let dst := leAt c.payload 9 4
  let tally := leAt c.payload 13 1
  if die < 4 ∧ node < 8 then
    lathReply s die node c.src c.tag 0 (n / 32) dst tally (stGetMany 0 s.chip.clusterBuf ((die * 8 + node) * 2 ^ 24 + a % 2 ^ 24) n)
  else if die = 4 ∧ node = 0 then (if windowOpen s c.src c.tag then s else windowOp s c false a n dst tally [])
  else serveRead s die node c a n dst tally

/-- Whether a node can take a cell (R238): an ADD parcel needs one of 64 assembly buffers. -/
def canEject (s : State) (die node : Nat) (c : Cell) : Bool :=
  c.kind != 4 || (die == 4) || (assemblyAt s (die * 16 + node)).any (fun a => a.src == c.src && a.win == c.tag % 16)
    || decide ((assemblyAt s (die * 16 + node)).length < 64)
    || (let x := slotGet s (slotKey die node c.src c.tag); x.tag == c.tag && bitOf x.mask c.seq)

/-- A cell ejected at its DEST. -/
def ejectCell (s : State) (die node : Nat) (c : Cell) : State :=
  if c.kind = 3 ∨ c.kind = 5 ∨ c.kind = 6 then
    let b := blockOfNode die node
    { s with lath := { s.lath with inbox := stSet [] s.lath.inbox b (stGet [] s.lath.inbox b ++ [c]) } }
  else if c.kind = 2 then readRequest s die node c
  else reassemble s die node c

/-! One cycle of a router (R237). -/

/-- A cell that leaves by an output: 0 clockwise, 1 the other way, 2 the link. -/
def leaveBy (s : State) (plane die node out : Nat) (c : Cell) : State :=
  let n := (ringOf die).length
  let next : Nat × Nat := match out with
    | 0 => (die, ringStep die node 1)
    | 1 => (die, ringStep die node (n - 1))
    | _ => (linkOf die node).getD (die, node)
  let k := ringKey plane next.1 next.2
  { s with lath := { s.lath with rings := stSet [] s.lath.rings k (stGet [] s.lath.rings k ++ [{ c with way := out }]) } }

/-- A cell that was refused what it asked for: counted, or dropped at 63 deflections. -/
def deflect (s : State) (die : Nat) (c : Cell) : State × Option Cell :=
  if c.defl = 63 then (lathCount s die 1 1, none)
  else (lathCount s die 2 1, some (updateCrc c { c with defl := c.defl + 1 }))

/-- Whether a cell at a node came round the ring and is bound for a compute die, so that the link to the hub is not for
it: the hub is no transit point between compute dies (R15). -/
def ringBound (die node : Nat) (c : Cell) : Bool :=
  decide (die < 4) && node == 12 && decide (c.dest / 16 < 4) && c.way != 2

/-- The free outputs a cell may take while others wait: at the gateway to the hub, those bound to the ring keep it. -/
def mayTake (die node : Nat) (c : Cell) (others : List Cell) (free : List Nat) : List Nat :=
  let ring := free.filter (fun o => decide (o < 2))
  let need := (others.filter (ringBound die node)).length
  let may := if ringBound die node c then ring else if 0 < need ∧ ring.length ≤ need then free.filter (fun o => o == 2) else free
  if may.isEmpty then free else may

/-- Cells placed on the outputs still free, in the order of R29 and R30: each by its preferred one,
or deflected to another. -/
def placeCells (plane die node base : Nat) : Nat → List Cell → List Nat → State → State × List Nat
  | 0, _, free, s => (s, free)
  | fuel + 1, cs, free, s =>
    match grant s base 3 (cs.map (fun c => (c.way, c.cls))) with
    | none => (s, free)
    | some (w, s) => match cs.find? (fun c => c.way == w) with
      | none => (s, free)
      | some c =>
        let cs := cs.filter (fun d => d.way != w)
        let pref := preferred s die node c
        let want := pref.getD 0
        let may := mayTake die node c cs free
        let out := if may.contains want then some want else may.head?
        match out with
        | none => placeCells plane die node base fuel cs free s
        | some o =>
          let r := if pref = some o then (s, some c) else deflect s die c
          match r.2 with
          | none => placeCells plane die node base fuel cs free r.1
          | some c => placeCells plane die node base fuel cs (free.filter (· != o)) (leaveBy r.1 plane die node o c)

/-- The parcel of an owner changed. -/
def parcelMap (s : State) (src tag : Nat) (f : Parcel → Parcel) : State :=
  let b := ownerBlock s src
  let x := chanGet s b (src % 32)
  chanPut s b (src % 32) { x with window := x.window.map (fun p => if p.tag = tag then f p else p) }

/-- A cell injected: its parcel takes the retry setting with its first one (R244, R426), and its owner times it from
its last (R239). -/
def noteInjected (s : State) (left : List Cell) (c : Cell) : State :=
  if c.kind = 1 ∨ c.kind = 2 ∨ c.kind = 4 then
    let r := settingGet s rLthRetry
    let last := !left.any (fun d => d.src == c.src && d.tag == c.tag && d.kind == c.kind)
    parcelMap s c.src c.tag (fun p =>
      let p := if p.interval = 0 then { p with retries := fieldOf r 10 8, interval := 1000 * fieldOf r 7 0 } else p
      if last then { p with sentAt := some s.plumb } else p)
  else s

/-- A cell that has reached its INTER heads for its DEST in the same pass. -/
def reachInter (s : State) (die node : Nat) (c : Cell) : Cell :=
  if !c.phase ∧ c.inter / 16 = die ∧ physNode s c.inter = node then updateCrc c { c with phase := true } else c

/-- One local cell injected into an output still free (R232, R237). -/
def injectOne (s : State) (plane die node : Nat) (free : List Nat) : State :=
  let k := die * 16 + node
  let cs := stGet [] s.lath.inject k
  match free with
  | [] => s
  | o :: _ => match grant s (0x20000 + k) 32 (cs.map (fun c => (c.src % 32, c.cls))) with
    | none => s
    | some (ch, t) =>
      let cls := (cs.map (·.cls)).foldl min 7
      match cs.find? (fun c => c.src % 32 == ch && c.cls == cls) with
      | none => s
      | some c =>
        let left := cs.erase c
        let t := { t with lath := { t.lath with inject := stSet [] t.lath.inject k left } }
        let t := noteInjected t left c
        let c := reachInter t die node c
        let want := (preferred t die node c).getD 0
        leaveBy t plane die node (if free.contains want then want else o) c

/-- The cells a router takes in one cycle: the first of each way it can come. -/
def arrivals (cs : List Cell) : List Cell := [0, 1, 2].filterMap (fun w => cs.find? (fun c => c.way == w))

/-- The unit of the link behind a gateway (R28). -/
def linkUnit (die node : Nat) : Nat :=
  if die = 4 then unitDie 4 (0x504 + (node - 3))
  else unitDie die (match node with
    | 10 => if die % 2 = 0 then 0x501 else 0x503
    | 11 => if die < 2 then 0x502 else 0x500
    | _ => 0x504)

/-- Cells discarded on a gateway's link (R349): 1,000 in one second are one event on the link. -/
def linkDrops (s : State) (die node n : Nat) : State :=
  if n = 0 then s
  else
    let u := linkUnit die node
    let s := noteCorr s 5 u 0
    if corrCount s 5 u 0 (10 ^ 9) < 1000 then s
    else reportEvent (forgetCorr s 5 u) { errRec u 0x07 1 1 0 with syndrome := leBytes 8 1000 }

/-- LATH_CELL_ARRIVAL (R237): `bad` names the ways whose cell was damaged on its link, so that its CRC
no longer holds (R235). -/
def lathCellArrivalState (plane die node : Nat) (bad : List Nat) (s : State) : State :=
  if 72 ≤ plane ∨ 5 ≤ die ∨ !(ringOf die).contains node ∨ !released s then s
  else
    let k := ringKey plane die node
    let cs := stGet [] s.lath.rings k
    let came := arrivals cs
    let left := came.foldl (fun l c => l.erase c) cs
    let s := { s with lath := { s.lath with rings := stSet [] s.lath.rings k left } }
    let got := came.map (fun c => if bad.contains c.way then { c with crc := c.crc ^^^ 1 } else c)
    let good := (got.filter cellSound).map (reachInter s die node)
    let s := lathCount s die 0 (came.length - good.length)
    let s := linkDrops s die node ((got.filter (fun c => c.way == 2 && !cellSound c)).length)
    let home := good.filter (fun c => (preferred s die node c).isNone && canEject s die node c)
    let e := grant s (0x10000 + 2 * k) 3 (home.map (fun c => (c.way, c.cls)))
    let out := match e with
      | none => none
      | some (w, _) => home.find? (fun c => c.way == w)
    let s := match e, out with
      | some (_, t), some c => ejectCell t die node c
      | _, _ => s
    let go := match out with
      | some c => good.filter (fun d => d.way != c.way)
      | none => good
    let outs := if (linkOf die node).isSome then [0, 1, 2] else [0, 1]
    let r := placeCells plane die node (0x10000 + 2 * k + 1) 3 go outs s
    if (linkOf die node).isSome then r.1 else injectOne r.1 plane die node r.2

/-- ADD_ASSEMBLY_TIMEOUT (R238): a buffer without progress for one retry budget is freed, and nothing
is applied. -/
def addAssemblyTimeoutState (node src win : Nat) (s : State) : State :=
  match (assemblyAt s node).find? (fun a => a.src == src && a.win == win) with
  | none => s
  | some a =>
    if s.plumb < a.since + a.limit then s
    else
      let s := assemblyPut s node ((assemblyAt s node).filter (fun x => x != a))
      let k := slotKey (node / 16) (node % 16) src win
      slotPut s k { slotGet s k with mask := 0 }

/-! The meanings of the rows. -/

/-- LATH_CELL_ARRIVAL (R237). A router places arriving cells by ejection, preferred output or deflection, and injects local cells into free outputs. -/
def execLathCellArrival (plane die node : Nat) (bad : List Nat) (s : State) : Host.Outcome State Fault Refusal :=
  .next (lathCellArrivalState plane die node bad s)

/-- ADD_ASSEMBLY_TIMEOUT (R238). An ADD assembly buffer with no progress for one retry budget is freed without applying anything. -/
def execAddAssemblyTimeout (node src win : Nat) (s : State) : Host.Outcome State Fault Refusal :=
  .next (addAssemblyTimeoutState node src win s)

end Sys2Proof.Machine
end

