-- ==== Sys2Proof/Machine/Transport.lean ====
section
/-! DEFINITION. The Scrim transport's inbound requests (R251–R264), its timers (R257, R259), and
the frames of layer 2 and ICMP (R246, R248). -/

namespace Sys2Proof.Machine

/-! Inbound requests. -/

/-- Whether the device takes requests: released, or in the safe state (R400, R402). -/
def taking (s : State) : Bool := released s || inSafe s

/-- Whether a request comes from a collective engine's channel (R255). -/
def isCollChan (h : ScHdr) : Bool := decide (0x20 ≤ h.chan) && decide (h.chan < 0x60) && decide (h.src < 0x1000)

/-- Whether `[a, a + n)` meets the collective region, which only the collective engine may
reach (R281). -/
def inCollRegion (s : State) (a n : Nat) : Bool :=
  decide (0 < s.coll.len) && decide (a < s.coll.base + s.coll.len) && decide (s.coll.base < a + max n 1)

/-- A PUT executed (R252): none, or the reason of its NACK. -/
def putRun (h : ScHdr) (data : List Byte) (s : State) : State × Option Nat :=
  if h.addr % 32 ≠ 0 ∨ h.len % 32 ≠ 0 ∨ h.len ≠ data.length ∨ 4096 < h.len then (s, some 6)
  else if inSafe s then
    if h.addr + h.len ≤ 0x10000 then ((cmdWrite s h.addr data).1, none) else (s, some 1)
  else if inCollRegion s h.addr h.len then (s, some 5)
  else match accessFault s h.addr h.len with
    | some r => (s, some r)
    | none => let w := writeMem s h.addr data; (w.1, if w.2 then none else some 2)

/-- PUT (R256): one that is not a collective's. -/
def putState (p : Packet) (s : State) : State :=
  match acceptScrim s p 0x1 with
  | (t, none) => t
  | (t, some (h, data)) => if taking t && !isCollChan h then sequenced t p h (putRun h data) else s

/-- An ACC executed (R252, R264). -/
def accRun (h : ScHdr) (data : List Byte) (s : State) : State × Option Nat :=
  let kind := leAt data 0 1
  let n := data.length - 16
  if h.len ≠ data.length ∨ data.length < 16 ∨ h.addr % (if kind = 4 then 64 else 32) ≠ 0 then (s, some 6)
  else if kind = 4 ∧ (n % 65 ≠ 0 ∨ n = 0 ∨ 62 * 65 < n) then (s, some 6)
  else if kind ≠ 4 ∧ n % 32 ≠ 0 then (s, some 6)
  else if inSafe s then (s, some 3)
  else
    let span := if kind = 4 then n / 65 * 64 else n
    if spaceOf s h.addr = 3 then (s, some 3)
    else if inCollRegion s h.addr span then (s, some 5)
    else match accessFault s h.addr span with
      | some r => (s, some r)
      | none => memAdd s (sliceB data 0 16) h.addr (data.drop 16)

/-- ACC (R264). -/
def accState (p : Packet) (s : State) : State :=
  match acceptScrim s p 0x4 with
  | (t, none) => t
  | (t, some (h, data)) => if taking t then sequenced t p h (accRun h data) else s

/-- The converting region an address lies in (R264). -/
def convertAt (s : State) (a : Nat) : Option ConvertRegion :=
  s.job.converts.find? (fun c => decide (c.base ≤ a) && decide (a < c.base + c.len))

/-- A GET of a converting region (R264): its bytes, or the reason of its NACK. -/
def getConverted (s : State) (c : ConvertRegion) (a n : Nat) : State × Except Nat (List Byte) :=
  match Format.ofByte c.stored with
  | none => (s, .error 6)
  | some (fmt, pal) =>
    let bb := 4 * fmt.bits
    let w := if c.target = 0x11 then 2 else 4
    let k := n / (32 * w)
    if a % bb ≠ 0 ∨ n % (32 * w) ≠ 0 ∨ k = 0 ∨ 4096 < n ∨ c.base + c.len < a + k * bb then (s, .error 6)
    else
      let x := readMem s a (k * bb)
      let y := readMem x.1 (c.exp + (a - c.base) / bb) k
      match x.2, y.2 with
      | some cs, some es =>
        let levels := paletteLevels s pal
        let f := if c.target = 0x11 then b16 else f32
        (y.1, .ok ((List.range k).flatMap (fun i => (unpackCodes fmt.bits (sliceB cs (bb * i) bb)).flatMap (fun q =>
          leBytes w (f.toCode (elemVal fmt levels 0 (leAt es i 1) q))))))
      | _, _ => (y.1, .error 2)

/-- A GET read (R252, R264). -/
def getRun (s : State) (h : ScHdr) : State × Except Nat (List Byte) :=
  match if inSafe s then none else convertAt s h.addr with
  | some c => getConverted s c h.addr h.len
  | none =>
    if h.addr % 32 ≠ 0 ∨ h.len % 32 ≠ 0 ∨ 4096 < h.len then (s, .error 6)
    else if inSafe s then
      if h.addr + h.len ≤ 0x10000 then (s, .ok ((cmdRead s h.addr h.len).2.getD [])) else (s, .error 1)
    else if inCollRegion s h.addr h.len then (s, .error 5)
    else match accessFault s h.addr h.len with
      | some r => (s, .error r)
      | none =>
        let r := readMem s h.addr h.len
        (r.1, match r.2 with
          | some b => .ok b
          | none => .error 2)

/-- A GET answered by GET_REPLY or NACK; `mark` notes it in the window. -/
def answerGet (s : State) (p : Packet) (h : ScHdr) (dup mark : Bool) : State :=
  let note (s : State) (code : Nat) : State := if mark then rxMark s h.src h.chan h.seq code else s
  match getRun s h with
  | (t, .ok b) => sendAnswer (note t 3) (originOf p h) 0x3 (h.last + 2 * boolNat dup) h.pkt h.npkt 0 b
  | (t, .error r) => sendNack (note t (16 + r)) p h dup r

/-- GET (R264); a duplicate answered by GET_REPLY is read again (R260). -/
def getState (p : Packet) (s : State) : State :=
  match acceptScrim s p 0x2 with
  | (t, none) => t
  | (t, some (h, _)) =>
    if !taking t then s
    else match rxCase t h.src h.chan h.seq with
      | .fresh => answerGet t p h false true
      | .busy => scrCount (rxTouch t h.src h.chan) 3 1
      | .answered code =>
        let t := scrCount (rxTouch t h.src h.chan) 3 1
        if code = 3 then answerGet t p h true false else sendNack t p h true (code - 16)
      | .stale => scrCount (rxTouch t h.src h.chan) 4 1
      | .noChannel => scrCount t 7 1

/-! Timers. -/

/-- A packet of the device's own that is due to be sent again (R259). -/
def pktDue (s : State) (o : ScrimOp) (k : TxPkt) : Bool :=
  !k.acked && decide (k.attempt < o.retries) && decide (k.sentAt + o.interval ≤ s.plumb) && decide (s.plumb < o.limit)

/-- PACKET_RETRY (R259). -/
def packetRetryState (op idx : Nat) (s : State) : State :=
  match s.net.ops.find? (fun o => o.id == op && (match o.pkts[idx]? with
      | some k => pktDue s o k
      | none => false)) with
  | none => s
  | some o => match o.pkts[idx]? with
    | none => s
    | some k =>
      let k := { k with attempt := k.attempt + 1, sentAt := s.plumb }
      let n := { o with pkts := o.pkts.set idx k }
      sendPkt (scrCount (putOp s o n) 0 1) n k idx

/-- CHANNEL_EVICTION (R257). -/
def channelEvictionState (src : Nat) (s : State) : State :=
  { s with net := { s.net with rx := s.net.rx.filter (fun c => !(c.src == src && decide (c.lastAt + 150000000 ≤ s.plumb))) } }

/-! Frames of layer 2 and ICMP (R246, R248). -/

/-- A frame without its Ethernet addresses and its tag: EtherType and the rest. -/
def frameBody (f : List Byte) : Nat × List Byte :=
  if beAt f 12 2 = 0x8100 then (beAt f 16 2, f.drop 18) else (beAt f 12 2, f.drop 14)

/-- A frame sent whole: to the port's next hop, with its tag where it has one (R245, R248). -/
def sendRaw (s : State) (port etype : Nat) (body : List Byte) : State :=
  let c := nthD s.net.ports port port0
  let tag := if c.vlan = 0 then [] else beBytes 2 0x8100 ++ beBytes 2 c.vlan
  let f : TxFrame :=
    { port := port, raw := true, mac := sliceB c.nextHop 0 6, tag := c.vlan, src := [], ip := [], sport := 0, dport := 0, sum := 0
      hops := 64, df := true, dscp := csrField s rScrDscp 5 0, ecn := 0
      payload := sliceB c.nextHop 0 6 ++ sliceB c.mac 0 6 ++ tag ++ beBytes 2 etype ++ body }
  { s with net := { s.net with tx := s.net.tx ++ [f] } }

/-- ARP_REQUEST (R248). -/
def arpRequestState (port : Nat) (frame : List Byte) (s : State) : State :=
  let (t, b) := frameBody frame
  if !portUsable s port || t != 0x0806 || beAt b 0 8 != 0x0001080006040001 then s
  else
    let own := ip4Of s port
    if own.isEmpty || sliceB b 24 4 != own then s
    else sendRaw s port 0x0806 (beBytes 8 0x0001080006040002 ++ sliceB (nthD s.net.ports port port0).mac 0 6 ++ own ++ sliceB b 8 10)

/-- An IPv6 packet of the device's own: hop limit 64 (R248). -/
def ip6Packet (s : State) (src dst : List Byte) (next : Nat) (body : List Byte) : List Byte :=
  beBytes 4 (6 * 2 ^ 28 + (csrField s rScrDscp 5 0) * 2 ^ 22) ++ beBytes 2 body.length ++ [byteOf next, byteOf 64] ++ src ++ dst ++ body

/-- An ICMPv6 message with its checksum over the pseudo-header. -/
def icmp6 (src dst : List Byte) (typ : Nat) (rest : List Byte) : List Byte :=
  let n := 4 + rest.length
  let pseudo := src ++ dst ++ beBytes 4 n ++ beBytes 4 58
  let body := [byteOf typ, 0, 0, 0] ++ rest
  [byteOf typ, 0] ++ beBytes 2 (inetSum (pseudo ++ body)) ++ rest

/-- NEIGHBOUR_SOLICITATION (R248): a solicited advertisement with the port's MAC address. -/
def neighbourSolicitationState (port : Nat) (frame : List Byte) (s : State) : State :=
  let (t, b) := frameBody frame
  if !portUsable s port || t != 0x86DD || leAt b 6 1 != 58 || leAt b 40 1 != 135 then s
  else
    let own := ip6Of s port
    let src := sliceB b 8 16
    if own.isEmpty || sliceB b 48 16 != own then s
    else
      let rest := beBytes 4 0x60000000 ++ own ++ [2, 1] ++ sliceB (nthD s.net.ports port port0).mac 0 6
      sendRaw s port 0x86DD (ip6Packet s own src 58 (icmp6 own src 136 rest))

/-- An IPv4 packet of the device's own: no options, don't-fragment, TTL 64 (R248). -/
def ip4Packet (s : State) (src dst : List Byte) (proto : Nat) (body : List Byte) : List Byte :=
  let h (c : Nat) : List Byte := [0x45, byteOf (csrField s rScrDscp 5 0 * 4)] ++ beBytes 2 (20 + body.length) ++ [0, 0, 0x40, 0]
    ++ [64, byteOf proto] ++ beBytes 2 c ++ src ++ dst
  h (inetSum (h 0)) ++ body

/-- ICMP_ECHO_REQUEST (R248): answered at class 5; a packet with options, extension headers or
fragments is discarded. -/
def icmpEchoRequestState (port : Nat) (frame : List Byte) (s : State) : State :=
  let (t, b) := frameBody frame
  if !portUsable s port then s
  else if t = 0x0800 then
    let own := ip4Of s port
    let len := beAt b 2 2
    let m := sliceB b 20 (len - 20)
    if own.isEmpty || sliceB b 16 4 != own then s
    else if leAt b 0 1 ≠ 0x45 ∨ beAt b 6 2 % 0x4000 ≠ 0 then scrCount s 6 1
    else if leAt b 9 1 ≠ 1 ∨ leAt m 0 1 ≠ 8 then s
    else
      let rest := m.drop 4
      let c := inetSum ([0, 0, 0, 0] ++ rest)
      sendRaw s port 0x0800 (ip4Packet s own (sliceB b 12 4) 1 ([0, 0] ++ beBytes 2 c ++ rest))
  else if t = 0x86DD then
    let own := ip6Of s port
    let m := sliceB b 40 (beAt b 4 2)
    if own.isEmpty || sliceB b 24 16 != own then s
    else if leAt b 6 1 ≠ 58 then scrCount s 6 1
    else if leAt m 0 1 ≠ 128 then s
    else sendRaw s port 0x86DD (ip6Packet s own (sliceB b 8 16) 58 (icmp6 own (sliceB b 8 16) 129 (m.drop 4)))
  else s

/-- PAUSE_FRAME (R246): a frame of a kind the ports do not support. -/
def pauseFrameState (port : Nat) (_frame : List Byte) (s : State) : State := if portUsable s port then scrCount s 6 1 else s

/-! The meanings of the rows. -/

/-- PUT (R256). An inbound Scrim PUT is executed once under the duplicate window and answered ACK or NACK after every sector is written. -/
def execPut (p : Packet) (s : State) : Host.Outcome State Fault Refusal :=
  .next (putState p s)

/-- GET (R264). An inbound Scrim GET is answered with GET_REPLY data, converted for converting regions, or a NACK. -/
def execGet (p : Packet) (s : State) : Host.Outcome State Fault Refusal :=
  .next (getState p s)

/-- ACC (R264). An inbound Scrim ACC is performed by the memory-side adders and answered after each sector or block is added. -/
def execAcc (p : Packet) (s : State) : Host.Outcome State Fault Refusal :=
  .next (accState p s)

/-- ARP_REQUEST (R248). An ARP request for the device's own IPv4 address is answered. -/
def execArpRequest (port : Nat) (frame : List Byte) (s : State) : Host.Outcome State Fault Refusal :=
  .next (arpRequestState port frame s)

/-- NEIGHBOUR_SOLICITATION (R248). An IPv6 neighbour solicitation for the device's own address is answered. -/
def execNeighbourSolicitation (port : Nat) (frame : List Byte) (s : State) : Host.Outcome State Fault Refusal :=
  .next (neighbourSolicitationState port frame s)

/-- ICMP_ECHO_REQUEST (R248). An ICMP echo request is answered at class 5. -/
def execIcmpEchoRequest (port : Nat) (frame : List Byte) (s : State) : Host.Outcome State Fault Refusal :=
  .next (icmpEchoRequestState port frame s)

/-- PAUSE_FRAME (R246). A PAUSE, PFC, LLDP or other unsupported frame is discarded and counted in SCR_RX_DROP. -/
def execPauseFrame (port : Nat) (frame : List Byte) (s : State) : Host.Outcome State Fault Refusal :=
  .next (pauseFrameState port frame s)

/-- PACKET_RETRY (R259). A sequenced packet with no answer within INTERVAL_US is sent again with ATTEMPT increased, up to RETRIES. -/
def execPacketRetry (op idx : Nat) (s : State) : Host.Outcome State Fault Refusal :=
  .next (packetRetryState op idx s)

/-- CHANNEL_EVICTION (R257). A receive-channel source pair with no arrival for 150 ms is evicted. -/
def execChannelEviction (src : Nat) (s : State) : Host.Outcome State Fault Refusal :=
  .next (channelEvictionState src s)

end Sys2Proof.Machine
end

