-- ==== Sys2Proof/Machine/CollGeo.lean ====
section
/-! DEFINITION. The torus, its groups and the mapping table (R272, R273), the layout of a landing
slot (R282, R290), and what a collective sends where (R283, R289–R291). -/

namespace Sys2Proof.Machine

/-- `n` rounded up to a multiple of `k`. -/
def up (n k : Nat) : Nat := ceilDiv n k * k

/-! The torus. Axis 0 is A, 1 is B, 2 is C. -/

/-- An axis's size (R273, R297). -/
def axisSize (s : State) (ax : Nat) : Nat :=
  1 + (match ax with
    | 0 => csrField s rColShapeLo 11 0
    | 1 => csrField s rColShapeLo 23 12
    | _ => csrField s rColShapeHi 11 0)

/-- This device's coordinate on an axis. -/
def axisCoord (s : State) (ax : Nat) : Nat :=
  match ax with
  | 0 => csrField s rColCoordLo 11 0
  | 1 => csrField s rColCoordLo 23 12
  | _ => csrField s rColCoordHi 11 0

/-- The table index of a coordinate (R273). -/
def tableIndex (s : State) (a b c : Nat) : Nat := (a * axisSize s 1 + b) * axisSize s 2 + c

/-- The coordinate of a table index on an axis. -/
def indexCoord (s : State) (i ax : Nat) : Nat :=
  match ax with
  | 0 => i / axisSize s 2 / axisSize s 1
  | 1 => i / axisSize s 2 % axisSize s 1
  | _ => i % axisSize s 2

/-- Devices of the job. -/
def jobSize (s : State) : Nat := axisSize s 0 * axisSize s 1 * axisSize s 2

/-- This device's table index. -/
def ownIndex (s : State) : Nat := tableIndex s (axisCoord s 0) (axisCoord s 1) (axisCoord s 2)

/-- The IDs of this device's group over one axis, in rank order (R273, R283). -/
def groupOf (s : State) (ax : Nat) : List Nat :=
  (List.range (axisSize s ax)).map (fun i =>
    let x (k : Nat) : Nat := if k = ax then i else axisCoord s k
    nthD s.coll.map (tableIndex s (x 0) (x 1) (x 2)) 0)

/-- Whether the device holds a coordinate (R146). -/
def placed? (s : State) : Bool := csrField s rColId 30 30 == 1 && csrField s rColId 31 31 == 0

/-- Axes of an AXES byte in the order C, B, A (R289, R290). -/
def axesOf (m : Nat) : List Nat := [2, 1, 0].filter (bitOf m)

/-- The group's size over several axes (R273). -/
def groupSize (s : State) (axes : List Nat) : Nat := axes.foldl (fun n ax => n * axisSize s ax) 1

/-- NF_LOCAL set (R164). -/
def setNf (s : State) : State := { s with step := { s.step with nfLocal := true } }

/-- Collective counter `i` of R297 advanced. -/
def colCount (s : State) (i n : Nat) : State := csrBump s (rColCounters + 4 * i) 31 0 n

/-! A collective's shape. -/

def Coll.opcode (c : Coll) : Nat := match c.cmd with
  | some k => k.opcode
  | none => 0x0703

/-- The axes the collective names. -/
def Coll.named (c : Coll) : List Nat := match c.cmd with
  | some k => axesOf (leAt k.body 0 1)
  | none => [2, 1, 0]

def Coll.n (c : Coll) : Nat := c.group.length
def Coll.isSum (c : Coll) : Bool := c.red == 1
def Coll.isWords (c : Coll) : Bool := c.red == 2 || c.red == 3
def Coll.gathers (c : Coll) : Bool := c.opcode == 0x0703

/-- B, the blocks of a chunk, or C, its words (R282, R290). -/
def Coll.blocks (c : Coll) : Nat := c.count / (32 * c.n)
def Coll.words (c : Coll) : Nat := ceilDiv c.count c.n

/-- The words chunk `j` holds (R290). -/
def Coll.chunkWords (c : Coll) (j : Nat) : Nat := min ((j + 1) * c.words) c.count - min (j * c.words) c.count

/-- Bytes of a block's digits on the wire (R279, R286). -/
def Coll.wireBlock (c : Coll) : Nat := if c.wire = 0x0C then 16 else 64

/-- Where the store of a slot begins in a phase of `n` members: after their control records (R282). -/
def storeAt (n : Nat) : Nat := up (32 * n) 4096

/-- Where the accumulators of a slot begin: after the exponent store of a chunk of `blocks` blocks (R282). -/
def accsAt (n blocks : Nat) : Nat := up (storeAt n + up (n * blocks) 32) 4096

/-- Where the words of a vote are gathered: after the word store (DESIGN CHOICE 24). -/
def outAt (n words : Nat) : Nat := up (storeAt n + up (4 * n * words) 32) 4096

/-- A landing slot's length (R282): the longest of its phases'. -/
def slotLen (s : State) (axes : List Nat) (red count : Nat) : Nat :=
  axes.foldl (fun m ax =>
    let n := axisSize s ax
    max m (if red = 1 then accsAt n (count / (32 * n)) + 192 * (count / (32 * n))
      else if red = 0 then storeAt n else storeAt n + up (4 * n * ceilDiv count n) 32)) 0

/-- Addresses in the slot: its start, its store, its accumulators, and where a vote's chunks are
gathered, a vote having no DST (DESIGN CHOICE 24). -/
def Coll.slot (s : State) (c : Coll) : Nat := s.coll.base + c.land
def Coll.store (s : State) (c : Coll) : Nat := c.slot s + storeAt c.n
def Coll.accs (s : State) (c : Coll) : Nat := c.slot s + accsAt c.n c.blocks
def Coll.out (s : State) (c : Coll) : Nat :=
  if c.vote = 0 then c.dst else c.slot s + outAt c.n c.words

/-- Where the exponents of an output of `b` blocks stand: after its codes (R279; DEDUCED 25). -/
def expsAfter (a b : Nat) : Nat := a + 64 * b

/-- Whether this device has data to broadcast in the phase (R289): it is the root in every axis
that is left. -/
def Coll.holds (s : State) (c : Coll) : Bool :=
  c.axes.all (fun ax =>
    -- the root's coordinate on the axis: ROOT counts as the table index does, over the named axes
    let below := (c.named.takeWhile (· != ax)).foldl (fun n a => n * axisSize s a) 1
    axisCoord s ax == c.root / below % axisSize s ax)

/-- What the device sends to rank `j` as its data of the phase (step 4 of R283): the address
there and the bytes. -/
def Coll.dataFor (s : State) (c : Coll) (j : Nat) : Nat × List Byte :=
  if c.isSum then
    let k := c.blocks * c.wireBlock
    (c.accs s, sliceB c.input (j * k) k)
  else if c.isWords then (c.store s + 4 * c.rank * c.words, sliceB c.input (4 * j * c.words) (4 * c.chunkWords j))
  else match c.opcode with
    | 0x0702 => (c.dst + c.rank * c.count, c.input)
    | 0x0704 => (c.dst, if c.holds s then c.input else [])
    | _ => (c.dst + c.rank * c.cap, sliceB c.input (j * c.cap) (leAt c.output (4 * j) 4))

/-- The exponent plane of chunk `j` (step 2 of R283). -/
def Coll.expsFor (s : State) (c : Coll) (j : Nat) : Nat × List Byte :=
  (c.store s + c.rank * c.blocks, sliceB c.input (c.n * c.blocks * c.wireBlock + j * c.blocks) c.blocks)

/-- The parts of rank `r`'s share of the gather, their addresses and lengths (R290). -/
def Coll.shareParts (s : State) (c : Coll) (r : Nat) : List (Nat × Nat) :=
  if c.isSum then [(c.out s + 64 * c.blocks * r, 64 * c.blocks), (expsAfter (c.out s) (c.n * c.blocks) + c.blocks * r, c.blocks)]
  else [(c.out s + 4 * c.words * r, 4 * c.chunkWords r)]

/-- Bytes of rank `r`'s share. -/
def Coll.shareLen (s : State) (c : Coll) (r : Nat) : Nat := (c.shareParts s r).foldl (fun n p => n + p.2) 0

/-- The parts of a member's packet at an address: 1 its exponents, 2 its data, 3 its share of the
gather, 4 the exponents of that share; the offset in that part, and the bytes left in it. -/
def Coll.place (s : State) (c : Coll) (r a : Nat) : Option (Nat × Nat × Nat) :=
  let within (b n : Nat) : Bool := decide (b ≤ a) && decide (a < b + n)
  let part (k b n : Nat) : Option (Nat × Nat × Nat) := if within b n then some (k, a - b, b + n - a) else none
  let me := c.rank
  let data : Option (Nat × Nat × Nat) :=
    if c.isSum then part 2 (c.accs s) (c.blocks * c.wireBlock)
    else if c.isWords then part 2 (c.store s + 4 * r * c.words) (4 * c.chunkWords me)
    else match c.opcode with
      | 0x0702 => part 2 (c.dst + r * c.count) c.count
      | 0x0704 => part 2 c.dst c.count
      | _ => part 2 (c.dst + r * c.cap) c.cap
  let exps := if c.isSum then part 1 (c.store s + r * c.blocks) c.blocks else none
  let share := if c.gathers then (List.zip [3, 4] (c.shareParts s r)).findSome? (fun p => part p.1 p.2.1 p.2.2) else none
  (exps.orElse (fun _ => share)).orElse (fun _ => data)

/-! Control records (R282). -/

/-- A control record. -/
def ctrlRecord (kind flags epoch cseq count op dst : Nat) : List Byte :=
  [byteOf kind, byteOf flags] ++ leBytes 2 epoch ++ leBytes 4 cseq ++ leBytes 4 count ++ [byteOf op, 0, 0, 0] ++ leBytes 8 dst
    ++ List.replicate 8 0

/-- A record's CSEQ in the phase (R290). -/
def Coll.seqNow (c : Coll) : Nat := (c.cseq + c.phase) % 2 ^ 32

/-- The record the device sends to rank `j`: NF_LOCAL of now (R292), TRUNC and the bytes sent in a
DONE of an ALL_TO_ALL (R291), FAIL in a PERMUTE vote (R295). -/
def Coll.recordFor (s : State) (c : Coll) (kind j : Nat) : List Byte :=
  let a2a := c.opcode == 0x0705 && kind == 3
  let fail := c.vote == 2 && (match s.coll.permute with
    | some p => p.failed
    | none => false)
  ctrlRecord kind (boolNat s.step.nfLocal + 2 * boolNat (a2a && c.trunc) + 4 * boolNat fail) c.epoch c.seqNow
    (if a2a then leAt c.output (4 * j) 4 else c.count) (c.opcode % 256) c.dst

/-- The rank a record's address stands for. -/
def Coll.rankAt (s : State) (c : Coll) (a : Nat) : Nat := (a - c.slot s) / 32

/-- Whether an address lies among a collective's control records. -/
def Coll.recAt (s : State) (c : Coll) (a : Nat) : Bool := decide (c.slot s ≤ a) && decide (a < c.store s)

/-! Collectives in flight. -/

def collOf (s : State) (op : Nat) : Option Coll := s.coll.running.find? (fun c => c.op == op)

def collSet (s : State) (op : Nat) (f : Coll → Coll) : State :=
  { s with coll := { s.coll with running := s.coll.running.map (fun c => if c.op = op then f c else c) } }

/-- A member of a collective changed. -/
def memberSet (s : State) (op j : Nat) (f : Member → Member) : State :=
  collSet s op (fun c => { c with members := c.members.mapIdx (fun i m => if i = j then f m else m) })

def member0 : Member :=
  { kind := 0, stored := 0, gathered := 0, sentExp := false, sentGo := false, sentData := false, sentDone := false, bytes := 0 }

/-- VOTING of COL_EPOCH (R297). -/
def syncVoting (s : State) : State := csrSetField s rColEpoch 17 17 (boolNat (s.coll.running.any (fun c => c.vote != 0)))

/-- Unit of the collective engine (R28). -/
def unitColl : Nat := unitHub 0x420

/-- The PERMUTE's vote has ended; FAIL stands where it found one or did not end well (R295). -/
def permuteVoted (s : State) (fail : Bool) : State :=
  { s with coll := { s.coll with permute := s.coll.permute.map (fun p => { p with stage := 3, failed := p.failed || fail }) } }

/-- A collective ends in failure (R285): its command, or the STEP_COMMIT of a vote (R167), gets the
status; a step replay follows, except from a vote. -/
def collEnd (s : State) (c : Coll) (status check : Nat) : State :=
  let s := syncVoting { s with coll := { s.coll with running := s.coll.running.filter (fun x => x.op != c.op) } }
  match c.vote with
  | 0 => match c.cmd with
    | some k => orderReplay (finish s k status) unitColl check
    | none => s
  | 1 =>
    let t := { s with step := { s.step with fence := none, fenceOps := none, vote := none, voteDone := false } }
    match s.step.fence with
    | some f => finish t f.cmd status
    | none => t
  | _ => permuteVoted s true

/-- A member's own part or the slot met a poisoned sector, or a packet of the collective failed. -/
def collFail (s : State) (op : Nat) : State := match collOf s op with
  | some c => collEnd s c stFault 0x0C
  | none => s

/-- Bytes written for a collective of this device. -/
def collWrite (s : State) (op a : Nat) (b : List Byte) : State :=
  let w := writeMem s a b
  if w.2 then w.1 else collFail w.1 op

/-- One PUT of at most 1 MiB to rank `j` (R250, R283). -/
def collPiece (s : State) (op j step cls a : Nat) (data : List Byte) : State :=
  match collOf s op with
  | none => s
  | some c =>
    let r := issueOp s (.collective op j step) op 1 (nthD c.group j 0) c.chan cls a data 0
    match r.2 with
    | none => r.1
    | some _ => collFail r.1 op

/-- Bytes sent to rank `j`, padded to a multiple of 32, in pieces of 1 MiB. -/
def collPieces (op j step cls : Nat) : Nat → Nat → List Byte → State → State
  | 0, _, _, s => s
  | fuel + 1, a, d, s => if d.isEmpty then s else
    collPieces op j step cls fuel (a + 2 ^ 20) (d.drop (2 ^ 20)) (collPiece s op j step cls a (d.take (2 ^ 20)))

def collSend (s : State) (op j step cls a : Nat) (d : List Byte) : State :=
  collPieces op j step cls (d.length / 2 ^ 20 + 1) a (sliceB d 0 (up d.length 32)) s

/-- A control record sent to rank `j`. -/
def sendRecord (s : State) (op j step kind : Nat) : State :=
  match collOf s op with
  | none => s
  | some c => collSend s op j step 1 (c.slot s + 32 * c.rank) (c.recordFor s kind j)

/-- Whether an operation of the collective is still undecided towards a rank in a step, or in any
step. -/
def outstanding (s : State) (op j step : Nat) : Bool := opOpen s (· == .collective op j step)
def anyOutstanding (s : State) (op : Nat) : Bool := opOpen s (fun o => match o with
  | .collective k _ _ => k == op
  | _ => false)

end Sys2Proof.Machine
end

