-- ==== Sys2Proof/Machine/CollRun.lean ====
section
/-! DEFINITION. The exact reduction (R286, R287), compression with error feedback (R288), and the
steps of a member (R283): what a collective does when a record, a packet or an answer comes. -/

namespace Sys2Proof.Machine

/-! Contributions and sums. -/

/-- The exponents of a block of this device's chunk, by member (R282). -/
def blockExps (s : State) (c : Coll) (k : Nat) : List Nat :=
  (List.range c.n).map (fun j => (memByte s (c.store s + j * c.blocks + k)).toNat)

/-- The agreed exponent E_max of R286. -/
def maxExp (es : List Nat) : Nat := es.foldl max 0

/-- The reference exponent of R286. -/
def refExp (emax : Nat) : Nat := emax - 19

/-- A contribution aligned to the reference exponent (R286). -/
def alignTerm (e eref : Nat) (m : Int) : Int := if eref ≤ e then m * (2 ^ (e - eref) : Nat) else shiftRne m ((e : Int) - eref)

/-- The 32 accumulators of a block, 48 bits each. -/
def accsOf (b : List Byte) : List Int := (unpackCodes 48 b).map (sextNat 48)

/-- One contribution added to a block's accumulators (R286); false where they cannot be read. -/
def addContribution (s : State) (c : Coll) (r k : Nat) (ms : List Int) : State × Bool :=
  let t := touchMem s (c.store s) (c.n * c.blocks)
  let s := t.1
  let es := blockExps s c k
  let emax := maxExp es
  let e := nthD es r 0
  if !t.2 then (s, false)
  else if emax = 0xFF then (s, true)
  else
    let a := c.accs s + 192 * k
    let x := readMem s a 192
    match x.2 with
    | none => (x.1, false)
    | some b =>
      let eref := refExp emax
      let w := writeMem x.1 a ((List.zipWith (· + ·) (accsOf b) (ms.map (alignTerm e eref))).flatMap (fun v => leBytes 6 (wrapInt 48 v)))
      (if e < eref then colCount w.1 0 1 else w.1, true)

/-- The digits of a contribution's blocks: G16 mantissas or G4 digits (R286). -/
def wireDigits (c : Coll) (b : List Byte) : List Int := (unpackCodes (c.wireBlock / 4) b).map (sextNat (c.wireBlock / 4))

/-- The whole blocks of a contribution from block `k` on. -/
def addContributions (c : Coll) (r : Nat) : List (List Byte) → Nat → State → State × Bool
  | [], _, s => (s, true)
  | b :: rest, k, s =>
    if c.blocks ≤ k ∨ b.length < c.wireBlock then (s, true)
    else
      let x := addContribution s c r k (wireDigits c b)
      if x.2 then addContributions c r rest (k + 1) x.1 else x

/-- The output block of R287: its exponent and mantissas. -/
def sumBlock (s : State) (c : Coll) (k : Nat) : Nat × List Int :=
  let emax := maxExp (blockExps s c k)
  let eref := refExp emax
  let ss := accsOf (memBytes s (c.accs s + 192 * k) 192)
  let e := if emax = 0xFF then 0xFF else canonicalExp .g16b32 [] (ss.map (fun v => fvInt v ((eref : Int) - 127)))
  (e, if e = 0xFF then ss.map (fun _ => 0) else ss.map (fun v => shiftRne v ((eref : Int) - e)))

/-- The output words of a chunk of OR or MAX (R290). -/
def wordChunk (s : State) (c : Coll) : List Byte :=
  (List.range (c.chunkWords c.rank)).flatMap (fun w =>
    let xs := (List.range c.n).map (fun j => leNat (memBytes s (c.store s + 4 * (j * c.words + w)) 4))
    leBytes 4 (xs.foldl (fun a x => if c.red = 2 then a ||| x else max a x) 0))

/-! The input of a phase. -/

/-- G16B32 blocks as exponents and mantissas. -/
def g16Blocks (codes exps : List Byte) : List (Nat × List Int) :=
  List.zip (exps.map BitVec.toNat) ((chunksOf 64 codes.length codes).map mantissas)

/-- A block's exact values. -/
def g16Vals (b : Nat × List Int) : List FV := b.2.map (fun m => if b.1 = 0xFF then .nan else fvInt m ((b.1 : Int) - 127))

/-- y = g + r of R288, at its canonical exponent. -/
def feedbackSum (g r : Nat × List Int) : Nat × List Int :=
  let ys := List.zipWith FV.add (g16Vals g) (g16Vals r)
  let e := canonicalExp .g16b32 [] ys
  (e, (quantBlock .g16b32 [] e ys).map (sextNat 16))

/-- Compressed blocks as wire bytes: digits, then exponents (R37). -/
def g4Wire (bs : List G4Block) : List Byte :=
  bs.flatMap (fun b => packCodes 4 (b.digits.map (wrapInt 4))) ++ bs.map (fun b => byteOf b.exp)

/-- The error-feedback tensor's planes of a slot: codes and exponents (R288, R338). -/
def efPlanes (s : State) (t : Tensor) (j : Nat) : Option (Nat × Nat) :=
  match planeAddr s t (plCode j), planeAddr s t (plExp j) with
  | some a, some e => some (a, e)
  | _, _ => none

/-- The contribution under G4B32 (R52, R288): without EF each block is compressed; with it the
residual goes to the pending slot of EF_TENSOR. -/
def g4Input (s : State) (c : Coll) (gs : List (Nat × List Int)) : State × Option (List Byte) :=
  let n := gs.length
  let sat (s : State) (bs : List G4Block) : State := colCount s 4 ((bs.filter (·.sat)).length)
  if !c.ef then
    let bs := gs.map (fun g => toG4 g.1 g.2)
    (sat s bs, some (g4Wire bs))
  else match tensorAt s c.efTensor with
    | none => (s, none)
    | some t => match efPlanes s t t.cur, efPlanes s t (1 - t.cur) with
      | some (a, e), some (b, f) =>
        let x := readMem s a (64 * n)
        let y := readMem x.1 e n
        match x.2, y.2 with
        | some rc, some re =>
          let bs := (List.zipWith feedbackSum gs (g16Blocks rc re)).map (fun v => toG4 v.1 v.2)
          let w := writeMem y.1 b (bs.flatMap (fun q => mantBytes q.residual))
          let w := writeMem w.1 f (bs.map (fun q => byteOf q.resExp))
          let s := tensorPut w.1 c.efTensor { t with pending := true, prevOk := false }
          (sat s bs, some (g4Wire bs))
        | _, _ => (y.1, none)
      | _, _ => (s, none)

/-- Two readings joined. -/
def readTwo (s : State) (a n b m : Nat) : State × Option (List Byte × List Byte) :=
  let x := readMem s a n
  let y := readMem x.1 b m
  (y.1, match x.2, y.2 with
    | some u, some v => some (u, v)
    | _, _ => none)

/-- The counts of an ALL_TO_ALL, each rounded up to a multiple of 32 and cut to CAP (R291). -/
def cutCounts (c : Coll) (b : List Byte) : List Nat × Nat :=
  let ws := (List.range c.n).map (fun j => up (leAt b (4 * j) 4) 32)
  (ws.map (fun w => min w c.cap), (ws.filter (fun w => decide (c.cap < w))).length)

/-- A phase's input read (R283, R288–R291). -/
def phaseInput (s : State) (c : Coll) : State × Option Coll :=
  if c.isSum then
    let n := c.count / 32
    let x := readTwo s c.src (64 * n) (expsAfter c.src n) n
    match x.2 with
    | none => (x.1, none)
    | some (cs, es) =>
      if c.wire = 0x0C then
        let y := g4Input x.1 c (g16Blocks cs es)
        (y.1, y.2.map (fun b => { c with input := b }))
      else (x.1, some { c with input := cs ++ es })
  else if c.opcode = 0x0705 then
    let x := readTwo s c.src (c.n * c.cap) c.cntAddr (4 * c.n)
    match x.2 with
    | none => (x.1, none)
    | some (d, cnt) =>
      let w := cutCounts c cnt
      (colCount x.1 2 w.2, some { c with input := d, output := w.1.flatMap (leBytes 4), trunc := decide (0 < w.2) })
  else if c.vote ≠ 0 ∧ c.phase = 0 then (s, some c)
  else if c.opcode = 0x0704 ∧ !c.holds s then (s, some { c with input := [] })
  else
    let x := readMem s c.src (if c.isWords then 4 * c.count else c.count)
    (x.1, x.2.map (fun b => { c with input := b }))

/-! The steps of a member (R283). -/

/-- Step 2 towards rank `j`. -/
def collExps (op : Nat) (s : State) (j : Nat) : State :=
  match collOf s op with
  | none => s
  | some c =>
    let m := nthD c.members j member0
    if !c.isSum ∨ m.sentExp ∨ m.kind = 0 then s
    else
      let x := c.expsFor s j
      collSend (memberSet s op j (fun m => { m with sentExp := true })) op j 2 2 x.1 x.2

/-- Step 3: GO to every member once the exponent planes of the own chunk are stored. -/
def collGo (op : Nat) (s : State) : State :=
  match collOf s op with
  | none => s
  | some c =>
    let me := nthD c.members c.rank member0
    if !c.isSum ∨ me.sentGo ∨ !c.members.all (fun m => m.stored == c.blocks) then s
    else
      let s := collSet s op (fun c => { c with members := c.members.map (fun m => { m with sentGo := true }) })
      let s := memberSet s op c.rank (fun m => { m with kind := max m.kind 2 })
      (List.range c.n).foldl (fun s j => if j = c.rank then s else sendRecord s op j 3 2) s

/-- The device's own part of the data applied here (R283). -/
def ownData (s : State) (c : Coll) : State :=
  let x := c.dataFor s c.rank
  if c.isSum then
    let r := addContributions c c.rank (chunksOf c.wireBlock x.2.length x.2) 0 s
    if r.2 then r.1 else collFail r.1 c.op
  else collWrite s c.op x.1 x.2

/-- Step 4 towards rank `j`. -/
def collData (op : Nat) (s : State) (j : Nat) : State :=
  match collOf s op with
  | none => s
  | some c =>
    let m := nthD c.members j member0
    if m.sentData ∨ m.kind < (if c.isSum then 2 else 1) then s
    else
      let s := memberSet s op j (fun m => { m with sentData := true })
      if j = c.rank then ownData s c
      else
        let x := c.dataFor s j
        collSend s op j 4 2 x.1 x.2

/-- Step 5 towards rank `j`: DONE once every data packet to it is acknowledged. -/
def collDone (op : Nat) (s : State) (j : Nat) : State :=
  match collOf s op with
  | none => s
  | some c =>
    let m := nthD c.members j member0
    if !m.sentData ∨ m.sentDone ∨ outstanding s op j 4 ∨ outstanding s op j 2 then s
    else
      let s := memberSet s op j (fun m => { m with sentDone := true })
      if j = c.rank then
        memberSet s op j (fun m => { m with kind := 3, bytes := if c.opcode = 0x0705 then leAt c.output (4 * j) 4 else 0 })
      else sendRecord s op j 5 3

/-- The share of the gather this device formed, by parts, as bytes (R287, R290); a block that is
not finite sets NF_LOCAL (R164, R292). -/
def formShare (s : State) (c : Coll) : State × List (List Byte) :=
  if c.isSum then
    let bs := (List.range c.blocks).map (sumBlock s c)
    let s := if bs.any (fun b => b.1 == 0xFF) then setNf s else s
    (s, [bs.flatMap (fun b => mantBytes b.2), bs.map (fun b => byteOf b.1)])
  else (s, [wordChunk s c])

/-- Where a REDUCE_SCATTER's output goes: its codes, then its exponents (DEDUCED 25). -/
def scatterParts (c : Coll) : List (Nat × Nat) := [(c.dst, 64 * c.blocks), (expsAfter c.dst c.blocks, c.blocks)]

/-- The slot's store and accumulators read to form the output: false where a sector is poisoned (R205). -/
def slotReads (s : State) (c : Coll) : State × Bool :=
  if c.isSum then touchAll [(c.store s, c.n * c.blocks), (c.accs s, 192 * c.blocks)] s
  else if c.isWords then touchMem s (c.store s) (4 * c.n * c.words) else (s, true)

/-- Step 6: DONE from every member, the output is formed (R283); in an ALL_REDUCE the gather of
the chunks follows (R290). -/
def collForm (op : Nat) (s : State) : State :=
  match collOf s op with
  | none => s
  | some c =>
    if c.formed ∨ !c.members.all (fun m => m.kind == 3) then s
    else
      let t := slotReads s c
      if !t.2 then collFail t.1 op else
      let s := collSet t.1 op (fun c => { c with formed := true })
      match c.opcode with
      | 0x0701 =>
        let f := formShare s c
        (List.zip (scatterParts c) f.2).foldl (fun s p => collWrite s op p.1.1 p.2) f.1
      | 0x0703 =>
        let f := formShare s c
        let ps := List.zip (c.shareParts s c.rank) f.2
        let s := ps.foldl (fun s p => collWrite s op p.1.1 p.2) f.1
        let s := memberSet s op c.rank (fun m => { m with gathered := c.shareLen s c.rank })
        (List.range c.n).foldl (fun s j => if j = c.rank then s else
          ps.foldl (fun s p => collSend s op j 6 2 p.1.1 p.2) s) s
      | 0x0705 => collWrite s op (c.cntAddr + 4 * c.n) (c.members.flatMap (fun m => leBytes 4 m.bytes))
      | _ => s

/-- Step 1: a phase starts (R283): the group over its axis, the input, the slot's store and
accumulators cleared, READY to every member, and the own exponent plane stored. -/
def startPhase (s : State) (op : Nat) : State :=
  match collOf s op with
  | none => s
  | some c =>
    let ax := c.axes.headD 2
    let g := groupOf s ax
    let c := { c with group := g, rank := axisCoord s ax, members := List.replicate g.length member0, formed := false, lastAt := s.plumb }
    let r := phaseInput s c
    match r.2 with
    | none => collFail r.1 op
    | some c =>
      let s := collSet r.1 op (fun _ => c)
      let s := if c.isSum then clearMem (clearMem s (c.store s) (up (c.n * c.blocks) 32)) (c.accs s) (192 * c.blocks) else s
      let s := memberSet s op c.rank (fun m => { m with kind := 1, sentExp := true, stored := if c.isSum then c.blocks else 0 })
      let s := if c.isSum then collWrite s op (c.expsFor s c.rank).1 (c.expsFor s c.rank).2 else s
      (List.range c.n).foldl (fun s j => if j = c.rank then s else sendRecord s op j 1 1) s

/-- The bytes a collective has put out, for its TALLY (R279). -/
def Coll.outBytes (c : Coll) : Nat :=
  match c.opcode with
  | 0x0701 => 65 * c.blocks
  | 0x0702 => c.n * c.count
  | 0x0703 => if c.isSum then 65 * c.blocks * c.n else 4 * c.count
  | 0x0704 => c.count
  | _ => c.members.foldl (fun n m => n + m.bytes) 0

/-- A collective completes (R283, R284, R291); a vote leaves its word (R165, R295), and fails where the word is
poisoned. -/
def collFinish (s : State) (c : Coll) : State :=
  let r := if c.vote = 0 then (s, some []) else readMem s (c.out s) 32
  match r.2 with
  | none => collFail r.1 c.op
  | some word =>
  let s := r.1
  let s := syncVoting { s with coll := { s.coll with running := s.coll.running.filter (fun x => x.op != c.op) } }
  match c.vote with
  | 0 => match c.cmd with
    | some k =>
      let s := tallyBump s 32 c.tally c.outBytes
      if c.trunc || c.truncIn then complete s k stFlagged cfTrunc [] else finish s k stOk
    | none => s
  | 1 => { s with step := { s.step with vote := some word, voteDone := true } }
  | _ => permuteVoted s (bitOf (leAt word 0 1) 2)

/-- Step 7: a phase is done once its output is formed, its operations are decided and, in an
ALL_REDUCE, every share has come; the next phase takes the output as its input (R290). -/
def collNext (op : Nat) (s : State) : State :=
  match collOf s op with
  | none => s
  | some c =>
    let gathered := !c.gathers || (c.members.mapIdx (fun r m => m.gathered == c.shareLen s r)).all id
    if !c.formed ∨ anyOutstanding s op ∨ !gathered then s
    else match c.axes.drop 1 with
      | [] => collFinish s c
      | rest => startPhase (collSet s op (fun _ => { c with axes := rest, phase := c.phase + 1, src := c.out s })) op

/-- Every step that can be taken, once; nothing new begins in S4 or deeper (R375). -/
def collOnce (op : Nat) (s : State) : State :=
  match collOf s op with
  | none => s
  | some c =>
    if 4 ≤ shedLevel s then s
    else
      let rs := List.range c.n
      let s := collGo op (rs.foldl (collExps op) s)
      collNext op (collForm op (rs.foldl (collDone op) (rs.foldl (collData op) s)))

/-! Records (R282, R292). -/

/-- A record taken by the collective it belongs to. -/
def takeRecord (s : State) (op r src : Nat) (b : List Byte) : State :=
  match collOf s op with
  | none => s
  | some c =>
    let kind := leAt b 0 1
    let fl := leAt b 1 1
    let a2aDone := c.opcode == 0x0705 && kind == 3
    if c.n ≤ r ∨ nthD c.group r 0x8000 ≠ src then s
    else
      let s := if bitOf fl 0 then setNf s else s
      let s := if c.vote = 2 ∧ bitOf fl 2 then { s with coll := { s.coll with permute := s.coll.permute.map (fun p => { p with failed := true }) } } else s
      if (leAt b 8 4 ≠ c.count ∧ !a2aDone) ∨ leAt b 12 1 ≠ c.opcode % 256 ∨ leAt b 16 8 ≠ c.dst then
        collEnd (decideEvent s (errRec unitColl 0x0C 0 1 0) false) c stFault 0x0C
      else
        let s := collSet s op (fun c => { c with lastAt := s.plumb, truncIn := c.truncIn || (a2aDone && bitOf fl 1) })
        memberSet s op r (fun m => { m with kind := max m.kind kind, bytes := if a2aDone then leAt b 8 4 else m.bytes })

/-- Kept records of the slot that are due now taken; those of an earlier phase dropped (R282). -/
def takeKept (op : Nat) (s : State) : State :=
  match collOf s op with
  | none => s
  | some c =>
    let here (k : KeptRec) : Bool := c.recAt s k.addr
    let old (k : KeptRec) : Bool := leAt k.body 2 2 != c.epoch || decide ((leAt k.body 4 4 + 2 ^ 32 - c.seqNow) % 2 ^ 32 ≥ 2 ^ 31)
    let due (k : KeptRec) : Bool := leAt k.body 2 2 == c.epoch && leAt k.body 4 4 == c.seqNow
    let ks := s.coll.kept.filter (fun k => here k && due k)
    let s := { s with coll := { s.coll with kept := s.coll.kept.filter (fun k => !(here k && (due k || (old k && leAt k.body 2 2 == c.epoch)))) } }
    ks.foldl (fun s k => takeRecord s op (c.rankAt s k.addr) k.src k.body) s

/-- Everything a collective can do now; `fuel` rounds, a phase taking a few. -/
def collRounds (op : Nat) : Nat → State → State
  | 0, s => s
  | fuel + 1, s => if (collOf s op).isNone then s else collRounds op fuel (collOnce op (takeKept op s))

def collAdvance (s : State) (op : Nat) : State := collRounds op 16 s

/-- Every collective moved on, as when a shed level is left. -/
def collAdvanceAll (s : State) : State := (s.coll.running.map (·.op)).foldl collAdvance s

end Sys2Proof.Machine
end

