-- ==== Sys2Proof/Machine/Collective.lean ====
section
/-! DEFINITION. The collective commands (R278–R280, R284, R293), the votes (R165, R290, R295), and
the packets, answers and timeouts of collectives (R281–R285). -/

namespace Sys2Proof.Machine

/-! Commands. -/

/-- A signed 16-bit difference of epochs (R293). -/
def epochDiff (a b : Nat) : Int := sextNat 16 (a + 65536 - b % 65536)

/-- The layout epoch (R293). -/
def epochOf (s : State) : Nat := csrField s rColEpoch 15 0

/-- The reduction an opcode allows (R278). -/
def redOk (op red : Nat) : Bool :=
  match op with
  | 0x0701 => red == 1
  | 0x0703 => red == 1 || red == 2 || red == 3
  | _ => red == 0

/-- The collective of a command's body (R279). -/
def collOfCmd (s : State) (c : Cmd) (chan : Nat) : Coll :=
  let b := c.body
  let red := leAt b 1 1
  let axes := axesOf (leAt b 0 1)
  { vote := 0, cmd := some c, op := c.op, red := red, wire := leAt b 2 1, ef := bitOf (leAt b 3 1) 0, efTensor := leAt b 24 2
    count := leAt b 4 4, src := leAt b 8 8, dst := leAt b 16 8, land := 4096 * leAt b 32 4, cap := leAt b 36 4
    cntAddr := leAt b 40 8, tally := leAt b 28 1, cseq := leAt b 48 4, epoch := c.epoch, root := leAt b 26 2, chan := chan
    axes := axes, phase := 0, input := [], group := groupOf s (axes.headD 2), rank := 0, members := [], formed := false
    output := [], trunc := false, truncIn := false, lastAt := s.plumb }

/-- The bytes a command reads at SRC and writes at DST. -/
def collSpans (s : State) (c : Cmd) : Nat × Nat :=
  let b := c.body
  let n := groupSize s (axesOf (leAt b 0 1))
  let count := leAt b 4 4
  if leAt b 1 1 = 1 then (65 * (count / 32), 65 * (count / 32) / (if c.opcode = 0x0701 then n else 1))
  else if leAt b 1 1 ≠ 0 then (4 * count, 4 * count)
  else match c.opcode with
    | 0x0702 => (count, n * count)
    | 0x0704 => (count, count)
    | _ => (n * leAt b 36 4, n * leAt b 36 4)

/-- Whether a slot overlaps that of a collective in flight (R280). -/
def slotTaken (s : State) (land len : Nat) : Bool :=
  s.coll.running.any (fun c => c.vote == 0 && decide (c.land < land + len) && decide (land < c.land + slotLen s c.named c.red c.count))

/-- Whether an error-feedback tensor can serve a reduction (R288). -/
def efOk (s : State) (i count : Nat) : Bool :=
  match tensorAt s i with
  | none => false
  | some t => t.kind == 3 && decide (count ≤ t.rows * t.k) && (efPlanes s t 0).isSome && (efPlanes s t 1).isSome

/-- The checks of a collective's body (R278–R280). -/
def collBodyOk (s : State) (c : Cmd) : Bool :=
  let b := c.body
  let ax := leAt b 0 1
  let axes := axesOf ax
  let red := leAt b 1 1
  let wire := leAt b 2 1
  let fl := leAt b 3 1
  let count := leAt b 4 4
  let n := groupSize s axes
  let land := 4096 * leAt b 32 4
  let len := slotLen s axes red count
  let sp := collSpans s c
  let single := c.opcode == 0x0701 || c.opcode == 0x0702 || c.opcode == 0x0705
  let addr (off : Nat) : Bool := decide (leAt b off 8 < 2 ^ 42)
  decide (0 < ax) && decide (ax < 8) && (!single || axes.length == 1) && redOk c.opcode red
    && (if red = 1 then wire == 0x0B || wire == 0x0C else wire == 0) && (wire != 0x0C || ax == 4)
    && decide (fl < 2) && (fl == 0 || wire == 0x0C)
    && (if red = 1 then count % (32 * n) == 0 else if red = 0 then count % 32 == 0 else decide (0 < count))
    && addr 8 && addr 16 && addr 40 && zeroAt b 29 3 && zeroAt b 52 12
    && (c.opcode != 0x0704 || decide (leAt b 26 2 < n))
    && (c.opcode != 0x0705 || (leAt b 36 4 % 32 == 0 && rangeOk s (leAt b 40 8) (8 * n)))
    && rangeOk s (leAt b 8 8) sp.1 && rangeOk s (leAt b 16 8) sp.2
    && decide (0x80000 ≤ land) && decide (land + len ≤ s.coll.len) && !slotTaken s land len
    && (fl == 0 || efOk s (leAt b 24 2) count)

/-- What refuses a collective (R280, R293): its epoch first; then a device without a coordinate
(DEDUCED 26); then its body. -/
def collCheck (s : State) (c : Cmd) : Option Nat :=
  let d := epochDiff c.epoch (epochOf s)
  if 0 < d then some stNotReady
  else if d < 0 ∨ s.coll.permute.isSome then some stEpochStale
  else if !placed? s then some stNotReady
  else if !collBodyOk s c then some stBadParam
  else none

/-- An engine channel no collective uses (R284). -/
def freeChannel (s : State) : Option Nat :=
  ((List.range 64).map (· + 0x20)).find? (fun ch => !s.coll.running.any (fun c => c.chan == ch && c.vote == 0))

/-- A collective starts (R283, R284). -/
def collStart (s : State) (c : Cmd) (chan : Nat) : State :=
  let s := fly s c
  let s := { s with coll := { s.coll with running := s.coll.running ++ [collOfCmd s c chan] }
                    step := { s.step with colStarted := true } }
  collAdvance (startPhase s c.op) c.op

/-- A collective's command: it waits at the head of its queue for a channel (R284), and while S4 or
a deeper level lets no work begin (R375). -/
def collRow (op q qseq : Nat) (s : State) : State :=
  waitRow s q qseq (fun c => c.opcode == op)
    (fun c t => if (collCheck t c).isNone && ((freeChannel t).isNone || decide (4 ≤ shedLevel t)) then some t else none)
    (fun c t => match collCheck t c, freeChannel t with
      | some st, _ => finish t c st
      | none, some ch => collStart t c ch
      | none, none => t)

/-- REDUCE_SCATTER (R286). -/
def reduceScatterState (q qseq : Nat) (s : State) : State := collRow 0x0701 q qseq s

/-- ALL_GATHER (R289). -/
def allGatherState (q qseq : Nat) (s : State) : State := collRow 0x0702 q qseq s

/-- ALL_REDUCE (R290). -/
def allReduceState (q qseq : Nat) (s : State) : State := collRow 0x0703 q qseq s

/-- BROADCAST (R289). -/
def broadcastState (q qseq : Nat) (s : State) : State := collRow 0x0704 q qseq s

/-- ALL_TO_ALL (R291). -/
def allToAllState (q qseq : Nat) (s : State) : State := collRow 0x0705 q qseq s

/-! Votes. -/

/-- A vote starts (R165, R290, R295): kind 1 in the commit slot, kind 2 in the PERMUTE slot. A vote
that finds no free channel shares the first (DEDUCED 27). The commit vote is a collective of the step (DEDUCED 95). -/
def startVote (s : State) (kind : Nat) (word : List Byte) : State :=
  let op := s.net.nextOp
  let c : Coll :=
    { vote := kind, cmd := none, op := op, red := 2, wire := 0, ef := false, efTensor := 0, count := 8, src := 0, dst := 0
      land := if kind = 1 then 0 else 0x40000, cap := 0, cntAddr := 0, tally := 0xFF, cseq := 4 * (stepsOf s % 2 ^ 30)
      epoch := epochOf s, root := 0, chan := (freeChannel s).getD 0x20, axes := [2, 1, 0], phase := 0, input := sliceB word 0 32
      group := [], rank := 0, members := [], formed := false, output := [], trunc := false, truncIn := false, lastAt := s.plumb }
  let s := { s with net := { s.net with nextOp := nextOpId op }, coll := { s.coll with running := s.coll.running ++ [c] }
                    step := { s.step with colStarted := s.step.colStarted || kind == 1 } }
  collAdvance (startPhase (syncVoting s) op) op

/-- Both vote slots cleared, as a replay or a takeover does before its first vote (R290). -/
def clearVotes (s : State) : State :=
  let s := clearMem s s.coll.base 0x80000
  { s with coll := { s.coll with kept := s.coll.kept.filter (fun k => decide (s.coll.base + 0x80000 ≤ k.addr)) } }

/-! The moves of a PERMUTE (R295). Their records stand in the PERMUTE slot at the member's table
index, carry OP 0x06 and a CSEQ of phase 3, which no vote uses (DESIGN CHOICE 28). -/

def permuteSlot (s : State) : Nat := s.coll.base + 0x40000
def moveSeq (s : State) : Nat := (4 * (stepsOf s % 2 ^ 30) + 3) % 2 ^ 32

/-- A move entry's fields (R294). -/
def moveLocal (e : List Byte) : Bool := leAt e 8 2 == 0x8000
def moveTo (e : List Byte) : Nat := leAt e 8 2

/-- The move list in memory; none where it cannot be read. -/
def moveList (s : State) (c : Cmd) : State × Option (List (List Byte)) :=
  let r := readMem s (leAt c.body 16 8) (32 * leAt c.body 24 4)
  (r.1, r.2.map (fun b => chunksOf 32 b.length b))

/-- The held PERMUTE changed. -/
def permuteSet (s : State) (f : Permute → Permute) : State :=
  { s with coll := { s.coll with permute := s.coll.permute.map f } }

/-- The PERMUTE's moves failed (R295). -/
def permuteFail (s : State) : State := permuteSet s (fun p => { p with failed := true })

/-- Bytes of a move or a record sent to a member, in pieces of 1 MiB; `fuel` pieces. -/
def movePieces (op i dev step cls : Nat) : Nat → Nat → List Byte → State → State
  | 0, _, _, s => s
  | fuel + 1, a, d, s => if d.isEmpty then s else
    let r := issueOp s (.collective op i step) op 1 dev 0x20 cls a (d.take (2 ^ 20)) 0
    let t := match r.2 with
      | none => r.1
      | some _ => permuteFail r.1
    movePieces op i dev step cls fuel (a + 2 ^ 20) (d.drop (2 ^ 20)) t

def moveRecord (s : State) (op i kind step : Nat) : State :=
  let fail := match s.coll.permute with
    | some p => p.failed
    | none => false
  let b := ctrlRecord kind (boolNat s.step.nfLocal + 4 * boolNat fail) (epochOf s) (moveSeq s) 0 0x06 0
  movePieces op i (nthD s.coll.map i 0) step 1 1 (permuteSlot s + 32 * ownIndex s) b s

/-- The moves to a member: its entries, or for this device itself those marked LOCAL or naming it. -/
def sendMoves (s : State) (c : Cmd) (i : Nat) : State :=
  let m := moveList s c
  let dev := nthD s.coll.map i 0
  let own := i == ownIndex s
  match m.2 with
  | none => permuteFail m.1
  | some es =>
    (es.filter (fun e => if moveLocal e then own else moveTo e == dev)).foldl (fun s e =>
      let r := readMem s (leAt e 0 8) (leAt e 24 4)
      match r.2 with
      | none => permuteFail r.1
      | some b =>
        if own then
          let w := writeMem r.1 (leAt e 16 8) b
          if w.2 then w.1 else permuteFail w.1
        else movePieces c.op i dev 7 2 (b.length / 2 ^ 20 + 1) (leAt e 16 8) b r.1) m.1

/-- One member's part of the moves: its entries once it is READY, then DONE once they are
acknowledged. -/
def moveStep (c : Cmd) (s : State) (i : Nat) : State :=
  match s.coll.permute with
  | none => s
  | some p =>
    let own := i == ownIndex s
    if p.ready.contains i && !p.sent.contains i then
      let s := sendMoves (permuteSet s (fun p => { p with sent := p.sent ++ [i] })) c i
      s
    else if p.sent.contains i && !p.closed.contains i && !outstanding s c.op i 7 then
      let s := permuteSet s (fun p => { p with closed := p.closed ++ [i] })
      if own then permuteSet s (fun p => { p with done := p.done ++ [i] }) else moveRecord s c.op i 3 5
    else s

/-- The PERMUTE vote's word: FAIL in bit 2 of its first byte (R295). -/
def permuteWord (failed : Bool) : List Byte := byteOf (4 * boolNat failed) :: List.replicate 31 0

/-- The vote started once DONE has come from every member, and every DONE of this device's own is
acknowledged. -/
def permuteToVote (s : State) : State :=
  match s.coll.permute with
  | none => s
  | some p =>
    let all := List.range (jobSize s)
    if p.stage ≠ 1 ∨ !all.all (fun i => p.done.contains i && p.closed.contains i) ∨ anyOutstanding s p.cmd.op then s
    else startVote (permuteSet s (fun p => { p with stage := 2 })) 2 (permuteWord p.failed)

/-- The moves' records of a member taken (R295). -/
def takeMoveRecord (s : State) (k : KeptRec) : State :=
  let i := (k.addr - permuteSlot s) / 32
  if nthD s.coll.map i 0x8000 ≠ k.src ∨ jobSize s ≤ i then s
  else
    let kind := leAt k.body 0 1
    let s := if bitOf (leAt k.body 1 1) 0 then setNf s else s
    permuteSet s (fun p => { p with
      ready := if p.ready.contains i then p.ready else p.ready ++ [i]
      done := if kind = 3 ∧ !p.done.contains i then p.done ++ [i] else p.done
      failed := p.failed || bitOf (leAt k.body 1 1) 2
      lastAt := s.plumb })

/-- Whether a kept record is one of the moves now running. -/
def isMoveRec (s : State) (k : KeptRec) : Bool :=
  decide (permuteSlot s ≤ k.addr) && decide (k.addr < permuteSlot s + 0x20000) && leAt k.body 12 1 == 0x06
    && leAt k.body 2 2 == epochOf s && leAt k.body 4 4 == moveSeq s

/-- Everything the PERMUTE can do now. -/
def permuteAdvance (s : State) : State :=
  match s.coll.permute with
  | none => s
  | some p =>
    if p.stage ≠ 1 ∨ 4 ≤ shedLevel s then s
    else
      let ks := s.coll.kept.filter (isMoveRec s)
      let s := { s with coll := { s.coll with kept := s.coll.kept.filter (fun k => !isMoveRec s k) } }
      let s := ks.foldl takeMoveRecord s
      let is := List.range (jobSize s)
      let s := is.foldl (moveStep p.cmd) (is.foldl (moveStep p.cmd) s)
      permuteToVote s

/-- The moves start at a seam (step 1 of R295): READY to every member. -/
def permuteStart (s : State) (seam : Cmd) : State :=
  match s.coll.permute with
  | none => s
  | some p =>
    let me := ownIndex s
    let s := permuteSet s (fun p => { p with stage := 1, seam := some seam, lastAt := s.plumb, ready := [me] })
    permuteAdvance ((List.range (jobSize s)).foldl (fun s i => if i = me then s else moveRecord s p.cmd.op i 1 1) s)

/-! Packets. -/

/-- The collective whose record area, store, slot or output a member's packet names. -/
def collFor (s : State) (h : ScHdr) : Option (Coll × Nat × Nat × Nat × Nat) :=
  s.coll.running.findSome? (fun c =>
    match (List.range c.n).find? (fun r => r != c.rank && nthD c.group r 0 == h.src) with
    | none => none
    | some r => (c.place s r h.addr).map (fun p => (c, r, p.1, p.2.1, p.2.2)))

/-- Whether a packet is a control record (R282): 32 bytes, in the record area of a collective in
flight, or in a part of the region that none in flight uses. -/
def isRecord (s : State) (h : ScHdr) (data : List Byte) : Bool :=
  data.length == 32 && inCollRegion s h.addr 32 && h.addr % 32 == 0
    && (s.coll.running.any (fun c => c.recAt s h.addr) || (collFor s h).isNone)

/-- The kind of a collective's packet: 1 READY, 2 GO, 3 DONE, 0 data and everything else. -/
def packetKind (s : State) (h : ScHdr) (data : List Byte) : Nat :=
  if isRecord s h data ∧ leAt data 0 1 ≤ 3 then leAt data 0 1 else 0

/-- A record that has arrived (R282): discarded for an old epoch, taken, or kept until its
collective starts. -/
def recordRun (h : ScHdr) (data : List Byte) (s : State) : State × Option Nat :=
  let k : KeptRec := { addr := h.addr, src := h.src, body := data }
  let keep (s : State) : State := { s with coll := { s.coll with kept := s.coll.kept ++ [k] } }
  let e := leAt data 2 2
  if epochDiff e (epochOf s) < 0 then (colCount s 1 1, none)
  else if isMoveRec s k then (permuteAdvance (keep s), none)
  else match s.coll.running.find? (fun c => c.recAt s h.addr) with
    | none => (keep s, none)
    | some c =>
      let d := (leAt data 4 4 + 2 ^ 32 - c.seqNow) % 2 ^ 32
      if e = c.epoch ∧ d = 0 then (collAdvance (takeRecord s c.op (c.rankAt s h.addr) h.src data) c.op, none)
      else if e ≠ c.epoch ∨ d < 2 ^ 31 then (keep s, none)
      else (s, none)

/-- The error an agent met in a packet's sums (R344): 1 its residue modulo 255, 2 parity of its paths. It ends the
collective. -/
def agentError (s : State) (c : Coll) (agent : Nat) : State :=
  let check := if agent = 1 then 0x02 else 0x05
  collEnd (decideEvent s (errRec unitColl check 1 1 0) false) c stFault check

/-- A data packet applied (R281, R283, R286): an exponent plane stored, contributions added, words
or bytes written. A PUT of no collective in flight is a move of the PERMUTE whose moves run (R295), or is refused: an ACK
would say that it was applied (R284). -/
def dataRun (agent : Nat) (h : ScHdr) (data : List Byte) (s : State) : State × Option Nat :=
  if isRecord s h data ∨ h.len ≠ data.length then (s, some 6)
  else match collFor s h with
    | none => if s.coll.permute.any (fun p => p.stage == 1) && s.coll.map.contains h.src then putRun h data s else (s, some 5)
    | some (c, r, part, _, left) =>
      let d := data.take left
      let s := collSet s c.op (fun c => { c with lastAt := s.plumb })
      if part = 2 ∧ c.isSum then
        if !(nthD c.members c.rank member0).sentGo then (s, some 6)
        else if agent ≠ 0 then (agentError s c agent, some 3)
        else
          let x := addContributions c r (chunksOf c.wireBlock d.length d) ((h.addr - c.accs s) / c.wireBlock) s
          (collAdvance x.1 c.op, if x.2 then none else some 2)
      else
        let w := writeMem s h.addr d
        if !w.2 then (w.1, some 2)
        else
          let s := if (part = 1 ∨ part = 4) ∧ d.any (· == 0xFF) then setNf w.1 else w.1
          let s := memberSet s c.op r (fun m => { m with
            stored := if part = 1 then m.stored + d.length else m.stored
            gathered := if part = 3 ∨ part = 4 then m.gathered + d.length else m.gathered })
          (collAdvance s c.op, none)

/-- A packet of a collective engine's channel of one kind. -/
def collPacket (kind agent : Nat) (p : Packet) (s : State) : State :=
  match acceptScrim s p 0x1 with
  | (t, none) => t
  | (t, some (h, data)) =>
    if released t && isCollChan h && packetKind t h data == kind then
      sequenced t p h (if kind = 0 then dataRun agent h data else recordRun h data)
    else s

/-- READY (R283). -/
def readyState (p : Packet) (s : State) : State := collPacket 1 0 p s

/-- GO (R283). -/
def goState (p : Packet) (s : State) : State := collPacket 2 0 p s

/-- DONE (R283). -/
def doneState (p : Packet) (s : State) : State := collPacket 3 0 p s

/-- COLLECTIVE_DATA (R286): `agent` is the error that the agents meet in its sums, 0 for none (R344). -/
def collectiveDataState (p : Packet) (agent : Nat) (s : State) : State := collPacket 0 agent p s

/-! Answers and timeouts. -/

/-- An operation of a collective decided (R258, R285): OK is progress, FAILED ends the
collective, and TIMEOUT leaves it to its own window. -/
def collDecided (s : State) (op : Nat) (ok late : Bool) : State :=
  match collOf s op with
  | some _ =>
    if ok then collAdvance (collSet s op (fun c => { c with lastAt := s.plumb })) op
    else if late then s
    else collFail s op
  | none => match s.coll.permute with
    | some p =>
      if p.cmd.op ≠ op then s
      else
        let s := permuteSet s (fun p => { p with lastAt := s.plumb, failed := p.failed || !ok })
        permuteAdvance s
    | none => s

/-- The inactivity window T of R285, in ticks. -/
def collWindow (s : State) : Nat := 1000 * max (fieldOf (settingGet s rColTimeout) 15 0) (fieldOf (settingGet s rScrOpTimeout) 15 0 + 40)

/-- COLLECTIVE_TIMEOUT (R285): a collective, a vote, or the moves of a PERMUTE without progress
for the window. -/
def collectiveTimeoutState (op : Nat) (s : State) : State :=
  match collOf s op with
  | some c => if c.lastAt + collWindow s ≤ s.plumb then collEnd (colCount s 3 1) c stTimeout 0x0B else s
  | none => match s.coll.permute with
    | some p =>
      if p.cmd.op = op ∧ p.stage = 1 ∧ p.lastAt + collWindow s ≤ s.plumb then
        startVote (permuteSet s (fun p => { p with stage := 2, failed := true })) 2 (permuteWord true)
      else s
    | none => s

/-! The meanings of the rows. -/

/-- REDUCE_SCATTER (R286). Reduces G16B32 or G4B32 contributions exactly over one axis, each member keeping its chunk. -/
def execReduceScatter (q qseq : Nat) (s : State) : Host.Outcome State Fault Refusal :=
  .next (reduceScatterState q qseq s)

/-- ALL_GATHER (R289). Sends each member's bytes to its offset in DST on every member. -/
def execAllGather (q qseq : Nat) (s : State) : Host.Outcome State Fault Refusal :=
  .next (allGatherState q qseq s)

/-- ALL_REDUCE (R290). Runs reduce-scatter and all-gather phases per named axis in the order C, B, A with SUM, OR or MAX. -/
def execAllReduce (q qseq : Nat) (s : State) : Host.Outcome State Fault Refusal :=
  .next (allReduceState q qseq s)

/-- BROADCAST (R289). Sends bytes from the root to every member, phase by phase over the named axes. -/
def execBroadcast (q qseq : Nat) (s : State) : Host.Outcome State Fault Refusal :=
  .next (broadcastState q qseq s)

/-- ALL_TO_ALL (R291). Sends each member's segment j to rank j, cut to CAP, and writes received byte counts. -/
def execAllToAll (q qseq : Nat) (s : State) : Host.Outcome State Fault Refusal :=
  .next (allToAllState q qseq s)

/-- READY (R283). A READY record from a collective member lets this member send its exponent plane or data to it. -/
def execReady (p : Packet) (s : State) : Host.Outcome State Fault Refusal :=
  .next (readyState p s)

/-- GO (R283). A GO record lets a SUM member send its data to the sender. -/
def execGo (p : Packet) (s : State) : Host.Outcome State Fault Refusal :=
  .next (goState p s)

/-- DONE (R283). A DONE record is noted; with DONE from every member the output is formed and the collective completes. -/
def execDone (p : Packet) (s : State) : Host.Outcome State Fault Refusal :=
  .next (doneState p s)

/-- COLLECTIVE_DATA (R286). A collective data or exponent packet is applied: stored, or aligned and added exactly into the A48 accumulators. -/
def execCollectiveData (d : CollPacket) (s : State) : Host.Outcome State Fault Refusal :=
  .next (collectiveDataState d.packet d.agent s)

/-- COLLECTIVE_TIMEOUT (R285). A collective with no progress for its inactivity window ends with TIMEOUT. -/
def execCollectiveTimeout (op : Nat) (s : State) : Host.Outcome State Fault Refusal :=
  .next (collectiveTimeoutState op s)

end Sys2Proof.Machine
end

