-- ==== Sys2Proof/Machine/Mapping.lean ====
section
/-! DEFINITION. MAP_SET in its two forms (R273–R277) and the admission of PERMUTE (R294). -/

namespace Sys2Proof.Machine

/-! Tables. -/

/-- A list of 2-byte IDs in memory. -/
def readIds (s : State) (a n : Nat) : State × Option (List Nat) :=
  let r := readMem s a (2 * n)
  (r.1, r.2.map (unpackCodes 16))

/-- The peer table in memory: 8,192 entries of 32 bytes (R253). -/
def readPeers (s : State) (a : Nat) : State × Option (List (List Byte)) :=
  let r := readMem s a (8192 * 32)
  (r.1, r.2.map (fun b => chunksOf 32 8192 b))

/-- The fields of MAP_SET's body (R274). -/
def msSelf (b : List Byte) : Nat := leAt b 0 2
def msShape (b : List Byte) : Nat × Nat × Nat := (leAt b 2 2, leAt b 4 2, leAt b 6 2)
def msFlags (b : List Byte) : Nat := leAt b 10 1
def msSpares (b : List Byte) : Nat := leAt b 12 2

/-- Devices of a shape. -/
def shapeSize (x : Nat × Nat × Nat) : Nat := x.1 * x.2.1 * x.2.2

/-- Whether a shape obeys R273. -/
def shapeOk (x : Nat × Nat × Nat) : Bool :=
  let ok (n : Nat) : Bool := decide (1 ≤ n) && decide (n ≤ 4096)
  ok x.1 && ok x.2.1 && ok x.2.2 && decide (shapeSize x ≤ 4096)

/-- Whether the body's own fields are in range (R274, R275). -/
def msBodyOk (s : State) (b : List Byte) : Bool :=
  let a (off : Nat) : Nat := leAt b off 8
  decide (msSelf b < 4096) && shapeOk (msShape b) && decide (msFlags b < 8) && leAt b 11 1 == 0
    && decide (msSpares b ≤ 64) && zeroAt b 14 2 && zeroAt b 52 12
    && decide (a 16 < 2 ^ 42) && decide (a 24 < 2 ^ 42) && decide (a 32 < 2 ^ 42) && decide (a 40 < 2 ^ 42)
    && a 40 % 2 ^ 21 == 0 && decide (1 ≤ leAt b 48 4) && inInterleaved s (a 40) (2 ^ 21 * leAt b 48 4)
    && rangeOk s (a 16) (2 * shapeSize (msShape b)) && rangeOk s (a 32) (2 * msSpares b)
    && (!bitOf (msFlags b) 1 || rangeOk s (a 24) (8192 * 32))

/-- Whether a list holds no element twice. -/
def noRepeats : List Nat → Bool
  | [] => true
  | a :: r => !r.contains a && noRepeats r

/-- Whether the IDs named obey R275. -/
def idsOk (self : Nat) (map spares : List Nat) : Bool :=
  let ids := map ++ spares
  ids.all (fun i => decide (i < 4096)) && noRepeats ids && ids.contains self

/-- Whether the peer table read serves every ID named (R275). -/
def peersOk (peers : Option (List (List Byte))) (ids : List Nat) : Bool :=
  match peers with
  | none => true
  | some ps => ids.all (fun i => bitOf (leAt (nthD ps i []) 17 1) 0)

/-- What MAP_SET reads: the mapping table, the spare list and, with PEERS, the peer table. -/
def readMapping (s : State) (b : List Byte) : State × Option (List Nat × List Nat × Option (List (List Byte))) :=
  let m := readIds s (leAt b 16 8) (shapeSize (msShape b))
  let p := readIds m.1 (leAt b 32 8) (msSpares b)
  let t : State × Option (Option (List (List Byte))) :=
    if bitOf (msFlags b) 1 then
      let r := readPeers p.1 (leAt b 24 8)
      (r.1, r.2.map some)
    else (p.1, some none)
  (t.1, match m.2, p.2, t.2 with
    | some x, some y, some z => some (x, y, z)
    | _, _, _ => none)

/-! What it sets. -/

/-- The axes on which two table indices differ. -/
def axesApart (s : State) (i j : Nat) : List Nat := [0, 1, 2].filter (fun ax => indexCoord s i ax != indexCoord s j ax)

/-- A peer's PORTS as R276 sets it: the axis's port pair where it differs in one coordinate. -/
def peerPorts (s : State) (id : Nat) (e : List Byte) : List Byte :=
  match (List.range s.coll.map.length).find? (fun i => nthD s.coll.map i 0x8000 == id) with
  | none => e
  | some i =>
    match axesApart s i (ownIndex s) with
    | [ax] => if placed? s then sliceB e 0 16 ++ [byteOf (3 * 4 ^ ax)] ++ sliceB e 17 15 else e
    | _ => e

/-- The peer table loaded (R253, R276). -/
def loadPeers (s : State) (ps : Option (List (List Byte))) : State :=
  match ps with
  | none => s
  | some l =>
    { s with net := { s.net with peers := (l.mapIdx (fun i e => (i, peerPorts s i (sliceB e 0 32)))).filter (fun p => p.2 != []) } }

/-- Shape, coordinate and ID registers (R275, R297). -/
def setCoordinate (s : State) (shape : Nat × Nat × Nat) (id : Nat) (map : List Nat) : State :=
  let (na, nb, nc) := shape
  let s := csrPut (csrPut s rColShapeLo ((na - 1) + (nb - 1) <<< 12)) rColShapeHi (nc - 1)
  let i := (List.range map.length).find? (fun i => nthD map i 0x8000 == id)
  let s := csrPut s rColId ((if i.isNone then 2 ^ 31 else 0) + 2 ^ 30 + id)
  let i := i.getD 0
  csrPut (csrPut s rColCoordLo (indexCoord s i 0 + indexCoord s i 1 <<< 12)) rColCoordHi (indexCoord s i 2)

/-! The commands. -/

/-- The checks of an INITIAL form that read no table (R275); without INITIAL and REMAP a MAP_SET
does nothing the spec names, and is refused (DEDUCED 29). -/
def mapSetCheck (s : State) (b : List Byte) : Option Nat :=
  if !bitOf (msFlags b) 0 then (if csrField s rColId 30 30 = 0 then some stNotReady else some stBadParam)
  else if !s.coll.running.isEmpty ∨ s.coll.permute.isSome ∨ (List.range 64).any (pregValid s) then some stNotReady
  else if !msBodyOk s b then some stBadParam
  else none

/-- MAP_SET, INITIAL form. -/
def bodyMapSet (c : Cmd) (s : State) : Option State :=
  let b := c.body
  match mapSetCheck s b with
  | some st => some (finish s c st)
  | none =>
    let r := readMapping s b
    match r.2 with
    | none => some (finish r.1 c stFault)
    | some (map, spares, peers) =>
      if !idsOk (msSelf b) map spares || !peersOk peers (map ++ spares) then some (finish r.1 c stBadParam)
      else
        let s := { r.1 with coll := { r.1.coll with map := map, spares := spares, base := leAt b 40 8, len := 2 ^ 21 * leAt b 48 4, kept := [] } }
        let s := csrSetField (setCoordinate s (msShape b) (msSelf b) map) rColEpoch 15 0 (leAt b 8 2)
        some (finish (loadPeers s peers) c stOk)

/-- The shape in force. -/
def shapeOf (s : State) : Nat × Nat × Nat := (axisSize s 0, axisSize s 1, axisSize s 2)

/-- What a REMAP must leave unchanged (R277). -/
def remapKeeps (s : State) (b : List Byte) : Bool :=
  msShape b == shapeOf s && leAt b 8 2 == epochOf s && msSelf b == csrField s rColId 11 0
    && leAt b 40 8 == s.coll.base && 2 ^ 21 * leAt b 48 4 == s.coll.len

/-- Whether the lists change as R277 allows: each changed entry takes a spare, and the spare list
loses exactly those. Which devices have been retired the fault manager knows of this device alone: its own entry may
change only once it has requested takeover; of the others the host decides (R364; DEDUCED 30). -/
def remapLists (s : State) (map spares : List Nat) : Bool :=
  let news := (List.zip s.coll.map map).filter (fun p => p.1 != p.2)
  map.length == s.coll.map.length && (csrField s rSngStatus 30 30 == 1 || !news.any (fun p => p.1 == csrField s rColId 11 0)) && news.all (fun p => s.coll.spares.contains p.2) && noRepeats map
    && spares == s.coll.spares.filter (fun i => !map.contains i)

/-- MAP_SET, REMAP form (R277). -/
def bodyMapSetRemap (c : Cmd) (s : State) : Option State :=
  let b := c.body
  if csrField s rColId 30 30 = 0 then some (finish s c stNotReady)
  else if !msBodyOk s b ∨ !remapKeeps s b then some (finish s c stBadParam)
  else
    let r := readMapping s b
    match r.2 with
    | none => some (finish r.1 c stFault)
    | some (map, spares, peers) =>
      if !idsOk (msSelf b) map spares || !remapLists s map spares || !peersOk peers (map ++ spares) then
        some (finish r.1 c stBadParam)
      else
        let s := r.1
        let moved := List.zip s.coll.map map
        let now (id : Nat) : Nat := ((moved.find? (fun p => p.1 == id)).map (·.2)).getD id
        let s := { s with coll := { s.coll with
          map := map, spares := spares
          running := s.coll.running.map (fun k => { k with group := k.group.map now }) } }
        some (finish (loadPeers (setCoordinate s (msShape b) (msSelf b) map) peers) c stOk)

/-- MAP_SET (R275). -/
def mapSetState (q qseq : Nat) (s : State) : State :=
  hostRow s q qseq (fun c => c.opcode == 0x0707 && !isRemap c) bodyMapSet

/-- MAP_SET with REMAP (R277). -/
def mapSetRemapState (q qseq : Nat) (s : State) : State :=
  hostRow s q qseq (fun c => c.opcode == 0x0707 && isRemap c) bodyMapSetRemap

/-! PERMUTE (R294). -/

def pmShape (b : List Byte) : Nat × Nat × Nat := (leAt b 2 2, leAt b 4 2, leAt b 6 2)

/-- The checks of PERMUTE's body that read no table (R294). -/
def permuteBodyOk (s : State) (b : List Byte) : Bool :=
  let a (off : Nat) : Nat := leAt b off 8
  leAt b 0 2 == (epochOf s + 1) % 65536 && shapeOk (pmShape b) && shapeSize (pmShape b) == s.coll.map.length
    && decide (a 8 < 2 ^ 42) && decide (a 16 < 2 ^ 42) && decide (a 32 < 2 ^ 42) && decide (leAt b 24 4 ≤ 2 ^ 20)
    && zeroAt b 28 4 && zeroAt b 40 24 && a 32 % 64 == 0
    && rangeOk s (a 8) (2 * shapeSize (pmShape b)) && rangeOk s (a 16) (32 * leAt b 24 4)
    && rangeOk s (a 32) (64 * s.job.tensors.length)

/-- The new mapping and parameter tables, where both are valid: the same IDs, and planes that fit
(R294, R200). -/
def permuteTables (s : State) (b : List Byte) : State × Option (List Nat × List Tensor) :=
  let m := readIds s (leAt b 8 8) (shapeSize (pmShape b))
  let t := readTable m.1 (leAt b 32 8) s.job.tensors.length
  (t.1, match m.2, t.2 with
    | some ids, some ts =>
      if noRepeats ids && ids.all (fun i => s.coll.map.contains i) && tableFits t.1 ts then some (ids, ts) else none
    | _, _ => none)

/-- Whether the entries of a move list are well formed (R294). -/
def movesOk (s : State) (es : List (List Byte)) : Bool :=
  es.all (fun e => (moveLocal e || s.coll.map.contains (moveTo e)) && zeroAt e 10 6 && zeroAt e 28 4 && leAt e 24 4 % 32 == 0
    && decide (leAt e 0 8 < 2 ^ 42) && decide (leAt e 16 8 < 2 ^ 42) && leAt e 0 8 % 32 == 0 && leAt e 16 8 % 32 == 0)

/-- PERMUTE admitted and held (R294, R295), or refused; the header's EPOCH is not its (R324). -/
def bodyPermute (c : Cmd) (s : State) : Option State :=
  if s.coll.permute.isSome ∨ !placed? s then some (finish s c stNotReady)
  else if !permuteBodyOk s c.body then some (finish s c stBadParam)
  else
    let r := permuteTables s c.body
    match r.2 with
    | none => some (finish r.1 c stBadParam)
    | some _ =>
      let p : Permute :=
        { cmd := c, stage := 0, ready := [], done := [], sent := [], closed := [], failed := false, lastAt := s.plumb, seam := none }
      let s := fly r.1 c
      some (csrSetField { s with coll := { s.coll with permute := some p } } rColEpoch 16 16 1)

/-- PERMUTE (R294). -/
def permuteState (q qseq : Nat) (s : State) : State := hostRow s q qseq (fun c => c.opcode == 0x0706) bodyPermute

/-- Whether a held PERMUTE runs at this seam (R295): no collective of an older epoch in flight, no
carried stack, and the last mirror finished. -/
def permuteDue (s : State) : Bool :=
  s.coll.permute.isSome && s.coll.running.isEmpty && !s.hawk.any (fun p => p.2.carried)
    && csrField s rSngMirror 28 28 == 0

/-- The PERMUTE set going at a seam: a table or move list that is no longer valid fails it. -/
def permuteBegin (s : State) (seam : Cmd) : State :=
  match s.coll.permute with
  | none => s
  | some p =>
    let t := permuteTables s p.cmd.body
    let m := moveList t.1 p.cmd
    let ok := t.2.isSome && (match m.2 with
      | some es => movesOk s es
      | none => false)
    permuteStart (if ok then m.1 else permuteFail m.1) seam

/-- The new layout installed (step 3 of R295); false where a table can no longer be read, and then nothing is. -/
def permuteInstall (s : State) (p : Permute) : State × Bool :=
  let b := p.cmd.body
  let t := permuteTables s b
  match t.2 with
  | none => (t.1, false)
  | some (ids, ts) =>
    let s := { t.1 with coll := { t.1.coll with map := ids }, job := { t.1.job with tensors := ts.map (fun x => { x with prevOk := false }) } }
    (csrSetField (setCoordinate s (pmShape b) (csrField s rColId 11 0) ids) rColEpoch 15 0 (leAt b 0 2), true)

/-! The meanings of the rows. -/

/-- PERMUTE (R294). Admits and holds a layout change to the next epoch until a seam meets its conditions. -/
def execPermute (q qseq : Nat) (s : State) : Host.Outcome State Fault Refusal :=
  .next (permuteState q qseq s)

/-- MAP_SET (R275). With INITIAL, sets device ID, shape, epoch, collective region and optionally the peer table. -/
def execMapSet (q qseq : Nat) (s : State) : Host.Outcome State Fault Refusal :=
  .next (mapSetState q qseq s)

/-- MAP_SET_REMAP (R277). Places spare devices at the coordinates of retired devices without changing the epoch. -/
def execMapSetRemap (q qseq : Nat) (s : State) : Host.Outcome State Fault Refusal :=
  .next (mapSetRemapState q qseq s)

end Sys2Proof.Machine
end

