-- ==== Sys2Proof/Machine/Patch.lean ====
section
/-! DEFINITION. What the fault manager does at a seam (R207, R352, R356) and patch tests: when a
unit falls due, which are taken, and how a test ends (R24–R26, R358–R360). -/

namespace Sys2Proof.Machine

/-! Pseudo-channel retirement (R207). -/

/-- Pseudo-channels of the stacks that are remapped. -/
def remappedCount (s : State) : Nat :=
  ((List.range 512).filter (fun i => bitOf (csrGet s (rMemPcStatus + 0x10000 * (i / 64) + 4 * (i % 64))) 30)).length

/-- A pseudo-channel copied into the next remap slot and served from there; its poisoned sectors
keep their poison. A ninth is handled as a stack retirement. -/
def retirePc (s : State) (st pc : Nat) : State :=
  let a := rMemPcStatus + 0x10000 * st + 4 * pc
  let n := remappedCount s
  if bitOf (csrGet s a) 30 then s
  else if 8 ≤ n then requestTakeover (csrSetField s a 31 31 1) (unitMem st 0xFF 0xFFF) 0x08
  else
    let here (k : Nat) : Bool := match locOf s (64 * k) with
      | .hbm x y _ => x == st && y == pc
      | _ => false
    let s := ((s.mem.errs.map (·.1)).filter here).foldl (meetSector true) s
    csrSetField s a 31 27 (24 + n)

/-- A unit retired at a seam (R352, R356). -/
def retireAtSeam (s : State) (unit : Nat) : State :=
  if fieldOf unit 31 28 = 6 ∧ fieldOf unit 23 16 ≠ 0xFF then retirePc (markRetired s unit) (fieldOf unit 27 24 % 8) (fieldOf unit 23 16)
  else match chanUnit unit with
    | some (b, p) => retireChan (markRetired s unit) unit b p 0
    | none => retireUnit s unit 0

/-- The retirements ordered for the seam (step 5 of R168). -/
def seamRetires (s : State) : State :=
  let us := s.snag.retires
  mapChanges (us.foldl retireAtSeam { s with snag := { s.snag with retires := [] } })

/-! Patch tests. -/

/-- Whether a unit ID names a unit of R358 that the fuses enable (R16), and none that is retired. -/
def testable (s : State) (unit : Nat) : Bool :=
  let sub := fieldOf unit 11 0
  let pc := unitCoreNo unit
  let named := match fieldOf unit 31 28 with
    | 2 => clusterEnabled s (pc / 9) && unit == unitCore pc 0xFFF
    | 3 => clusterEnabled s (fieldOf unit 27 24 * 8 + fieldOf unit 23 20) && unit == unitCluster (fieldOf unit 27 24 * 8 + fieldOf unit 23 20) 0xFFF
    | 6 => decide (fieldOf unit 27 24 < 8) && sub == 0x600 && unit == unitMem (fieldOf unit 27 24) 0xFF 0x600
    | 9 => unit == unitColl
    | _ => false
  named && !bitOf (snagEntry s.snag unit).flags 0

def isCoreUnit (unit : Nat) : Bool := fieldOf unit 31 28 == 2

/-- DUE and OLDEST_SEAMS of SNG_PATCH_STATE (R360). -/
def syncPatch (s : State) : State :=
  let d := s.snag.due
  csrSetField (csrSetField s rSngPatchState 31 16 d.length) rSngPatchState 15 8 (min 0xFF (d.foldl (fun m x => max m x.2.2) 0))

/-- A unit made due (R358, R360). -/
def makeDue (s : State) (unit : Nat) : State :=
  if s.snag.due.any (fun d => d.1 == unit) || s.snag.testing.any (fun d => d.1 == unit) then s
  else syncPatch { s with snag := { s.snag with due := s.snag.due ++ [(unit, s.snag.time, 0)] } }

/-- Nanoseconds of a number of minutes. -/
def minutes (n : Nat) : Nat := n * 60 * 10 ^ 9

/-- PATCH_TEST_DUE (R358): INTERVAL_MIN minutes of snag time after the unit's last pass. -/
def patchTestDueState (unit : Nat) (s : State) : State :=
  if released s && testable s unit
      && decide (stGet 0 s.snag.lastPass unit + minutes (csrField s rSngPatchCfg 15 0) ≤ s.snag.time) then makeDue s unit
  else s

/-- Whether a due unit has waited as long as R359 allows. -/
def forcedDue (s : State) (d : Nat × Nat × Nat) : Bool := decide (64 ≤ d.2.2) || decide (d.2.1 + minutes 30 ≤ s.snag.time)

/-- A cluster in which a core is now under test. -/
def clusterTesting (s : State) (n : Nat) : Bool := s.snag.testing.any (fun t => isCoreUnit t.1 && unitCoreNo t.1 / 9 == n)

/-- The due units put in ascending order. -/
def sortedDue (l : List (Nat × Nat × Nat)) : List (Nat × Nat × Nat) :=
  let put (acc : List (Nat × Nat × Nat)) (d : Nat × Nat × Nat) : List (Nat × Nat × Nat) :=
    acc.filter (fun x => decide (x.1 < d.1)) ++ [d] ++ acc.filter (fun x => decide (d.1 ≤ x.1))
  l.foldl put []

/-- One due unit at a seam (R359): tested now, with what is left of PER_SEAM and of the one other
test, or left to the next seam. A core under test is exchanged with its idle spare; in a cluster
whose spare is in permanent service the test runs in place. Mode 0 exchanged, 1 in place or no
core, 2 the idle spare itself. -/
def takeTest (r : State × Nat × Bool) (d : Nat × Nat × Nat) : State × Nat × Bool :=
  let (s, cores, other) := r
  let start (s : State) (mode : Nat) : State :=
    { s with snag := { s.snag with due := s.snag.due.filter (fun x => x.1 != d.1), testing := s.snag.testing ++ [(d.1, mode)] } }
  if isCoreUnit d.1 then
    let pc := unitCoreNo d.1
    let n := pc / 9
    if clusterTesting s n ∨ spareState s n = 1 ∨ (cores = 0 ∧ !forcedDue s d) then r
    else if spareState s n = 2 then (start s 1, cores - 1, other)
    else match logicalOf s n (pc % 9) with
      | none => (start s 2, cores - 1, other)
      | some k => (start (csrSetField (exchangeCore s n k) (rHubSpare + 4 * n) 5 4 1) 0, cores - 1, other)
  else if other ∧ !forcedDue s d then r
  else (start s 1, cores, true)

/-- Patch tests at a seam (step 5 of R168, R359), the cores that passed theirs having become spares (R25);
none while a shed level is in force (R375). -/
def seamTests (s : State) : State :=
  let s := (List.range 32).foldl takeSpares s
  let r : State × Nat × Bool :=
    if 1 ≤ shedLevel s then (s, 0, false) else (sortedDue s.snag.due).foldl takeTest (s, csrField s rSngPatchCfg 27 24, false)
  let s := r.1
  syncPatch { s with snag := { s.snag with due := s.snag.due.map (fun d => (d.1, d.2.1, d.2.2 + 1)) } }

/-- The tested core becomes its cluster's spare (R25) when the maps may next change (R21). -/
def becomeSpare (s : State) (unit mode : Nat) : State :=
  if isCoreUnit unit && mode == 0 then { s with snag := { s.snag with newSpares := s.snag.newSpares ++ [(unit, mode)] } } else s

/-- Whether a test runs in place on a core that a program uses (R26): the seam waits for it. -/
def seamWaits (s : State) : Bool :=
  s.snag.testing.any (fun t => t.2 == 1 && isCoreUnit t.1 && (logicalOf s (unitCoreNo t.1 / 9) (unitCoreNo t.1 % 9)).isSome)

/-- The commands that wait for a unit's test completed (R360). -/
def endTestCmds (s : State) (unit result kernel : Nat) : State :=
  let cs := s.snag.testCmds.filter (fun p => p.1 == unit)
  let s := { s with snag := { s.snag with testCmds := s.snag.testCmds.filter (fun p => p.1 != unit) } }
  cs.foldl (fun s p => complete s p.2 stOk 0 [byteOf result, byteOf kernel]) s

/-- The end of a patch test (R360): 0 passed; 1 failed and passed its second run, a transient event;
2 failed twice, a permanent fault. `pass` is the index of the failing pass in its kernel (R353). -/
def patchTestEnd (unit result kernel pass : Nat) (s : State) : State :=
  match s.snag.testing.find? (fun t => t.1 == unit) with
  | none => s
  | some (_, mode) =>
    let s := { s with snag := { s.snag with testing := s.snag.testing.filter (fun t => t.1 != unit) } }
    if result = 0 then
      let s := { s with snag := { s.snag with lastPass := stSet 0 s.snag.lastPass unit s.snag.time } }
      syncPatch (endTestCmds (becomeSpare s unit mode) unit 0 0xFF)
    else
      let s := csrBump s rSngPatchState 7 0 1
      let s := { s with snag := snagEvent s.snag unit }
      let dead := 2 ≤ result ∨ thirdEvent s.snag unit
      let s := snagRecord s { errRec unit 0x0E 0 (if dead then 2 else 1) 10 with syndrome := leBytes 2 kernel ++ leBytes 4 pass }
      let s := if dead then retireUnit s unit 0x0E
        else becomeSpare { s with snag := { s.snag with lastPass := stSet 0 s.snag.lastPass unit s.snag.time } } unit mode
      syncPatch (endTestCmds s unit (min result 2) kernel)

/-- PATCH_TEST (R360). -/
def bodyPatchTest (c : Cmd) (s : State) : Option State :=
  let unit := leAt c.body 0 4
  if !testable s unit ∨ 1 < leAt c.body 4 1 ∨ !zeroAt c.body 5 3 then some (finish s c stBadParam)
  else
    let s := fly s c
    let s := { s with snag := { s.snag with testCmds := s.snag.testCmds ++ [(unit, c)] } }
    some (if leAt c.body 4 1 = 1 then makeDue s unit else s)

/-- PATCH_TEST (R360). -/
def patchTestState (q qseq : Nat) (s : State) : State := hostRow s q qseq (fun c => c.opcode == 0x0901) bodyPatchTest

/-! The meanings of the rows. -/

/-- PATCH_TEST (R360). Makes a unit's patch test due, optionally at the next seam, and completes with its result. -/
def execPatchTest (q qseq : Nat) (s : State) : Host.Outcome State Fault Refusal :=
  .next (patchTestState q qseq s)

/-- PATCH_TEST_DUE (R358). A unit becomes due for a patch test INTERVAL_MIN minutes after its last pass. -/
def execPatchTestDue (unit : Nat) (s : State) : Host.Outcome State Fault Refusal :=
  .next (patchTestDueState unit s)

end Sys2Proof.Machine
end

