-- ==== Sys2Proof/Machine/Mirror.lean ====
section
/-! DEFINITION. The Dust-sheet mirror (R361–R363): its content, its seams, its pieces, and the
ledger copy (R316). -/

namespace Sys2Proof.Machine

/-- The device at (a, b, (c + 1) mod NC) (R361), none where NC is 1. -/
def buddyOf (s : State) : Option Nat :=
  if axisSize s 2 = 1 ∨ !placed? s then none
  else s.coll.map[tableIndex s (axisCoord s 0) (axisCoord s 1) ((axisCoord s 2 + 1) % axisSize s 2)]?

/-! Content (R361). -/

/-- The planes of slot `j` that a mirror holds: hi16, lo16, moments or factors, and S16 forms or
column factors. -/
def statePlanes (j : Nat) : List Nat := [plHi j, plLo j, plM1 j, plM2 j, plS16 j]

/-- A plane's place and its length, a plane's length being rounded up to 32 bytes (DEDUCED 31). -/
def planeSpan (s : State) (t : Tensor) (i : Nat) : List (Nat × Nat) :=
  match planeAddr s t i with
  | none => []
  | some a => match planeLen t i (pregLog2 s (t.plane i)) with
    | none => []
    | some n => [(a, up n 32)]

/-- The planes a mirror with the given FLAGS holds, in table order (R361). -/
def mirrorSpans (s : State) (ts : List Tensor) (flags : Nat) : List (Nat × Nat) :=
  let main := ts.flatMap (fun t => if t.kind = 3 then [] else (statePlanes t.cur).flatMap (planeSpan s t))
  let ef := if bitOf flags 0 then ts.flatMap (fun t => if t.kind = 3 then [plCode t.cur, plExp t.cur].flatMap (planeSpan s t) else []) else []
  let prev := if bitOf flags 1 then ts.flatMap (fun t => if t.kind = 3 then [] else planeSpan s t (plHi (1 - t.cur))) else []
  main ++ ef ++ prev

/-- The bytes of content: the table and the planes. -/
def mirrorLen (s : State) (flags : Nat) : Nat :=
  64 * s.job.tensors.length + (mirrorSpans s s.job.tensors flags).foldl (fun n p => n + p.2) 0

/-- Where half `h` of the MIRROR region starts (R361). -/
def halfBase (s : State) (h : Nat) : Nat := s.job.mirror.base + h * (s.job.mirror.len / 2)

/-- Whether a half takes the content (R363). -/
def mirrorFits (s : State) (flags : Nat) : Bool := decide (0 < s.job.mirror.len) && decide (4096 + mirrorLen s flags ≤ s.job.mirror.len / 2)

/-- A half's header (R361). -/
def mirrorHeader (s : State) (step state flags bytes : Nat) : List Byte :=
  leBytes 8 step ++ leBytes 2 (epochOf s) ++ [byteOf state, byteOf flags] ++ leBytes 2 (csrField s rColId 11 0) ++ [0, 0]
    ++ leBytes 8 bytes ++ leBytes 8 (if state = 2 then s.plumb else 0)

/-- Pieces of at most 1 MiB of a copy from one address to another (R250). -/
def cutPieces : Nat → Nat → Nat → Nat → List (Nat × Nat × Nat)
  | 0, _, _, _ => []
  | fuel + 1, a, b, n => if n = 0 then [] else
    let k := min n (2 ^ 20)
    (a, b, k) :: cutPieces fuel (a + k) (b + k) (n - k)

/-- The pieces of consecutive spans that land one after another. -/
def spanPieces (dst : Nat) : List (Nat × Nat) → List (Nat × Nat × Nat)
  | [] => []
  | p :: r => cutPieces (p.2 / 2 ^ 20 + 1) p.1 dst p.2 ++ spanPieces (dst + p.2) r

/-! The table's bytes are held with the header; a piece from them has 2^42 added to its source. -/

/-- A piece's bytes; none where memory cannot give them. -/
def pieceBytes (s : State) (a n : Nat) : State × Option (List Byte) :=
  if 2 ^ 42 ≤ a then (s, some (sliceB s.snag.mirrorHdr (a - 2 ^ 42) n)) else readMem s a n

/-- WRITING cleared: the mirror has ended. -/
def mirrorStop (s : State) : State :=
  csrSetField { s with snag := { s.snag with push := [], mirrorAcks := 0, mirrorHdr := [] } } rSngMirror 28 28 0

/-- The next piece sent once the last is acknowledged; class 5 is held from S2 on (R362, R375), and
by a stack in CASE (R213). -/
def mirrorPump (s : State) : State :=
  match s.snag.push, buddyOf s with
  | (a, b, n) :: rest, some buddy =>
    if 2 ≤ shedLevel s ∨ opOpen s (· == .mirror) ∨ (a < 2 ^ 42 ∧ bgClass s 0 = 5 ∧ caseHolds s a n) then s
    else
      let x := pieceBytes s a n
      match x.2 with
      | none => mirrorStop x.1
      | some d =>
        let r := issueOp { x.1 with snag := { x.1.snag with push := rest } } .mirror 0 1 buddy 0x60 (bgClass s 0) b d 0
        match r.2 with
        | none => r.1
        | some _ => mirrorStop r.1
  | _, _ => s

/-- The mirror of a seam started (step 9 of R168, R362). -/
def startMirror (s : State) (committed : Bool) : State :=
  let w := csrGet s rSngMirror
  let flags := fieldOf w 30 29
  if !committed ∨ !bitOf w 31 ∨ stepsOf s % max 1 (fieldOf w 27 20) ≠ 0 then s
  else if bitOf w 28 ∨ !mirrorFits s flags ∨ (buddyOf s).isNone then csrBump s rSngMirror 15 0 1
  else
    let base := halfBase s s.snag.mirrorHalf
    let bytes := mirrorLen s flags
    let table := s.job.tensors.flatMap tensorBytes
    let hdr := mirrorHeader s (stepsOf s) 1 flags bytes
    let t := table.length
    let pieces := (2 ^ 42, base, 32) :: cutPieces (t / 2 ^ 20 + 1) (2 ^ 42 + 32) (base + 4096) t
      ++ spanPieces (base + 4096 + t) (mirrorSpans s s.job.tensors flags)
    let s := { s with snag := { s.snag with push := pieces, mirrorStep := stepsOf s, mirrorAcks := 1, mirrorHdr := hdr ++ table } }
    mirrorPump (csrSetField s rSngMirror 28 28 1)

/-- MIRROR_COMPLETE (R362): every content PUT and the ledger copy acknowledged, the header is
written with STATE 0x2. -/
def mirrorCompleteState (s : State) : State :=
  match buddyOf s with
  | none => s
  | some buddy =>
    if s.snag.mirrorAcks ≠ 1 ∨ !s.snag.push.isEmpty ∨ opOpen s (fun o => o == .mirror || o == .ledger)
        ∨ 2 ≤ shedLevel s then s
    else
      let w := csrGet s rSngMirror
      let h := s.snag.mirrorHdr
      let d := sliceB h 0 10 ++ [2] ++ sliceB h 11 13 ++ leBytes 8 s.plumb
      let r := issueOp { s with snag := { s.snag with mirrorAcks := 2 } } .mirror 0 1 buddy 0x60 (bgClass s 0) (halfBase s s.snag.mirrorHalf) d 0
      if bitOf w 28 then (match r.2 with
        | none => r.1
        | some _ => mirrorStop r.1) else s

/-- A mirror operation decided (R362): the next piece goes out; the final header's answer makes the
half the newest complete mirror; a failure abandons the mirror (DEDUCED 32). -/
def mirrorDecided (s : State) (ok : Bool) : State :=
  if !ok then mirrorStop s
  else if s.snag.mirrorAcks = 2 then
    let s := csrPut64 s rSngMirrorStepLo s.snag.mirrorStep
    mirrorStop { s with snag := { s.snag with mirrorHalf := 1 - s.snag.mirrorHalf } }
  else mirrorPump s

/-- A ledger-copy operation decided: a copy that failed abandons the mirror that waits for it
(DEDUCED 32). -/
def ledgerDecided (s : State) (ok : Bool) : State := if ok then s else mirrorStop s

/-- MIRROR_CFG (R363). -/
def bodyMirrorCfg (c : Cmd) (s : State) : Option State :=
  let b := c.body
  let en := leAt b 0 1
  let n := leAt b 1 1
  let flags := leAt b 2 1
  if !betweenSteps s then some (finish s c stNotReady)
  else if 1 < en ∨ n = 0 ∨ 3 < flags ∨ !zeroAt b 3 5 ∨ axisSize s 2 = 1 ∨ !mirrorFits s flags then some (finish s c stBadParam)
  else some (finish (csrSetField (csrSetField s rSngMirror 31 29 (4 * en + flags)) rSngMirror 27 20 n) c stOk)

/-- MIRROR_CFG (R363). -/
def mirrorCfgState (q qseq : Nat) (s : State) : State := hostRow s q qseq (fun c => c.opcode == 0x0906) bodyMirrorCfg

/-- A ledger entry sent to the buddy's copy, at the same index (R316). -/
def copyLedger (s : State) (index : Nat) (entry : List Byte) (cls : Nat) : State :=
  match buddyOf s with
  | none => s
  | some buddy =>
    if s.job.ledgerCopy.len < 1024 * (index + 1) then s
    else (issueOp s .ledger 0 1 buddy 0x61 cls (s.job.ledgerCopy.base + 1024 * index) entry 0).1

/-! The meanings of the rows. -/

/-- MIRROR_CFG (R363). Turns the Dust-sheet mirror on or off and sets its interval and planes. -/
def execMirrorCfg (q qseq : Nat) (s : State) : Host.Outcome State Fault Refusal :=
  .next (mirrorCfgState q qseq s)

/-- MIRROR_COMPLETE (R362). When all mirror PUTs and the ledger copy are acknowledged, the half's header is written complete. -/
def execMirrorComplete (s : State) : Host.Outcome State Fault Refusal :=
  .next (mirrorCompleteState s)

end Sys2Proof.Machine
end

