-- ==== Sys2Proof/Machine/TrainStep.lean ====
section
/-! DEFINITION. The step (R143–R147, R161, R165–R167): STEP_BEGIN, STEP_COMMIT, STEP_SKIP, the fence,
and the commit vote. -/

namespace Sys2Proof.Machine

/-! The ledger's ring (R316, R317). -/

def ledgerSize (s : State) : Nat := 2 ^ csrField s rHubLedgerCtrl 31 28

/-- Ring entry `i`'s bytes. -/
def ledgerEntry (s : State) (i : Nat) : List Byte := memBytes s (s.job.ledger.base + 1024 * i) 1024

/-- The entries of a step that a seam has written, newest last. -/
def ledgerOf (s : State) (step : Nat) : List (List Byte) :=
  if s.job.ledger.len = 0 then []
  else
    let w := csrField s rHubLedgerCtrl 15 0
    let n := ledgerSize s
    ((List.range n).map (fun k => ledgerEntry s ((w + k) % n))).filter (fun e => leAt e 24 8 != 0 && leAt e 0 8 == step)

/-! STEP_BEGIN (R147, R366). -/

/-- Whether the attempt number may open the step: greater than the last for the same step, or, in
REPLAYING, that of a ledger entry or of the step the replay ends with. -/
def attemptOk (s : State) (step attempt : Nat) : Bool :=
  if stepState s = sReplaying then
    (ledgerOf s step).any (fun e => leAt e 8 2 == attempt) || (match s.step.replayTo with
      | some (k, a) => k == step && (a == attempt || decide (65535 < a))
      | none => false)
  else match s.step.tried with
    | some k => k != step || decide (csrField s rHubStepState 31 16 < attempt)
    | none => true

/-- What refuses a STEP_BEGIN. -/
def stepBeginCheck (s : State) (c : Cmd) : Option Nat :=
  let b := c.body
  if stepPhase s ≠ sIdle ∨ !placed? s then some stNotReady
  else if leAt b 0 8 ≠ stepsOf s ∨ !attemptOk s (leAt b 0 8) (leAt b 8 2) then some stBadParam
  else if 1 < leAt b 10 1 ∨ leAt b 11 1 = 0 ∨ 16 < leAt b 11 1 ∨ !zeroAt b 12 4 then some stBadParam
  else none

/-- The replay ends with the step it names, or with its fence where the fault fell in DECIDING
(R144, R366). -/
def endsReplay (s : State) (step : Nat) : Bool := match s.step.replayTo with
  | some (k, _) => k == step
  | none => false

/-- A step opened (R144, R147): the ledger's header begun, its input table copied (R320). -/
def openStep (s : State) (attempt level mbs : Nat) : State :=
  let at' := logBase s - 512
  let r := if s.job.ledger.len = 0 then (s, none) else readMem s at' 512
  let s := r.1
  let steps := stepsOf s
  let st := { s.step with
    nfLocal := false, fence := none, fenceOps := none, vote := none, voteDone := false, beganAt := s.plumb
    inputs := r.2.getD [], startSteps := steps, microbatches := mbs, again := stepState s == sReplaying
    norms := [], colStarted := false, tried := some steps, ops := []
    metBefore := if stepState s = sReplaying then s.step.metBefore ++ s.step.met else [], met := [] }
  let s := { s with step := st, topcoat := { s.topcoat with named := [], waiting := [], taken := [] } }
  let s := csrSetField (csrSetField s rHubStepState 31 16 attempt) rHubStepState 7 7 level
  if endsReplay s steps && s.step.replayState != sDeciding then setStepState { s with step := { s.step with replayTo := none } } sOpen
  else setPhase s sOpen

/-- STEP_BEGIN. -/
def bodyStepBegin (c : Cmd) (s : State) : Option State :=
  match stepBeginCheck s c with
  | some st =>
    -- an entry that opened no step belongs to none
    let s := if stepPhase s = sIdle then { s with step := { s.step with cmdLog := [] } } else s
    some (finish s c st)
  | none => some (finish (openStep s (leAt c.body 8 2) (leAt c.body 10 1) (leAt c.body 11 1)) c stOk)

/-- STEP_BEGIN (R147). -/
def stepBeginState (q qseq : Nat) (s : State) : State := hostRow s q qseq (fun c => c.opcode == 0x0501) bodyStepBegin

/-! Fences (R165, R166, R342). -/

/-- The fence a STEP_COMMIT or STEP_SKIP carries. -/
def fenceOfCmd (c : Cmd) : Fence :=
  let b := c.body
  let skip := c.opcode == 0x0504
  { cmd := c, seqs := (List.range 8).map (fun q => leAt b (4 * q) 4), mask := leAt b 32 1, carry := if skip then 0 else leAt b 34 2
    skip := skip, reason := if skip then leAt b 36 1 else 0, early := skip && bitOf (leAt b 37 1) 0 }

/-- Whether the body of a STEP_COMMIT or STEP_SKIP holds no reserved value and no fence on its own
place (R342). -/
def fenceBodyOk (c : Cmd) : Bool :=
  let b := c.body
  let f := fenceOfCmd c
  leAt b 33 1 == 0 && zeroAt b 38 10 && (if f.skip then zeroAt b 34 2 && decide (leAt b 37 1 < 2) else zeroAt b 36 2)
    && (!bitOf f.mask c.queue || (decide (0 < (c.qseq + 2 ^ 32 - nthD f.seqs c.queue 0) % 2 ^ 32)
        && decide ((c.qseq + 2 ^ 32 - nthD f.seqs c.queue 0) % 2 ^ 32 < 2 ^ 31)))

/-- EARLY (R166): every fenced command that has not begun completes at once as skipped. -/
def sweepEarly (s : State) (f : Fence) : State :=
  let cs := (List.range 8).flatMap (fun q => ((queueAt s q).slots.filter (fun sl => !sl.begun && f.covers q sl.qseq && !tensorTaken s q sl.qseq)).map (fun sl => cmdOf q sl))
  let gone (q k : Nat) : Bool := cs.any (fun c => c.queue == q && c.qseq == k)
  let s := { s with held := s.held.filter (fun h => !gone h.q h.qseq)
                    topcoat := { s.topcoat with waiting := s.topcoat.waiting.filter (fun w => !gone w.1 w.2) } }
  cs.foldl (fun s c => finish (markBegun s c.queue c.qseq) c stSkipped) s

/-- STEP_COMMIT and STEP_SKIP begin (R146, R165, R166). -/
def bodyFence (c : Cmd) (s : State) : Option State :=
  if stepPhase s ≠ sOpen ∨ !placed? s ∨ s.step.fence.isSome then some (finish s c stNotReady)
  else if !fenceBodyOk c then some (finish s c stBadParam)
  else
    let f := fenceOfCmd c
    let s := fly { s with step := { s.step with fence := some f, fenceOps := none } } c
    some (if f.early then sweepEarly s f else s)

/-- STEP_COMMIT (R165). -/
def stepCommitState (q qseq : Nat) (s : State) : State := hostRow s q qseq (fun c => c.opcode == 0x0503) bodyFence

/-- STEP_SKIP (R166). -/
def stepSkipState (q qseq : Nat) (s : State) : State := hostRow s q qseq (fun c => c.opcode == 0x0504) bodyFence

/-- Whether every command a fence covers has completed (R342). -/
def fencePassed (s : State) (f : Fence) : Bool :=
  (List.range 8).all (fun q =>
    !bitOf f.mask q || (decide (0 < ((queueAt s q).n + 2 ^ 32 - nthD f.seqs q 0) % 2 ^ 32)
      && decide (((queueAt s q).n + 2 ^ 32 - nthD f.seqs q 0) % 2 ^ 32 < 2 ^ 31)
      && !s.flights.any (fun x => x.cmd.queue == q && f.covers q x.cmd.qseq)))

/-- The UPDATEs and collectives in flight (R165), an UPDATE having begun when it took its tensor. -/
def stepFlights (s : State) : List Nat :=
  s.topcoat.taken.filterMap (fun k => (slotOf (queueAt s k.1) k.2.1).map (fun sl => (cmdOf k.1 sl).op)) ++ (s.flights.filter (fun f => f.cmd.opcode == 0x0602 || (decide (0x0701 ≤ f.cmd.opcode) && decide (f.cmd.opcode ≤ 0x0705)))).map (·.cmd.op)

/-- Whether a Hawk stack outside the carried mask holds frames (R152, R157). -/
def strandedHawk (s : State) (carry : Nat) : Bool := s.hawk.any (fun p => !p.2.frames.isEmpty && !bitOf carry p.1)

/-- The vote word of R167. -/
def voteWord (s : State) (f : Fence) : List Byte :=
  [byteOf (boolNat s.step.nfLocal + 2 * boolNat f.skip), byteOf f.reason, 0, 0] ++ leBytes 8 (stepsOf s)
    ++ leBytes 8 (2 ^ 64 - 1 - stepsOf s) ++ List.replicate 12 0

/-- DECIDING (R144): a replay that the fault caught in DECIDING ends here, and so does a local one. -/
def enterDeciding (s : State) : State :=
  if stepState s = sReplaying ∧ (s.step.replayTo.isNone ∨ (endsReplay s (stepsOf s) ∧ s.step.replayState = sDeciding)) then
    setStepState { s with step := { s.step with replayTo := none } } sDeciding
  else setPhase s sDeciding

/-- FENCE_REACHED (R165): the fenced commands done, the UPDATEs and collectives then in flight are
waited for, and the vote starts; a STEP_COMMIT over a stranded Hawk stack is refused (R157). -/
def fenceReachedState (s : State) : State :=
  match s.step.fence with
  | none => s
  | some f =>
    if stepPhase s ≠ sOpen ∨ !fencePassed s f then s
    else
      let ops := s.step.fenceOps.getD (stepFlights s)
      if ops.any (fun o => (stepFlights s).contains o) then { s with step := { s.step with fenceOps := some ops } }
      else if !f.skip && strandedHawk s f.carry then
        finish { s with step := { s.step with fence := none, fenceOps := none } } f.cmd stNotReady
      else
        let s := enterDeciding { s with step := { s.step with fenceOps := some ops } }
        startVote s 1 (voteWord s f)

/-! The decision (R161, R165–R167). -/

/-- A tensor at a commit, and at a skip (R161). -/
def Tensor.commit (t : Tensor) : Tensor :=
  if t.pending then { t with cur := 1 - t.cur, version := (t.version + 1) % 65536, prevOk := true, pending := false } else t

def Tensor.discard (t : Tensor) : Tensor := if t.pending then { t with pending := false, prevOk := false } else t

/-- An exact sum rounded once to F64 (R189), its unit being 2^u. -/
def ExSum.toF64 (x : ExSum) (u : Int) : Nat :=
  if x.nan then f64.toCode .nan
  else if x.pinf ∨ x.ninf then f64.toCode (.inf false)
  else f64.toCode (fvInt x.val u)

/-- The unit of the norms: the least product of two F32 values is 2^-298. -/
def normUnit : Int := -298

/-- The committed W2 of the layers updated (R189); a code is kept with 1 added, so that an absent
layer is told from one whose sum is +0. -/
def commitNorms (s : State) : State :=
  { s with topcoat := { s.topcoat with w2 := s.step.norms.foldl (fun m n => stSet 0 m n.layer (n.w2.toF64 normUnit + 1)) s.topcoat.w2 } }

/-- LAST_OUTCOME of a vote (R144): 4 above 3 above 2. -/
def voteOutcome (w : List Byte) : Nat :=
  if leAt w 4 8 &&& leAt w 12 8 ≠ 0 then 4
  else if bitOf (leAt w 0 1) 1 then 3
  else if bitOf (leAt w 0 1) 0 then 2
  else 1

/-- The device commits: selectors, versions, STEPS and the carried mask change at once (R163). -/
def commitStep (s : State) (f : Fence) : State :=
  let s := commitNorms { s with job := { s.job with tensors := s.job.tensors.map Tensor.commit }
                                step := { s.step with carriedNow := f.carry } }
  setPhase (csrPut64 s rHubStepCountLo (stepsOf s + 1)) sCommitted

/-- The device skips. -/
def skipStep (s : State) : State :=
  setPhase { s with job := { s.job with tensors := s.job.tensors.map Tensor.discard }
                    step := { s.step with carriedNow := 0 } } sSkipped

/-- COMMIT_VOTE (R165, R167): the vote's word decides. -/
def commitVoteState (s : State) : State :=
  match s.step.vote, s.step.fence with
  | some w, some f =>
    if stepPhase s ≠ sDeciding ∨ !s.step.voteDone then s
    else
      let o := voteOutcome w
      let s := { s with step := { s.step with fence := none, fenceOps := none, vote := none, voteDone := false } }
      let s := csrSetField s rHubStepState 11 8 o
      match o with
      | 1 => finish (commitStep s f) f.cmd stOk
      | 4 =>
        let s := decideEvent (skipStep s) { errRec (unitPackage 0xFFF) 0x13 0 1 0 with opcode := f.cmd.opcode, op := f.cmd.op, syndrome := w } false
        finish s f.cmd stFault
      | _ => finish (skipStep s) f.cmd stSkipped
  | _, _ => s

/-! The meanings of the rows. -/

/-- STEP_BEGIN (R147). Checks the expected step and attempt numbers and moves the step state from IDLE to OPEN. -/
def execStepBegin (q qseq : Nat) (s : State) : Host.Outcome State Fault Refusal :=
  .next (stepBeginState q qseq s)

/-- STEP_COMMIT (R165). Fences the step and waits for the fenced commands and begun UPDATEs and collectives before the commit vote. -/
def execStepCommit (q qseq : Nat) (s : State) : Host.Outcome State Fault Refusal :=
  .next (stepCommitState q qseq s)

/-- STEP_SKIP (R166). Enters the vote with HOST_SKIP set; with EARLY it completes unstarted fenced commands at once as STEP_SKIPPED. -/
def execStepSkip (q qseq : Nat) (s : State) : Host.Outcome State Fault Refusal :=
  .next (stepSkipState q qseq s)

/-- FENCE_REACHED (R165). When the fence's commands have completed, the state becomes DECIDING and the commit vote starts. -/
def execFenceReached (s : State) : Host.Outcome State Fault Refusal :=
  .next (fenceReachedState s)

/-- COMMIT_VOTE (R165). On completion of the OR of vote words, commits by flipping selectors and incrementing STEPS, or skips. -/
def execCommitVote (s : State) : Host.Outcome State Fault Refusal :=
  .next (commitVoteState s)

end Sys2Proof.Machine
end

