-- ==== Sys2Proof/Machine/Seam.lean ====
section
/-! DEFINITION. The seam (R168): recipes and palettes (R95), the Hawk stacks (R157), telemetry
(R170, R171), the ledger entry and its digests (R316–R320), the answer to a digest that differs
(R368), and the PERMUTE vote (R295). -/

namespace Sys2Proof.Machine

/-! What the command carries (R95, R342). -/

/-- The records of a STEP_SEAM: entry number and entry. -/
def seamRecords (b : List Byte) : List (Nat × List Byte) :=
  (chunksOf 64 b.length b).map (fun r => (leAt r 0 1, sliceB r 32 32))

/-- Whether a record's bytes hold no reserved value. -/
def seamRecordOk (r : List Byte) : Bool := zeroAt r 1 31 && recipeValid (sliceB r 32 32)

/-- The palettes a STEP_SEAM loads: slots of its mask, in order. -/
def maskedSlots (m : Nat) : List Nat := (List.range 8).filter (bitOf m)

/-- Reads the palette images of a mask. -/
def readPalettes (a : Nat) : List Nat → State → State × Option (List (Nat × List Nat))
  | [], s => (s, some [])
  | k :: r, s =>
    let x := readMem s (a + 32 * (k - 1)) 32
    let y := readPalettes a r x.1
    (y.1, match x.2, y.2 with
      | some b, some l => some ((k, paletteOf b) :: l)
      | _, _ => none)

/-- The checks of a STEP_SEAM that read nothing (R342). -/
def seamBodyOk (s : State) (b : List Byte) : Bool :=
  let n := leAt b 0 2
  let m := leAt b 2 1
  decide (n ≤ 256) && !bitOf m 0 && zeroAt b 3 5 && zeroAt b 24 8 && decide (leAt b 8 8 < 2 ^ 42) && decide (leAt b 16 8 < 2 ^ 42)
    && rangeOk s (leAt b 8 8) (64 * n) && (maskedSlots m).all (fun k => rangeOk s (leAt b 16 8 + 32 * (k - 1)) 32)

/-- Recipes and palettes loaded (step 3 of R168). -/
def loadSeam (s : State) (recs : List (Nat × List Byte)) (pals : List (Nat × List Nat)) : State :=
  { s with chip := { s.chip with recipes := recs.foldl (fun m r => stSet [] m r.1 r.2) s.chip.recipes
                                 palettes := pals.foldl (fun m p => stSet [] m p.1 p.2) s.chip.palettes } }

/-! Hawk stacks at the seam (R157). -/

/-- After a commit the carried stacks are kept; every other is emptied, and all are after a skip. -/
def seamHawk (s : State) : State :=
  let carry := if stepPhase s = sCommitted then s.step.carriedNow else 0
  let kept := (List.range 16).filter (bitOf carry)
  let one (m : Nat) : Hawk := { hawkOf s m with carried := true, atSeam := (hawkOf s m).frames }
  { s with hawk := kept.foldl (fun h m => stSet hawkDefault h m (one m)) [] }

/-! Telemetry (R170, R171). -/

/-- A core section: 11 Float-edge counters, QERR, four Screed counters, two vector counters, and the
twelve time counters, which are free values (R312). -/
def coreSection (s : State) (pc : Nat) : State × List Byte :=
  let b := coreBlock pc
  let w (off : Nat) : List Byte := leBytes 4 (csrGet s (b + off))
  let regs := (List.range 11).flatMap (fun i => w (0x10 + 4 * i)) ++ w 8 ++ w 12 ++ (List.range 4).flatMap (fun i => w (0x100 + 4 * i))
    ++ w 0x218 ++ w 0x21C
  let t := (List.range 12).foldl (fun (r : State × List Byte) _ => let f := takeFree r.1; (f.2, r.2 ++ leBytes 4 f.1)) (s, [])
  (t.1, regs ++ t.2 ++ leBytes 4 0)

/-- The sections of every logical core that exists, in order. -/
def coreSections : List Nat → State → State × List Byte
  | [], s => (s, [])
  | k :: r, s =>
    let x := coreSection s (physCore s k)
    let y := coreSections r x.1
    (y.1, x.2 ++ y.2)

/-- The layers that have a section: updated in the step, or frozen with a committed W2. -/
def telLayers (s : State) : List Nat :=
  (List.range 1024).filter (fun l => s.step.norms.any (fun n => n.layer == l) || stGet 0 s.topcoat.w2 l != 0)

/-- A layer section (R171, R189). -/
def layerSection (s : State) (l : Nat) : List Byte :=
  let old := stGet 0 s.topcoat.w2 l - 1
  match s.step.norms.find? (fun n => n.layer == l) with
  | none => leBytes 8 old ++ leBytes 8 0 ++ leBytes 8 0 ++ leBytes 2 l ++ [0, 0] ++ leBytes 4 0
  | some n =>
    let w2 := if stepPhase s = sSkipped then old else n.w2.toF64 normUnit
    leBytes 8 w2 ++ leBytes 8 (n.g2.toF64 normUnit) ++ leBytes 8 (n.d2.toF64 normUnit) ++ leBytes 2 l
      ++ [byteOf (1 + 2 * boolNat n.subset), 0] ++ leBytes 4 n.params

/-- The layer sections in ascending number. -/
def layerSections (s : State) : List (List Byte) := (telLayers s).map (layerSection s)

/-- A telemetry record with the given OUTCOME and LOST. -/
def telRecord (s : State) (outcome lost : Nat) : State × List Byte :=
  let cores := (List.range 256).filter (coreExists s)
  let c := coreSections cores s
  let ls := layerSections s
  let hdr := leBytes 8 s.step.startSteps ++ leBytes 2 (csrField s rHubStepState 31 16) ++ [byteOf outcome]
    ++ [byteOf (csrField s rHubStepState 7 7 + 2 * boolNat s.step.again)] ++ leBytes 4 ls.length ++ leBytes 8 s.step.beganAt
    ++ leBytes 8 s.plumb ++ leBytes 4 cores.length ++ leBytes 4 lost ++ List.replicate 24 0
  (c.1, hdr ++ c.2 ++ ls.flatten)

/-- Telemetry records written to the ring, oldest first (R170): class 5, or 3 inside background window 1 (R310), so that a
stack in CASE holds them outside it (R213). A record whose slot cannot be written whole is lost and counted as such. -/
def telWrite : List (List Byte) → State → State
  | [], s => { s with mem := { s.mem with bgHeld := [] } }
  | d :: r, s =>
    let n := 2 ^ s.job.telLog2
    let i := csrField s rTelRingWrite 15 0 % n
    let a := s.job.telemetry.base + 4096 * s.job.telSlot * i
    if bgClass s 1 = 5 ∧ caseHolds s a d.length then { s with mem := { s.mem with bgHeld := d :: r } }
    else
      let w := writeMem s a d
      if w.2 then telWrite r (csrSetField w.1 rTelRingWrite 15 0 ((i + 1) % n))
      else telWrite r { w.1 with step := { w.1.step with telLost := w.1.step.telLost + 1 } }

/-- The telemetry records that wait written as far as they may be. -/
def telFlush (s : State) : State := telWrite s.mem.bgHeld s

/-- The seam's record given to the ring (R170): a slot of the region, the record cut to it. -/
def writeTelemetry (s : State) (outcome : Nat) : State :=
  if s.job.telemetry.len = 0 then s
  else
    let n := 2 ^ s.job.telLog2
    let full := decide (n ≤ s.step.telUnread)
    let r := telRecord s outcome (s.step.telLost + boolNat full)
    let s := { r.1 with step := { r.1.step with telUnread := if full then n else r.1.step.telUnread + 1, telLost := 0 } }
    telFlush { s with mem := { s.mem with bgHeld := s.mem.bgHeld ++ [r.2.take (4096 * s.job.telSlot)] } }

/-- Registers of a range read as 0 again. -/
def clearRegs (s : State) (lo hi : Nat) : State := { s with csr := stClear s.csr lo hi }

/-- The step's counters cleared as they are sampled (R118, R127, R192, R244, R269, R297, R308, R386):
those of every core block, of the Topcoats, the Lath, the transport, the collectives, late
launches and shed entries. -/
def clearCounters (s : State) : State :=
  let cores := (List.range 288).foldl (fun s pc =>
    let b := coreBlock pc
    clearRegs (clearRegs (clearRegs s (b + 0x08) (b + 0x3C)) (b + 0x100) (b + 0x110)) (b + 0x218) (b + 0x220)) s
  let tops := (List.range 8).foldl (fun s k => clearRegs s (rTopNotfinite + 0x10000 * k) (rTopNotfinite + 0x10000 * k + 12)) cores
  let lath := (List.range 5).foldl (fun s d => clearRegs s (rLthCrcDrop + 0x20 * d) (rLthCrcDrop + 0x20 * d + 0x18)) tops
  let s := clearRegs (clearRegs lath rScrCounters (rScrCounters + 0x20)) rColCounters (rColCounters + 0x14)
  csrPut (csrPut s rPlbLateLaunch 0) rPwrShedCount 0

/-- TEL_SAMPLE (R340). -/
def bodyTelSample (c : Cmd) (s : State) : Option State :=
  let d := leAt c.body 0 8
  if 2 ^ 42 ≤ d ∨ !zeroAt c.body 8 8 then some (finish s c stBadParam)
  else
    let r := telRecord s 0 0
    if !rangeOk s d r.2.length then some (finish s c stBadParam)
    else
      let w := writeMem r.1 d r.2
      some (finish w.1 c (if w.2 then stOk else stFault))

/-- TEL_SAMPLE (R340). -/
def telSampleState (q qseq : Nat) (s : State) : State := hostRow s q qseq (fun c => c.opcode == 0x0A01) bodyTelSample

/-! The ledger (R316–R320). -/

/-- How far an entry's number lies past the least of its queue's. -/
def seqAfter (base k : Nat) : Nat := (k + 2 ^ 32 - base) % 2 ^ 32

/-- The entries of one queue in ascending number. -/
def queueEntries (s : State) (q : Nat) : List (List Byte) :=
  let es := (s.step.cmdLog.filter (fun e => e.1 == q)).map (·.2)
  let base := es.foldl (fun m e => if seqAfter m (leAt e 4 4) < 2 ^ 31 then m else leAt e 4 4) (leAt (es.headD []) 4 4)
  let put (acc : List (List Byte)) (e : List Byte) : List (List Byte) :=
    let k := seqAfter base (leAt e 4 4)
    acc.filter (fun x => decide (seqAfter base (leAt x 4 4) < k)) ++ [e] ++ acc.filter (fun x => decide (k < seqAfter base (leAt x 4 4)))
  es.foldl put []

/-- CMD_DIGEST (R318). -/
def cmdDigest (s : State) : List Byte := sha3_256 ((List.range 8).flatMap (fun q => sha3_256 (queueEntries s q).flatten))

/-- NORM_DIGEST (R319); zeros for a step not committed. -/
def normDigest (s : State) (outcome : Nat) : List Byte :=
  if outcome ≠ 1 then List.replicate 32 0
  else sha3_256 ((layerSections s).flatMap (fun l => sliceB l 0 24 ++ sliceB l 28 4))

/-- The input descriptors an entry holds: those before the last that is not all 0. -/
def inputCount (b : List Byte) : Nat :=
  ((List.range 16).filter (fun i => !zeroAt b (32 * i) 32)).foldl (fun m i => max m (i + 1)) 0

/-- The ledger entry of the step, sealed at a seam or open (R317, R379). -/
def ledgerBytes (s : State) (outcome : Nat) (sealed : Bool) : List Byte :=
  leBytes 8 s.step.startSteps ++ leBytes 2 (csrField s rHubStepState 31 16) ++ [byteOf outcome]
    ++ [byteOf (csrField s rHubStepState 7 7 + 2 * boolNat s.step.again + 4 * csrField s rHubLedgerCtrl 27 27)]
    ++ leBytes 2 (epochOf s) ++ [byteOf (inputCount s.step.inputs), 0] ++ leBytes 8 s.step.beganAt
    ++ leBytes 8 (if sealed then s.plumb else 0) ++ leBytes 4 s.step.cmdLog.length ++ List.replicate 28 0
    ++ (if sealed then cmdDigest s ++ normDigest s outcome else List.replicate 64 0)
    ++ sliceB s.step.inputs 0 512 ++ List.replicate 384 0

/-- The entry written to the local ring and sent to the buddy's copy (step 8 of R168, R316). -/
def writeLedger (s : State) (outcome : Nat) : State :=
  if s.job.ledger.len = 0 then s
  else
    let i := csrField s rHubLedgerCtrl 15 0
    let e := ledgerBytes s outcome true
    let s := (writeMem s (s.job.ledger.base + 1024 * i) e).1
    let s := csrSetField (csrSetField s rHubLedgerCtrl 15 0 ((i + 1) % ledgerSize s)) rHubLedgerCtrl 27 27 0
    copyLedger s i e (bgClass s 0)

/-! Digests compared after a replay (R320, R368). -/

/-- What a replayed step's digests say: 0 nothing to compare, or they match; 1 CMD_DIGEST differs;
2 NORM_DIGEST differs and a third run is due; 3 it agrees with an earlier replay, the recorded
one being odd; 4 it agrees with the ledger, an earlier replay being odd; 5 all three differ. -/
def digestCase (s : State) (outcome : Nat) : Nat :=
  if !s.step.again then 0
  else match (ledgerOf s s.step.startSteps).find? (fun e => leAt e 8 2 == csrField s rHubStepState 31 16) with
    | none => 0
    | some e =>
      let norm := normDigest s outcome
      let earlier := s.step.replayedDigests
      if cmdDigest s ≠ sliceB e 64 32 then 1
      else if norm = sliceB e 96 32 then (if earlier.isEmpty then 0 else 4)
      else if earlier.isEmpty then 2
      else if earlier.contains norm then 3 else 5

/-- A digest that differs, decided (R368): one event of check 0x12, or takeover. -/
def digestEvent (s : State) (k : Nat) : State :=
  let r := { errRec (unitPackage 0xFFF) 0x12 0 1 3 with
    syndrome := leBytes 8 s.step.startSteps ++ leBytes 7 s.step.startSteps ++ [byteOf (if k = 1 then 1 else 2)] }
  if k = 3 ∨ k = 4 then decideEvent s r false
  else if k = 5 then requestTakeover s r.unit 0x12
  else if k = 1 ∨ k = 2 then snagRecord s { r with action := 0 }
  else s

/-! The seam (R168). -/

/-- Steps 6 to 9, and the end of the command. -/
def seamTail (s : State) (c : Cmd) : State :=
  let outcome := csrField s rHubStepState 11 8
  let s := { s with mem := { s.mem with ptrs := [] } }
  let k := digestCase s outcome
  let norm := normDigest s outcome
  let t := clearCounters (writeTelemetry s outcome)
  let t := digestEvent t k
  let t := if k = 1 then t else startMirror (writeLedger t outcome) (outcome == 1)
  let t := csrSetField (csrSetField t rHubStepState 7 7 0) rHubStepState 6 6 (boolNat (t.hawk.any (fun p => p.2.carried)))
  let t := setPhase { t with step := { t.step with
    cmdLog := [], norms := [], inputs := [], again := false
    replayedDigests := if k = 2 then t.step.replayedDigests ++ [norm] else [] } } sIdle
  finish t c (if k = 1 then stFault else stOk)

/-- Steps 5 to 9: the seam is lengthened by the tests that run in place (R26). -/
def seamRest (s : State) (c : Cmd) : State :=
  let s := seamTests (seamRetires s)
  if seamWaits s then { s with snag := { s.snag with seamHold := some c } } else seamTail s c

/-- PATCH_TEST_COMPLETE (R360): the test ends, and the seam that waits for the last test in place goes on. -/
def patchTestCompleteState (unit result kernel pass : Nat) (s : State) : State :=
  let s := patchTestEnd unit result kernel pass s
  match s.snag.seamHold with
  | some c => if seamWaits s then s else seamTail { s with snag := { s.snag with seamHold := none } } c
  | none => s

/-- STEP_SEAM (R168). -/
def bodyStepSeam (c : Cmd) (s : State) : Option State :=
  let b := c.body
  if stepPhase s ≠ sCommitted ∧ stepPhase s ≠ sSkipped then some (finish s c stNotReady)
  else if !seamBodyOk s b then some (finish s c stBadParam)
  else
    let r := readMem s (leAt b 8 8) (64 * leAt b 0 2)
    let p := readPalettes (leAt b 16 8) (maskedSlots (leAt b 2 1)) r.1
    match r.2, p.2 with
    | some rb, some pals =>
      let recs := seamRecords rb
      if !noRepeats (recs.map (·.1)) || !(chunksOf 64 rb.length rb).all seamRecordOk || !pals.all (fun x => x.2.all levelValid) then
        some (finish p.1 c stBadParam)
      else
        let s := loadSeam (seamHawk (fly p.1 c)) recs pals
        some (if permuteDue s then permuteBegin s c else seamRest s c)
    | _, _ => some (finish p.1 c stFault)

/-- STEP_SEAM (R168). -/
def stepSeamState (q qseq : Nat) (s : State) : State := hostRow s q qseq (fun c => c.opcode == 0x0502) bodyStepSeam

/-- PERMUTE_VOTE (R295): the vote over, every member switches or none does; the seam goes on. A table that has gone bad
since the vote began cannot be consumed and fails the command (R34, R205). -/
def permuteVoteState (s : State) : State :=
  match s.coll.permute with
  | none => s
  | some p =>
    if p.stage ≠ 3 then s
    else
      let s := csrSetField { s with coll := { s.coll with permute := none } } rColEpoch 16 16 0
      let t := permuteInstall s p
      let s := if p.failed then finish s p.cmd stTimeout else finish t.1 p.cmd (if t.2 then stOk else stFault)
      match p.seam with
      | some c => seamRest s c
      | none => s

/-! The meanings of the rows. -/

/-- STEP_SEAM (R168). Performs the seam actions in order and returns the step state to IDLE. -/
def execStepSeam (q qseq : Nat) (s : State) : Host.Outcome State Fault Refusal :=
  .next (stepSeamState q qseq s)

/-- PATCH_TEST_COMPLETE (R360). A finished patch test passes, or is rerun once and decided transient or permanent. -/
def execPatchTestComplete (unit result : Nat) (last : PatchPass) (s : State) : Host.Outcome State Fault Refusal :=
  .next (patchTestCompleteState unit result last.kernel last.pass s)

/-- PERMUTE_VOTE (R295). After the moves, an OR vote over the job installs the new shape, tables and epoch everywhere or nowhere. -/
def execPermuteVote (s : State) : Host.Outcome State Fault Refusal :=
  .next (permuteVoteState s)

/-- TEL_SAMPLE (R340). Writes a telemetry record with OUTCOME 0x0 to DST without clearing counters. -/
def execTelSample (q qseq : Nat) (s : State) : Host.Outcome State Fault Refusal :=
  .next (telSampleState q qseq s)

end Sys2Proof.Machine
end

