-- ==== Sys2Proof/Machine/Stream.lean ====
section
/-! DEFINITION. Stencil streams (R221–R232, R239–R243): the STREAM commands, a channel's
instructions, parcels and merging, the owner's side of the Lath, and the all-stop. A block is named
by its physical cluster's number, 0 to 31, or 32 for the hub. -/

namespace Sys2Proof.Machine

/-! Blocks and channels (R28, R221, R341). -/

/-- The block a command names by logical die × 8 + logical cluster, or 0x20 for the hub. -/
def blockNo (s : State) (v : Nat) : Option Nat :=
  if v = 32 then some 32
  else if v < 32 ∧ physCluster s (v / 8) (v % 8) ≠ 15 then some (v / 8 * 8 + physCluster s (v / 8) (v % 8))
  else none

/-- Channels of a block. -/
def blockChans (b : Nat) : Nat := if b = 32 then 32 else 16

/-- A block's node: die and physical node. -/
def blockNode (b : Nat) : Nat × Nat := if b = 32 then (4, 0) else (b / 8, b % 8)

/-- The SRC code of a channel (R234). -/
def ownerSrc (s : State) (b ch : Nat) : Nat :=
  if b = 32 then 4 * 512 + ch else b / 8 * 512 + logicalCluster s (b / 8) (b % 8) * 32 + ch

/-- The unit ID of a channel, by its physical number (R28, R352). -/
def chanUnitId (s : State) (b ch : Nat) : Nat :=
  let p := nthD (blockGet s b).chanMap ch ch
  if b = 32 then unitHub (0x430 + p) else unitCluster b (0x300 + p)

/-- The block's registers (R243). -/
def stmBase (b : Nat) : Nat := if b = 32 then 0x4C000000 else 0x48000000 + b / 8 * 0x1000000 + b % 8 * 0x100000

/-- States of a channel (R223). -/
def chLoaded : Nat := 1
def chRunning : Nat := 2
def chWaiting : Nat := 3
def chHeld : Nat := 4
def chHalted : Nat := 5
def chAborted : Nat := 6

/-! Program images (R224–R226). -/

def imageLen (img : List Byte) : Nat := leAt img 0 1
def imageWord (img : List Byte) (i : Nat) : Nat := leAt img (16 + 8 * i) 8
def srcElem (img : List Byte) : Nat := leAt img 4 4
def dstElem (img : List Byte) : Nat := leAt img 8 4
def stOp (w : Nat) : Nat := fieldOf w 63 56

def opBase : Nat := 0x01
def opStride : Nat := 0x02
def opLoop : Nat := 0x03
def opEndl : Nat := 0x04
def opMove : Nat := 0x05
def opAdd : Nat := 0x06
def opWaitp : Nat := 0x07
def opWaitt : Nat := 0x08
def opWaitc : Nat := 0x09
def opSignal : Nat := 0x0A
def opSett : Nat := 0x0B
def opPeer : Nat := 0x0C
def opStEnd : Nat := 0x0F

/-- Whether an element size is legal (R224). -/
def elemOk (n : Nat) : Bool := n % 32 == 0 && decide (n ≤ 16777216)

/-- Whether a word holds no reserved value and no unused bit (R225). -/
def stWordOk (img : List Byte) (hub : Bool) (w : Nat) : Bool :=
  let z (hi lo : Nat) : Bool := fieldOf w hi lo == 0
  let len := fieldOf w 23 0
  let ix := (!bitOf w 52 || srcElem img != 0) && (!bitOf w 51 || dstElem img != 0)
  match stOp w with
  | 0x01 => z 51 50 && (match fieldOf w 55 52 with
      | 0 => z 47 42
      | 1 => z 42 24
      | 2 => z 47 24
      | _ => false)
  | 0x02 => z 55 51 && decide (fieldOf w 50 48 < 6) && z 45 42
  | 0x03 => z 55 51 && decide (fieldOf w 50 48 < 6) && z 47 24
  | 0x04 => z 55 51 && decide (fieldOf w 50 48 < 6) && z 47 0
  | 0x05 => decide (fieldOf w 55 53 < 6) && z 50 48 && z 39 24 && len % 32 == 0 && len != 0 && ix
  | 0x06 =>
    let k := fieldOf w 35 32
    decide (fieldOf w 55 53 < 6) && z 52 52 && z 50 48 && z 39 36 && z 31 24 && decide (1 ≤ k) && decide (k ≤ 4)
      && len % (if k = 4 then 64 else 32) == 0 && len != 0 && ix
  | 0x07 => z 55 48
  | 0x08 => z 55 48 && fieldOf w 47 40 != 0xFF && z 39 32
  | 0x09 => z 55 45 && z 39 32 && decide (fieldOf w 44 40 < (if hub then 32 else 16))
  | 0x0A => z 55 0
  | 0x0B => z 55 48 && fieldOf w 47 40 != 0xFF && z 39 32
  | 0x0C => hub && z 55 13
  | 0x0F => z 55 0
  | _ => false

/-- Whether the loops of a program nest (R226); `k` loops are open. -/
def loopsOk : List Nat → Nat → Bool
  | [], _ => false
  | w :: r, k =>
    if stOp w = opLoop then fieldOf w 50 48 == k && decide (k < 6) && loopsOk r (k + 1)
    else if stOp w = opEndl then decide (0 < k) && fieldOf w 50 48 + 1 == k && loopsOk r (k - 1)
    else if stOp w = opStEnd then k == 0 && r.isEmpty
    else loopsOk r k

/-- Whether a program image is valid (R226). -/
def imageOk (img : List Byte) (hub : Bool) : Bool :=
  let n := imageLen img
  let ws := (List.range n).map (imageWord img)
  decide (1 ≤ n) && decide (n ≤ 32) && decide (16 + 8 * n ≤ img.length) && zeroAt img 1 3 && zeroAt img 12 4
    && elemOk (srcElem img) && elemOk (dstElem img) && ws.all (stWordOk img hub) && loopsOk ws 0

/-! Commands (R222, R341). -/

/-- Whether a block's cluster is gated: by a GATE command, or by the firmware as idle in the open job (R23, R385). -/
def blockGated (s : State) (k : Nat) : Bool :=
  decide (k < 32) && (s.power.gatesOff.contains (unitCluster k 0xFFF) || jobGated s (unitCluster k 0xFFF))

/-- STENCIL_LOAD (R222, R226); a gated cluster is not ready. -/
def bodyStencilLoad (c : Cmd) (s : State) : Option State :=
  let b := c.body
  let img := b.drop 16
  match blockNo s (leAt b 0 1) with
  | none => some (finish s c stBadParam)
  | some k =>
    let ch := leAt b 1 1
    if blockChans k ≤ ch ∨ !zeroAt b 2 14 ∨ !imageOk img (k = 32) then some (finish s c stBadParam)
    else if blockGated s k then some (finish s c stNotReady)
    else
      let x := chanGet s k ch
      if x.state ≠ 0 ∧ x.state ≠ chLoaded ∧ x.state ≠ chAborted then some (finish s c stNotReady)
      else some (finish (chanPut s k ch { x with image := sliceB img 0 (16 + 8 * imageLen img), state := chLoaded, wait := 0, pc := 0 }) c stOk)

/-- STENCIL_LOAD (R226). -/
def stencilLoadState (q qseq : Nat) (s : State) : State := hostRow s q qseq (fun c => c.opcode == 0x0301) bodyStencilLoad

/-- The channels of a mask. -/
def maskChans (m : Nat) : List Nat := (List.range 32).filter (bitOf m)

/-- A channel's stream reported (R222, R326): its completion names it; the command ends with its
last. -/
def chanEnd (s : State) (b ch next status : Nat) (stopped : Bool) : State :=
  let x := chanGet s b ch
  let y := { x with state := next, wait := 0, cmd := none, stopping := false, issued := 0 }
  let s := chanPut s b ch y
  match x.cmd with
  | none => s
  | some c =>
    let more := (blockGet s b).chans.any (fun z => match z.cmd with
      | some d => d.queue == c.queue && d.qseq == c.qseq
      | none => false)
    let flags := cfChannel + (if stopped then cfStopped else 0)
    if more then report s c status flags [byteOf ch] else complete s c status flags [byteOf ch]

/-- STREAM_START (R222, R227); a gated cluster is not ready. -/
def bodyStreamStart (c : Cmd) (s : State) : Option State :=
  let m := leAt c.body 4 4
  match blockNo s (leAt c.body 0 1) with
  | none => some (finish s c stBadParam)
  | some b =>
    if !zeroAt c.body 1 3 ∨ m = 0 ∨ 2 ^ blockChans b ≤ m then some (finish s c stBadParam)
    else if blockGated s b ∨ !(maskChans m).all (fun ch => let x := chanGet s b ch; x.state == chLoaded || x.state == chAborted) then
      some (finish s c stNotReady)
    else
      let start (s : State) (ch : Nat) : State :=
        let x := chanGet s b ch
        let y : Chan := { chan0 with
          state := chRunning, image := x.image, anchor := if c.launched then c.launch else s.plumb, nextTag := x.nextTag
          window := x.window, cmd := some c }
        chanPut s b ch y
      some ((maskChans m).foldl start (fly s c))

/-- STREAM_START (R222). -/
def streamStartState (q qseq : Nat) (s : State) : State := hostRow s q qseq (fun c => c.opcode == 0x0302) bodyStreamStart

/-- Whether a channel has parcels outstanding in its block, in any window or held (R231). -/
def outstandingOf (s : State) (b ch : Nat) : Bool :=
  let k := blockGet s b
  k.chans.any (fun x => x.window.any (fun p => bitOf p.chans ch)) || (match k.held with
    | some (_, _, p) => bitOf p.chans ch
    | none => false)

/-- What has become possible in a block: window-full channels run again, marks no longer needed go,
and channels told to stop that have finished complete (R222, R223). -/
def settle (s : State) (b : Nat) : State :=
  (List.range (blockChans b)).foldl (fun s ch =>
    let x := chanGet s b ch
    let k := blockGet s b
    let live (id : Nat) : Bool := (decide (0 < x.issued) && id == x.moves) || k.chans.any (fun y => y.window.any (fun p => p.marks.contains (ch, id)))
      || (match k.held with
        | some (_, _, p) => p.marks.contains (ch, id)
        | none => false)
    let keep := x.marks.filter (fun m => live m.id)
    let full := x.state == chWaiting && x.wait == 4 && decide (x.window.length < 16)
    let y := if full then { x with marks := keep, state := chRunning, wait := 0 } else { x with marks := keep }
    let s := if y = x then s else chanPut s b ch y
    if y.stopping && !k.stops && y.issued == 0 && (y.state == chRunning || y.state == chHeld) && !outstandingOf s b ch then
      chanEnd s b ch chLoaded stOk true
    else s) s

/-- STREAM_STOP (R222): each named channel that works finishes its instruction and its parcels. -/
def bodyStreamStop (c : Cmd) (s : State) : Option State :=
  let m := leAt c.body 4 4
  match blockNo s (leAt c.body 0 1) with
  | none => some (finish s c stBadParam)
  | some b =>
    if !zeroAt c.body 1 3 ∨ m = 0 ∨ 2 ^ blockChans b ≤ m then some (finish s c stBadParam)
    else
      let s := (maskChans m).foldl (fun s ch =>
        let x := chanGet s b ch
        if x.state = chRunning ∨ x.state = chWaiting ∨ x.state = chHeld then chanPut s b ch { x with stopping := true } else s) s
      some (finish (settle s b) c stOk)

/-- STREAM_STOP (R222). -/
def streamStopState (q qseq : Nat) (s : State) : State := hostRow s q qseq (fun c => c.opcode == 0x0303) bodyStreamStop

/-- STREAM_RESUME (R242): every HALTED channel runs on from its saved MOVE. -/
def bodyStreamResume (c : Cmd) (s : State) : Option State :=
  match blockNo s (leAt c.body 0 1) with
  | none => some (finish s c stBadParam)
  | some b =>
    let cs := (List.range (blockChans b)).filter (fun ch => (chanGet s b ch).state == chHalted)
    if cs.isEmpty then some (finish s c stNotReady)
    else some (cs.foldl (fun s ch => chanPut s b ch { chanGet s b ch with state := chRunning, cmd := some c }) (fly s c))

/-- STREAM_RESUME (R242). -/
def streamResumeState (q qseq : Nat) (s : State) : State := hostRow s q qseq (fun c => c.opcode == 0x0304) bodyStreamResume

/-! Places and pieces (R225, R227, R230). -/

/-- A place a transfer names: the channel's own buffer, another cluster's, a local address, or an
address of a peer. -/
inductive Place where
  | own (off : Nat)
  | cluster (code off : Nat)
  | loc (addr : Nat)
  | peer (dev addr : Nat)
deriving DecidableEq, Repr

/-- Where `[a, a + n)` of a space lies for a channel; none for an address fault (R227). -/
def placeOf (s : State) (b : Nat) (x : Chan) (space : Nat) (a : Int) (n : Nat) : Option Place :=
  let t := a.toNat
  if a < 0 ∨ t % 32 ≠ 0 then none
  else match space % 16 with
    | 0 => match x.peer with
      | some d => if t + n ≤ 2 ^ 42 then some (.peer d t) else none
      | none =>
        if 2 ^ 39 ≤ t ∧ t + n ≤ 2 ^ 40 then some (.loc t)
        else if (accessFault s t n).isNone then some (.loc t) else none
    | 1 =>
      let cl := space / 16
      if 2 ^ 24 < t + n ∨ physCluster s (cl / 8) (cl % 8) = 15 then none
      else if blockNo s cl = some b then some (.own t)
      else some (.cluster (cl / 8 * 16 + cl % 8) t)
    | _ => if t + n ≤ 2 ^ 24 then some (.own t) else none

def Place.plus (p : Place) (k : Nat) : Place := match p with
  | .own o => .own (o + k)
  | .cluster c o => .cluster c (o + k)
  | .loc a => .loc (a + k)
  | .peer d a => .peer d (a + k)

def Place.addr (p : Place) : Nat := match p with
  | .own o => o
  | .cluster _ o => o
  | .loc a => a
  | .peer _ a => a

def Place.isPeer (p : Place) : Bool := match p with
  | .peer .. => true
  | _ => false

/-- The destination code of a place (R234); a peer's is 256 and more. -/
def Place.node (s : State) (b : Nat) (p : Place) : Nat := match p with
  | .own _ => if b = 32 then 64 else b / 8 * 16 + logicalCluster s (b / 8) (b % 8)
  | .cluster c _ => c
  | .loc a => match locOf s a with
    | .hbm st _ _ => st / 2 * 16 + 8 + st % 2
    | .tier .. => 4 * 16 + 2
    | _ => 4 * 16
  | .peer d _ => 256 + d

/-- Bytes from an address to the next boundary a parcel is cut at (R230). Groups smaller than a
cell are cut by cells (DEDUCED 37). -/
def memLimit (s : State) (a : Nat) : Nat :=
  match spaceOf s a with
  | 0 => 256 - a % 256
  | 1 => match pregionOf s a with
    | some r => let g := max 32 (2 ^ pregLog2 s r); g - (a - pregBase s r) % g
    | none => 32
  | 3 => 64 - a % 64
  | _ => 2048 - a % 2048

/-- The same for an address at a node: a node's own buffer is cut at 2,048 bytes alone. -/
def nodeLimit (s : State) (d a : Nat) : Nat :=
  if (d / 16 < 4 ∧ 8 ≤ d % 16) ∨ d = 66 then memLimit s a else 2048 - a % 2048

/-- The longest data of an ADD parcel of kinds 1 to 3: its descriptor takes half a cell of the 64 (R230, R234). -/
def addLimit : Nat := 2016

def Place.limit (s : State) (p : Place) : Nat := match p with
  | .loc a => memLimit s a
  | _ => 2048

/-- A MOVE or ADD as its operands come out (R227): class, tally, length, source, target, and the
KIND and exponent address of an ADD. -/
structure MoveOp where
  add   : Nat
  cls   : Nat
  tally : Nat
  len   : Nat
  src   : Place
  dst   : Place
  exp   : Nat
deriving DecidableEq, Repr

/-- The source bytes of a MoveOp piece of `n` at `off`, in its order: for G16B32 a block's codes and
then its exponent, which lies after all the codes (R225). -/
def MoveOp.cut (s : State) (m : MoveOp) (off : Nat) : Nat :=
  let left := m.len - off
  if m.add = 4 then 64
  else
    let n := min left (min (2048 - (m.dst.plus off).addr % 2048) (min ((m.src.plus off).limit s) ((m.dst.plus off).limit s)))
    if m.add = 0 then n else min n addLimit

/-- Bytes of a block's own buffer. -/
def ownBytes (s : State) (b off n : Nat) : List Byte :=
  if b = 32 then stGetMany 0 s.chip.hubBuf off n else stGetMany 0 s.chip.clusterBuf (b * 2 ^ 24 + off) n

def ownStore (s : State) (b off : Nat) (d : List Byte) : State :=
  if b = 32 then { s with chip := { s.chip with hubBuf := stSetMany 0 s.chip.hubBuf off d } }
  else { s with chip := { s.chip with clusterBuf := stSetMany 0 s.chip.clusterBuf (b * 2 ^ 24 + off) d } }

/-- The add descriptor of a piece (R208). -/
def addDesc (m : MoveOp) (off : Nat) : List Byte :=
  leBytes 8 m.add ++ leBytes 8 (if m.add = 4 then m.exp + off / 64 else 0)

/-! Parcels (R230, R231, R239). -/

/-- A bus error gathered: the block stops (R240). -/
def busError (s : State) (b : Nat) (e : BusErr) : State :=
  let k := blockGet s b
  blockPut s b { k with errs := k.errs ++ [e], stops := true }

/-- A parcel failed. -/
def parcelFail (s : State) (b ch : Nat) (p : Parcel) (page : Bool) (reason addr : Nat) : State :=
  let x := chanGet s b ch
  let s := chanPut s b ch { x with window := x.window.filter (fun y => y.tag != p.tag) }
  settle (busError s b { page := page, addr := addr, reason := reason, chans := p.chans, marks := p.marks, tag := p.tag, tries := p.attempts + 1 }) b

/-- The cells of a parcel (R234). -/
def parcelCells (s : State) (b ch : Nat) (p : Parcel) : List Cell :=
  let die := (blockNode b).1
  let src := ownerSrc s b ch
  let mk (n i : Nat) (addr : Nat) (d : List Byte) : Cell := mkCell s die p.cls p.kind p.dest src p.tag i (n - 1) p.tally addr d
  if p.kind = 2 then
    let reply := if p.onward.isSome then 0xFF else p.tally
    [mk 1 0 p.src (leBytes 6 p.src ++ leBytes 3 p.len ++ leBytes 4 p.addr ++ [byteOf reply])]
  else
    let n := ceilDiv p.data.length 32
    (List.range n).map (fun i => mk n i (p.addr + 32 * i) (sliceB p.data (32 * i) 32))

/-- The next tag whose window position is free (R238). -/
def freeTag (x : Chan) : Nat :=
  (((List.range 16).map (fun i => (x.nextTag + i) % 4096)).find? (fun t => x.window.all (fun p => p.tag % 16 != t % 16))).getD x.nextTag

/-- A parcel sent: tagged, put in the window, its cells given to the Lath or its operation to Scrim
(R239, R262). -/
def sendParcel (s : State) (b ch : Nat) (p : Parcel) : State :=
  let x := chanGet s b ch
  let t := freeTag x
  let p := { p with tag := t, retries := 0, interval := 0, attempts := 0, sentAt := none }
  let s := chanPut s b ch { x with window := x.window ++ [p], nextTag := (t + 1) % 4096 }
  if p.peer then
    let i := issueOp s (.parcel b ch t) 0 p.kind (p.dest - 256) ch p.cls (if p.kind = 2 then p.src else p.addr) p.data p.len
    match i.2 with
    | none => i.1
    | some reason => parcelFail i.1 b ch p false reason p.addr
  else injectCells s (blockNode b).1 (blockNode b).2 (parcelCells s b ch p)

/-- Bytes a parcel may have from its start on, and those it may carry on (R230, R231). -/
def parcelLimit (s : State) (p : Parcel) : Nat :=
  let n := if p.kind = 2 then min (nodeLimit s p.dest p.src) (2048 - p.addr % 2048) else nodeLimit s p.dest p.addr
  let n := match p.onward with
    | none => n
    | some o => min n (min (nodeLimit s o.dest o.addr) (if o.kind = 4 then addLimit else 2048))
  if p.kind = 4 then min n addLimit else n

/-- Whether what a read carries on goes where the held one's does and follows it; a gathered block does not join. -/
def onwardJoins (h p : Parcel) : Bool :=
  match h.onward, p.onward with
  | none, none => p.addr == h.addr + h.len
  | some a, some b => a.kind == b.kind && a.dest == b.dest && b.addr == a.addr + h.len && a.desc == b.desc
      && a.more.isEmpty && b.more.isEmpty && decide (a.dest < 256) && leAt a.desc 0 1 != 4
  | _, _ => false

/-- Whether a parcel joins the one the merge stage holds (R231). -/
def joins (s : State) (h p : Parcel) : Bool :=
  h.kind == p.kind && h.dest == p.dest && h.cls == p.cls && h.tally == p.tally && !h.peer && !p.peer
    && onwardJoins h p && (p.kind != 2 || p.src == h.src + h.len) && decide (h.len + p.len ≤ parcelLimit s h)
    && (p.kind != 4 || (sliceB p.data 0 16 == sliceB h.data 0 16 && leAt p.data 0 1 != 4))

/-- A joined read takes what both carry on. -/
def onwardLen (o : Option Onward) (n : Nat) : Option Onward := o.map (fun w => { w with take := n })

/-- The held parcel sent. -/
def flushHeld (s : State) (b : Nat) : State :=
  let k := blockGet s b
  match k.held with
  | none => s
  | some (ch, _, p) => sendParcel (blockPut s b { k with held := none }) b ch p

/-- A parcel given to the merge stage: it joins the held one, or takes its place (R231). A peer's
goes out at once. -/
def mergeParcel (s : State) (b ch : Nat) (p : Parcel) : State :=
  if p.peer then sendParcel s b ch p
  else
    let k := blockGet s b
    match k.held with
    | some (c, t, h) =>
      if joins s h p then
        let d := if p.kind = 4 then p.data.drop 16 else p.data
        let h' := { h with len := h.len + p.len, data := h.data ++ d
                           chans := h.chans ||| p.chans, marks := h.marks ++ p.marks
                           onward := onwardLen h.onward (h.len + p.len) }
        blockPut s b { k with held := some (c, t, h') }
      else
        let s := flushHeld s b
        blockPut s b { blockGet s b with held := some (ch, s.plumb, p) }
    | none => blockPut s b { k with held := some (ch, s.plumb, p) }

/-- MERGE_HOLD_EXPIRY (R231): 8 Lath cycles, 4.4 ns, have passed with nothing joining. -/
def mergeHoldExpiryState (block win : Nat) (s : State) : State :=
  match (blockGet s block).held with
  | some (ch, t, _) => if ch = win / 16 ∧ t + 5 ≤ s.plumb ∧ released s then flushHeld s block else s
  | none => s

/-- Parcels a channel's window counts, the held one among them. -/
def windowUsed (s : State) (b ch : Nat) : Nat :=
  (chanGet s b ch).window.length + (match (blockGet s b).held with
    | some (c, _, _) => boolNat (c == ch)
    | none => 0)

/-- A parcel that carries bytes to a place. -/
def outParcel (s : State) (b ch id : Nat) (m : MoveOp) (desc d : List Byte) (dst : Place) (n : Nat) : Parcel :=
  { tag := 0, kind := if m.add = 0 then 1 else 4, dest := dst.node s b, cls := m.cls, tally := m.tally, chans := 2 ^ ch
    marks := [(ch, id)], addr := dst.addr, src := 0, len := n, data := desc ++ d, attempts := 0, retries := 0
    interval := 0, sentAt := none, peer := dst.isPeer, onward := none }

/-- The reads that follow the first of a G16B32 block's (R225): the codes past a boundary of the source, and the
32 bytes that hold its exponent, which lies after all the codes. -/
def blockReads (s : State) (b : Nat) (m : MoveOp) (off first : Nat) : List ReadPart :=
  let part (p : Place) (n skip take : Nat) : ReadPart := { dest := p.node s b, src := p.addr, len := n, skip := skip, take := take }
  let codes := if first = 64 then [] else [part (m.src.plus (off + first)) (64 - first) 0 (64 - first)]
  codes ++ [part (m.src.plus (m.len + off / 64 / 32 * 32)) 32 (off / 64 % 32) 1]

/-- One piece of a MOVE or ADD issued (R230): a write of the channel's own bytes, a read into its
own buffer, or a read that goes on to another node. -/
def issuePiece (s : State) (b ch id : Nat) (m : MoveOp) (off n : Nat) : State :=
  let dst := m.dst.plus off
  let desc := if m.add = 0 then [] else addDesc m off
  match m.src with
  | .own o =>
    let d := ownBytes s b (o + off) n ++ (if m.add = 4 then ownBytes s b (o + m.len + off / 64) 1 else [])
    mergeParcel s b ch (outParcel s b ch id m desc d dst n)
  | _ =>
    let src := m.src.plus off
    let first := if m.add = 4 then min 64 (src.limit s) else n
    let on : Onward :=
      { kind := if m.add = 0 then 1 else 4, dest := dst.node s b, addr := dst.addr, desc := desc, read := [], skip := 0, take := first
        more := if m.add = 4 then blockReads s b m off first else [] }
    let here := match dst with
      | .own _ => m.add == 0
      | _ => false
    let p : Parcel :=
      { tag := 0, kind := 2, dest := src.node s b, cls := m.cls, tally := m.tally, chans := 2 ^ ch, marks := [(ch, id)]
        addr := if here then dst.addr else 0, src := src.addr, len := first, data := [], attempts := 0, retries := 0
        interval := 0, sentAt := none, peer := src.isPeer, onward := if here then none else some on }
    mergeParcel s b ch p

/-- Bytes of a channel's staging buffer (R221). -/
def stagingSize : Nat := 4096

/-- Bytes a parcel keeps in its channel's staging buffer: written data until the last cell is injected, and what a read
carries on, from its request. -/
def parcelStaged (p : Parcel) : Nat :=
  match p.onward with
  | some o => o.read.length + p.len
  | none => if p.kind = 2 ∨ p.sentAt.isSome then 0 else p.data.length

/-- Bytes of a channel's staging buffer in use. -/
def staged (s : State) (b ch : Nat) : Nat :=
  ((chanGet s b ch).window.map parcelStaged).sum + (match (blockGet s b).held with
    | some (c, _, p) => if c = ch then parcelStaged p else 0
    | none => 0)

/-- Pieces issued until the MOVE is done or the window is full; `fuel` bounds them. -/
def issuePieces (b ch id : Nat) (m : MoveOp) : Nat → State → State
  | 0, s => s
  | fuel + 1, s =>
    let x := chanGet s b ch
    if m.len ≤ x.issued ∨ 16 ≤ windowUsed s b ch ∨ (blockGet s b).stops then s
    else
      let n := m.cut s x.issued
      if stagingSize < staged s b ch + n then s else
      let s := chanPut s b ch { x with issued := x.issued + n }
      issuePieces b ch id m fuel (issuePiece s b ch id m x.issued n)

/-! Instructions (R225–R229). -/

/-- An instruction row of a channel: the word at its pc, if it is the row's operation and the
channel may run it: not stopping, stopped or shed (R222, R240, R268). -/
def chanRow (b ch op : Nat) (f : Chan → Nat → State → State) (s : State) : State :=
  let x := chanGet s b ch
  let w := imageWord x.image x.pc
  if 33 ≤ b ∨ blockChans b ≤ ch ∨ !released s ∨ 4 ≤ shedLevel s ∨ (blockGet s b).stops ∨ stOp w ≠ op then s
  else if x.state = chRunning ∧ (!x.stopping ∨ 0 < x.issued) then f x w s
  else if x.state = chHeld ∧ shedLevel s < 2 ∧ !x.stopping then f { x with state := chRunning } w s
  else s

/-- The pc moved on to the next word. -/
def stepChan (s : State) (b ch : Nat) (x : Chan) : State := settle (chanPut s b ch { x with pc := x.pc + 1 }) b

/-- BASE (R225): a cluster's number is kept with the space. -/
def baseOpState (block chan : Nat) (s : State) : State :=
  chanRow block chan opBase (fun x w s =>
    let sp := fieldOf w 55 52
    let o := fieldOf w 49 48
    let a := if sp = 0 then fieldOf w 41 0 else fieldOf w 23 0
    stepChan s block chan { x with bases := x.bases.set o a, spaces := x.spaces.set o (sp + 16 * (if sp = 1 then fieldOf w 47 43 else 0)) }) s

/-- STRIDE (R225). -/
def strideState (block chan : Nat) (s : State) : State :=
  chanRow block chan opStride (fun x w s =>
    stepChan s block chan { x with strides := stSet 0 x.strides (fieldOf w 50 48 * 4 + fieldOf w 47 46) (sextNat 42 (fieldOf w 41 0)) }) s

/-- LOOP (R227). -/
def loopOpState (block chan : Nat) (s : State) : State :=
  chanRow block chan opLoop (fun x w s =>
    let l := fieldOf w 50 48
    stepChan s block chan { x with counters := x.counters.set l 0, loops := x.loops ++ [(l, x.pc + 1)] }) s

/-- ENDL (R227): back to the word after LOOP until the count is reached. -/
def endlState (block chan : Nat) (s : State) : State :=
  chanRow block chan opEndl (fun x w s =>
    let l := fieldOf w 50 48
    match x.loops.getLast? with
    | none => stepChan s block chan x
    | some (_, start) =>
      let i := nthD x.counters l 0 + 1
      let x := { x with counters := x.counters.set l i }
      if i ≤ fieldOf (imageWord x.image (start - 1)) 23 0 then settle (chanPut s block chan { x with pc := start }) block
      else stepChan s block chan { x with loops := x.loops.dropLast }) s

/-- A cursor's address (R227). -/
def cursor (x : Chan) (o : Nat) : Int :=
  x.loops.foldl (fun (a : Int) l => a + ((nthD x.counters l.1 0 : Nat) : Int) * stGet 0 x.strides (l.1 * 4 + o)) (nthD x.bases o 0 : Nat)

/-- The index word at the index cursor (R227, R132): read from this device (DEDUCED 38); none where
the cursor names nothing that can be read. -/
def indexWord (s : State) (b : Nat) (x : Chan) : State × Option Nat :=
  let a := cursor x 2
  let t := a.toNat
  if a < 0 ∨ t % 4 ≠ 0 then (s, none)
  else match placeOf s b { x with peer := none } (nthD x.spaces 2 0) ((t / 32 * 32 : Nat) : Int) 32 with
    | some (.own _) => (s, some (leNat (ownBytes s b t 4)))
    | some (.cluster c _) => (s, some (leNat (stGetMany 0 s.chip.clusterBuf ((c / 16 * 8 + physNode s c) * 2 ^ 24 + t) 4)))
    | some (.loc _) => if spaceOf s t = 2 then (s, none) else let r := readMem s t 4; (r.1, r.2.map leNat)
    | _ => (s, none)

/-- The operands of a MOVE or ADD (R227), or the address that faults. -/
def moveOf (s : State) (b : Nat) (x : Chan) (w : Nat) : State × Except Nat MoveOp :=
  let add := if stOp w = opAdd then fieldOf w 35 32 else 0
  let ix := bitOf w 52 || bitOf w 51
  let r := if ix then indexWord s b x else (s, some 0)
  match r.2 with
  | none => (r.1, .error ((cursor x 2).toNat % 2 ^ 42))
  | some i =>
    let len := fieldOf w 23 0
    let a := cursor x 0 + (if bitOf w 52 then ((i * srcElem x.image : Nat) : Int) else 0)
    let d := cursor x 1 + (if bitOf w 51 then ((i * dstElem x.image : Nat) : Int) else 0)
    let e := cursor x 3
    let blocks := if add = 4 then placeOf s b x (nthD x.spaces 3 0) e (len / 64) else none
    let adder (p : Place) : Bool := match p with
      | .loc _ => true
      | .peer .. => true
      | _ => false
    match placeOf s b x (nthD x.spaces 0 0) a (if add = 4 then len + len / 64 else len), placeOf s b x (nthD x.spaces 1 0) d len with
    | none, _ => (r.1, .error (a.toNat % 2 ^ 42))
    | _, none => (r.1, .error (d.toNat % 2 ^ 42))
    | some sp, some dp =>
      if add ≠ 0 ∧ !adder dp then (r.1, .error (d.toNat % 2 ^ 42))
      else if add = 4 ∧ !blocks.any adder then (r.1, .error (e.toNat % 2 ^ 42))
      else (r.1, .ok { add := add, cls := fieldOf w 55 53, tally := fieldOf w 47 40, len := len, src := sp, dst := dp, exp := e.toNat })

/-- A MOVE or ADD carried on: held at shed level S2 where its class is 4 or 5, passed over where it had completed before a
halt (R242), a bus error where an address faults, else its parcels issued as far as the window lets them (R223, R227, R230). -/
def moveRow (b ch : Nat) (x : Chan) (w : Nat) (s : State) : State :=
  if 4 ≤ fieldOf w 55 53 ∧ 2 ≤ shedLevel s ∧ x.issued = 0 then settle (chanPut s b ch { x with state := chHeld }) b
  else
    if x.doneIds.contains x.moves then settle (chanPut s b ch { x with pc := x.pc + 1, moves := x.moves + 1 }) b else
    let r := moveOf s b x w
    let mark : ChanMark :=
      { id := x.moves, pc := x.pc, counters := x.counters, bases := x.bases, spaces := x.spaces, strides := x.strides, loops := x.loops
        signal := x.signal, anchor := x.anchor, peer := x.peer }
    match r.2 with
    | .error a => busError (chanPut r.1 b ch x) b { page := false, addr := a, reason := 0, chans := 2 ^ ch, marks := [], tag := 0, tries := 0 }
    | .ok m =>
      let s := chanPut r.1 b ch (if x.issued = 0 then { x with marks := x.marks ++ [mark] } else x)
      let s := issuePieces b ch x.moves m 16 s
      let y := chanGet s b ch
      if m.len ≤ y.issued then
        settle (chanPut s b ch { y with pc := y.pc + 1, moves := y.moves + 1, issued := 0 }) b
      else if (blockGet s b).stops then s
      else if 16 ≤ windowUsed s b ch then chanPut s b ch { y with state := chWaiting, wait := 4 }
      else s

/-- MOVE (R230). -/
def moveState (block chan : Nat) (s : State) : State := chanRow block chan opMove (moveRow block chan) s

/-- ADD (R208, R230). -/
def scatterAddState (block chan : Nat) (s : State) : State := chanRow block chan opAdd (moveRow block chan) s

/-- The wait timeout of a channel in ticks (R244, R262). -/
def waitTicks (s : State) (b : Nat) (x : Chan) : Nat :=
  let t := fieldOf (settingGet s rStmWaitTimeout) 15 0
  let peers := b == 32 && (List.range (imageLen x.image)).any (fun i => stOp (imageWord x.image i) == opPeer)
  1000 * (if peers then max t (fieldOf (settingGet s rScrOpTimeout) 15 0 + 40) else t)

/-- A channel put to wait. -/
def waitChan (s : State) (b ch : Nat) (x : Chan) (kind id for_ : Nat) : State :=
  chanPut s b ch { x with state := chWaiting, wait := kind, waitId := id, waitFor := for_, entry := s.plumb, waitLen := waitTicks s b x }

/-- WAITP (R228). -/
def waitpState (block chan : Nat) (s : State) : State :=
  chanRow block chan opWaitp (fun x w s =>
    let t := x.anchor + fieldOf w 47 0
    if t ≤ s.plumb then stepChan s block chan { x with anchor := t } else waitChan s block chan x 1 0 t) s

/-- What a WAITT or WAITC compares with its threshold. -/
def waitValue (s : State) (b kind id : Nat) : Nat := if kind = 3 then tallyGet s b id else (chanGet s b id).signal

/-- WAITT (R228). -/
def waittState (block chan : Nat) (s : State) : State :=
  chanRow block chan opWaitt (fun x w s =>
    let t := fieldOf w 47 40
    if fieldOf w 31 0 ≤ waitValue s block 3 t then stepChan s block chan x else waitChan s block chan x 3 t (fieldOf w 31 0)) s

/-- WAITC (R228). -/
def waitcState (block chan : Nat) (s : State) : State :=
  chanRow block chan opWaitc (fun x w s =>
    let t := fieldOf w 44 40
    if fieldOf w 31 0 ≤ waitValue s block 2 t then stepChan s block chan x else waitChan s block chan x 2 t (fieldOf w 31 0)) s

/-- SIGNAL (R228). -/
def signalState (block chan : Nat) (s : State) : State :=
  chanRow block chan opSignal (fun x _ s => stepChan s block chan { x with signal := (x.signal + 1) % 2 ^ 32 }) s

/-- SETT (R229). -/
def settState (block chan : Nat) (s : State) : State :=
  chanRow block chan opSett (fun x w s =>
    let k := blockGet s block
    stepChan (blockPut s block { k with tallies := stSet 0 k.tallies (fieldOf w 47 40) (BitVec.ofNat 32 (fieldOf w 31 0)) }) block chan x) s

/-- PEER (R225). -/
def peerState (block chan : Nat) (s : State) : State :=
  chanRow block chan opPeer (fun x w s => stepChan s block chan { x with peer := if bitOf w 12 then none else some (fieldOf w 11 0) }) s

/-- END (R222, R228): the signal count rises and the channel completes. -/
def endChanState (block chan : Nat) (s : State) : State :=
  chanRow block chan opStEnd (fun x _ s =>
    settle (chanEnd (chanPut s block chan { x with signal := (x.signal + 1) % 2 ^ 32 }) block chan chLoaded stOk false) block) s

/-- A channel at a wait of one of some kinds, which may go on: nothing stops or sheds its block. -/
def waitingAt (s : State) (b ch : Nat) (kinds : List Nat) : Option Chan :=
  let x := chanGet s b ch
  if 33 ≤ b ∨ blockChans b ≤ ch ∨ !released s ∨ 4 ≤ shedLevel s ∨ (blockGet s b).stops ∨ x.state ≠ chWaiting ∨ !kinds.contains x.wait then none
  else some x

/-- WAITP_DUE (R228). -/
def waitpDueState (block chan : Nat) (s : State) : State :=
  match waitingAt s block chan [1] with
  | none => s
  | some x => if s.plumb < x.waitFor then s else stepChan s block chan { x with state := chRunning, wait := 0, anchor := x.waitFor }

/-- WAIT_SATISFIED (R228): before the window's end tick. -/
def waitSatisfiedState (block chan : Nat) (s : State) : State :=
  match waitingAt s block chan [2, 3] with
  | none => s
  | some x =>
    if x.entry + x.waitLen ≤ s.plumb ∨ waitValue s block x.wait x.waitId < x.waitFor then s
    else stepChan s block chan { x with state := chRunning, wait := 0 }

/-- WAIT_TIMEOUT (R228). -/
def waitTimeoutState (block chan : Nat) (s : State) : State :=
  match waitingAt s block chan [2, 3] with
  | none => s
  | some x => if s.plumb < x.entry + x.waitLen then s else chanEnd s block chan chLoaded stTimeout false

/-! The owner's side (R229, R239). -/

/-- The first cell of a kind taken out of a block's inbox. -/
def takeInbox (s : State) (b kind : Nat) : Option (Cell × State) :=
  let l := stGet [] s.lath.inbox b
  (l.find? (fun c => c.kind == kind)).map (fun c =>
    (c, { s with lath := { s.lath with inbox := stSet [] s.lath.inbox b (l.erase c) } }))

/-- The parcel of a cell, in its owner's window. -/
def parcelFor (s : State) (b : Nat) (c : Cell) : Option Parcel := (chanGet s b (c.src % 32)).window.find? (fun p => p.tag == c.tag)

/-- A parcel put out of its window. -/
def dropParcel (s : State) (b ch : Nat) (p : Parcel) : State :=
  let x := chanGet s b ch
  chanPut s b ch { x with window := x.window.filter (fun y => y.tag != p.tag) }

/-- Whether a parcel's tally is counted by its owner: it went to memory, the tier, a window or a
peer (R229). -/
def countsHere (p : Parcel) : Bool :=
  p.peer || (decide (p.dest / 16 < 4) && decide (8 ≤ p.dest % 16)) || (p.dest / 16 == 4 && (p.dest % 16 == 2 || decide (2 ^ 24 ≤ p.addr)))

/-- A write or add acknowledged (R239). -/
def parcelDone (s : State) (b ch : Nat) (p : Parcel) : State :=
  let s := dropParcel s b ch p
  settle (if countsHere p then tallyBump s b p.tally p.len else s) b

/-- The bytes a transfer counts in its tally: for a G16B32 block its codes. -/
def addLen (o : Onward) (d : List Byte) : Nat := if o.kind = 4 ∧ leAt o.desc 0 1 = 4 then 64 else d.length

/-- A read's bytes all here: placed and counted, gathered on, or sent on (R225, R229, R230). -/
def readDone (s : State) (b ch : Nat) (p : Parcel) : State :=
  let s := dropParcel s b ch p
  match p.onward with
  | none => settle (tallyBump s b p.tally p.len) b
  | some o =>
    let d := o.read ++ sliceB p.data o.skip o.take
    match o.more with
    | r :: rs =>
      let q := { p with dest := r.dest, src := r.src, len := r.len, data := [], peer := decide (256 ≤ r.dest)
                        onward := some { o with read := d, skip := r.skip, take := r.take, more := rs } }
      settle (sendParcel s b ch q) b
    | [] =>
      let q := { p with kind := o.kind, dest := o.dest, addr := o.addr, len := addLen o d, data := o.desc ++ d, onward := none
                        peer := decide (256 ≤ o.dest) }
      settle (sendParcel s b ch q) b

/-- CELL_ACK (R239). -/
def cellAckState (block : Nat) (s : State) : State :=
  match takeInbox s block 5 with
  | none => s
  | some (c, s) => match parcelFor s block c with
    | none => lathCount s (blockNode block).1 5 1
    | some p => if p.kind = 2 then lathCount s (blockNode block).1 5 1 else parcelDone s block (c.src % 32) p

/-- The bytes of a read with one reply cell's placed among them. -/
def placeReply (p : Parcel) (c : Cell) : List Byte :=
  let b := sliceB p.data 0 p.len
  sliceB b 0 (32 * c.seq) ++ c.payload ++ sliceB b (32 * c.seq + 32) (p.len - 32 * c.seq - 32)

/-- CELL_REPLY (R229, R238): through the slot of its owner and window position at the owner's node; a reply of a parcel no
longer outstanding is late (R239). -/
def cellReplyState (block : Nat) (s : State) : State :=
  match takeInbox s block 3 with
  | none => s
  | some (c, s) =>
    let n := blockNode block
    let k := slotKey n.1 n.2 c.src c.tag
    let x := slotGet s k
    let d := (x.tag + 4096 - c.tag) % 4096
    if (d = 0 ∧ bitOf x.mask c.seq) ∨ (16 ≤ d ∧ d ≤ 2047) then lathCount s n.1 4 1
    else match parcelFor s block c with
      | none => lathCount s n.1 5 1
      | some p =>
        let ch := c.src % 32
        let x := if d = 0 then x else { slot0 with tag := c.tag }
        let x := { x with mask := x.mask ||| 2 ^ c.seq }
        let s := slotPut s k x
        let s := if p.onward.isNone then ownStore s block c.addr c.payload else s
        let q := if p.onward.isNone then p else { p with data := placeReply p c }
        let s := parcelMap s c.src c.tag (fun _ => q)
        if x.whole c.ncell then readDone s block ch q else s

/-- CELL_NACK (R239). -/
def cellNackState (block : Nat) (s : State) : State :=
  match takeInbox s block 6 with
  | none => s
  | some (c, s) => match parcelFor s block c with
    | none => lathCount s (blockNode block).1 5 1
    | some p => parcelFail s block (c.src % 32) p (leAt c.payload 6 1 = 4) (leAt c.payload 6 1) (leAt c.payload 0 6 % 2 ^ 42)

/-- LATH_PARCEL_RETRY (R239): the whole parcel again with its tag, or its failure; a parcel whose
Scrim leg is open does not fail here (R262). -/
def lathParcelRetryState (block win : Nat) (s : State) : State :=
  let ch := win / 16
  let x := chanGet s block ch
  match x.window.find? (fun p => p.tag % 16 == win % 16 && !p.peer) with
  | none => s
  | some p => match p.sentAt with
    | none => s
    | some t =>
      if s.plumb < t + p.interval ∨ 33 ≤ block then s
      else if p.attempts < p.retries then
        let q := { p with attempts := p.attempts + 1, sentAt := none }
        let s := chanPut s block ch { x with window := x.window.map (fun y => if y.tag = p.tag then q else y) }
        injectCells (lathCount s (blockNode block).1 3 1) (blockNode block).1 (blockNode block).2 (parcelCells s block ch q)
      else if windowOpen s (ownerSrc s block ch) p.tag then s
      else parcelFail s block ch p false 0 (if p.kind = 2 then p.src else p.addr)

/-! The all-stop (R240, R241). -/

/-- A halted channel's position: the start of its first failed MOVE, of the one in hand, or where it
stands; of the MOVEs from there on, those that had completed are not repeated (R240, R242). -/
def savedChan (x : Chan) (failed : List Nat) : Chan :=
  let ids := failed ++ (if 0 < x.issued then [x.moves] else [])
  match x.marks.find? (fun m => ids.contains m.id && ids.all (fun i => decide (m.id ≤ i))) with
  | none => x
  | some m => { x with pc := m.pc, counters := m.counters, bases := m.bases, spaces := m.spaces, strides := m.strides, loops := m.loops
                       signal := m.signal, anchor := m.anchor, peer := m.peer, moves := m.id
                       doneIds := x.doneIds.filter (fun i => decide (m.id ≤ i) && !ids.contains i) ++
                         ((List.range (x.moves - m.id)).map (· + m.id)).filter (fun i => !ids.contains i && !x.doneIds.contains i) }

/-- The lowest channel of a mask. -/
def lowestChan (m : Nat) : Nat := ((maskChans m).head?).getD 0

/-- ALL_STOP (R240): the outstanding parcels have settled. -/
def allStopState (block : Nat) (s : State) : State :=
  let k := blockGet s block
  if 33 ≤ block ∨ !k.stops ∨ k.held.isSome ∨ k.chans.any (fun x => !x.window.isEmpty) then s
  else
    let page := k.errs.all (·.page)
    match (if page then k.errs.head? else k.errs.find? (fun e => !e.page)) with
    | none => s
    | some e =>
      let base := stmBase block
      let s := csrSetField (csrSetField s base 31 31 1) base 30 29 (if page then 1 else 2)
      let s := csrPut (csrPut64 (csrBump s base 15 0 1) (base + 8) e.addr) (base + 0x10) e.chans
      let s := blockPut s block { blockGet s block with errs := [], stops := false }
      let halt (s : State) (ch : Nat) : State :=
        let x := chanGet s block ch
        if x.state = chRunning ∨ x.state = chWaiting ∨ x.state = chHeld then
          if page then
            let failed := (k.errs.flatMap (·.marks)).filterMap (fun m => if m.1 = ch then some m.2 else none)
            chanEnd (chanPut s block ch { savedChan x failed with marks := [] }) block ch chHalted stHaltedPage false
          else chanEnd (chanPut s block ch { x with marks := [] }) block ch chAborted stBusError false
        else s
      let cmd := (chanGet s block (lowestChan e.chans)).cmd
      let s := (List.range (blockChans block)).foldl halt s
      let unit := chanUnitId s block (lowestChan e.chans)
      let r := { errRec unit 0x0C 0 1 0 with
        opcode := cmd.elim 0 (·.opcode), op := cmd.elim 0 (·.op)
        syndrome := leBytes 6 e.addr ++ [byteOf (if page then 1 else 2), byteOf e.reason] ++ leBytes 4 e.chans ++ leBytes 2 e.tag
          ++ [byteOf e.tries, 0] }
      if page then snagRecord s r
      else
        let ph := stepPhase s
        let s := decideEvent s r false
        if ph = sOpen ∨ ph = sDeciding then orderReplay s unit 0x0C else s

/-! The meanings of the rows. -/

/-- STENCIL_LOAD (R226). Loads a validated program image into a Stencil channel's program store. -/
def execStencilLoad (q qseq : Nat) (s : State) : Host.Outcome State Fault Refusal :=
  .next (stencilLoadState q qseq s)

/-- STREAM_START (R222). Starts the named loaded channels of a Stencil block, each of which completes on its own. -/
def execStreamStart (q qseq : Nat) (s : State) : Host.Outcome State Fault Refusal :=
  .next (streamStartState q qseq s)

/-- STREAM_STOP (R222). Makes each named channel finish its instruction and its parcels, complete with STOPPED and return to LOADED. -/
def execStreamStop (q qseq : Nat) (s : State) : Host.Outcome State Fault Refusal :=
  .next (streamStopState q qseq s)

/-- STREAM_RESUME (R242). Restarts every HALTED channel of a block from the start of its saved MOVE. -/
def execStreamResume (q qseq : Nat) (s : State) : Host.Outcome State Fault Refusal :=
  .next (streamResumeState q qseq s)

/-- CELL_ACK (R239). An owner receives a parcel's ACK, frees its window slot and counts its tally. -/
def execCellAck (block : Nat) (s : State) : Host.Outcome State Fault Refusal :=
  .next (cellAckState block s)

/-- CELL_REPLY (R229). An owner places a read reply's cells and counts the tally when the reply is complete. -/
def execCellReply (block : Nat) (s : State) : Host.Outcome State Fault Refusal :=
  .next (cellReplyState block s)

/-- CELL_NACK (R239). A NACK fails the owner's parcel and raises a bus error. -/
def execCellNack (block : Nat) (s : State) : Host.Outcome State Fault Refusal :=
  .next (cellNackState block s)

/-- LATH_PARCEL_RETRY (R239). An unanswered parcel is resent after the retry interval, and fails when retries are exhausted. -/
def execLathParcelRetry (block win : Nat) (s : State) : Host.Outcome State Fault Refusal :=
  .next (lathParcelRetryState block win s)

/-- ALL_STOP (R240). After outstanding parcels settle, the block classes its bus errors PAGE or ACCESS, halts or aborts its channels and writes a record. -/
def execAllStop (block : Nat) (s : State) : Host.Outcome State Fault Refusal :=
  .next (allStopState block s)

/-- MERGE_HOLD_EXPIRY (R231). A held unsent parcel is sent after 8 Lath cycles if nothing joined it. -/
def execMergeHoldExpiry (block win : Nat) (s : State) : Host.Outcome State Fault Refusal :=
  .next (mergeHoldExpiryState block win s)

/-- BASE (R225). Stencil instruction BASE sets an operand cursor's base and space. -/
def execBaseOp (block chan : Nat) (s : State) : Host.Outcome State Fault Refusal :=
  .next (baseOpState block chan s)

/-- STRIDE (R225). Stencil instruction STRIDE sets an operand's stride at a loop level. -/
def execStride (block chan : Nat) (s : State) : Host.Outcome State Fault Refusal :=
  .next (strideState block chan s)

/-- LOOP (R227). Stencil instruction LOOP opens a loop level with its counter at 0. -/
def execLoopOp (block chan : Nat) (s : State) : Host.Outcome State Fault Refusal :=
  .next (loopOpState block chan s)

/-- ENDL (R227). Stencil instruction ENDL increments the loop counter and returns until COUNT is reached. -/
def execEndl (block chan : Nat) (s : State) : Host.Outcome State Fault Refusal :=
  .next (endlState block chan s)

/-- MOVE (R230). Stencil instruction MOVE computes its addresses and issues its transfer as parcels. -/
def execMove (block chan : Nat) (s : State) : Host.Outcome State Fault Refusal :=
  .next (moveState block chan s)

/-- SCATTER_ADD (R208). Stencil instruction ADD issues an add transfer to memory-side adders as parcels. -/
def execScatterAdd (block chan : Nat) (s : State) : Host.Outcome State Fault Refusal :=
  .next (scatterAddState block chan s)

/-- WAITP (R228). Stencil instruction WAITP waits until ANCHOR + Δ. -/
def execWaitp (block chan : Nat) (s : State) : Host.Outcome State Fault Refusal :=
  .next (waitpState block chan s)

/-- WAITT (R228). Stencil instruction WAITT waits until a tally reaches a threshold. -/
def execWaitt (block chan : Nat) (s : State) : Host.Outcome State Fault Refusal :=
  .next (waittState block chan s)

/-- WAITC (R228). Stencil instruction WAITC waits until another channel's signal count reaches a threshold. -/
def execWaitc (block chan : Nat) (s : State) : Host.Outcome State Fault Refusal :=
  .next (waitcState block chan s)

/-- SIGNAL (R228). Stencil instruction SIGNAL adds 1 to the channel's signal count. -/
def execSignal (block chan : Nat) (s : State) : Host.Outcome State Fault Refusal :=
  .next (signalState block chan s)

/-- SETT (R229). Stencil instruction SETT writes a tally. -/
def execSett (block chan : Nat) (s : State) : Host.Outcome State Fault Refusal :=
  .next (settState block chan s)

/-- PEER (R225). Stencil instruction PEER directs later hub transfers over Scrim to a device or back to this one. -/
def execPeer (block chan : Nat) (s : State) : Host.Outcome State Fault Refusal :=
  .next (peerState block chan s)

/-- END (R222). Stencil instruction END completes the channel and raises its signal count. -/
def execEndChan (block chan : Nat) (s : State) : Host.Outcome State Fault Refusal :=
  .next (endChanState block chan s)

/-- WAITP_DUE (R228). The plumb count reaches ANCHOR + Δ, ANCHOR advances and the channel continues. -/
def execWaitpDue (block chan : Nat) (s : State) : Host.Outcome State Fault Refusal :=
  .next (waitpDueState block chan s)

/-- WAIT_SATISFIED (R228). A tally or signal count reaches a waiting channel's threshold and the channel continues. -/
def execWaitSatisfied (block chan : Nat) (s : State) : Host.Outcome State Fault Refusal :=
  .next (waitSatisfiedState block chan s)

/-- WAIT_TIMEOUT (R228). A WAITT or WAITC whose window ends completes the channel with TIMEOUT. -/
def execWaitTimeout (block chan : Nat) (s : State) : Host.Outcome State Fault Refusal :=
  .next (waitTimeoutState block chan s)

end Sys2Proof.Machine
end

