-- ==== Sys2Proof/Machine/Fault.lean ====
section
/-! DEFINITION. The fault manager's host commands and its flash (R354, R356): SNAG_READ, RETIRE and
the commit of pending records. -/

namespace Sys2Proof.Machine

/-- Entries SNAG_READ delivers: ring records round the ring from START (an entry never written reads as
zeros), counter entries in use, or the summary (R355, R356). -/
def snagEntries (s : State) (what start count : Nat) : List (List Byte) :=
  match what with
  | 1 => (List.range count).map (fun i => sliceB (stGet [] s.snag.ring ((start + i) % 16384)) 0 64)
  | 2 => ((s.snag.counters.drop start).take count).map counterBytes
  | _ => [summaryBytes s.snag]

/-- SNAG_READ (R356). -/
def bodySnagRead (c : Cmd) (s : State) : Option State :=
  let b := c.body
  let what := leAt b 0 1
  let start := leAt b 4 4
  let count := leAt b 8 4
  let dst := leAt b 16 8
  if what = 0 ∨ 3 < what ∨ !zeroAt b 1 3 ∨ !zeroAt b 12 4 ∨ count = 0 ∨ 16384 < count ∨ 2 ^ 42 ≤ dst ∨ dst % 64 ≠ 0
      ∨ (what = 1 ∧ 16384 ≤ start) ∨ (what = 2 ∧ 4096 ≤ start) then some (finish s c stBadParam)
  else
    let es := snagEntries s what start count
    let bs := es.flatten
    if !cmdRangeOk s dst bs.length then some (finish s c stBadParam)
    else some (cmdAnswer s c dst bs (leBytes 4 s.snag.index ++ leBytes 4 es.length))

/-- SNAG_READ (R356). -/
def snagReadState (q qseq : Nat) (s : State) : State := hostRow s q qseq (fun c => c.opcode == 0x0902) bodySnagRead

/-- RETIRE (R356): the record at once, the retirement at the next seam. -/
def bodyRetire (c : Cmd) (s : State) : Option State :=
  let u := leAt c.body 0 4
  let k := fieldOf u 31 28
  if !(k == 1 || k == 2 || k == 3 || k == 6 || k == 7) || !zeroAt c.body 4 4 then some (finish s c stBadParam)
  else
    let s := snagRecord s { errRec u 0 0 2 5 with opcode := c.opcode, op := c.op }
    let us := if s.snag.retires.contains u then s.snag.retires else s.snag.retires ++ [u]
    some (finish { s with snag := { s.snag with retires := us } } c stOk)

/-- RETIRE (R356). -/
def retireState (q qseq : Nat) (s : State) : State := hostRow s q qseq (fun c => c.opcode == 0x0903) bodyRetire

/-- SNAG_FLASH_COMMIT (R354): `ok` says whether the flash took the write; the next attempt after a
failure is made 1 s later. -/
def snagFlashCommitState (ok : Bool) (s : State) : State :=
  if s.snag.pending.isEmpty ∨ s.plumb < s.snag.retryAt ∨ !flashOpen s then s
  else if ok then commitSnag s
  else csrSetField { s with snag := { s.snag with retryAt := s.plumb + 10 ^ 9 } } rSngStatus 31 31 1

/-! The meanings of the rows. -/

/-- SNAG_READ (R356). Copies Snag-list ring records, counter entries or the summary from the hub's RAM image to memory. -/
def execSnagRead (q qseq : Nat) (s : State) : Host.Outcome State Fault Refusal :=
  .next (snagReadState q qseq s)

/-- RETIRE (R356). Retires a named unit at the next seam and writes a permanent record. -/
def execRetire (q qseq : Nat) (s : State) : Host.Outcome State Fault Refusal :=
  .next (retireState q qseq s)

/-- SNAG_FLASH_COMMIT (R354). Pending Snag-list records are committed to both flash copies, retrying after 1 s on failure. -/
def execSnagFlashCommit (ok : Bool) (s : State) : Host.Outcome State Fault Refusal :=
  .next (snagFlashCommitState ok s)

end Sys2Proof.Machine
end

