-- ==== Sys2Proof/Machine/Stage.lean ====
section
/-! DEFINITION. What the stages of a RUN share (R148–R151): the core at its stage, operands
through their descriptors, the counters and the NaN trap (R140, R141), and the stages that move
bytes: LOAD, STORE, STASH and UNSTASH (R153–R155). -/

namespace Sys2Proof.Machine

/-! The core at its stage. -/

/-- A core of a RUN at a stage: its index `pos` among the RUN's `n` cores, the stage's index and
record, and where its operands live. -/
structure StCtx where
  run  : Run
  head : RunHead
  core : CoreRun
  pos  : Nat
  n    : Nat
  i    : Nat
  rcd  : StageRec
  io   : IoCtx

/-- The descriptor of a stage as the core takes it. -/
def StCtx.desc (x : StCtx) (s : State) (idx : Nat) : Option Desc :=
  if idx = 0xFFFF then none else stageDesc s x.run.level x.n x.pos idx

/-- A RUN replaced. -/
def runPut (s : State) (r : Run) : State :=
  { s with runs := s.runs.map (fun x => if x.cmd.op = r.cmd.op then r else x) }

/-- A core's progress changed. -/
def coreUpd (s : State) (op core : Nat) (f : CoreRun → CoreRun) : State :=
  { s with runs := s.runs.map (fun r => if r.cmd.op = op then
      { r with cores := r.cores.map (fun k => if k.core = core then f k else k) } else r) }

/-- Slabs of the hand-over ring that a stage's output fills (R149): none unless it writes the core buffer, at
most the ring. -/
def StCtx.slabsOut (x : StCtx) (s : State) : Nat :=
  match x.desc s x.rcd.dOut with
  | some d => if d.space = 1 then min x.head.slabs (ceilDiv ((d.planeRanges.map (·.2)).foldl (· + ·) 0) 16384) else 0
  | none => 0

/-- The core goes on to its next stage: the slabs of its input are released, those of its output written
(R149). A stage runs whole, so a ring holds a stage's output at its end; how far a producer runs ahead of its
consumer is timing (DEDUCED 85). -/
def StCtx.done (x : StCtx) (s : State) : State :=
  coreUpd s x.run.cmd.op x.core.core (fun k => { k with
    next := x.i + 1, engPos := [0, 0, 0, 0], rowPos := 0
    slabs := ((k.slabs.set (x.i - 1) 0).set x.i (x.slabsOut s)) })

/-- The core's chain ends with a status. -/
def StCtx.fail (x : StCtx) (s : State) (status : Nat) : State :=
  coreUpd s x.run.cmd.op x.core.core (fun k => { k with status := status })

/-- An error that meets a stage's data (R34, R344): a corrected word is counted; an uncorrectable word of the
core buffer or the cluster buffer, or a parity error on a path, stops the RUN at its stage with one event, and
the step is executed again (R351, DEDUCED 86); an error of the save path waits for the next exchange (R352).
True where the stage goes on. -/
def StCtx.upset (x : StCtx) (s : State) (u : Upset) : State × Bool :=
  let pc := x.io.pc
  let stop (unit check : Nat) (syn : List Byte) : State × Bool :=
    let t := decideEvent (x.fail s stFault)
      { unit := unit, check := check, detail := 0, severity := 1, action := 6, opcode := x.run.cmd.opcode
        op := x.run.cmd.op, syndrome := syn } false
    (orderReplay t unit check, false)
  match u with
  | .core w syn double =>
    let unit := unitCore pc 0x100
    if double then stop unit 0x04 (leBytes 8 w ++ [byteOf syn]) else (secdedCorrected s unit w syn, true)
  | .cluster w syn double =>
    let unit := unitCluster (pc / 9) 0x200
    if double then stop unit 0x04 (leBytes 8 w ++ [byteOf syn]) else (secdedCorrected s unit w syn, true)
  | .engine e sub w syn => (secdedCorrected s (unitEngine (pc * 4 + e % 4) (sub % 0x12)) w syn, true)
  | .path sub lanes =>
    if sub = 0x106 then ({ s with chip := { s.chip with saveBad := pc / 9 :: s.chip.saveBad } }, true)
    else stop (unitCore pc sub) 0x05 (leBytes 2 lanes)

/-- The errors that meet a stage, in their order, until one stops it. -/
def StCtx.upsets (x : StCtx) : List Upset → State → State × Bool
  | [], s => (s, true)
  | u :: r, s => let t := x.upset s u; if t.2 then x.upsets r t.1 else t

/-- The context of a core that stands at a stage of a RUN (R151): the RUN and the core are there, the stage is
one the row's meaning is for, the core is not stopped, the arrays run (R378), and no memory request of a class above
the step's waits (R32). -/
def stageCtx (op core : Nat) (sel : StageRec → Bool) (s : State) : Option StCtx :=
  match runOf s op with
  | none => none
  | some r =>
    let h := runHead r.cmd.body
    match r.cores.find? (fun k => k.core == core) with
    | none => none
    | some k =>
      match h.stages[k.next]? with
      | none => none
      | some t =>
        if k.stopped || k.status != stOk || !sel t || decide (4 ≤ shedLevel s) || !released s || lowerWaits s 2 then none
        else
          let fr := ((r.frames.filter (fun p => decide (p.1 ≤ k.next))).getLast?).map (·.2)
          some { run := r, head := h, core := k, pos := h.cores.idxOf core, n := h.cores.length, i := k.next, rcd := t
                 io := { pc := physCore s core, mb := h.mb, frame := fr } }

/-- A stage row: the errors that meet the stage, and what it does where none stops it. Corrections may have
retired the core: the stage goes on where its logical core then is. -/
def stageRow (op core : Nat) (ev : StageEvents) (sel : StageRec → Bool) (f : StCtx → State → State) (s : State) : State :=
  match stageCtx op core sel s with
  | none => s
  | some x =>
    let r := x.upsets ev.upsets s
    if !r.2 then r.1
    else match stageCtx op core sel r.1 with
      | none => r.1
      | some y => f y r.1

/-- Whether a stage is of a kind. -/
def isKind (k : Nat) (t : StageRec) : Bool := t.kind == k

/-! Counters and the NaN trap. -/

/-- A core register of R117 and its siblings advanced. -/
def coreBump (s : State) (pc off n : Nat) : State := csrBump s (coreBlock pc + off) 31 0 n

/-- The trap record of a core's first origin (R141). -/
def latchOrigin (s : State) (pc op stage unit func sub eng elem cause : Nat) : State :=
  let a := coreBlock pc + 0x200
  let s := csrPut s a (1 <<< 31 + stage <<< 24 + cause <<< 20 + unit <<< 16 + func <<< 8 + sub <<< 4 + eng)
  csrPut64 (csrPut64 (csrPut s (a + 4) op) (a + 8) elem) (a + 0x10) s.plumb

/-- Origins of a core: engine, element and cause of each, in their order; the first is latched
while VALID is 0, all are counted, and the core's RUN has met one (R141, R142). -/
def StCtx.origins (x : StCtx) (s : State) (unit func sub : Nat) (os : List (Nat × Nat × Nat)) : State :=
  match os with
  | [] => s
  | o :: _ =>
    let pc := x.io.pc
    let s := if csrField s (coreBlock pc + 0x200) 31 31 = 0
      then latchOrigin s pc x.run.cmd.op x.i unit func sub o.1 o.2.1 o.2.2 else s
    coreUpd (coreBump s pc 0x218 os.length) x.run.cmd.op x.core.core (fun k => { k with origin := true })

/-- Propagated not-finite results counted (R141). -/
def StCtx.propagated (x : StCtx) (s : State) (n : Nat) : State := coreBump s x.io.pc 0x21C n

/-! Spot checks (R345). -/

/-- Whether a block index is one the spot checkers take. -/
def spotTaken (s : State) (block : Nat) : Bool :=
  (block + 97 * stepsOf s) % 2 ^ csrField s rSngCheckCfg 3 0 == 0

/-- The record of a spot check (R353). -/
def spotRec (unit sub block op opcode : Nat) : ErrRec :=
  { unit := unit, check := 0x0D, detail := 0, severity := 1, action := 3, opcode := opcode, op := op
    syndrome := leBytes 4 block ++ [byteOf sub] }

/-- What a spot check of a core's unit comes to (R345): nothing, an event on the unit, or a
step replay; true where the stage goes on. -/
def StCtx.spot (x : StCtx) (s : State) (sub : Nat) (c : SpotCheck) : State × Bool :=
  let unit := unitCore x.io.pc sub
  match c with
  | .agree => (s, true)
  | .outvoted b _ =>
    if spotTaken s b then (decideEvent s (spotRec unit sub b x.run.cmd.op x.run.cmd.opcode) false, true) else (s, true)
  | .differ b =>
    if spotTaken s b then
      (orderReplay (decideEvent s (spotRec unit sub b x.run.cmd.op x.run.cmd.opcode) false) unit 0x0D, false)
    else (s, true)

/-- The stage under its spot check; a core exchanged by the decision goes on in its spare. -/
def StCtx.checked (x : StCtx) (s : State) (sub : Nat) (c : SpotCheck) (f : StCtx → State → State) : State :=
  let r := x.spot s sub c
  if r.2 then f { x with io := { x.io with pc := physCore r.1 x.core.core } } r.1 else r.1

/-! Moving planes (R148). -/

/-- A run of bytes moved between two places; false where a sector is poisoned (R34, R205). -/
def moveBytes (s : State) (io : IoCtx) (sp a sp' b n : Nat) : State × Bool :=
  let r := spaceRead s io sp a n
  match r.2 with
  | none => (r.1, false)
  | some bs => spaceWrite r.1 io sp' b bs

/-- The planes two descriptors share, as source, target and length. -/
def sharedPlanes (a b : Desc) : List (Nat × Nat × Nat) :=
  [(a.code, b.code, a.codeBytes)] ++ (if a.fmt.blocked then [(a.exp, b.exp, a.elems / 32)] else [])
    ++ (if a.side = 0 ∨ b.side = 0 then [] else [(a.side, b.side, a.elems / 128 * 16)])
    ++ (if a.fbl = 0 ∨ b.fbl = 0 then [] else [(a.fbl, b.fbl, a.budget * 32)])

/-- An operand moved plane by plane, and the bytes it took. -/
def moveOperand (s : State) (io : IoCtx) (a b : Desc) : State × Bool × Nat :=
  (sharedPlanes a b).foldl (fun (r : State × Bool × Nat) p =>
    let m := moveBytes r.1 io a.space p.1 b.space p.2.1 p.2.2
    (m.1, r.2.1 && m.2, r.2.2 + p.2.2)) (s, true, 0)

/-- The move of a stage that names both an input and an output; with one of them nothing moves
(DEDUCED 20). -/
def StCtx.move (x : StCtx) (s : State) : State × Bool × Nat :=
  match x.desc s x.rcd.dIn, x.desc s x.rcd.dOut with
  | some a, some b => moveOperand s x.io a b
  | _, _ => (s, true, 0)

/-- Whether the tally a LOAD names has reached its threshold (R151): the data stands in the cluster buffer. -/
def StCtx.prefetched (x : StCtx) (s : State) : Bool :=
  let t := leAt x.rcd.ctrl 0 1
  t != 0xFF && decide (leAt x.rcd.ctrl 4 4 ≤ tallyGet s (x.io.pc / 9) t)

/-- LOAD (R151): where its tally is complete the stage takes the prefetched data and does not access memory;
otherwise it issues its own reads. The prefetched data is the memory's own (DEDUCED 87: the spec says that the
data is the same, and names no place of it in the cluster buffer). -/
def loadBody (x : StCtx) (s : State) : State :=
  if x.prefetched s then
    match x.desc s x.rcd.dIn, x.desc s x.rcd.dOut with
    | some a, some b =>
      if a.space = 0 then
        let w := (sharedPlanes a b).foldl (fun (r : State × Bool) p =>
          let t := spaceWrite r.1 x.io b.space p.2.1 (memBytes r.1 p.1 p.2.2)
          (t.1, r.2 && t.2)) (s, true)
        if w.2 then x.done w.1 else x.fail w.1 stFault
      else let m := x.move s; if m.2.1 then x.done m.1 else x.fail m.1 stFault
    | _, _ => x.done s
  else
    let m := x.move s
    if m.2.1 then x.done m.1 else x.fail m.1 stFault

/-- STORE (R148); its tally counts on the core's cluster node. -/
def storeBody (x : StCtx) (s : State) : State :=
  let m := x.move s
  if m.2.1 then x.done (tallyBump m.1 (x.io.pc / 9) (leAt x.rcd.ctrl 0 1) m.2.2) else x.fail m.1 stFault

/-! Hawk frames (R153–R155). -/

/-- A frame's header (R154). -/
def frameHeader (f : Frame) (mb version plumb : Nat) : List Byte :=
  leBytes 2 f.layer ++ [byteOf f.slot, byteOf mb] ++ leBytes 4 f.length ++ leBytes 2 version ++ [0, 0] ++ leBytes 8 plumb
    ++ List.replicate 44 0

/-- A Hawk stack replaced. -/
def hawkPut (s : State) (m : Nat) (h : Hawk) : State := { s with hawk := stSet hawkDefault s.hawk m h }

/-- The frame a STASH or UNSTASH stage of the RUN has, if it has started. -/
def StCtx.ownFrame (x : StCtx) : Option Frame := (x.run.frames.find? (fun p => p.1 == x.i)).map (·.2)

/-- A stage's frame noted in its RUN. -/
def StCtx.noteFrame (x : StCtx) (s : State) (f : Frame) : State × StCtx :=
  let r := { x.run with frames := x.run.frames ++ [(x.i, f)] }
  (runPut s r, { x with run := r, io := { x.io with frame := some f } })

/-- A STASH stage's reservation (R155): at the first core's start, a frame at the top of the
stack and its header; none where it would pass the end of the overflow part. -/
def StCtx.reserve (x : StCtx) (s : State) : Option (State × StCtx) :=
  match x.ownFrame with
  | some f => some (s, { x with io := { x.io with frame := some f } })
  | none =>
    let h := hawkOf s x.head.mb
    let f : Frame := { layer := x.head.layer, slot := leAt x.rcd.ctrl 2 1, start := hawkTop h, length := leAt x.rcd.ctrl 4 4 }
    if hawkSize s x.head.mb < (f.start + f.length) * 4096 then none
    else
      let s := hawkPut s x.head.mb { h with frames := f :: h.frames }
      let v := match x.head.copies with
        | w :: _ => w.2
        | [] => 0
      let y := x.noteFrame s f
      some ((spaceWrite y.1 y.2.io 2 0 (frameHeader f x.head.mb v s.plumb)).1, y.2)

/-- STASH (R155). -/
def stashBody (x : StCtx) (s : State) : State :=
  match x.reserve s with
  | none => x.fail s stBadParam
  | some (s, x) =>
    let m := x.move s
    if m.2.1 then x.done m.1 else x.fail m.1 stFault

/-- The top frame an UNSTASH stage names, at the first core's start (R155). -/
def StCtx.topFrame (x : StCtx) (s : State) : Option (State × StCtx) :=
  match x.ownFrame with
  | some f => some (s, { x with io := { x.io with frame := some f } })
  | none => match (hawkOf s x.head.mb).frames with
    | [] => none
    | f :: _ =>
      if f.layer = leAt x.rcd.ctrl 0 2 ∧ f.slot = leAt x.rcd.ctrl 2 1 then some (x.noteFrame s f) else none

/-- The pointer lowered once no core of the RUN is still at its UNSTASH stage (R155). -/
def StCtx.pop (x : StCtx) (s : State) : State :=
  match runOf s x.run.cmd.op with
  | none => s
  | some r =>
    let h := hawkOf s x.head.mb
    if r.cores.all (fun k => decide (x.i < k.next) || k.status != stOk) && h.frames.head? == x.io.frame then
      hawkPut s x.head.mb { h with
        frames := h.frames.tail
        -- a popped unit's staging copy serves no later frame (R156)
        migrated := h.migrated.filter (fun p => decide (p.1 < (x.io.frame.map (·.start)).getD 0)) }
    else s

/-- UNSTASH (R155). -/
def unstashBody (x : StCtx) (s : State) : State :=
  match x.topFrame s with
  | none => x.fail s stBadParam
  | some (s, x) =>
    let m := x.move s
    if m.2.1 then x.pop (x.done m.1) else x.pop (x.fail m.1 stFault)

/-- LOAD (R151). -/
def loadStageState (op core : Nat) (ev : StageEvents) (s : State) : State := stageRow op core ev (isKind kLoad) loadBody s

/-- STORE (R148). -/
def storeStageState (op core : Nat) (ev : StageEvents) (s : State) : State := stageRow op core ev (isKind kStore) storeBody s

/-- STASH (R155). -/
def stashState (op core : Nat) (ev : StageEvents) (s : State) : State := stageRow op core ev (isKind kStash) stashBody s

/-- UNSTASH (R155). -/
def unstashState (op core : Nat) (ev : StageEvents) (s : State) : State := stageRow op core ev (isKind kUnstash) unstashBody s

/-! The meanings of the rows. -/

/-- LOAD (R151). A LOAD stage fills the core buffer from prefetched data or by its own class 2 reads. -/
def execLoadStage (op : Nat) (work : StageAt) (s : State) : Host.Outcome State Fault Refusal :=
  .next (loadStageState op work.core work.ev s)

/-- STORE (R148). A STORE stage moves core-buffer bytes to memory unconverted. -/
def execStoreStage (op : Nat) (work : StageAt) (s : State) : Host.Outcome State Fault Refusal :=
  .next (storeStageState op work.core work.ev s)

/-- STASH (R155). A STASH stage reserves a frame at the top of its Hawk stack and writes its header and planes. -/
def execStash (op : Nat) (work : StageAt) (s : State) : Host.Outcome State Fault Refusal :=
  .next (stashState op work.core work.ev s)

/-- UNSTASH (R155). An UNSTASH stage reads the top frame and lowers the stack pointer. -/
def execUnstash (op : Nat) (work : StageAt) (s : State) : Host.Outcome State Fault Refusal :=
  .next (unstashState op work.core work.ev s)

end Sys2Proof.Machine
end

