-- ==== Sys2Proof/Machine/Topcoat.lean ====
section
/-! DEFINITION. Topcoat (chapter 07): programs, UPDATE and its waits, the instructions of a program
pass, master and moments, factors, compute copies, learned scales, row subsets and norms. -/

namespace Sys2Proof.Machine

/-! Programs (R176–R178, R181). -/

/-- A valid program: its moments and their formats, whether it is FACTORED, and its words. -/
structure TopProg where
  moments  : Nat
  m1b16    : Bool
  m2b16    : Bool
  factored : Bool
  fbeta    : Nat
  words    : List Nat
deriving DecidableEq, Repr

/-- An instruction word (R178). -/
def topWord (op d a b c k : Nat) : Nat := op <<< 24 + d <<< 20 + a <<< 16 + b <<< 12 + c <<< 8 + k <<< 3

def opPhase : Nat := 0x3E
def opEnd : Nat := 0x3F

/-- OP of a word. -/
def wordOp (w : Nat) : Nat := fieldOf w 31 24

/-- The AdamW program of slot 0 (R181). -/
def adamW : List Nat :=
  [topWord 0x11 1 1 0 0 9, topWord 0x11 4 1 0 0 1, topWord 0x13 2 2 4 0 0, topWord 0x03 5 1 1 0 0, topWord 0x11 5 5 0 0 3,
   topWord 0x13 3 3 5 0 2, topWord 0x11 6 3 0 0 5, topWord 0x06 6 6 0 0 0, topWord 0x12 6 6 0 0 6, topWord 0x11 7 2 0 0 4,
   topWord 0x05 7 7 6 0 0, topWord 0x11 0 0 0 0 8, topWord 0x13 0 7 0 0 7, topWord opEnd 0 0 0 0 0]

/-- The fields an operation uses, as D, A, B, C, K; none for a reserved OP (R178). -/
def opFields (op : Nat) : Option (Bool × Bool × Bool × Bool × Bool) :=
  if [0x01, 0x02, 0x03, 0x05, 0x08, 0x09].contains op then some (true, true, true, false, false)
  else if op = 0x04 ∨ op = 0x0D then some (true, true, true, true, false)
  else if [0x06, 0x07, 0x0A, 0x0B, 0x0C].contains op then some (true, true, false, false, false)
  else if op = 0x10 then some (true, false, false, false, true)
  else if op = 0x11 ∨ op = 0x12 then some (true, true, false, false, true)
  else if op = 0x13 then some (true, true, true, false, true)
  else if op = 0x20 ∨ op = 0x21 then some (false, true, false, false, false)
  else if op = 0x22 ∨ op = 0x23 ∨ op = 0x24 then some (true, false, false, false, false)
  else if op = opPhase ∨ op = opEnd then some (false, false, false, false, false)
  else none

/-- The arithmetic operations of a program (R178). -/
def arithOps : List Nat :=
  [0x01, 0x02, 0x03, 0x04, 0x05, 0x06, 0x07, 0x08, 0x09, 0x0A, 0x0B, 0x0C, 0x0D, 0x10, 0x11, 0x12, 0x13]

/-- The constants the built-in programs of slots 1 to 3 name (R181). -/
def builtinConsts (slot : Nat) : List Nat :=
  match slot with
  | 1 => [0, 1, 2, 3, 7, 8, 9]
  | 2 => [0, 1, 2, 9]
  | _ => [6, 7, 8, 9, 10]

/-- A register a program of `moments` moments may read (R177): another in place of one it may not. -/
def readableReg (moments r : Nat) : Nat := if (r = 2 ∧ moments < 1) ∨ (r = 3 ∧ moments < 2) then 0 else r

/-- The instruction a free word stands for: an operation of a list, the fields that it uses, registers its program
may read, and one of its program's constants. -/
def builtinFit (moments : Nat) (ops consts : List Nat) (w : Nat) : Nat :=
  let op := nthD ops (fieldOf w 31 24 % ops.length) 0x01
  let f := (opFields op).getD (false, false, false, false, false)
  let reg (used : Bool) (r : Nat) : Nat := if used then readableReg moments r else 0
  topWord op (if f.1 then fieldOf w 23 20 else 0) (reg f.2.1 (fieldOf w 19 16)) (reg f.2.2.1 (fieldOf w 15 12))
    (reg f.2.2.2.1 (fieldOf w 11 8)) (if f.2.2.2.2 then nthD consts (fieldOf w 7 3 % consts.length) 0 else 0)

/-- `n` instructions of a built-in program whose purpose, number and constants the spec gives and whose words it does
not: free words, read as instructions of its kind (DESIGN CHOICE 33). -/
def builtinWords (slot i n : Nat) : List Nat :=
  let ops := arithOps ++ (if slot = 3 then (if i = 0 then [0x20, 0x21] else [0x22, 0x23, 0x24]) else [])
  (List.range n).map (fun k => builtinFit (if slot = 3 then 0 else 1) ops (builtinConsts slot) (Config.builtinWord slot (i + k)).toNat)

/-- The built-in programs of slots 0 to 3 (R181). -/
def builtinProg (slot : Nat) : TopProg :=
  let e := topWord opEnd 0 0 0 0 0
  match slot with
  | 0 => { moments := 2, m1b16 := false, m2b16 := false, factored := false, fbeta := 0, words := adamW }
  | 3 =>
    { moments := 0, m1b16 := false, m2b16 := false, factored := true, fbeta := 10
      words := builtinWords 3 0 5 ++ [topWord opPhase 0 0 0 0 0] ++ builtinWords 3 5 10 ++ [e] }
  | k => { moments := 1, m1b16 := false, m2b16 := false, factored := false, fbeta := 0
           words := builtinWords k 0 (if k = 1 then 8 else 4) ++ [e] }

/-- The program of a loaded body: header and words (R177). -/
def progOfBytes (b : List Byte) : TopProg :=
  let m := leAt b 2 1
  { moments := m % 4, m1b16 := bitOf m 2, m2b16 := bitOf m 3, factored := bitOf m 4, fbeta := leAt b 3 1 % 32
    words := (List.range (leAt b 1 1)).map (fun i => leAt b (16 + 4 * i) 4) }

/-- The program of a slot, none where it holds none (R176). -/
def topProg (s : State) (slot : Nat) : Option TopProg :=
  if slot < 4 then some (builtinProg slot)
  else
    let b := stGet [] s.topcoat.programs slot
    if b.isEmpty then none else some (progOfBytes b)

/-- Whether a word is well formed in a program (R177, R178). -/
def topWordOk (p : TopProg) (w : Nat) : Bool :=
  match opFields (wordOp w) with
  | none => false
  | some (d, a, b, c, k) =>
    let reads (en : Bool) (r : Nat) : Bool := !en || !((r == 2 && decide (p.moments < 1)) || (r == 3 && decide (p.moments < 2)))
    (d || fieldOf w 23 20 == 0) && (a || fieldOf w 19 16 == 0) && (b || fieldOf w 15 12 == 0)
      && (c || fieldOf w 11 8 == 0) && (k || fieldOf w 7 3 == 0) && fieldOf w 2 0 == 0
      && reads a (fieldOf w 19 16) && reads b (fieldOf w 15 12) && reads c (fieldOf w 11 8)
      && (p.factored || !(decide (0x20 ≤ wordOp w) && decide (wordOp w ≤ 0x24)))

/-- Whether a program is valid (R177). -/
def progValid (p : TopProg) : Bool :=
  let ops := p.words.map wordOp
  decide (p.moments ≤ 2) && !(p.factored && p.m2b16) && p.words.all (topWordOk p)
    && ops.getLast? == some opEnd && (ops.filter (· == opEnd)).length == 1
    && (ops.filter (· == opPhase)).length == boolNat p.factored

/-- TOPCOAT_LOAD (R176, R177). -/
def bodyTopcoatLoad (c : Cmd) (s : State) : Option State :=
  let b := c.body
  let slot := leAt b 0 1
  let n := leAt b 1 1
  if stepPhase s ≠ sIdle then some (finish s c stNotReady)
  else if slot < 4 ∨ 15 < slot ∨ n = 0 ∨ 64 < n ∨ b.length < 16 + 4 * n ∨ 31 < leAt b 2 1 ∨ 31 < leAt b 3 1 ∨ !zeroAt b 4 12
      ∨ !progValid (progOfBytes b) then some (finish s c stBadParam)
  else
    let s := { s with topcoat := { s.topcoat with programs := stSet [] s.topcoat.programs slot (sliceB b 0 (16 + 4 * n)) } }
    some (finish (csrPut s rTopProgValid (csrGet s rTopProgValid ||| 2 ^ slot)) c stOk)

/-- TOPCOAT_LOAD (R176). -/
def topcoatLoadState (q qseq : Nat) (s : State) : State := hostRow s q qseq (fun c => c.opcode == 0x0601) bodyTopcoatLoad

/-! The parameter block of an UPDATE (R174). -/

def Cmd.uTensor (c : Cmd) : Nat := leAt c.body 0 2
def Cmd.uProg (c : Cmd) : Nat := leAt c.body 2 1
def Cmd.uRecipe (c : Cmd) : Nat := leAt c.body 3 1
def Cmd.uCopyEn (c : Cmd) : Bool := bitOf (leAt c.body 4 1) 0
def Cmd.uRows (c : Cmd) : Bool := bitOf (leAt c.body 4 1) 1
def Cmd.uFoldEn (c : Cmd) : Bool := bitOf (leAt c.body 4 1) 2
def Cmd.uScaleEn (c : Cmd) : Bool := bitOf (leAt c.body 4 1) 3
def Cmd.uIsScale (c : Cmd) : Bool := bitOf (leAt c.body 4 1) 4
def Cmd.uScalePend (c : Cmd) : Bool := bitOf (leAt c.body 4 1) 5
def Cmd.uFloor (c : Cmd) : Nat := leAt c.body 5 1
def Cmd.uOffMax (c : Cmd) : Nat := leAt c.body 6 1
def Cmd.uScale (c : Cmd) : Nat := leAt c.body 8 2
def Cmd.uLayer (c : Cmd) : Nat := leAt c.body 10 2
def Cmd.uRowCount (c : Cmd) : Nat := leAt c.body 12 4
def Cmd.uRowList (c : Cmd) : Nat := leAt c.body 16 8
def Cmd.uFold (c : Cmd) : Nat := leAt c.body 24 8
def Cmd.uWaitOp (c : Cmd) : Nat := leAt c.body 32 4
/-- Constant c_i as an F32 code. -/
def Cmd.uConst (c : Cmd) (i : Nat) : Nat := leAt c.body (48 + 4 * i) 4

/-- Whether a program keeps M2 as a plane of its own. -/
def TopProg.usesM2 (p : TopProg) : Bool := p.moments == 2 && !p.factored

/-- Whether a tensor has copy planes at all. -/
def Tensor.hasCopy (t : Tensor) : Bool := t.kind == 1 && t.plane (plCode 0) != 0xFF && t.plane (plExp 0) != 0xFF

/-- The planes an UPDATE reads or writes (R173). -/
def updPlanes (c : Cmd) (t : Tensor) (p : TopProg) : List Nat :=
  [plHi 0, plHi 1, plLo 0, plLo 1, plGrad, plGradExp]
    ++ (if 1 ≤ p.moments then [plM1 0, plM1 1] else [])
    ++ (if p.usesM2 || p.factored then [plM2 0, plM2 1] else [])
    ++ (if p.factored || c.uIsScale then [plS16 0, plS16 1] else [])
    ++ (if c.uCopyEn || t.hasCopy then [plCode 0, plCode 1, plExp 0, plExp 1] else [])

/-- Whether every plane lies in a valid region of its group size (R173, R338). -/
def updPlanesOk (s : State) (c : Cmd) (t : Tensor) (p : TopProg) : Bool :=
  let size (i b : Nat) : Bool := pregLog2 s (t.plane i) == b
  (updPlanes c t p).all (fun i => (planeAddr s t i).isSome && planeFits s t i)
    && (p.moments == 0 || [0, 1].all (fun j => size (plM1 j) (if p.m1b16 then 8 else 9)))
    && (!p.usesM2 || [0, 1].all (fun j => size (plM2 j) (if p.m2b16 then 8 else 9)))

/-- Whether SCALE_TENSOR is a tensor of learned scales that fits (R174). -/
def updScaleOk (s : State) (c : Cmd) (t : Tensor) : Bool :=
  match tensorAt s c.uScale with
  | none => false
  | some x => x.kind == 2 && x.rows == 1 && x.k == t.k && [0, 1].all (fun j => (planeAddr s x (plS16 j)).isSome)

/-- Whether an UPDATE's block and tensor meet R173, R174, R176, R187 and R95. -/
def updBodyOk (s : State) (c : Cmd) : Bool :=
  let b := c.body
  match tensorAt s c.uTensor, topProg s c.uProg with
  | some t, some p =>
    decide (leAt b 4 1 < 64) && c.uFloor != 0xFF && decide (c.uOffMax < 32) && leAt b 7 1 == 0 && decide (c.uRowList < 2 ^ 42)
      && decide (c.uFold < 2 ^ 42) && decide (c.uWaitOp < 2 ^ 18) && zeroAt b 36 12 && decide (c.uProg < 16)
      && c.uRows == (c.uRowCount != 0) && (!c.uRows || (c.uRowList % 64 == 0 && rangeOk s c.uRowList (4 * c.uRowCount)))
      && (!c.uFoldEn || (c.uFold % 64 == 0 && rangeOk s c.uFold (4 * t.k)))
      && !(c.uIsScale && (c.uCopyEn || c.uScaleEn)) && t.kind == (if c.uIsScale then 2 else 1)
      && (!c.uScalePend || c.uScaleEn) && (!c.uScaleEn || updScaleOk s c t)
      && (!c.uCopyEn || decide (4 ≤ c.uOffMax)) && !(p.factored && (c.uRows || c.uIsScale))
      && decide (0 < t.k) && updPlanesOk s c t p && (recipeOf s c.uRecipe).isSome
  | _, _ => false

/-- Whether the tensors that the step's UPDATEs have named allow this one (R186, R188). An UPDATE
refused as it stands, noted with ID 0, has named nothing (R332). -/
def updNamesOk (s : State) (c : Cmd) : Bool :=
  let ns := s.topcoat.named.filter (fun n => n.op != 0)
  !ns.any (fun n => n.tensor == c.uTensor) && !(c.uIsScale && ns.any (fun n => n.reads == some c.uTensor))
    && !(c.uScaleEn && !c.uScalePend && ns.any (fun n => n.scale && n.tensor == c.uScale))

/-- The UPDATE's tensor named in the step, or its end before it could be named, noted for a weight UPDATE that
waits (R186, R188). -/
def nameTensor (s : State) (c : Cmd) (refused : Bool) : State :=
  let old := s.topcoat.named.filter (fun n => n.op != 0 || n.tensor != c.uTensor)
  if old.any (fun n => n.tensor == c.uTensor) then s
  else
    let n : NamedUpdate :=
      { tensor := c.uTensor, op := if refused then 0 else c.op, scale := c.uIsScale
        reads := if c.uScaleEn && !c.uScalePend && !refused then some c.uScale else none
        status := if refused then some stBadParam else none }
    { s with topcoat := { s.topcoat with named := old ++ [n] } }

/-- An UPDATE ended: its naming keeps its status (R186), and it waits no more. -/
def updNote (s : State) (c : Cmd) (status : Nat) : State :=
  { s with topcoat := { s.topcoat with
      waiting := s.topcoat.waiting.filter (· != (c.queue, c.qseq))
      taken := s.topcoat.taken.filter (fun k => !(k.1 == c.queue && k.2.1 == c.qseq))
      named := s.topcoat.named.map (fun n =>
        if n.tensor = c.uTensor ∧ n.op = c.op ∧ n.status = none then { n with status := some status } else n) } }

/-- Where an UPDATE stands before it begins (R146, R172): it waits for OPEN, or for its turn. -/
def updWait (c : Cmd) (s : State) : Option State :=
  if stepPhase s ≠ sOpen ∨ s.topcoat.waiting.contains (c.queue, c.qseq) then some s
  else if updBodyOk s c ∧ updNamesOk s c then
    let s := nameTensor s c false
    some { s with topcoat := { s.topcoat with waiting := s.topcoat.waiting ++ [(c.queue, c.qseq)] } }
  else none

/-- An UPDATE refused as it stands (R173, R174, R188). -/
def updRefuse (c : Cmd) (s : State) : State := finish (nameTensor s c true) c stBadParam

/-- An UPDATE that the checks of every command end, or a STEP_SKIP with EARLY, in an open step: its end too is
what a weight UPDATE that waits for it meets (R186). -/
def updNoted (s : State) (q qseq : Nat) : State :=
  match readyCmd s q qseq with
  | some c =>
    if c.opcode == 0x0602 && stepPhase s == sOpen && (earlySkip s q qseq || (admission s c).isSome) then nameTensor s c true else s
  | none => s

/-- UPDATE (R172): it takes its place among those that wait, or is refused. -/
def updateState (q qseq : Nat) (s : State) : State :=
  waitRow (updNoted s q qseq) q qseq (fun c => c.opcode == 0x0602) updWait updRefuse

/-! Waits (R174, R175, R186). -/

/-- Whether a slot stands before its queue's next command that ends or begins a step. -/
def ofOpenStep (x : Queue) (sl : QSlot) (q : Nat) : Bool :=
  !x.slots.any (fun u => !u.begun && decide (qdist x u.qseq < qdist x sl.qseq)
    && decide (0x0501 ≤ (cmdOf q u).opcode) && decide ((cmdOf q u).opcode ≤ 0x0504))

/-- Whether a command with an operation ID is placed in the open step and has not begun. -/
def placedOp (s : State) (c : Cmd) (p : Cmd → Bool) : Bool :=
  (List.range 8).any (fun q =>
    let x := queueAt s q
    x.slots.any (fun sl => !sl.begun && !(q == c.queue && sl.qseq == c.qseq) && p (cmdOf q sl) && ofOpenStep x sl q))

/-- The fence of the open step: that of a STEP_COMMIT or STEP_SKIP that has begun or is placed. -/
def placedFence (s : State) : Option Fence :=
  match s.step.fence with
  | some f => some f
  | none => (List.range 8).findSome? (fun q => ((queueAt s q).slots.find? (fun sl =>
      !sl.begun && ((cmdOf q sl).opcode == 0x0503 || (cmdOf q sl).opcode == 0x0504))).map (fun sl => fenceOfCmd (cmdOf q sl)))

/-- Whether every other command a placed fence covers has begun, an UPDATE that waits counting as
one that has (R175, R186; DEDUCED 34). -/
def fenceStalled (s : State) : Bool :=
  match placedFence s with
  | none => false
  | some f => (List.range 8).all (fun q =>
      let x := queueAt s q
      let d := (nthD f.seqs q 0 + 1 + 2 ^ 32 - x.n) % 2 ^ 32
      !bitOf f.mask q || decide (2 ^ 31 ≤ d) || (decide (d ≤ x.depth) && (List.range d).all (fun i =>
        let k := (x.n + i) % 2 ^ 32
        s.topcoat.waiting.contains (q, k) || (match slotOf x k with
          | some sl => sl.begun
          | none => false))))

/-- What a wait has come to: it goes on, it has ended, or it ends the UPDATE with a status. -/
inductive WaitEnd where
  | waits
  | over
  | ends (status : Nat)
deriving DecidableEq, Repr

/-- The status an operation ended with read as the end of a wait. -/
def waitEndOf (st : Nat) : WaitEnd := if st = stOk ∨ st = stFlagged then .over else .ends stFault

/-- The wait for WAIT_OP (R175). -/
def waitOpEnd (s : State) (c : Cmd) : WaitEnd :=
  if c.uWaitOp = 0 then .over
  else if placedOp s c (fun d => d.op == c.uWaitOp) then .waits
  else match s.step.ops.find? (fun o => o.op == c.uWaitOp) with
    | some o => match o.status with
      | some st => waitEndOf st
      | none => .waits
    | none => if fenceStalled s then .ends stBadParam else .waits

/-- The wait for the scale UPDATE (R186). -/
def waitScaleEnd (s : State) (c : Cmd) : WaitEnd :=
  if !c.uScalePend then .over
  else match s.topcoat.named.find? (fun n => n.scale && n.tensor == c.uScale) with
    | some n => match n.status with
      | some st => waitEndOf st
      | none => .waits
    | none => if fenceStalled s then .ends stBadParam else .waits

/-! One group's planes. -/

/-- The running UPDATE changed. -/
def modRun (s : State) (f : UpdateRun → UpdateRun) : State :=
  { s with topcoat := { s.topcoat with running := s.topcoat.running.map f } }

/-- A stack's Topcoat changed. -/
def modTop (s : State) (st : Nat) (f : TopStack → TopStack) : State :=
  { s with topcoat := { s.topcoat with tops := s.topcoat.tops.mapIdx (fun i x => if i = st then f x else x) } }

/-- The stack a group lies in (R199). -/
def stackOf (s : State) (t : Tensor) (g : Nat) : Nat :=
  match (planeAddr s t (plHi 0)).map (fun a => locOf s (a + 256 * g)) with
  | some (.hbm st _ _) => st
  | _ => 0

/-- `n` bytes of a plane at an offset, none where they cannot be read; Topcoat is requester 4 of the schedulers, of
class 3 (R32). -/
def planeRead (s : State) (t : Tensor) (i off n : Nat) : State × Option (List Byte) :=
  match planeAddr s t i with
  | none => (s, none)
  | some a => readMem (portGrant s (a + off) 4 0 3) (a + off) n

/-- Bytes written to a plane at an offset; false where a sector is poisoned. -/
def planeWrite (s : State) (t : Tensor) (i off : Nat) (bs : List Byte) : State × Bool :=
  match planeAddr s t i with
  | none => (s, false)
  | some a => writeMem (portGrant s (a + off) 4 0 3) (a + off) bs

/-- Bytes of a plane as stored. -/
def planeBytes (s : State) (t : Tensor) (i off n : Nat) : List Byte :=
  match planeAddr s t i with
  | none => List.replicate n 0
  | some a => memBytes s (a + off) n

/-- The sectors of a group of a plane taken for writing whole: what errors they carry go. -/
def planeTaken (t : Tensor) (g : Nat) (s : State) (p : Nat × Nat) : State :=
  match planeAddr s t p.1 with
  | none => s
  | some a => { s with mem := { s.mem with errs := stClear s.mem.errs ((a + p.2 * g) / 64) ((a + p.2 * (g + 1)) / 64) } }

/-- Bytes per group of the moments' planes. -/
def TopProg.m1Size (p : TopProg) : Nat := if p.m1b16 then 256 else 512
def TopProg.m2Size (p : TopProg) : Nat := if p.m2b16 then 256 else 512

/-- The planes of master and moments of slot `j`, with their bytes per group. -/
def masterPlanes (p : TopProg) (j : Nat) : List (Nat × Nat) :=
  [(plHi j, 256), (plLo j, 256)] ++ (if 1 ≤ p.moments then [(plM1 j, p.m1Size)] else [])
    ++ (if p.usesM2 then [(plM2 j, p.m2Size)] else [])

/-- A group of a plane copied from one slot's plane to the other's. -/
def copyPlane (t : Tensor) (g : Nat) (r : State × Bool) (i j n : Nat) : State × Bool :=
  let x := planeRead r.1 t i (n * g) n
  match x.2 with
  | none => (x.1, false)
  | some b => let w := planeWrite x.1 t j (n * g) b; (w.1, r.2 && w.2)

/-- A moment as an F32 code, widened where it is B16 (R179). -/
def momentCode (b16' : Bool) (bs : List Byte) : Nat := if b16' then convCode b16 f32 (leNat bs) else leNat bs

/-- A gradient element as an F32 code (R59, R179). -/
def gradCode (m e : Nat) : Nat := f32Code (blockVal .g16b32 [] e m)

/-- Bytes of a moment. -/
def momentSize (b16' : Bool) : Nat := if b16' then 2 else 4

/-- The registers of parameter `i` of group `g` at the start of a pass (R179); none where a sector
cannot be read. -/
def loadRegs (s : State) (t : Tensor) (p : TopProg) (g i : Nat) : State × Option (List Nat) :=
  let m1 := momentSize p.m1b16
  let m2 := momentSize p.m2b16
  let h := planeRead s t (plHi t.cur) (256 * g + 2 * i) 2
  let l := planeRead h.1 t (plLo t.cur) (256 * g + 2 * i) 2
  let d := planeRead l.1 t plGrad (256 * g + 2 * i) 2
  let e := planeRead d.1 t plGradExp (4 * g + i / 32) 1
  let a := if 1 ≤ p.moments then planeRead e.1 t (plM1 t.cur) (p.m1Size * g + m1 * i) m1 else (e.1, some [])
  let b := if p.usesM2 then planeRead a.1 t (plM2 t.cur) (p.m2Size * g + m2 * i) m2 else (a.1, some [])
  match h.2, l.2, d.2, e.2, a.2, b.2 with
  | some h, some l, some d, some e, some a, some v =>
    let f2 := if a.isEmpty then 0 else momentCode p.m1b16 a
    let f3 := if v.isEmpty then 0 else momentCode p.m2b16 v
    (b.1, some ([leNat h * 65536 + leNat l, gradCode (leNat d) (leNat e), f2, f3] ++ List.replicate 12 0))
  | _, _, _, _, _, _ => (b.1, none)

/-! Exact sums (R180, R189). -/

/-- A value added exactly, in units of 2^u. -/
def ExSum.plus (x : ExSum) (v : FV) (u : Int) : ExSum :=
  match v with
  | .nan => { x with nan := true }
  | .inf n => if n then { x with ninf := true } else { x with pinf := true }
  | .fin n m e => { x with val := x.val + signedAt n m e u }

def exZero : ExSum := { val := 0, nan := false, pinf := false, ninf := false }

/-- Two sums added. -/
def ExSum.join (x y : ExSum) : ExSum :=
  { val := x.val + y.val, nan := x.nan || y.nan, pinf := x.pinf || y.pinf, ninf := x.ninf || y.ninf }

/-- The value of a sum in units of 2^u. -/
def ExSum.value (x : ExSum) (u : Int) : FV :=
  if x.nan || (x.pinf && x.ninf) then .nan
  else if x.pinf then .inf false
  else if x.ninf then .inf true
  else fvInt x.val u

/-- The unit of the factor sums: the least F32 step. -/
def factorUnit : Int := -149

/-- No norms of a layer. -/
def norm0 (layer : Nat) : Norm :=
  { layer := layer, w2 := exZero, g2 := exZero, d2 := exZero, params := 0, subset := false }

/-- An UPDATE's norms added to its layer's (R189). -/
def addNorm (ns : List Norm) (n : Norm) : List Norm :=
  match ns.find? (fun x => x.layer == n.layer) with
  | none => ns ++ [n]
  | some x =>
    let y : Norm :=
      { layer := n.layer, w2 := x.w2.join n.w2, g2 := x.g2.join n.g2, d2 := x.d2.join n.d2
        params := x.params + n.params, subset := x.subset || n.subset }
    ns.map (fun z => if z.layer = n.layer then y else z)

/-- A square as an exact term. -/
def squareOf (v : FV) : FV := v.mul v

/-! The end of a group (R172, R182–R190). -/

/-- The master codes of a group in a slot. -/
def masterCodes (s : State) (t : Tensor) (j g : Nat) : List Nat :=
  List.zipWith (fun h l => h * 65536 + l) (unpackCodes 16 (planeBytes s t (plHi j) (256 * g) 256))
    (unpackCodes 16 (planeBytes s t (plLo j) (256 * g) 256))

/-- The gradient of a group, widened. -/
def gradVals (s : State) (t : Tensor) (g : Nat) : List FV :=
  let es := (planeBytes s t plGradExp (4 * g) 4).map BitVec.toNat
  (unpackCodes 16 (planeBytes s t plGrad (256 * g) 256)).mapIdx (fun i m => f32Val (gradCode m (nthD es (i / 32) 0)))

/-- Which parameters of a group read or wrote a value that is not finite (R190). -/
def badParams (s : State) (t : Tensor) (p : TopProg) (g : Nat) : List Bool :=
  let fin (b16' : Bool) (c : Nat) : Bool := ((if b16' then b16.decode c else f32Val c) : FV).isFin
  let mom (i j n : Nat) (b16' : Bool) : List Bool :=
    let w := if b16' then 16 else 32
    List.zipWith (fun a b => fin b16' a && fin b16' b) (unpackCodes w (planeBytes s t i (n * g) n))
      (unpackCodes w (planeBytes s t j (n * g) n))
  let j := 1 - t.cur
  let ws := masterCodes s t j g
  let gs := gradVals s t g
  let m1 := if 1 ≤ p.moments then mom (plM1 t.cur) (plM1 j) p.m1Size p.m1b16 else []
  let m2 := if p.usesM2 then mom (plM2 t.cur) (plM2 j) p.m2Size p.m2b16 else []
  (List.range 128).map (fun i => !(f32Val (nthD ws i 0)).isFin || !(nthD gs i fvZero).isFin
    || !nthD m1 i true || !nthD m2 i true)

/-- The S16 slot an UPDATE's copy takes its scales from (R186). -/
def scaleSlot (s : State) (c : Cmd) : Nat :=
  match tensorAt s c.uScale with
  | none => 0
  | some x => if c.uScalePend then 1 - x.cur else x.cur

/-- One block of a compute copy: exponent, codes, whether it was lowered, whether it is not finite
(R183). -/
def copyBlock (s : State) (rc : Recipe) (floor offMax : Nat) (xs : List FV) : Nat × List Nat × Bool × Bool :=
  if !xs.all FV.isFin then (0xFF, xs.map (fun _ => 0), false, true)
  else
    let lv := paletteLevels s rc.wpal
    let w := windowExp floor offMax (startExp rc floor (canonicalExp .p4b32 lv xs))
    (w.1, quantBlock .p4b32 lv w.1 xs, w.2, false)

/-- The compute copy of group `g` formed from the master in slot `j` (R183) and written there: how
many blocks were lowered, and which of the four are not finite; none where a sector failed. -/
def formCopy (s : State) (t : Tensor) (j g : Nat) (rc : Recipe) (floor offMax : Nat) (fold : Option Nat) (scale : Option (Nat × Nat)) :
    State × Option (Nat × List Bool) :=
  let k := 128 * g % t.k
  let a := orNone scale.isSome s (fun s => readScales s (scale.getD (0, 0)).1 (scale.getD (0, 0)).2 k)
  let f := orNone fold.isSome a.1 (fun s => readFold s (fold.getD 0) k)
  let h := readHi f.1 t j g
  match a.2, f.2, h.2 with
  | some sc, some fo, some x =>
    let v := copyTransform rc.rot sc fo x
    let bs := (chunksOf 32 128 v).map (copyBlock h.1 rc floor offMax)
    let w := planeWrite h.1 t (plCode j) (64 * g) (packCodes 4 (bs.flatMap (·.2.1)))
    let y := planeWrite w.1 t (plExp j) (4 * g) (bs.map (fun b => byteOf b.1))
    (y.1, if w.2 && y.2 then some ((bs.filter (·.2.2.1)).length, bs.map (·.2.2.2)) else none)
  | _, _, _ => (h.1, none)

/-- The copy of a group as the UPDATE has it: formed anew, or copied (R183, R184, R187). -/
def groupCopy (s : State) (c : Cmd) (t : Tensor) (g : Nat) (ran : Bool) : State × Option (Nat × List Bool) :=
  let j := 1 - t.cur
  if c.uCopyEn && (ran || c.uScalePend) then
    formCopy s t j g (Recipe.ofBytes ((recipeOf s c.uRecipe).getD [])) c.uFloor c.uOffMax (if c.uFoldEn then some c.uFold else none)
      (if c.uScaleEn then some (c.uScale, scaleSlot s c) else none)
  else if c.uCopyEn || t.hasCopy then
    let r := copyPlane t g (copyPlane t g (s, true) (plCode t.cur) (plCode j) 64) (plExp t.cur) (plExp j) 4
    (r.1, if r.2 then some (0, []) else none)
  else (s, some (0, []))

/-- The S16 form of a group of learned scales (R185), with its saturations low and high. -/
def groupS16 (s : State) (t : Tensor) (g : Nat) (ran : Bool) : State × Option (Nat × Nat) :=
  let j := 1 - t.cur
  if !ran then
    let r := copyPlane t g (s, true) (plS16 t.cur) (plS16 j) 256
    (r.1, if r.2 then some (0, 0) else none)
  else
    let cs := (masterCodes s t j g).map (fun w => toS16 (f32Val w))
    let w := planeWrite s t (plS16 j) (256 * g) (cs.flatMap (fun c => leBytes 2 c.1))
    (w.1, if w.2 then some ((cs.filter (·.2.1)).length, (cs.filter (·.2.2)).length) else none)

/-- A group's norm terms (R189). -/
def groupNorm (s : State) (t : Tensor) (g : Nat) (ran : Bool) (n : Norm) : Norm :=
  let ws := (masterCodes s t (1 - t.cur) g).map f32Val
  let w2 := ws.foldl (fun a w => a.plus (squareOf w) normUnit) n.w2
  if !ran then { n with w2 := w2, subset := true }
  else
    let os := (masterCodes s t t.cur g).map f32Val
    let ds := List.zipWith fSub ws os
    { n with w2 := w2, g2 := (gradVals s t g).foldl (fun a v => a.plus (squareOf v) normUnit) n.g2
             d2 := ds.foldl (fun a v => a.plus (squareOf v) normUnit) n.d2, params := n.params + 128 }

/-- A group ended on its stack: copy, S16, norms, counters and flags; false where a sector failed. -/
def endGroup (s : State) (st : Nat) (c : Cmd) (t : Tensor) (p : TopProg) (g : Nat) (ran : Bool) : State × Bool :=
  let x := groupCopy s c t g ran
  let y := if c.uIsScale then groupS16 x.1 t g ran else (x.1, some (0, 0))
  match x.2, y.2 with
  | some (low, nfs), some (lo, hi) =>
    let s := y.1
    let bads := (if ran then badParams s t p g else List.replicate 128 false).mapIdx (fun i b => b || nthD nfs (i / 32) false)
    let n := (bads.filter id).length
    let blk := 0x10000 * st
    let s := csrBump (csrBump s (rTopNotfinite + blk) 31 0 n) (rTopWindowSat + blk) 31 0 low
    let s := csrBump (csrBump s (rTopScaleSat + blk) 31 16 hi) (rTopScaleSat + blk) 15 0 lo
    let s := if ran then csrPut64 s (rTopParamsLo + blk) (csrGet64 s (rTopParamsLo + blk) + 128) else s
    let s := if n = 0 then s else setNf s
    (modRun s (fun u => { u with
      norm := groupNorm s t g ran u.norm, notFin := u.notFin || decide (0 < n), winSat := u.winSat || decide (0 < low)
      scaleSat := u.scaleSat || decide (0 < lo + hi) }), true)
  | _, _ => (y.1, false)

/-- A group whose row is not named copied bit for bit (R162, R187). -/
def copyGroup (s : State) (st : Nat) (c : Cmd) (t : Tensor) (p : TopProg) (g : Nat) : State × Bool :=
  let s := (masterPlanes p (1 - t.cur)).foldl (planeTaken t g) s
  let r := ((masterPlanes p t.cur).zip (masterPlanes p (1 - t.cur))).foldl
    (fun r q => copyPlane t g r q.1.1 q.2.1 q.1.2) (s, true)
  if r.2 then endGroup r.1 st c t p g false else r

/-! The pass of a stack over its groups. -/

/-- Whether the UPDATE's program runs on a group's row. -/
def groupRuns (u : UpdateRun) (t : Tensor) (g : Nat) : Bool :=
  match u.rows with
  | none => true
  | some l => l.contains (128 * g / t.k)

/-- The word at which a pass begins: the first, or in phase 2 the one after PHASE (R180). -/
def startPc (u : UpdateRun) (p : TopProg) : Nat := if u.phase2 then p.words.findIdx (fun w => wordOp w == opPhase) + 1 else 0

/-- Groups that are only copied taken from the front of a list; false where a sector failed. At shed level S4 the
Topcoat copies none: it halts at the boundary (R191). -/
def skipGroups (st : Nat) (u : UpdateRun) (t : Tensor) (p : TopProg) : List Nat → State → State × Bool × List Nat
  | [], s => (s, true, [])
  | g :: r, s =>
    if groupRuns u t g || decide (4 ≤ shedLevel s) then (s, true, g :: r)
    else
      let x := copyGroup s st u.cmd t p g
      if x.2 then skipGroups st u t p r x.1 else (x.1, false, g :: r)

/-- BUSY of a stack (R192). -/
def setBusy (s : State) (st v : Nat) : State := csrSetField s (rTopStatus + 0x10000 * st) 31 31 v

/-- A stack put at parameter `i` of its first group; false where a sector cannot be read. -/
def topLoad (s : State) (st : Nat) (u : UpdateRun) (t : Tensor) (p : TopProg) (gs : List Nat) (i : Nat) : State × Bool :=
  match gs with
  | [] =>
    let s := if p.factored && !u.phase2 then modTop s st (fun x => { x with groups := [], atPhase := true })
      else setBusy (modTop s st (fun x => { x with groups := [], busy := false, fresh := false, atPhase := false })) st 0
    (s, true)
  | g :: _ =>
    let s := if i = 0 && (u.phase2 || !p.factored) then (masterPlanes p (1 - t.cur)).foldl (planeTaken t g) s else s
    let r := loadRegs s t p g i
    match r.2 with
    | none => (r.1, false)
    | some regs =>
      (modTop r.1 st (fun x => { x with groups := gs, param := i, regs := regs, pc := startPc u p, fresh := i == 0, atPhase := false, halted := false }), true)

/-- A stack put at the first group of a list that its program runs on; at shed level S4 it halts at the boundary
before the list's first group (R191). -/
def topEnter (s : State) (st : Nat) (u : UpdateRun) (t : Tensor) (p : TopProg) (gs : List Nat) : State × Bool :=
  if 4 ≤ shedLevel s ∧ gs ≠ [] then (modTop s st (fun x => { x with groups := gs, param := 0, fresh := true, atPhase := false, halted := true }), true)
  else
    let r := skipGroups st u t p gs s
    if r.2.1 then topLoad r.1 st u t p r.2.2 0 else (r.1, false)

/-- Every stack at the start of a pass over the groups that lie in it (R172). -/
def startPass (s : State) : State × Bool :=
  match s.topcoat.running with
  | none => (s, true)
  | some u => match tensorAt s u.cmd.uTensor, topProg s u.cmd.uProg with
    | some t, some p =>
      (List.range 8).foldl (fun r st =>
        if !r.2 then r
        else
          let gs := (List.range t.groups).filter (fun g => stackOf s t g == st)
          topEnter (modTop (setBusy r.1 st 1) st (fun x => { x with busy := true, halted := false })) st u t p gs) (s, true)
    | _, _ => (s, true)

/-- The running UPDATE ended with a status and flags. -/
def endUpdate (s : State) (c : Cmd) (status flags : Nat) : State :=
  let s := { s with topcoat := { s.topcoat with running := none, tops := List.replicate 8 topStack0 } }
  let s := (List.range 8).foldl (fun s st => setBusy s st 0) s
  complete (updNote s c status) c status flags []

/-- The unit of the sector met last has a permanent fault (R191, R348). -/
def topRecurs (s : State) : State :=
  match s.mem.lastBad with
  | some k => decideEvent s (errRec (sectorUnit s k) (sectorCheck s k) 0 1 0) true
  | none => s

/-- The running UPDATE put back to its first group (R191). -/
def restartUpdate (s : State) : State :=
  modRun s (fun u => { u with
    phase2 := false, rowSum := [], colSum := [], rsum := 0, norm := norm0 u.cmd.uLayer, notFin := false
    scaleSat := false, winSat := false, failed := u.failed ++ s.mem.lastBad.toList })

/-- A sector that failed in an UPDATE (R191): the whole UPDATE is executed again; a sector that fails again is
permanent, and ends it. `fuel` bounds the executions. -/
def topRetry : Nat → State → State
  | 0, s => match s.topcoat.running with
    | none => s
    | some u => endUpdate (topRecurs s) u.cmd stFault 0
  | fuel + 1, s => match s.topcoat.running with
    | none => s
    | some u =>
      if s.mem.lastBad.any u.failed.contains then endUpdate (topRecurs s) u.cmd stFault 0
      else
        let r := startPass (restartUpdate s)
        if r.2 then r.1 else topRetry fuel r.1

/-- A sector that failed in the running UPDATE: one execution more at most for each sector with errors. -/
def topFault (s : State) : State := topRetry (s.mem.errs.length + 7 * s.mem.tierIdx.length + 1) s

/-- A pass that goes on, or fails. -/
def goOn (r : State × Bool) : State := if r.2 then r.1 else topFault r.1

/-! UPDATE_TAKES_TENSOR (R160, R172). -/

/-- Whether a Topcoat that has groups of a tensor is retired (R191). -/
def topRetired (s : State) (t : Tensor) : Bool :=
  (List.range 8).any (fun st => bitOf (snagEntry s.snag (unitMem st 0xFF 0x600)).flags 0
    && (List.range t.groups).any (fun g => stackOf s t g == st))

/-- The slot record of the pending copy (R184). -/
def newRecord (s : State) (c : Cmd) (t : Tensor) : List Byte :=
  let v := (t.version + 1) % 65536
  if !c.uCopyEn then recWithVersion (t.slotRec t.cur) v
  else
    let rc := Recipe.ofBytes ((recipeOf s c.uRecipe).getD [])
    leBytes 2 v ++ [byteOf c.uRecipe, byteOf rc.rotLog2, byteOf rc.wpal, byteOf c.uFloor, byteOf c.uOffMax,
      byteOf (boolNat c.uScaleEn + 2 * boolNat c.uFoldEn)] ++ leBytes 6 (if c.uFoldEn then c.uFold else 0)
      ++ leBytes 2 (if c.uScaleEn then c.uScale else 0xFFFF)

/-- The tensor as taken: its other slot pending with its record and its scales' slot. -/
def takenTensor (s : State) (c : Cmd) (t : Tensor) : Tensor :=
  let r := newRecord s c t
  let sc := if !c.uCopyEn then (if t.cur = 0 then t.sc0 else t.sc1) else if c.uScaleEn then scaleSlot s c else 0
  let t := { t with pending := true, prevOk := false }
  if t.cur = 0 then { t with rec1 := r, sc1 := sc } else { t with rec0 := r, sc0 := sc }

/-- The spot check of a group (R345): the datapath that was outvoted, or all three differing, counts
an event on the stack's Topcoat; the UPDATE is executed again in place (R191). -/
def topSpot (s : State) (c : Cmd) (t : Tensor) (k : SpotCheck) : State :=
  let ev (b : Nat) : State :=
    if spotTaken s b && decide (b < t.groups) then
      decideEvent s (spotRec (unitMem (stackOf s t b) 0xFF 0x600) 0x600 b c.op c.opcode) false
    else s
  match k with
  | .agree => s
  | .outvoted b _ => ev b
  | .differ b => ev b

/-- A parity error of a Topcoat that works on the tensor (R191, R344): one event on it; the whole UPDATE is
executed again, and an error that recurs is permanent. Answers whether the UPDATE ends. -/
def topParity (s : State) (c : Cmd) (t : Tensor) : Option TopParity → State × Bool
  | none => (s, false)
  | some k =>
    if !(List.range t.groups).any (fun g => stackOf s t g == k.stack) then (s, false)
    else
      let r := { errRec (unitMem k.stack 0xFF 0x600) 0x05 (boolNat k.store) 1 3 with
        opcode := c.opcode, op := c.op, syndrome := leBytes 2 k.lanes }
      (decideEvent s r k.again, k.again)

/-- The row list read (R174, R187): none for a sector that fails, some none where it is out of order
or names a row outside the shard. -/
def readRows (s : State) (c : Cmd) (t : Tensor) : State × Option (Option (List Nat)) :=
  let r := readMem s c.uRowList (4 * c.uRowCount)
  (r.1, r.2.map (fun b =>
    let l := unpackCodes 32 b
    if (List.zip l (l.drop 1)).all (fun p => decide (p.1 < p.2)) && l.all (fun x => decide (x < t.rows)) then some l else none))

/-- The other slot made pending when the first two waits have ended, once (R160, R174). -/
def claimTensor (s : State) (c : Cmd) (t : Tensor) : State :=
  if s.topcoat.taken.any (fun k => k.1 == c.queue && k.2.1 == c.qseq) then s
  else
    let s := { s with topcoat := { s.topcoat with taken := s.topcoat.taken ++ [(c.queue, c.qseq, t.prevOk)] } }
    tensorPut s c.uTensor { t with pending := true, prevOk := false }

/-- The tensor as it was before it was claimed, for an UPDATE that ends having written nothing. -/
def unclaimTensor (s : State) (c : Cmd) (t : Tensor) : State :=
  match s.topcoat.taken.find? (fun k => k.1 == c.queue && k.2.1 == c.qseq) with
  | some k => tensorPut s c.uTensor { t with pending := false, prevOk := k.2.2 }
  | none => s

/-- The UPDATE begins over its tensor. -/
def takeTensor (s : State) (c : Cmd) (t : Tensor) (rows : Option (List Nat)) (ev : TopEvents) : State :=
  let s := topSpot s c t ev.spot
  let s := fly (markBegun s c.queue c.qseq) c
  let s := { s with topcoat := { s.topcoat with
    waiting := s.topcoat.waiting.filter (· != (c.queue, c.qseq))
    taken := s.topcoat.taken.filter (fun k => !(k.1 == c.queue && k.2.1 == c.qseq)) } }
  let s := tensorPut s c.uTensor (takenTensor s c t)
  let r := topParity s c t ev.parity
  let s := r.1
  if r.2 || topRetired s t then endUpdate s c stFault 0
  else
    let u : UpdateRun :=
      { cmd := c, rows := rows, phase2 := false, norm := norm0 c.uLayer, rowSum := [], colSum := [], rsum := 0
        notFin := false, scaleSat := false, winSat := false, failed := [] }
    let s := (List.range 8).foldl (fun s st =>
      csrSetField (csrSetField s (rTopStatus + 0x10000 * st) 19 16 c.uProg) (rTopStatus + 0x10000 * st) 15 0 c.uTensor) s
    goOn (startPass { s with topcoat := { s.topcoat with running := some u } })

/-- A waiting UPDATE that ends without having taken its tensor. -/
def updQuit (s : State) (c : Cmd) (status : Nat) : State :=
  finish (updNote (markBegun s c.queue c.qseq) c status) c status

/-- A waiting UPDATE refused for its row list: it has named nothing (R174, R332). -/
def updDrop (s : State) (c : Cmd) : State :=
  let s := updQuit s c stBadParam
  { s with topcoat := { s.topcoat with
      named := s.topcoat.named.map (fun n => if n.op = c.op then { n with op := 0, reads := none } else n) } }

/-- The waiting UPDATE of an operation ID, if it may begin now. -/
def waitingUpdate (s : State) (op : Nat) : Option Cmd :=
  s.topcoat.waiting.findSome? (fun w => (readyCmd s w.1 w.2).bind (fun c => if c.op = op then some c else none))

/-- UPDATE_TAKES_TENSOR (R160, R172): the waits end, the other slot becomes pending, and once the
readers of the previous version are done Topcoat reads the row list and starts (R174). -/
def updateTakesTensorState (op : Nat) (ev : TopEvents) (s : State) : State :=
  match waitingUpdate s op with
  | none => s
  | some c =>
    if stepPhase s ≠ sOpen ∨ 4 ≤ shedLevel s then s
    else match tensorAt s c.uTensor, waitOpEnd s c with
      | none, _ => updQuit s c stBadParam
      | _, .waits => s
      | _, .ends st => updQuit s c st
      | some t, .over => match waitScaleEnd s c with
        | .waits => s
        | .ends st => updQuit s c st
        | .over =>
          let s := claimTensor s c t
          let readers := s.runs.any (fun x => x.copies.any (fun k => k.1 == c.uTensor && k.2.2))
          if readers ∨ s.topcoat.running.isSome then s
          else
            let r := if c.uRows then readRows s c t else (s, some (some []))
            match r.2 with
            | none => updQuit (unclaimTensor (topRecurs r.1) c t) c stFault
            | some none => updDrop (unclaimTensor r.1 c t) c
            | some (some l) => takeTensor r.1 c t (if c.uRows then some l else none) ev

/-- SCALE_SAT set on every core's Float edge by a Topcoat's S16 saturation (R113): the rule names no core
(DESIGN CHOICE 94). -/
def scaleSatCause (s : State) (recipe : Nat) : State :=
  ((List.range 256).filter (coreExists s)).foldl (fun s k => setCause s (physCore s k) recipe 32) s

/-- The Topcoats that shed level S4 halted go on at their next group (R191). -/
def topResume (s : State) : State :=
  match s.topcoat.running with
  | none => s
  | some u => match tensorAt s u.cmd.uTensor, topProg s u.cmd.uProg with
    | some t, some p =>
      goOn ((List.range 8).foldl (fun r st =>
        match r.1.topcoat.tops[st]? with
        | some x => if r.2 && x.busy && x.halted then topEnter r.1 st (r.1.topcoat.running.getD u) t p x.groups else r
        | none => r) (s, true))
    | _, _ => s

/-- UPDATE_COMPLETE (R172): all eight Topcoats have finished the last group. -/
def updateCompleteState (op : Nat) (s : State) : State :=
  match s.topcoat.running with
  | none => s
  | some u =>
    if u.cmd.op ≠ op ∨ s.topcoat.tops.any (·.busy) then s
    else
      let flags := boolNat u.notFin * cfNotFinite + boolNat u.winSat * 8 + boolNat u.scaleSat * 32
      let s := { s with step := { s.step with norms := addNorm s.step.norms u.norm } }
      let s := if u.scaleSat then scaleSatCause s u.cmd.uRecipe else s
      endUpdate s u.cmd (if flags = 0 then stOk else stFlagged) flags

/-! Instructions (R178–R180). -/

/-- What an instruction of a stack's program sees: the UPDATE, its tensor and program, the stack,
and the word at its pc. -/
structure TopCtx where
  u    : UpdateRun
  t    : Tensor
  p    : TopProg
  st   : Nat
  x    : TopStack
  word : Nat
deriving DecidableEq, Repr

/-- An instruction row: the stack's next word, if it is this operation and the stack runs; at shed
level S4 a stack at a group boundary stands (R191), and while requests of a higher class wait in the stack they go
first (R32). -/
def topRow (st op : Nat) (f : TopCtx → State → State) (s : State) : State :=
  match s.topcoat.running, s.topcoat.tops[st]? with
  | some u, some x => match tensorAt s u.cmd.uTensor, topProg s u.cmd.uProg with
    | some t, some p => match p.words[x.pc]? with
      | some w =>
        if !x.busy || x.atPhase || x.halted || !released s || stackWaits s st 3 || wordOp w != op then s
        else if x.fresh && decide (4 ≤ shedLevel s) then s
        else f { u := u, t := t, p := p, st := st, x := x, word := w } s
      | none => s
    | _, _ => s
  | _, _ => s

def TopCtx.a (c : TopCtx) : FV := f32Val (nthD c.x.regs (fieldOf c.word 19 16) 0)
def TopCtx.b (c : TopCtx) : FV := f32Val (nthD c.x.regs (fieldOf c.word 15 12) 0)
def TopCtx.c (c : TopCtx) : FV := f32Val (nthD c.x.regs (fieldOf c.word 11 8) 0)
def TopCtx.k (c : TopCtx) : FV := f32Val (c.u.cmd.uConst (fieldOf c.word 7 3))

/-- Row and k of the parameter in hand. -/
def TopCtx.row (c : TopCtx) : Nat := (128 * nthD c.x.groups 0 0 + c.x.param) / c.t.k
def TopCtx.col (c : TopCtx) : Nat := (128 * nthD c.x.groups 0 0 + c.x.param) % c.t.k

/-- The pc moved on past an instruction that writes no register. -/
def TopCtx.pass (c : TopCtx) (s : State) : State := modTop s c.st (fun x => { x with pc := x.pc + 1, fresh := false })

/-- D written with an F32 code, and the pc moved on. -/
def TopCtx.put (c : TopCtx) (s : State) (code : Nat) : State :=
  modTop s c.st (fun x => { x with regs := x.regs.set (fieldOf c.word 23 20) code, pc := x.pc + 1, fresh := false })

/-- An arithmetic instruction: its value, rounded to F32, in D (R179). -/
def topAlu (st op : Nat) (f : TopCtx → FV) (s : State) : State := topRow st op (fun c s => c.put s (f32Code (f c))) s

/-- The smaller of two values: a NaN makes it a NaN, equal zeros give −0 (R179). -/
def fMin (a b : FV) : FV := (FV.max a.negate b.negate).negate

/-- SIGN (R178, R179). -/
def fSign (a : FV) : FV := if a.isNan then .nan else if a.isZero then fvZero else .fin a.neg? 1 0

/-- ADD (R178). -/
def topcoatAddState (stack : Nat) (s : State) : State := topAlu stack 0x01 (fun c => c.a.add c.b) s

/-- SUB (R178). -/
def topcoatSubState (stack : Nat) (s : State) : State := topAlu stack 0x02 (fun c => c.a.sub c.b) s

/-- MUL (R178). -/
def topcoatMulState (stack : Nat) (s : State) : State := topAlu stack 0x03 (fun c => c.a.mul c.b) s

/-- FMA (R178). -/
def topcoatFmaState (stack : Nat) (s : State) : State := topAlu stack 0x04 (fun c => (c.a.mul c.b).add c.c) s

/-- DIV (R178). -/
def topcoatDivState (stack : Nat) (s : State) : State := topAlu stack 0x05 (fun c => f32.div c.a c.b) s

/-- SQRT (R178). -/
def topcoatSqrtState (stack : Nat) (s : State) : State := topAlu stack 0x06 (fun c => f32.sqrt c.a) s

/-- RSQRT (R178). -/
def topcoatRsqrtState (stack : Nat) (s : State) : State := topAlu stack 0x07 (fun c => f32.rsqrt c.a) s

/-- MAX (R178). -/
def topcoatMaxState (stack : Nat) (s : State) : State := topAlu stack 0x08 (fun c => FV.max c.a c.b) s

/-- MIN (R178). -/
def topcoatMinState (stack : Nat) (s : State) : State := topAlu stack 0x09 (fun c => fMin c.a c.b) s

/-- ABS (R178). -/
def topcoatAbsState (stack : Nat) (s : State) : State := topAlu stack 0x0A (fun c => c.a.abs) s

/-- NEG (R178). -/
def topcoatNegState (stack : Nat) (s : State) : State := topAlu stack 0x0B (fun c => c.a.negate) s

/-- SIGN (R178). -/
def topcoatSignState (stack : Nat) (s : State) : State := topAlu stack 0x0C (fun c => fSign c.a) s

/-- CLAMP (R178). -/
def topcoatClampState (stack : Nat) (s : State) : State := topAlu stack 0x0D (fun c => fMin (FV.max c.a c.b) c.c) s

/-- LDK (R178). -/
def topcoatLdkState (stack : Nat) (s : State) : State := topAlu stack 0x10 (fun c => c.k) s

/-- MULK (R178). -/
def topcoatMulkState (stack : Nat) (s : State) : State := topAlu stack 0x11 (fun c => c.a.mul c.k) s

/-- ADDK (R178). -/
def topcoatAddkState (stack : Nat) (s : State) : State := topAlu stack 0x12 (fun c => c.a.add c.k) s

/-- FMAK (R178). -/
def topcoatFmakState (stack : Nat) (s : State) : State := topAlu stack 0x13 (fun c => (c.a.mul c.k).add c.b) s

/-- ROWACC (R180). -/
def topcoatRowaccState (stack : Nat) (s : State) : State :=
  topRow stack 0x20 (fun c s => c.pass (modRun s (fun u => { u with
    rowSum := stSet exZero u.rowSum c.row ((stGet exZero u.rowSum c.row).plus c.a factorUnit) }))) s

/-- COLACC (R180). -/
def topcoatColaccState (stack : Nat) (s : State) : State :=
  topRow stack 0x21 (fun c s => c.pass (modRun s (fun u => { u with
    colSum := stSet exZero u.colSum c.col ((stGet exZero u.colSum c.col).plus c.a factorUnit) }))) s

/-- D loaded with an updated factor; before PHASE there is none, and the value is free (R180;
DESIGN CHOICE 35). -/
def topFactor (c : TopCtx) (code : Nat) (s : State) : State :=
  if c.u.phase2 then c.put s code
  else
    let r := takeFree s
    c.put r.2 (r.1 % 2 ^ 32)

/-- LDROW (R180). -/
def topcoatLdrowState (stack : Nat) (s : State) : State :=
  topRow stack 0x22 (fun c s => topFactor c (leNat (planeBytes s c.t (plM2 (1 - c.t.cur)) (4 * c.row) 4)) s) s

/-- LDCOL (R180). -/
def topcoatLdcolState (stack : Nat) (s : State) : State :=
  topRow stack 0x23 (fun c s => topFactor c (leNat (planeBytes s c.t (plS16 (1 - c.t.cur)) (4 * c.col) 4)) s) s

/-- LDRSUM (R180). -/
def topcoatLdrsumState (stack : Nat) (s : State) : State := topRow stack 0x24 (fun c s => topFactor c c.u.rsum s) s

/-- One factor's new value (R180): each operation F32, in the order written. -/
def newFactor (beta old : FV) (sum : ExSum) (count : Nat) : FV :=
  fAdd (fMul beta old) (fMul (fSub fvOne beta) (fDiv (f32.round (sum.value factorUnit)) (f32.round (fvNat count))))

/-- One vector of factors updated into its pending slot: the new values, none where a sector
failed. -/
def updFactors (s : State) (t : Tensor) (i j n count : Nat) (beta : FV) (sums : Store ExSum) : State × Option (List FV) :=
  let r := planeRead s t i 0 (4 * n)
  match r.2 with
  | none => (r.1, none)
  | some b =>
    let fs := (unpackCodes 32 b).mapIdx (fun k c => newFactor beta (f32Val c) (stGet exZero sums k) count)
    let w := planeWrite r.1 t j 0 (fs.flatMap (fun v => leBytes 4 (f32Code v)))
    let bad := (fs.filter (fun v => !v.isFin)).length
    let st := match (planeAddr s t j).map (locOf s) with
      | some (.hbm x _ _) => x
      | _ => 0
    let s := csrBump w.1 (rTopNotfinite + 0x10000 * st) 31 0 bad
    let s := if bad = 0 then s else modRun (setNf s) (fun u => { u with notFin := true })
    (s, if w.2 then some fs else none)

/-- The factors updated over the whole shard once every stack has ended phase 1 (R180). -/
def endPhase (s : State) (u : UpdateRun) (t : Tensor) (p : TopProg) : State :=
  if !s.topcoat.tops.all (fun x => !x.busy || x.atPhase) then s
  else
    let j := 1 - t.cur
    let beta := f32Val (u.cmd.uConst p.fbeta)
    let sums := s.topcoat.running.getD u
    let r := updFactors s t (plM2 t.cur) (plM2 j) t.rows t.k beta sums.rowSum
    let k := updFactors r.1 t (plS16 t.cur) (plS16 j) t.k t.rows beta sums.colSum
    match r.2, k.2 with
    | some fr, some _ =>
      let rs := fr.foldl (fun a v => a.plus v factorUnit) exZero
      goOn (startPass (modRun k.1 (fun u => { u with phase2 := true, rsum := f32Code (rs.value factorUnit) })))
    | _, _ => topFault k.1

/-- The stack's next parameter, or its next group. -/
def TopCtx.next (c : TopCtx) (s : State) (done : State → State × Bool) : State × Bool :=
  let u := s.topcoat.running.getD c.u
  if c.x.param < 127 then topLoad s c.st u c.t c.p c.x.groups (c.x.param + 1)
  else
    let r := done s
    if r.2 then topEnter r.1 c.st u c.t c.p (c.x.groups.drop 1) else r

/-- PHASE (R180): phase 1 of this parameter ends. -/
def topcoatPhaseState (stack : Nat) (s : State) : State :=
  topRow stack opPhase (fun c s =>
    let r := c.next s (fun s => (s, true))
    if r.2 then endPhase r.1 c.u c.t c.p else topFault r.1) s

/-- Master and moments written at END (R179, R182). -/
def TopCtx.writeBack (c : TopCtx) (s : State) : State × Bool :=
  let j := 1 - c.t.cur
  let g := nthD c.x.groups 0 0
  let i := c.x.param
  let reg (k : Nat) : Nat := nthD c.x.regs k 0
  let mom (b16' : Bool) (v : Nat) : List Byte := if b16' then leBytes 2 (convCode f32 b16 v) else leBytes 4 v
  let put (r : State × Bool) (pl off : Nat) (bs : List Byte) : State × Bool :=
    let w := planeWrite r.1 c.t pl off bs
    (w.1, r.2 && w.2)
  let r := put (put (s, true) (plHi j) (256 * g + 2 * i) (leBytes 2 (reg 0 / 65536))) (plLo j) (256 * g + 2 * i) (leBytes 2 (reg 0))
  let r := if 1 ≤ c.p.moments then put r (plM1 j) (c.p.m1Size * g + momentSize c.p.m1b16 * i) (mom c.p.m1b16 (reg 2)) else r
  if c.p.usesM2 then put r (plM2 j) (c.p.m2Size * g + momentSize c.p.m2b16 * i) (mom c.p.m2b16 (reg 3)) else r

/-- END (R179): master and moments into the pending slots, then the next parameter; the group ends
with its last. -/
def topcoatEndState (stack : Nat) (s : State) : State :=
  topRow stack opEnd (fun c s =>
    let w := c.writeBack s
    if !w.2 then topFault w.1
    else goOn (c.next w.1 (fun s => endGroup s c.st c.u.cmd c.t c.p (nthD c.x.groups 0 0) true))) s

/-! The meanings of the rows. -/

/-- TOPCOAT_LOAD (R176). Loads a validated optimizer program into Topcoat slot 4 to 15. -/
def execTopcoatLoad (q qseq : Nat) (s : State) : Host.Outcome State Fault Refusal :=
  .next (topcoatLoadState q qseq s)

/-- UPDATE (R172). Begins an optimizer update of one tensor and waits for WAIT_OP, its scale UPDATE and previous-version readers. -/
def execUpdate (q qseq : Nat) (s : State) : Host.Outcome State Fault Refusal :=
  .next (updateState q qseq s)

/-- UPDATE_TAKES_TENSOR (R160). After its waits end, the UPDATE makes the tensor's other slot pending and Topcoat processes its groups. -/
def execUpdateTakesTensor (op : Nat) (ev : TopEvents) (s : State) : Host.Outcome State Fault Refusal :=
  .next (updateTakesTensorState op ev s)

/-- UPDATE_COMPLETE (R172). The UPDATE completes when all eight Topcoats have finished its last group. -/
def execUpdateComplete (op : Nat) (s : State) : Host.Outcome State Fault Refusal :=
  .next (updateCompleteState op s)

/-- TOPCOAT_ADD (R178). Topcoat instruction ADD writes A + B to D in F32. -/
def execTopcoatAdd (stack : Nat) (s : State) : Host.Outcome State Fault Refusal :=
  .next (topcoatAddState stack s)

/-- TOPCOAT_SUB (R178). Topcoat instruction SUB writes A − B to D. -/
def execTopcoatSub (stack : Nat) (s : State) : Host.Outcome State Fault Refusal :=
  .next (topcoatSubState stack s)

/-- TOPCOAT_MUL (R178). Topcoat instruction MUL writes A × B to D. -/
def execTopcoatMul (stack : Nat) (s : State) : Host.Outcome State Fault Refusal :=
  .next (topcoatMulState stack s)

/-- TOPCOAT_FMA (R178). Topcoat instruction FMA writes A × B + C rounded once. -/
def execTopcoatFma (stack : Nat) (s : State) : Host.Outcome State Fault Refusal :=
  .next (topcoatFmaState stack s)

/-- TOPCOAT_DIV (R178). Topcoat instruction DIV writes A ÷ B. -/
def execTopcoatDiv (stack : Nat) (s : State) : Host.Outcome State Fault Refusal :=
  .next (topcoatDivState stack s)

/-- TOPCOAT_SQRT (R178). Topcoat instruction SQRT writes √A. -/
def execTopcoatSqrt (stack : Nat) (s : State) : Host.Outcome State Fault Refusal :=
  .next (topcoatSqrtState stack s)

/-- TOPCOAT_RSQRT (R178). Topcoat instruction RSQRT writes 1 ÷ √A rounded once. -/
def execTopcoatRsqrt (stack : Nat) (s : State) : Host.Outcome State Fault Refusal :=
  .next (topcoatRsqrtState stack s)

/-- TOPCOAT_MAX (R178). Topcoat instruction MAX writes the larger of A and B. -/
def execTopcoatMax (stack : Nat) (s : State) : Host.Outcome State Fault Refusal :=
  .next (topcoatMaxState stack s)

/-- TOPCOAT_MIN (R178). Topcoat instruction MIN writes the smaller of A and B. -/
def execTopcoatMin (stack : Nat) (s : State) : Host.Outcome State Fault Refusal :=
  .next (topcoatMinState stack s)

/-- TOPCOAT_ABS (R178). Topcoat instruction ABS writes |A|. -/
def execTopcoatAbs (stack : Nat) (s : State) : Host.Outcome State Fault Refusal :=
  .next (topcoatAbsState stack s)

/-- TOPCOAT_NEG (R178). Topcoat instruction NEG writes −A. -/
def execTopcoatNeg (stack : Nat) (s : State) : Host.Outcome State Fault Refusal :=
  .next (topcoatNegState stack s)

/-- TOPCOAT_SIGN (R178). Topcoat instruction SIGN writes +1, −1 or +0 by the sign of A. -/
def execTopcoatSign (stack : Nat) (s : State) : Host.Outcome State Fault Refusal :=
  .next (topcoatSignState stack s)

/-- TOPCOAT_CLAMP (R178). Topcoat instruction CLAMP writes min(max(A, B), C). -/
def execTopcoatClamp (stack : Nat) (s : State) : Host.Outcome State Fault Refusal :=
  .next (topcoatClampState stack s)

/-- TOPCOAT_LDK (R178). Topcoat instruction LDK loads constant c_K into D. -/
def execTopcoatLdk (stack : Nat) (s : State) : Host.Outcome State Fault Refusal :=
  .next (topcoatLdkState stack s)

/-- TOPCOAT_MULK (R178). Topcoat instruction MULK writes A × c_K. -/
def execTopcoatMulk (stack : Nat) (s : State) : Host.Outcome State Fault Refusal :=
  .next (topcoatMulkState stack s)

/-- TOPCOAT_ADDK (R178). Topcoat instruction ADDK writes A + c_K. -/
def execTopcoatAddk (stack : Nat) (s : State) : Host.Outcome State Fault Refusal :=
  .next (topcoatAddkState stack s)

/-- TOPCOAT_FMAK (R178). Topcoat instruction FMAK writes A × c_K + B rounded once. -/
def execTopcoatFmak (stack : Nat) (s : State) : Host.Outcome State Fault Refusal :=
  .next (topcoatFmakState stack s)

/-- TOPCOAT_ROWACC (R180). Topcoat instruction ROWACC adds A to the parameter's row factor sum. -/
def execTopcoatRowacc (stack : Nat) (s : State) : Host.Outcome State Fault Refusal :=
  .next (topcoatRowaccState stack s)

/-- TOPCOAT_COLACC (R180). Topcoat instruction COLACC adds A to the parameter's column factor sum. -/
def execTopcoatColacc (stack : Nat) (s : State) : Host.Outcome State Fault Refusal :=
  .next (topcoatColaccState stack s)

/-- TOPCOAT_LDROW (R180). Topcoat instruction LDROW loads the updated row factor. -/
def execTopcoatLdrow (stack : Nat) (s : State) : Host.Outcome State Fault Refusal :=
  .next (topcoatLdrowState stack s)

/-- TOPCOAT_LDCOL (R180). Topcoat instruction LDCOL loads the updated column factor. -/
def execTopcoatLdcol (stack : Nat) (s : State) : Host.Outcome State Fault Refusal :=
  .next (topcoatLdcolState stack s)

/-- TOPCOAT_LDRSUM (R180). Topcoat instruction LDRSUM loads the sum of updated row factors. -/
def execTopcoatLdrsum (stack : Nat) (s : State) : Host.Outcome State Fault Refusal :=
  .next (topcoatLdrsumState stack s)

/-- TOPCOAT_PHASE (R180). Topcoat instruction PHASE ends phase 1, after which the factors are updated over the whole shard. -/
def execTopcoatPhase (stack : Nat) (s : State) : Host.Outcome State Fault Refusal :=
  .next (topcoatPhaseState stack s)

/-- TOPCOAT_END (R179). Topcoat instruction END writes f0 as the master and f2 and f3 as the moments into pending slots. -/
def execTopcoatEnd (stack : Nat) (s : State) : Host.Outcome State Fault Refusal :=
  .next (topcoatEndState stack s)

end Sys2Proof.Machine
end

