-- ==== Sys2Proof/Machine/Takeover.lean ====
section
/-! DEFINITION. REPLAY and TAKEOVER (R364–R368): a half's headers, table and planes fetched with GET,
committed state restored at seam M, and the compute copies regenerated. -/

namespace Sys2Proof.Machine

/-! Regenerated copies (R183, R365). -/

/-- The recipe a copy is formed anew with: its slot record's ROT_SIZE and WPAL over the entry it
names; of an entry that is not loaded, the rest is a free value (DESIGN CHOICE 45). -/
def copyRecipe (s : State) (r : List Byte) : Recipe × State :=
  let over' (x : Recipe) : Recipe := { x with rotLog2 := leAt r 3 1, wpal := leAt r 4 1 }
  match recipeOf s (leAt r 2 1) with
  | some b => (over' (Recipe.ofBytes b), s)
  | none =>
    let f := takeFree s
    (over' { Recipe.ofBytes [] with policy := f.1 % 3, headroom := f.1 / 4 % 4 }, f.2)

/-- The copy in slot `j` of a tensor formed from that slot's master. -/
def regenCopy (s : State) (t : Tensor) (j : Nat) : State :=
  let r := t.slotRec j
  let x := copyRecipe s r
  let fold := if bitOf (leAt r 7 1) 1 then some (leAt r 8 6) else none
  let scale := if bitOf (leAt r 7 1) 0 then some (leAt r 14 2, if j = 0 then t.sc0 else t.sc1) else none
  (List.range t.groups).foldl (fun s g => (formCopy s t j g x.1 (leAt r 5 1) (leAt r 6 1) fold scale).1) x.2

/-- Every current copy, and every previous one that is readable, where `prev` says that its master
was restored. -/
def regenCopies (s : State) (prev : Bool) : State :=
  s.job.tensors.foldl (fun s t =>
    if !t.hasCopy then s
    else
      let s := regenCopy s t t.cur
      if prev && t.prevOk then regenCopy s t (1 - t.cur) else s) s

/-! Entering and ending (R365–R367). -/

/-- The step a replay ends with: the one that was open, with its attempt, or whatever attempt the
host gives it; a replay ordered within a replay keeps its end. -/
def replayEnd (s : State) : Nat × Nat :=
  match s.step.replayTo with
  | some e => if stepState s = sReplaying then e else (stepsOf s, 65536)
  | none => (stepsOf s, if s.step.tried = some (stepsOf s) then csrField s rHubStepState 31 16 else 65536)

/-- Open commands ended, pending slots discarded, REPLAYING entered; no step begins before the
state is restored. The command itself, if in flight, stays so. -/
def enterReplay (s : State) (c : Cmd) (last : Nat × Nat) : State :=
  let was := if stepState s = sReplaying then s.step.replayState else if stepState s = sDeciding then sDeciding else sOpen
  let own := s.flights.filter (fun f => f.cmd == c)
  let pull := s.snag.pull
  let s := abortOpen { s with flights := s.flights.filter (fun f => f.cmd != c) }
  let s := mirrorStop (discardPending s)
  let s := setStepState { s with flights := own ++ s.flights, snag := { s.snag with pull := pull }, hawk := [] } sReplaying
  { s with step := { s.step with
      phase := sCommitted, replayTo := some last, replayState := was, silent := [], cmdLog := [], norms := [], nfLocal := false
      again := false, colStarted := false, replayedDigests := [], carriedNow := 0, ops := [] } }

/-- Each queue's N set and its history cleared; what was placed is sent again (R367). -/
def resetQueues (s : State) (b : List Byte) : State :=
  { s with queues := s.queues.mapIdx (fun q x =>
      { x with n := leAt b (16 + 4 * q) 4, slots := [], history := [], reserved := 0, launchHold := none }) }

/-- The replay ready for its first STEP_BEGIN, and the command complete. -/
def endReplay (s : State) (c : Cmd) (m : Nat) (flagged : Bool) : State :=
  let s := csrPut64 (csrSetField (clearVotes s) rHubStepState 6 6 0) rHubStepCountLo m
  let s := { s with step := { s.step with phase := sIdle, startSteps := m }, snag := { s.snag with pull := none } }
  resetQueues (finish s c (if flagged then stFlagged else stOk)) c.body

/-- A restored state that lacks a plane the job uses is recorded (R367). -/
def missingPlanes (s : State) (dev m : Nat) : State :=
  snagRecord s { errRec (unitPackage 0xFFF) 0x14 0 1 0 with syndrome := leBytes 2 dev ++ leBytes 8 m }

/-! Fetching a half (R361, R365). -/

/-- The local pieces of spans turned into pieces to fetch. -/
def fetchPieces (src : Nat) (spans : List (Nat × Nat)) : List (Nat × Nat × Nat) :=
  (spanPieces src spans).map (fun p => (p.2.1, p.1, p.2.2))

/-- A pull that cannot go on: the command ends. -/
def pullFail (s : State) (st : Nat) : State :=
  match s.snag.pull with
  | none => s
  | some p => finish { s with snag := { s.snag with pull := none } } p.cmd st

/-- The next piece asked for, at class 0 (R365). -/
def pullNext (s : State) (p : Pull) : State :=
  let s := { s with snag := { s.snag with pull := some p } }
  match p.pieces with
  | [] => s
  | (a, _, n) :: _ =>
    let r := issueOp s .firmware 0 2 p.peer 0x62 0 a [] n
    match r.2 with
    | none => r.1
    | some _ => pullFail r.1 stNotReady

def pullM (p : Pull) : Nat := leAt p.cmd.body 0 8

/-- Whose mirror a half must hold: the failed device's, or the device's own. -/
def pullOf (s : State) (p : Pull) : Nat := if p.cmd.opcode = 0x0905 then leAt p.cmd.body 10 2 else csrField s rColId 11 0

/-- The fetch of a half's header. -/
def headerPull (s : State) (p : Pull) (h : Nat) : Pull := { p with half := h, stage := h, pieces := [(halfBase s h, 0, 32)], buf := [] }

/-- Whether a header is of a complete half with STEP M of the device sought. -/
def headerOk (s : State) (p : Pull) (b : List Byte) : Bool :=
  leAt b 10 1 == 2 && leAt b 0 8 == pullM p && leAt b 12 2 % 4096 == pullOf s p

/-- The tensors a table's bytes give; none where an entry breaks R338. -/
def tableOf (b : List Byte) (n : Nat) : Option (List Tensor) :=
  ((List.range n).foldr (fun i acc => match tensorOf (sliceB b (64 * i) 64), acc with
    | some t, some l => some (t :: l)
    | _, _ => none) (some [])).map linkScales

/-- Copies made anew, error-feedback buffers and previous copies the half does not hold, and the end. -/
def pullEnd (s : State) (p : Pull) : State :=
  let flags := leAt p.buf 11 1
  let efGone := !bitOf flags 0 && s.job.tensors.any (fun t => t.kind == 3)
  let prevGone := !bitOf flags 1 && s.job.tensors.any (fun t => t.kind != 3 && t.prevOk)
  let s := if efGone then
      (s.job.tensors.filter (fun t => t.kind == 3)).foldl (fun s t =>
        ([plCode t.cur, plExp t.cur].flatMap (planeSpan s t)).foldl (fun s x => clearMem s x.1 x.2) s) s
    else s
  let s := if bitOf flags 1 then s
    else { s with job := { s.job with tensors := s.job.tensors.map (fun t => if t.kind = 3 then t else { t with prevOk := false }) } }
  let s := regenCopies s (bitOf flags 1)
  let lacks := efGone || (prevGone && (p.cmd.opcode == 0x0905 || csrField s rHubStepState 6 6 == 1))
  endReplay (if lacks then missingPlanes s (pullOf s p) (pullM p) else s) p.cmd (pullM p) lacks

/-- The ledger's WRITE put behind the newest entry, and the step after it named as the last (R366). -/
def adoptLedger (s : State) : State :=
  let es := (List.range (ledgerSize s)).map (fun i => (i, ledgerEntry s i))
  match es.foldl (fun (b : Option (Nat × List Byte)) e =>
      if leAt e.2 24 8 = 0 then b
      else match b with
        | none => some e
        | some x => if leAt x.2 24 8 < leAt e.2 24 8 then some e else b) none with
  | none => s
  | some (i, e) =>
    let s := csrSetField s rHubLedgerCtrl 15 0 ((i + 1) % ledgerSize s)
    let last := leAt e 0 8 + boolNat (leAt e 10 1 == 1)
    { s with step := { s.step with replayTo := some (last, 65536) } }

/-- A stage of the fetch whose pieces are all here. -/
def pullStage (s : State) (p : Pull) : State :=
  match p.stage with
  | 2 =>
    let n := s.job.tensors.length
    match tableOf (p.buf.drop 32) n with
    | none => pullFail s stNotReady
    | some ts =>
      let last := if p.cmd.opcode = 0x0905 then (pullM p, 65536) else replayEnd s
      let s := enterReplay s p.cmd last
      let s := { s with job := { s.job with tensors := ts } }
      let ps := fetchPieces (halfBase s p.half + 4096 + 64 * n) (mirrorSpans s ts (leAt p.buf 11 1))
      let p := { p with stage := 3, pieces := ps, buf := p.buf.take 32 }
      if ps.isEmpty then pullEnd s p else pullNext s p
  | 3 =>
    if p.cmd.opcode = 0x0905 ∧ 0 < s.job.ledger.len ∧ 0 < s.job.ledgerCopy.len then
      let n := 1024 * ledgerSize s
      pullNext s { p with stage := 4, pieces := cutPieces (n / 2 ^ 20 + 1) s.job.ledgerCopy.base s.job.ledger.base n }
    else pullEnd s p
  | _ => pullEnd (adoptLedger s) p

/-- A piece that has come (R365). -/
def pullGot (s : State) (data : List Byte) : State :=
  match s.snag.pull with
  | none => s
  | some p =>
    match p.stage, p.pieces with
    | 0, _ =>
      if headerOk s p data then
        pullNext s { p with stage := 2, pieces := cutPieces (s.job.tensors.length / 2 ^ 14 + 1) (halfBase s 0 + 4096) 0 (64 * s.job.tensors.length), buf := sliceB data 0 32 }
      else pullNext s (headerPull s p 1)
    | 1, _ =>
      if headerOk s p data then
        pullNext s { p with stage := 2, pieces := cutPieces (s.job.tensors.length / 2 ^ 14 + 1) (halfBase s 1 + 4096) 0 (64 * s.job.tensors.length), buf := sliceB data 0 32 }
      else pullFail s stNotReady
    | 2, _ :: rest =>
      let p := { p with pieces := rest, buf := p.buf ++ data }
      if rest.isEmpty then pullStage s p else pullNext s p
    | _, (_, b, _) :: rest =>
      let w := writeMem s b data
      if !w.2 then pullFail w.1 stFault else
      let s := w.1
      let p := { p with pieces := rest }
      if rest.isEmpty then pullStage s p else pullNext s p
    | _, [] => s

/-! The commands. -/

/-- The fetch of a half begun. -/
def startPull (s : State) (c : Cmd) (peer : Nat) : State :=
  let s := fly s c
  -- answers to an earlier fetch that was given up belong to no one now
  let s := { s with net := { s.net with ops := s.net.ops.filter (fun o => o.owner != .firmware)
                                        waiting := s.net.waiting.filter (fun o => o.owner != .firmware) } }
  pullNext s (headerPull s { cmd := c, peer := peer, half := 0, stage := 0, pieces := [], buf := [] } 0)

/-- REPLAY (R365–R367). -/
def bodyReplay (c : Cmd) (s : State) : Option State :=
  let b := c.body
  let m := leAt b 0 8
  let src := leAt b 8 1
  if src = 0 ∨ 2 < src ∨ !zeroAt b 9 7 then some (finish s c stBadParam)
  else if src = 1 then
    if stepsOf s ≠ m then some (finish s c stNotReady)
    else
      let s := enterReplay s c (replayEnd s)
      some (endReplay (regenCopies s false) c m false)
  else match buddyOf s with
    | none => some (finish s c stNotReady)
    | some peer => if s.job.mirror.len = 0 ∨ s.snag.pull.isSome then some (finish s c stNotReady) else some (startPull s c peer)

/-- TAKEOVER (R365–R367). -/
def bodyTakeover (c : Cmd) (s : State) : Option State :=
  let b := c.body
  if leAt b 8 1 ≠ 2 ∨ !zeroAt b 9 1 ∨ 4096 ≤ leAt b 10 2 ∨ 4096 ≤ leAt b 12 2 ∨ !zeroAt b 14 2 then some (finish s c stBadParam)
  else if !placed? s ∨ stepsOf s ≠ leAt b 0 8 ∨ s.job.mirror.len = 0 ∨ s.snag.pull.isSome then some (finish s c stNotReady)
  else some (startPull s c (leAt b 12 2))

/-- REPLAY (R367). -/
def replayState (q qseq : Nat) (s : State) : State := hostRow s q qseq (fun c => c.opcode == 0x0904) bodyReplay

/-- TAKEOVER (R367). -/
def takeoverState (q qseq : Nat) (s : State) : State := hostRow s q qseq (fun c => c.opcode == 0x0905) bodyTakeover

/-! The meanings of the rows. -/

/-- REPLAY (R367). Aborts open commands and restores committed state at seam M from own slots or own mirror half, entering REPLAYING. -/
def execReplay (q qseq : Nat) (s : State) : Host.Outcome State Fault Refusal :=
  .next (replayState q qseq s)

/-- TAKEOVER (R367). Makes a spare device restore a failed device's state from its mirror half and ledger copy at the buddy. -/
def execTakeover (q qseq : Nat) (s : State) : Host.Outcome State Fault Refusal :=
  .next (takeoverState q qseq s)

end Sys2Proof.Machine
end

