-- ==== Sys2Proof/Machine/Answers.lean ====
section
/-! DEFINITION. Answers to the device's own Scrim operations (R251, R258, R262, R263): ACK, NACK,
GET_REPLY and the end of an operation's window, each handed to the operation's owner. -/

namespace Sys2Proof.Machine

/-- How an operation is decided (R258). -/
inductive Fate where
  | ok (data : List Byte)
  | failed (reason : Nat)
  | timeout
deriving DecidableEq, Repr

def Fate.good : Fate → Bool
  | .ok _ => true
  | _ => false

/-- The NACK reason of a fate, 0 if none. -/
def Fate.reason : Fate → Nat
  | .failed r => r
  | _ => 0

/-- The reason a Lath NACK carries for a fate: 0x6 stands as 0x5 (R252). -/
def Fate.lathReason (f : Fate) : Nat := if f.reason = 6 then 5 else f.reason

/-- A peer parcel's end (R262): a read's bytes are placed, or go on to a third node. -/
def parcelFate (s : State) (b ch tag : Nat) (f : Fate) : State :=
  match (chanGet s b ch).window.find? (fun p => p.tag == tag && p.peer) with
  | none => s
  | some p => match f with
    | .ok d =>
      if p.kind = 2 then
        let s := if p.onward.isNone then ownStore s b p.addr (d.take p.len) else s
        readDone s b ch { p with data := d.take p.len }
      else parcelDone s b ch p
    | .failed r => parcelFail s b ch p (r == 4) r (if p.kind = 2 then p.src else p.addr)
    | .timeout => parcelFail s b ch p false 0 (if p.kind = 2 then p.src else p.addr)

/-- The local address of the window a host operation went through (R263). -/
def windowAddr (s : State) (o : ScrimOp) : Nat :=
  let a := (o.pkts.head?.map (·.addr)).getD 0
  match s.job.windows.find? (fun w => w.peer == o.peer && decide (w.host ≤ a) && decide (a < w.host + w.len)) with
  | some w => w.base + (a - w.host)
  | none => 0

/-- A host-window parcel's end, answered to its owner from the hub buffer's node (R263). A window
that ended without an answer counts as no reason of R234's, so it is 0. -/
def windowFate (s : State) (o : ScrimOp) (src tag dst ncell tally : Nat) (f : Fate) : State :=
  match f with
  | .ok d => if o.kind = 2 then lathReply s 4 0 src tag 0 (ncell + 1) dst tally d else lathAck s 4 0 src tag
  | f =>
    let s := if o.kind = 2 then s else slotFail s (slotKey 4 0 src tag) f.lathReason (windowAddr s o)
    lathNack s 4 0 src tag f.lathReason (windowAddr s o)

/-- An operation decided, once and for good (R258). -/
def decideOp (s : State) (o : ScrimOp) (f : Fate) : State :=
  let s := dropOp s o
  match o.owner with
  | .parcel b ch tag => parcelFate s b ch tag f
  | .window src tag dst ncell tally => windowFate s o src tag dst ncell tally f
  | .collective op _ _ => collDecided s op f.good (f == .timeout)
  | .mirror => mirrorDecided s f.good
  | .ledger => ledgerDecided s f.good
  | .firmware => match f with
    | .ok d => pullGot s d
    | .failed _ => pullFail s stFault
    | .timeout => pullFail s stTimeout

/-- The ISSUED operation an answer belongs to, and its packet: the ID, the peer, the channel, the
packet's place and its sequence number. -/
def answered (s : State) (h : ScHdr) : Option (ScrimOp × TxPkt) :=
  s.net.ops.findSome? (fun o =>
    if o.id == h.opid && o.peer == h.src && o.chan == h.chan && decide (s.plumb < o.limit) then
      match o.pkts[h.pkt]? with
      | some k => if k.seq = h.seq then some (o, k) else none
      | none => none
    else none)

/-- ACK (R258). -/
def ackState (p : Packet) (s : State) : State :=
  match acceptScrim s p 0x8 with
  | (s, none) => s
  | (s, some (h, _)) => match answered s h with
    | none => scrCount s 2 1
    | some (o, k) =>
      if o.kind = 2 then s
      else
        let n := { o with pkts := o.pkts.set h.pkt { k with acked := true } }
        if n.pkts.all (·.acked) then decideOp s o (.ok []) else putOp s o n

/-- NACK (R258). -/
def nackState (p : Packet) (s : State) : State :=
  match acceptScrim s p 0x9 with
  | (s, none) => s
  | (s, some (h, _)) => match answered s h with
    | none => scrCount s 2 1
    | some (o, _) => decideOp s o (.failed h.reason)

/-- The bytes of a whole reply, in order. -/
def replyBytes (o : ScrimOp) : List Byte :=
  (List.range o.pkts.length).flatMap (fun i => ((o.reply.find? (fun r => r.1 == i)).map (·.2)).getD [])

/-- GET_REPLY (R258): LEN bytes for each packet of the GET. -/
def getReplyState (p : Packet) (s : State) : State :=
  match acceptScrim s p 0x3 with
  | (s, none) => s
  | (s, some (h, d)) => match answered s h with
    | none => scrCount s 2 1
    | some (o, k) =>
      -- a reply that comes again before the decision is not one of SCR_LATE's (R269)
      if o.kind ≠ 2 ∨ d.length ≠ k.len ∨ k.acked then s
      else
        let n := { o with pkts := o.pkts.set h.pkt { k with acked := true }, reply := o.reply ++ [(h.pkt, d)] }
        if n.pkts.all (·.acked) then decideOp s o (.ok (replyBytes n)) else putOp s o n

/-- OPERATION_TIMEOUT (R258). -/
def operationTimeoutState (op : Nat) (s : State) : State :=
  match s.net.ops.find? (fun o => o.id == op && decide (o.limit ≤ s.plumb)) with
  | none => s
  | some o => decideOp (scrCount s 1 1) o .timeout

/-! The meanings of the rows. -/

/-- GET_REPLY (R258). A GET_REPLY for the device's own GET completes the operation when the whole reply has arrived. -/
def execGetReply (p : Packet) (s : State) : Host.Outcome State Fault Refusal :=
  .next (getReplyState p s)

/-- ACK (R258). A Scrim ACK acknowledges a packet and decides the operation OK when every packet is acknowledged. -/
def execAck (p : Packet) (s : State) : Host.Outcome State Fault Refusal :=
  .next (ackState p s)

/-- NACK (R258). A Scrim NACK decides its operation FAILED with the given reason. -/
def execNack (p : Packet) (s : State) : Host.Outcome State Fault Refusal :=
  .next (nackState p s)

/-- OPERATION_TIMEOUT (R258). An operation whose window ends undecided is decided TIMEOUT. -/
def execOperationTimeout (op : Nat) (s : State) : Host.Outcome State Fault Refusal :=
  .next (operationTimeoutState op s)

end Sys2Proof.Machine
end

