-- ==== Sys2Proof/Machine/Plumb.lean ====
section
/-! DEFINITION. Plumb time (chapter 12): the tick, SYNC exchanges, the state of the count,
launches and background windows. Time stamps are in units of 2^-16 ns, θ and δ in units of 2^-17 ns. -/

namespace Sys2Proof.Machine

/-! The state of the count (R304). -/

def plFree : Nat := 0
def plRoot : Nat := 1
def plAcquiring : Nat := 2
def plLocked : Nat := 3
def plHoldover : Nat := 4
def plUnlocked : Nat := 5

/-- STATE, DEPTH and PARENT of PLB_STATUS. -/
def plbState (s : State) : Nat := csrField s rPlbStatus 31 28
def plbDepth (s : State) : Nat := csrField s rPlbStatus 23 22
def plbParent (s : State) : Nat := csrField s rPlbStatus 11 0

def setPlbState (s : State) (v : Nat) : State := csrSetField s rPlbStatus 31 28 v

/-- HOLDOVER entered, and recorded (R304); the exchanges before it serve no more (DEDUCED 43). -/
def enterHoldover (s : State) : State :=
  let s := setPlbState { s with time := { s.time with holdover := s.plumb, exchanges := [] } } plHoldover
  snagRecord s (errRec (unitHub 0x415) 0x10 plHoldover 1 0)

/-- UNLOCKED entered, and recorded (R304). -/
def enterUnlocked (s : State) : State :=
  snagRecord (setPlbState { s with time := { s.time with slew := 0 } } plUnlocked) (errRec (unitHub 0x415) 0x10 plUnlocked 1 0)

/-! The tick (R298, R299, R303, R355). -/

/-- What one tick of slewing at 50 ppm removes: 6.5536 units of 2^-17 ns on average. -/
def slewStep (t : Nat) : Nat := (t + 1) * 65536 / 10000 - t * 65536 / 10000

/-- θ still to be removed after one tick. -/
def slewed (x : Int) (t : Nat) : Int := if 0 ≤ x then max 0 (x - slewStep t) else min 0 (x + slewStep t)

/-- Placed commands whose opcode is reserved, each refused where it may begin (R331); no row of the
table names them (DESIGN CHOICE 1). -/
def refuseReserved (s : State) : State :=
  (List.range 8).foldl (fun s q =>
    (queueAt s q).slots.foldl (fun s sl => hostRow s q sl.qseq (fun c => (opcodeInfo c.opcode).isNone) (fun _ _ => none)) s) s

/-- One tick: the count, and snag time with it, while the device is powered and out of reset. -/
def tick (s : State) : State :=
  if !s.boot.pwrgd || !s.boot.resetN then s
  else
    let s := markTimely (refuseReserved s)
    { s with plumb := (s.plumb + 1) % 2 ^ 64, snag := { s.snag with time := s.snag.time + 1 }
             time := { s.time with slew := slewed s.time.slew s.plumb } }

/-! SYNC packets (R302). -/

/-- The 64 bytes of a SYNC packet. -/
def syncBytes (kind flags xseq root depth t1 t2 t3 : Nat) : List Byte :=
  [byteOf kind, byteOf flags] ++ beBytes 2 xseq ++ beBytes 2 root ++ [byteOf depth, 0] ++ beBytes 10 t1 ++ beBytes 10 t2
    ++ beBytes 10 t3 ++ List.replicate 26 0

/-- This tick as a stamp; its fraction of a nanosecond is a free value. -/
def stampNow (s : State) : Nat × State :=
  let f := takeFree s
  (s.plumb * 65536 + f.1 % 65536, f.2)

/-- The root a device follows: itself, for the root. -/
def rootOf (s : State) : Nat := if plbState s = plRoot then ownId s else s.time.rootId

/-- SYNC_REQUEST (R302): `t2` is the port's stamp of its arrival. -/
def syncRequestState (p : Packet) (t2 : Int) (s : State) : State :=
  match acceptScrim s p 0x7 with
  | (s, none) => s
  | (s, some (h, b)) =>
    let kind := beAt b 0 1
    if (b.length = 64 ∧ kind = 2) ∨ shedLevel s = 5 then s
    else if b.length ≠ 64 ∨ kind ≠ 1 ∨ plbState s = plFree ∨ beAt b 4 2 % 4096 ≠ rootOf s ∨ beAt b 6 1 ≠ plbDepth s + 1
        ∨ 2 < beAt b 6 1 then scrCount s 6 1
    else if 0x1000 ≤ h.src ∨ !peerValid s h.src then s
    else
      let cs := s.time.children
      if !cs.any (fun c => c.dev == h.src) ∧ 64 ≤ cs.length then scrCount s 6 1
      else
        let cs := cs.filter (fun c => c.dev != h.src) ++ [{ dev := h.src, lastAt := s.plumb }]
        let t3 := stampNow { s with time := { s.time with children := cs } }
        let good := plbState s == plRoot || plbState s == plLocked
        sendAnswer t3.2 (originOf p h) 0x7 1 0 0 0
          (syncBytes 2 (boolNat good) (beAt b 2 2) (rootOf s) (plbDepth s) (beAt b 8 10) (t2 % 2 ^ 80).toNat t3.1)

/-- SEND_SYNC_REQUEST (R303): on the child's own tick of each 100 µs. -/
def sendSyncRequestState (s : State) : State :=
  let st := plbState s
  let sent : Bool := match s.time.request with
    | some (_, t) => t == s.plumb
    | none => false
  if st < 2 ∨ !released s ∨ shedLevel s = 5 ∨ ownId s = 0x8000 ∨ sent ∨ s.plumb % 100000 ≠ ownId s % 64 * 1000 then s
  else
    let parent := plbParent s
    let entry := peerEntry s parent
    match pickPort (usablePorts s (leAt entry 16 1)) 0 with
    | none => s
    | some port =>
      let t1 := stampNow s
      let x := (s.time.xseq + 1) % 65536
      let h : ScHdr :=
        { op := 0x7, flags := 1, src := ownId s, dst := parent, chan := 0, seq := 0, opid := 0, addr := 0, len := 64
          pkt := 0, npkt := 0, reason := 0, queue := 0 }
      let s := { t1.2 with time := { s.time with xseq := x, request := some (x, s.plumb) } }
      sendFrame s port (peerIp entry) (csrField s rScrUdp 15 4 * 16) (csrField s rScrUdp 31 16) 1
        (scrimPacket h (syncBytes 1 0 x s.time.rootId (plbDepth s) t1.1 0 0))

/-! What a RESPONSE does (R303, R304). -/

/-- The exchange of the smallest δ, the newest among equals. -/
def bestExchange (l : List Exchange) : Option Exchange :=
  l.foldl (fun b x => match b with
    | none => some x
    | some y => if x.delta < y.delta then some x else some y) none

/-- Ticks kept in the state moved with the count by the step of an acquisition, so that what they
time goes on (DEDUCED 44). -/
def shiftTicks (s : State) (d : Int) : State :=
  let f (t : Nat) : Nat := ((t : Int) + d).toNat
  let p := s.power
  { s with
    plumb := wrapInt 64 ((s.plumb : Int) + d)
    net := { s.net with
      ops := s.net.ops.map (fun o => { o with issued := f o.issued, limit := f o.limit, pkts := o.pkts.map (fun k => { k with sentAt := f k.sentAt }) })
      rx := s.net.rx.map (fun c => { c with lastAt := f c.lastAt }) }
    coll := { s.coll with running := s.coll.running.map (fun c => { c with lastAt := f c.lastAt }) }
    time := { s.time with children := s.time.children.map (fun c => { c with lastAt := f c.lastAt }), lastUsable := f s.time.lastUsable }
    power := { p with holdAt := p.holdAt.map f, dieStepAt := p.dieStepAt.map f, capBelow := p.capBelow.map f
                      dieCoolAt := p.dieCoolAt.map (·.map f), s4At := p.s4At.map f, pendSince := f p.pendSince } }

/-- The one step of an acquisition (R304): whole nanoseconds at once, the rest slewed. -/
def acquireStep (s : State) (theta : Int) : State :=
  let s := shiftTicks s (theta / 131072)
  { s with time := { s.time with stepped := true, slew := theta % 131072, exchanges := [] } }

/-- A usable exchange taken in: the filter, the registers, and the state it leads to. -/
def useExchange (s : State) (theta delta : Int) : State :=
  let ex := ({ theta := theta, delta := delta, at_ := s.plumb } : Exchange) :: s.time.exchanges.take 15
  match bestExchange ex with
  | none => s
  | some b =>
    -- an exchange that stays the best has been slewed away since it came
    let slew := if b = ex.headD b then b.theta else s.time.slew
    -- under LOCAL the trend steers the step, a free value within 100 ppm (in ppb)
    let f := if csrField s rPlbStatus 27 27 = 0 then takeFree s else (0, s)
    let trend : Int := if csrField s rPlbStatus 27 27 = 0 then (f.1 % 200001 : Nat) - (100000 : Int) else 0
    let s := { f.2 with time := { f.2.time with exchanges := ex, lastUsable := s.plumb, trend := trend } }
    let s := csrPut (csrPut s rPlbOffset (wrapInt 32 (b.theta / 512))) rPlbDelay (wrapInt 32 (b.delta / 512))
    let go (t : State) : State := { t with time := { t.time with slew := slew } }
    let st := plbState s
    if st = plAcquiring then
      if !s.time.stepped then (if ex.length = 16 then acquireStep s b.theta else s)
      else if b.theta.natAbs ≤ 262144 then go (setPlbState s plLocked) else go s
    else if st = plLocked then go s
    else if st = plHoldover then
      if 131072000 < b.theta.natAbs then enterUnlocked s
      else if s.time.sourceOk then go (setPlbState s plLocked) else s
    else s

/-- SYNC_RESPONSE (R302, R303): `t4` is the port's stamp of its arrival. -/
def syncResponseState (p : Packet) (t4 : Int) (s : State) : State :=
  match acceptScrim s p 0x7 with
  | (s, none) => s
  | (s, some (h, b)) =>
    if b.length ≠ 64 ∨ beAt b 0 1 ≠ 2 then s
    else if plbState s < 2 ∨ h.src ≠ plbParent s ∨ (s.time.rootSeen ∧ beAt b 4 2 % 4096 ≠ s.time.rootId)
        ∨ beAt b 6 1 + 1 ≠ plbDepth s then scrCount s 6 1
    else match s.time.request with
      | none => s
      | some (x, at_) =>
        if x ≠ beAt b 2 2 then s
        else
          let s := { s with time := { s.time with request := none, rootId := beAt b 4 2 % 4096, rootSeen := true } }
          let t1 : Int := (beAt b 8 10 : Nat)
          let t2 : Int := (beAt b 18 10 : Nat)
          let t3 : Int := (beAt b 28 10 : Nat)
          if beAt b 1 1 % 2 = 0 ∨ at_ + 100000 < s.plumb ∨ plbState s = plUnlocked then s
          else useExchange s ((t2 - t1) - (t4 - t3)) ((t4 - t1) - (t3 - t2))

/-- CHILD_ENTRY_EXPIRY (R302). -/
def childEntryExpiryState (dev : Nat) (s : State) : State :=
  { s with time := { s.time with children := s.time.children.filter (fun c => !(c.dev == dev && decide (c.lastAt + 10 ^ 7 ≤ s.plumb))) } }

/-- HOLDOVER_ENTRY (R304). -/
def holdoverEntryState (s : State) : State :=
  if plbState s = plLocked ∧ (s.time.lastUsable + 10 ^ 6 ≤ s.plumb ∨ !s.time.sourceOk) then enterHoldover s else s

/-- UNLOCKED_ENTRY (R304). -/
def unlockedEntryState (s : State) : State :=
  if plbState s = plHoldover ∧ s.time.holdover + 10 ^ 10 ≤ s.plumb then enterUnlocked s else s

/-! PLUMB_SYNC_CFG (R306). -/

/-- Whether a launch count or a LAUNCH_AT is pending. -/
def launchPending (s : State) : Bool :=
  s.queues.any (fun x => x.slots.any (fun sl => !sl.begun && (cmdOf 0 sl).launched)
    || s.flights.any (fun f => f.cmd.opcode == 0x0802 && decide (s.plumb < leAt f.cmd.body 0 8)))

/-- Whether a Stencil channel waits in WAITP. -/
def waitpPending (s : State) : Bool :=
  let w (b : Block) : Bool := b.chans.any (fun c => c.state == chWaiting && c.wait == 1)
  w s.hubBlock || s.blocks.any (fun p => w p.2)

/-- The checks of R306, in its order. -/
def syncCfgCheck (s : State) (b : List Byte) : Option Nat :=
  let mode := leAt b 0 1
  let src := leAt b 1 1
  let port := leAt b 2 1
  let parent := leAt b 4 2
  let depth := leAt b 6 1
  let st := plbState s
  if mode = 0 ∨ 3 < mode ∨ 1 < src ∨ (src = 1 ∧ 5 < port) ∨ (src = 0 ∧ port ≠ 0) ∨ !zeroAt b 3 1 ∨ 4096 ≤ parent ∨ !zeroAt b 7 9
      ∨ (if mode = 3 then depth ≠ 0 else depth = 0 ∨ 2 < depth ∨ !peerValid s parent) then some stBadParam
  else if src = 1 ∧ !(portUsable s port ∧ csrField s (rScrPortStatus + 0x10 * port) 24 24 = 1) then some stSourceNotReady
  else if mode ≠ 2 ∧ (launchPending s ∨ waitpPending s ∨ stepState s ≠ 0) then some stNotReady
  else if mode = 2 ∧ st ≠ plLocked ∧ st ≠ plHoldover then some stNotReady
  -- ROOT is an event of FREE alone (R304); its answer elsewhere is the model's (DESIGN CHOICE 93)
  else if mode = 3 ∧ st ≠ plFree then some stNotReady
  else none

/-- SOURCE and PORT taken over; the selected source is present (R300). -/
def selectSource (s : State) (b : List Byte) : State :=
  csrSetField (csrSetField { s with time := { s.time with sourceOk := true } } rPlbStatus 27 27 (leAt b 1 1)) rPlbStatus 26 24 (leAt b 2 1)

/-- The root a device follows once it has a parent: the parent, at depth 1; at depth 2 the spec names
none before an exchange, so it is a free value until the parent's first RESPONSE names it (DESIGN CHOICE 42). -/
def followRoot (s : State) (depth parent : Nat) : State :=
  let f := takeFree s
  if depth = 1 then { s with time := { s.time with rootId := parent, rootSeen := true } }
  else { f.2 with time := { f.2.time with rootId := f.1 % 4096, rootSeen := false } }

/-- ACQUIRE (R304). -/
def bodyAcquire (c : Cmd) (s : State) : Option State :=
  let b := c.body
  refuseOr s c (syncCfgCheck s b) (
    let s := followRoot (selectSource s b) (leAt b 6 1) (leAt b 4 2)
    let s := csrSetField (csrSetField (setPlbState s plAcquiring) rPlbStatus 23 22 (leAt b 6 1)) rPlbStatus 11 0 (leAt b 4 2)
    finish { s with time := { s.time with exchanges := [], request := none, stepped := false, slew := 0 } } c stOk)

/-- REPARENT (R306): a new parent's exchanges start afresh; the depth stays, and at depth 2 the root. -/
def bodyReparent (c : Cmd) (s : State) : Option State :=
  let b := c.body
  refuseOr s c (syncCfgCheck s b) (
    let s := if plbDepth s = 1 then followRoot (selectSource s b) 1 (leAt b 4 2) else selectSource s b
    let s := csrSetField s rPlbStatus 11 0 (leAt b 4 2)
    finish { s with time := { s.time with exchanges := [], request := none } } c stOk)

/-- ROOT (R304). -/
def bodyRoot (c : Cmd) (s : State) : Option State :=
  refuseOr s c (syncCfgCheck s c.body) (
    let s := csrSetField (csrSetField (setPlbState (selectSource s c.body) plRoot) rPlbStatus 23 22 0) rPlbStatus 11 0 0
    finish { s with time := { s.time with exchanges := [], request := none, slew := 0 } } c stOk)

/-- ACQUIRE (R304); it also answers a reserved MODE (R306). -/
def acquireState (q qseq : Nat) (s : State) : State :=
  hostRow s q qseq (fun c => c.opcode == 0x0801 && leAt c.body 0 1 != 2 && leAt c.body 0 1 != 3) bodyAcquire

/-- REPARENT (R306). -/
def reparentState (q qseq : Nat) (s : State) : State :=
  hostRow s q qseq (fun c => c.opcode == 0x0801 && leAt c.body 0 1 == 2) bodyReparent

/-- ROOT (R304). -/
def rootState (q qseq : Nat) (s : State) : State :=
  hostRow s q qseq (fun c => c.opcode == 0x0801 && leAt c.body 0 1 == 3) bodyRoot

/-! Launches (R308). -/

/-- LAUNCH (R308): a command at the head of its queue has its launch tick, or has come to the head
past it and is late. A count too far ahead is refused as the command begins. It begins in the order of R33. -/
def launchState (q qseq : Nat) (s : State) : State :=
  let x := queueAt s q
  match slotOf x qseq with
  | none => s
  | some sl =>
    let c := cmdOf q sl
    let far := decide (c.arrived + 2 ^ 36 < c.launch)
    if 8 ≤ q ∨ sl.begun ∨ sl.launched ∨ !c.launched ∨ !(released s || inSafe s) ∨ launchHeld s q ∨ !mayBegin s c
        ∨ (s.plumb < c.launch ∧ !far) then s
    else
      let late := decide (c.launch < s.plumb) && !sl.timely
      let s := queuePut s q { x with slots := x.slots.map (fun t => if t.qseq = qseq then { t with launched := true, late := late } else t) }
      if late then csrBump s rPlbLateLaunch 31 0 1 else s

/-- LAUNCH_AT (R308). -/
def bodyLaunchAt (c : Cmd) (s : State) : Option State :=
  let t := leAt c.body 0 8
  let mask := leAt c.body 8 1
  if !zeroAt c.body 9 7 ∨ c.arrived + 2 ^ 36 < t then some (finish s c stBadParam)
  else if t ≤ s.plumb then some (finish s c stOk)
  else
    let hold (q : Nat) (x : Queue) : Queue :=
      if !bitOf mask q then x
      else match x.launchHold with
        | some (u, _) => if u < t then { x with launchHold := some (t, c.op) } else x
        | none => { x with launchHold := some (t, c.op) }
    some (fly { s with queues := s.queues.mapIdx hold } c)

/-- LAUNCH_AT (R308). -/
def launchAtState (q qseq : Nat) (s : State) : State := hostRow s q qseq (fun c => c.opcode == 0x0802) bodyLaunchAt

/-- LAUNCH_AT_DUE (R308): it completes on its tick, and the queues it held go on. -/
def launchAtDueState (op : Nat) (s : State) : State :=
  match s.flights.find? (fun f => f.cmd.op == op && f.cmd.opcode == 0x0802) with
  | none => s
  | some f =>
    if s.plumb < leAt f.cmd.body 0 8 then s
    else
      let free (x : Queue) : Queue := match x.launchHold with
        | some (t, _) => if t ≤ s.plumb then { x with launchHold := none } else x
        | none => x
      finish { s with queues := s.queues.map free } f.cmd stOk

/-- PLUMB_READ (R309, R335). -/
def plumbReadState (q qseq : Nat) (s : State) : State :=
  hostRow s q qseq (fun c => c.opcode == 0x0803) (fun c s =>
    some (complete s c stOk 0 (leBytes 4 (csrValue s rPlbStatus) ++ leBytes 4 (csrGet s rPlbOffset))))

/-! Background windows (R307, R310). -/

/-- WINDOW_START (R310): the registers as they stand on the start tick fix the window. Of one tick it comes after
the shed levels, the seams and the window ends (R33). -/
def windowStartState (w : Nat) (s : State) : State :=
  let n := 256 * fieldOf (csrGet s (rPlbWinCtrl + 8 * w)) 23 0
  if !winStarts s w ∨ shedDue s ∨ launchAhead s 8 ∨ winEndDue s then s
  else pumpOps <| mirrorPump <| telFlush { s with time := { s.time with winOpen := s.time.winOpen ++ [4 * (s.plumb + n) + w] } }

/-- WINDOW_END (R310): from the end tick on the traffic is class 5 again; a shed level and a seam of the tick come
first (R33). -/
def windowEndState (w : Nat) (s : State) : State :=
  if shedDue s ∨ launchAhead s 8 then s
  else { s with time := { s.time with winOpen := s.time.winOpen.filter (fun x => !(x % 4 == w && decide (x / 4 ≤ s.plumb))) } }

/-! Links (R245, R270, R300, R349). -/

/-- The plumb clock's recovered source lost on a port (R300): it falls back to LOCAL, and LOCKED becomes
HOLDOVER. -/
def sourceLost (s : State) (port : Nat) : State :=
  if csrField s rPlbStatus 27 27 = 1 ∧ csrField s rPlbStatus 26 24 = port then
    let s := csrSetField { s with time := { s.time with sourceOk := false } } rPlbStatus 27 27 0
    if plbState s = plLocked then enterHoldover s else s
  else s

/-- A port's link down, by whatever takes it down (R270, R300): a transition from up is counted, no lane is
locked, and a plumb clock recovered from it falls back. -/
def linkDown (s : State) (port : Nat) : State :=
  let a := rScrPortStatus + 0x10 * port
  if 7 ≤ port ∨ csrField s a 31 31 = 0 then s
  else sourceLost (csrBump (csrSetField (csrSetField s a 31 31 0) a 27 24 0) a 15 0 1) port

/-- The lanes of a port: a data port runs only as one port of four (R245). -/
def portLanes (port : Nat) : Nat := if port = 6 then 1 else 15

/-- PORT_UP (R270): the lanes of a port the configuration describes that are locked; in the safe
state the service port only (R401). With all its lanes it comes up, unless it is retired (R246); with fewer it is
no port that runs (R245), and a link that was up goes down. -/
def portUpState (port lanes : Nat) (s : State) : State :=
  let a := rScrPortStatus + 0x10 * port
  let there := (released s && (nthD s.net.ports port port0).present) || (inSafe s && port == 6)
  let locked := lanes % 16 &&& portLanes port
  if 7 ≤ port ∨ !there ∨ s.power.gatesOff.contains (unitPort port) then s
  else if locked = portLanes port then
    let s := csrSetField s a 27 24 locked
    if csrField s a 30 30 = 1 then s else csrSetField s a 31 31 1
  else
    let s := csrSetField (linkDown s port) a 27 24 locked
    if bitOf locked 0 then s else sourceLost s port

/-- PORT_DOWN (R270, R300, R349): the transition is counted and is one event on the port; a plumb
clock recovered from it falls back to LOCAL. -/
def portDownState (port : Nat) (s : State) : State :=
  if 7 ≤ port ∨ csrField s (rScrPortStatus + 0x10 * port) 31 31 = 0 then s
  else
    let s := linkDown s port
    if inSafe s then s else decideEvent s (errRec (unitPort port) 0x0A 0 1 0) false

/-! The meanings of the rows. -/

/-- ACQUIRE (R304). PLUMB_SYNC_CFG mode ACQUIRE sets the parent, source and depth and enters ACQUIRING. -/
def execAcquire (q qseq : Nat) (s : State) : Host.Outcome State Fault Refusal :=
  .next (acquireState q qseq s)

/-- REPARENT (R306). PLUMB_SYNC_CFG mode REPARENT changes parent, source and port without stepping the count. -/
def execReparent (q qseq : Nat) (s : State) : Host.Outcome State Fault Refusal :=
  .next (reparentState q qseq s)

/-- ROOT (R304). PLUMB_SYNC_CFG mode ROOT makes the device the plumb tree's root. -/
def execRoot (q qseq : Nat) (s : State) : Host.Outcome State Fault Refusal :=
  .next (rootState q qseq s)

/-- LAUNCH_AT (R308). Holds the head of each named queue until a given plumb tick. -/
def execLaunchAt (q qseq : Nat) (s : State) : Host.Outcome State Fault Refusal :=
  .next (launchAtState q qseq s)

/-- PLUMB_READ (R309). Returns the plumb count on the tick of execution, with PLB_STATUS and PLB_OFFSET. -/
def execPlumbRead (q qseq : Nat) (s : State) : Host.Outcome State Fault Refusal :=
  .next (plumbReadState q qseq s)

/-- SYNC_REQUEST (R302). A parent stamps a child's SYNC REQUEST, takes or keeps a child-table entry and answers with a RESPONSE. -/
def execSyncRequest (p : Packet) (t2 : Int) (s : State) : Host.Outcome State Fault Refusal :=
  .next (syncRequestState p t2 s)

/-- SYNC_RESPONSE (R303). A child stamps the RESPONSE, computes offset and delay, and slews or steps its count by the filtered offset. -/
def execSyncResponse (p : Packet) (t4 : Int) (s : State) : Host.Outcome State Fault Refusal :=
  .next (syncResponseState p t4 s)

/-- PORT_UP (R270). A port's link comes up and it becomes usable for PORTS choices. -/
def execPortUp (port lanes : Nat) (s : State) : Host.Outcome State Fault Refusal :=
  .next (portUpState port lanes s)

/-- PORT_DOWN (R270). A port's link goes down, drops out of every PORTS choice, and a plumb source on it falls back to LOCAL. -/
def execPortDown (port : Nat) (s : State) : Host.Outcome State Fault Refusal :=
  .next (portDownState port s)

/-- SEND_SYNC_REQUEST (R303). A child sends a SYNC REQUEST to its parent on its staggered tick every 100 µs. -/
def execSendSyncRequest (s : State) : Host.Outcome State Fault Refusal :=
  .next (sendSyncRequestState s)

/-- CHILD_ENTRY_EXPIRY (R302). A child-table entry whose device sent no REQUEST for 10 ms is freed. -/
def execChildEntryExpiry (dev : Nat) (s : State) : Host.Outcome State Fault Refusal :=
  .next (childEntryExpiryState dev s)

/-- HOLDOVER_ENTRY (R304). No usable exchange for 1 ms, or loss of the frequency source, moves LOCKED to HOLDOVER. -/
def execHoldoverEntry (s : State) : Host.Outcome State Fault Refusal :=
  .next (holdoverEntryState s)

/-- UNLOCKED_ENTRY (R304). HOLDOVER lasting 10 s moves the state to UNLOCKED and writes a record. -/
def execUnlockedEntry (s : State) : Host.Outcome State Fault Refusal :=
  .next (unlockedEntryState s)

/-- LAUNCH (R308). A command with a header launch count begins on its tick, or late if it was passed. -/
def execLaunch (q qseq : Nat) (s : State) : Host.Outcome State Fault Refusal :=
  .next (launchState q qseq s)

/-- LAUNCH_AT_DUE (R308). LAUNCH_AT completes on its tick and releases the held queues. -/
def execLaunchAtDue (op : Nat) (s : State) : Host.Outcome State Fault Refusal :=
  .next (launchAtDueState op s)

/-- WINDOW_START (R310). A background window starts and its traffic is arbitrated as class 3. -/
def execWindowStart (w : Nat) (s : State) : Host.Outcome State Fault Refusal :=
  .next (windowStartState w s)

/-- WINDOW_END (R310). A background window ends and its traffic returns to class 5. -/
def execWindowEnd (w : Nat) (s : State) : Host.Outcome State Fault Refusal :=
  .next (windowEndState w s)

end Sys2Proof.Machine
end

