-- ==== Sys2Proof/Machine/Power.lean ====
section
/-! DEFINITION. Supply sag and the shed order, rails and the regulator (R370–R381), and the clock
steps that power and heat ask for (R390). -/

namespace Sys2Proof.Machine

/-! Array clocks (R390). -/

/-- STEP of CLK_ARRAY of a die: the lowest step any request asks for. -/
def clockStep (s : State) (d : Nat) : State :=
  let a := rClkArray + 4 * d
  let w := csrGet s a
  let own := nthD s.power.dieStep d 0
  csrSetField s a 1 0 (max own (boolNat (bitOf w 31 || bitOf w 29 || bitOf w 28)))

/-- A request bit of every die's clock set or cleared: 31 SHED, 28 CAP. -/
def clockAsk (s : State) (bit v : Nat) : State :=
  (List.range 4).foldl (fun s d => clockStep (csrSetField s (rClkArray + 4 * d) bit bit v) d) s

/-! Records (R380). The severity of these records is the model's (DESIGN CHOICE 47). -/

def setpoint (s : State) : Nat := csrField s rPwrStatus 9 0

/-- A record of check 0x0F: cause, whether a return, level or step, sensor and reading. -/
def powerRecord (s : State) (unit cause : Nat) (ret : Bool) (level sensor : Nat) (reading : Int) (severity : Nat) : State :=
  snagRecord s { errRec unit 0x0F 0 severity 0 with
    syndrome := [byteOf cause, byteOf (128 * boolNat ret + level)] ++ leBytes 2 sensor ++ leBytes 2 (wrapInt 16 reading)
      ++ leBytes 2 (setpoint s) ++ leBytes 2 s.power.status }

/-! Sag (R373, R374, R376). -/

/-- VOUT_UV_WARN_LIMIT, which the power controller writes to the regulator with every setpoint (R372): 93 % of
the setpoint, in hundredths of a millivolt. Below it the regulator stage asserts DROOP_N. -/
def uvWarnLimit (s : State) : Nat := 93 * setpoint s

/-- The setpoint sag is measured against: the lower of two while a move settles, which takes at most
100 µs (R371, R373). -/
def sagSetpoint (s : State) : Nat :=
  if s.power.oldSetpoint ≠ 0 ∧ s.plumb < s.power.movedAt + 100000 then min s.power.oldSetpoint (setpoint s) else setpoint s

/-- Threshold of a level in percent (R375). -/
def sagThreshold (n : Nat) : Nat := nthD [0, 3, 5, 7, 9, 12] n 0

/-- Whether a reading lies beyond a level's threshold: sag above it. -/
def sagBeyond (s : State) (n mv : Nat) : Bool := decide ((sagThreshold n : Int) * sagSetpoint s < ((sagSetpoint s : Int) - mv) * 100)

/-- The deepest level a reading lies beyond. -/
def sagLevel (s : State) (mv : Nat) : Nat := ((List.range 6).filter (fun n => decide (0 < n) && sagBeyond s n mv)).foldl max 0

/-- Whether a reading lies below the return limit of level `n`: its threshold minus 1 %. -/
def sagReturned (s : State) (n mv : Nat) : Bool :=
  decide (((sagSetpoint s : Int) - mv) * 100 < ((sagThreshold n : Int) - 1) * sagSetpoint s) && (n != 3 || s.power.droopN)

/-- LEVEL of PWR_STATUS. -/
def levelOfPower (s : State) : Nat := csrField s rPwrStatus 31 29

/-- The return hold begun, kept or given up, by the last reading (R376). -/
def noteHold (s : State) : State :=
  let n := levelOfPower s
  if 1 ≤ n ∧ n ≤ 4 ∧ sagReturned s n (csrField s rPwrVolt 15 0) then
    (if s.power.holdAt.isSome then s else { s with power := { s.power with holdAt := some s.plumb } })
  else { s with power := { s.power with holdAt := none, pendLeave := none } }

/-! Entering levels (R374, R375, R378). -/

/-- The counter of entries into a level. -/
def countShed (s : State) (n : Nat) : State := if n = 0 ∨ 4 < n then s else csrBump s rPwrShedCount (39 - 8 * n) (32 - 8 * n) 1

/-- Levels `from + 1` to `n` entered on this tick. `warning` says that a droop warning and not a
sample brought them: S1 and S2 then wait for the plumb-aligned point even where S3 does not
(DEDUCED 40). -/
def enterLevels (s : State) (unit cause n sensor : Nat) (reading : Int) (warning : Bool) : State :=
  let old := levelOfPower s
  if n ≤ old then s
  else
    let new := (List.range (n + 1)).filter (fun k => decide (old < k))
    let s := csrSetField s rPwrStatus 31 29 n
    let s := new.foldl (fun s k => powerRecord (countShed s k) unit cause false k sensor reading (if k = 5 then 3 else 0)) s
    let wait := if warning || decide (n < 3) then new.filter (fun k => decide (k < 3)) else []
    let s := { s with power := { s.power with
      pendEnter := s.power.pendEnter ++ wait, pendLeave := none, holdAt := none
      pendSince := if wait.isEmpty then s.power.pendSince else s.plumb
      s4At := if 4 ≤ n && s.power.s4At.isNone then some s.plumb else s.power.s4At } }
    let s := if 3 ≤ n then clockAsk s 31 1 else s
    if 4 ≤ n then holdClocks s else s

/-! S5 (R379). -/

/-- The open entry's header saved: in the local ring, and at class 0 in the buddy's copy. -/
def saveHeader (s : State) : State :=
  if (stepPhase s ≠ sOpen ∧ stepPhase s ≠ sDeciding) ∨ s.job.ledger.len = 0 then s
  else
    let i := csrField s rHubLedgerCtrl 15 0
    let e := (ledgerBytes s 0 false).take 128
    copyLedger (writeMem s (s.job.ledger.base + 1024 * i) e).1 i e 0

/-- SHED for every placed command that has not begun, with the state its waiting held given up. -/
def shedPlaced (s : State) : State :=
  let s := { s with held := [], topcoat := { s.topcoat with waiting := [] } }
  (List.range 8).foldl (fun s q =>
    ((queueAt s q).slots.filter (fun sl => !sl.begun)).foldl (fun s sl => finish (markBegun s q sl.qseq) (cmdOf q sl) stShed) s) s

/-- S5 entered: what is not yet in force of the levels above it comes into force with it, the header
is saved, placed commands end with SHED and begun ones with ABORTED_FAULT. -/
def enterS5 (s : State) (unit cause sensor : Nat) (reading : Int) : State :=
  if levelOfPower s = 5 then s
  else
    let s := csrSetField s rPwrStatus 31 29 5
    let s := powerRecord s unit cause false 5 sensor reading 3
    let s := { s with power := { s.power with
      pendEnter := [], pendLeave := none, holdAt := none, s5At := some s.plumb, s5Cause := cause
      s4At := if s.power.s4At.isNone then some s.plumb else s.power.s4At } }
    abortOpen (shedPlaced (saveHeader (holdClocks (clockAsk s 31 1))))

/-- Whether the supply is watched: powered, out of reset, past fuse load, and not in the safe state. -/
def watched (s : State) : Bool := s.boot.pwrgd && s.boot.resetN && s.boot.loaded && !inSafe s

/-- SAG_SAMPLE (R374, R375): `mv` is the lowest reading. A level is entered when this sample and the
one before lie beyond its threshold. -/
def sagSampleState (mv : Nat) (s : State) : State :=
  let sp := sagSetpoint s
  if !watched s ∨ sp = 0 then s
  else
    let now := sagLevel s mv
    let both := min now s.power.lastSag.toNat
    let sag := if mv < sp then (sp - mv) * 1000 / sp else 0
    let s := csrSetField (csrSetField s rPwrVolt 31 16 (min 0xFFFF (max sag (csrField s rPwrVolt 31 16)))) rPwrVolt 15 0 mv
    let s := { s with power := { s.power with lastSag := now } }
    let s := if both = 5 then enterS5 (enterLevels s (unitPackage 0) 1 4 0 mv false) (unitPackage 0) 1 0 mv
      else enterLevels s (unitPackage 0) 1 both 0 mv false
    noteHold s

/-- DROOP_N (R374): S3 on its fall at the ball. -/
def droopNState (s : State) : State :=
  let s := { s with power := { s.power with droopN := false } }
  if !watched s then s
  else noteHold (enterLevels (csrSetField s rPwrStatus 28 28 1) (unitPackage 0) 2 3 0 (csrField s rPwrVolt 15 0) true)

/-- DROOP_N_DEASSERTED (R376). -/
def droopNDeassertedState (s : State) : State :=
  noteHold (csrSetField { s with power := { s.power with droopN := true } } rPwrStatus 28 28 0)

/-- DROOP_COMPARATOR (R374): a compute die's comparator crosses −7 %. -/
def droopComparatorState (die : Nat) (s : State) : State :=
  if !watched s ∨ 4 < die then s
  else noteHold (enterLevels s (unitPackage 0) 2 3 die (csrField s rPwrVolt 15 0) true)

/-! Returning (R376, R378). -/

/-- Wait clocks of a block moved on by the time S4 stood (R378). -/
def waitShift (s4 now : Nat) (b : Block) : Block :=
  { b with chans := b.chans.map (fun c =>
      if c.state = chWaiting ∧ (c.wait = 2 ∨ c.wait = 3) then { c with entry := c.entry + (now - max s4 c.entry) } else c) }

/-- S4 left: stopped clocks go on, and what waited to issue goes on. -/
def leaveS4 (s : State) : State :=
  let f := waitShift (s.power.s4At.getD s.plumb) s.plumb
  let s := { s with blocks := s.blocks.map (fun p => (p.1, f p.2)), hubBlock := f s.hubBlock, power := { s.power with s4At := none } }
  permuteAdvance (collAdvanceAll (holdClocks s))

/-- HELD channels of a block go on (R223). -/
def releaseHeld (b : Block) : Block :=
  { b with chans := b.chans.map (fun c => if c.state = chHeld then { c with state := chRunning } else c) }

/-- S2 left: HELD channels and the mirror go on (R223, R362). -/
def leaveS2 (s : State) : State :=
  mirrorPump { s with blocks := s.blocks.map (fun p => (p.1, releaseHeld p.2)), hubBlock := releaseHeld s.hubBlock }

/-- One level left, recorded, and the next return's hold begun where the sag allows it. -/
def leaveLevel (s : State) (n : Nat) : State :=
  let s := csrSetField s rPwrStatus 31 29 (n - 1)
  let s := { s with power := { s.power with holdAt := none, pendLeave := none, pendEnter := s.power.pendEnter.filter (fun k => decide (k < n)) } }
  let s := powerRecord s (unitPackage 0) 1 true (n - 1) 0 (csrField s rPwrVolt 15 0) 0
  let s := match n with
    | 4 => pumpOps (topResume (leaveS4 s))
    | 3 => clockAsk s 31 0
    | 2 => pumpOps (leaveS2 s)
    | _ => s
  noteHold s

/-- SHED_RETURN (R376): the hold of 1 ms is complete; S1 and S2 are left at the next plumb-aligned
point. -/
def shedReturnState (s : State) : State :=
  let n := levelOfPower s
  match s.power.holdAt with
  | none => s
  | some h =>
    if n = 0 ∨ 5 ≤ n ∨ s.plumb < h + 10 ^ 6 ∨ s.power.pendLeave.isSome then s
    else if 3 ≤ n then leaveLevel s n
    else { s with power := { s.power with pendLeave := some n, pendSince := s.plumb } }

/-- PLUMB_ALIGNED_POINT (R307, R375, R376). -/
def plumbAlignedPointState (s : State) : State :=
  if s.plumb % 4096 ≠ 0 then s
  else
    let s := { s with power := { s.power with pendEnter := [] } }
    match s.power.pendLeave with
    | none => s
    | some n => leaveLevel s n

/-- S5_QUIESCE_END (R379): what has come since is shed, open operations are abandoned, FAULT_N falls,
READY falls and every port goes down; the record is in flash before that. -/
def s5QuiesceEndState (s : State) : State :=
  match s.power.s5At with
  | none => s
  | some t =>
    if s.plumb < t + 200000 then s
    else
      let s := abortOpen (shedPlaced s)
      let s := snagRecord s (errRec (unitPackage 0) 0x0F 5 3 0)
      let s := (List.range 7).foldl linkDown s
      { s with net := { s.net with ops := [] }, power := { s.power with s5At := none }, boot := { s.boot with faultN := false, ready := false } }

/-! Rails and the regulator (R370, R371, R373, R416). -/

/-- Nominal voltages in mV of the fixed rails, by their place in the table of R416. -/
def railNominal : List Nat := [0, 1050, 750, 1800, 750, 1200, 500, 900, 1800]

/-- RAIL_OUT_OF_WINDOW (R370): `below` says that it has been below −10 % for 1 µs. -/
def railOutOfWindowState (rail mv : Nat) (below : Bool) (s : State) : State :=
  let n := nthD railNominal rail 0
  if !watched s ∨ n = 0 ∨ (95 * n ≤ 100 * mv ∧ 100 * mv ≤ 105 * n) then s
  else
    let s := powerRecord s (unitPackage 0) 7 false (levelOfPower s) rail mv 1
    if below ∧ 100 * mv < 90 * n then enterS5 s (unitPackage 0) 7 rail mv else s

/-- REGULATOR_POLL (R371): a reading, or a failed transaction; the third in a row sets REG_LOST, which
a reading clears again (DEDUCED 48). -/
def regulatorPollState (reply : Option RegPoll) (s : State) : State :=
  if !watched s then s
  else match reply with
    | some r =>
      csrSetField (csrPut { s with power := { s.power with polls := 0, temp := r.temp, status := r.status % 65536 } } rPwrReg (r.iout % 65536 * 65536 + r.vout % 65536))
        rPwrStatus 27 27 0
    | none =>
      let k := s.power.polls + 1
      let s := { s with power := { s.power with polls := k } }
      if k = 3 then powerRecord (csrSetField s rPwrStatus 27 27 1) (unitHub 0x414) 8 false (levelOfPower s) 0 0 1 else s

/-- The setpoint moved; sag is measured against the lower one while it settles. -/
def moveSetpoint (s : State) (v : Nat) : State :=
  csrSetField { s with power := { s.power with oldSetpoint := setpoint s, movedAt := s.plumb } } rPwrStatus 9 0 v

/-- Whether a thermal step is in force on any die. -/
def thermalStep (s : State) : Bool := s.power.dieStep.any (· != 0) || (List.range 4).any (fun d => csrField s (rClkArray + 4 * d) 29 29 == 1)

/-- AVS_SETPOINT_MOVE (R373): firmware's choice `want`, taken at most 5 mV at a time and once in
1 ms. -/
def avsSetpointMoveState (want : Nat) (s : State) : State :=
  let sp := setpoint s
  if !released s ∨ csrField s rPwrStatus 26 26 = 1 ∨ levelOfPower s ≠ 0 ∨ csrField s rPwrStatus 27 27 = 1 ∨ thermalStep s ∨ want < 600
      ∨ 850 < want ∨ want % 5 ≠ 0 ∨ want = sp ∨ (s.power.movedAt ≠ 0 ∧ s.plumb < s.power.movedAt + 10 ^ 6) then s
  else moveSetpoint s (if want < sp then max want (sp - 5) else min want (sp + 5))

/-- POWER_CAP (R373): the 10 ms average. -/
def powerCapState (watts : Nat) (s : State) : State :=
  if !released s then s
  else
    let s := csrSetField s rPwrPkg 15 0 watts
    let cap := csrField s rPwrPkg 31 16
    let on := csrField s rClkArray 28 28 == 1
    if cap = 0 then s
    else if cap < watts then
      let s := { s with power := { s.power with capBelow := none } }
      if on then s else powerRecord (clockAsk s 28 1) (unitPackage 0) 0xA false 1 0 0 0
    else if 100 * watts < 95 * cap then
      match s.power.capBelow with
      | none => { s with power := { s.power with capBelow := some s.plumb } }
      | some t => if on ∧ t + 10 ^ 7 ≤ s.plumb then powerRecord (clockAsk s 28 0) (unitPackage 0) 0xA true 0 0 0 0 else s
    else { s with power := { s.power with capBelow := none } }

/-- POWER_CFG (R373). A setpoint is frozen while REG_LOST stands (R371). -/
def bodyPowerCfg (c : Cmd) (s : State) : Option State :=
  let b := c.body
  let mode := leAt b 0 1
  let sp := leAt b 2 2
  let cap := leAt b 4 2
  if !betweenSteps s then some (finish s c stNotReady)
  else if mode = 0 ∨ 2 < mode ∨ !zeroAt b 1 1 ∨ !zeroAt b 6 10 ∨ (mode = 2 ∧ (sp < 600 ∨ 850 < sp ∨ sp % 5 ≠ 0))
      ∨ (cap ≠ 0 ∧ (cap < 800 ∨ 1900 < cap)) then some (finish s c stBadParam)
  else
    let s := csrSetField s rPwrStatus 26 26 (boolNat (mode == 2))
    let s := if mode = 2 ∧ csrField s rPwrStatus 27 27 = 0 ∧ setpoint s ≠ sp then moveSetpoint s sp else s
    let s := csrSetField { s with power := { s.power with capBelow := none } } rPwrPkg 31 16 cap
    -- without a cap nothing asks for its step
    some (finish (if cap = 0 then clockAsk s 28 0 else s) c stOk)

/-- POWER_CFG (R373). -/
def powerCfgState (q qseq : Nat) (s : State) : State := hostRow s q qseq (fun c => c.opcode == 0x0B04) bodyPowerCfg

/-! The meanings of the rows. -/

/-- POWER_CFG (R373). Sets AVS by firmware or a fixed VDD_CORE setpoint, and the package power cap. -/
def execPowerCfg (q qseq : Nat) (s : State) : Host.Outcome State Fault Refusal :=
  .next (powerCfgState q qseq s)

/-- PLUMB_ALIGNED_POINT (R307). At the first tick with count mod 4,096 = 0 after a trigger, S1 or S2 entry or return takes effect. -/
def execPlumbAlignedPoint (s : State) : Host.Outcome State Fault Refusal :=
  .next (plumbAlignedPointState s)

/-- SAG_SAMPLE (R374). VDD_CORE sensors are sampled every 10 ns and shed levels beyond their thresholds are entered. -/
def execSagSample (mv : Nat) (s : State) : Host.Outcome State Fault Refusal :=
  .next (sagSampleState mv s)

/-- S5_QUIESCE_END (R379). At the end of the S5 sequence, FAULT_N is asserted, READY deasserted and ports taken down. -/
def execS5QuiesceEnd (s : State) : Host.Outcome State Fault Refusal :=
  .next (s5QuiesceEndState s)

/-- DROOP_N (R374). DROOP_N falling at the ball enters S3. -/
def execDroopN (s : State) : Host.Outcome State Fault Refusal :=
  .next (droopNState s)

/-- SHED_RETURN (R376). After the sag stays below the threshold minus 1 % for 1 ms, the device returns one shed level. -/
def execShedReturn (s : State) : Host.Outcome State Fault Refusal :=
  .next (shedReturnState s)

/-- RAIL_OUT_OF_WINDOW (R370). A fixed rail outside its ±5 % window is recorded, and below −10 % for 1 µs enters S5. -/
def execRailOutOfWindow (rail : Nat) (mv : Nat) (below : Bool) (s : State) : Host.Outcome State Fault Refusal :=
  .next (railOutOfWindowState rail mv below s)

/-- REGULATOR_POLL (R371). Every 1 ms the power controller reads VOUT, IOUT and temperature, setting REG_LOST after three failures. -/
def execRegulatorPoll (reply : Option RegPoll) (s : State) : Host.Outcome State Fault Refusal :=
  .next (regulatorPollState reply s)

/-- AVS_SETPOINT_MOVE (R373). Under AVS by firmware, the setpoint moves by at most 5 mV per 1 ms. -/
def execAvsSetpointMove (want : Nat) (s : State) : Host.Outcome State Fault Refusal :=
  .next (avsSetpointMoveState want s)

/-- POWER_CAP (R373). The 10 ms package power average above or below the cap steps array clocks down or releases them. -/
def execPowerCap (watts : Nat) (s : State) : Host.Outcome State Fault Refusal :=
  .next (powerCapState watts s)

/-- DROOP_COMPARATOR (R374). An on-die droop comparator crossing −7 % enters S3 within 2 ns. -/
def execDroopComparator (die : Nat) (s : State) : Host.Outcome State Fault Refusal :=
  .next (droopComparatorState die s)

/-- DROOP_N_DEASSERTED (R376). DROOP_N rising at the ball allows the S3 return hold to start once the sag is below −6 %. -/
def execDroopNDeasserted (s : State) : Host.Outcome State Fault Refusal :=
  .next (droopNDeassertedState s)

end Sys2Proof.Machine
end

