-- ==== Sys2Proof/Machine/Boot.lean ====
section
/-! DEFINITION. Start-up (R391–R400, R405, R417): the pins, fuse load, the boot record and the images
in flash, the configuration, the Snag list read back, release, and the safe state (R401). -/

namespace Sys2Proof.Machine

/-! The pins (R391). -/

/-- The device in reset: only the flash, the fuses, the commands that wait, the pins and the TAP keep what they
hold; an instruction of boundary scan acts as BYPASS once RESET_N is high (R424). -/
def inReset (s : State) (pwrgd resetN : Bool) : State :=
  { State.reset with
      pending := s.pending, free := s.free
      power := { power0 with droopN := s.power.droopN }
      boot := { boot0 with
        pwrgd := pwrgd, resetN := resetN, flash := s.boot.flash, fuses := s.boot.fuses, repaired := s.boot.repaired
        tapIr := s.boot.tapIr, tapBypass := s.boot.tapBypass || (decide (s.boot.tapIr < 3) && resetN) } }

/-- POWER_GOOD (R391): both pins are high for the first tick; start-up begins with the count at 0. -/
def powerGoodState (s : State) : State := if s.boot.pwrgd && s.boot.resetN then s else inReset s true true

/-- RESET (R391): PWRGD (`true`) or RESET_N falls. -/
def resetState (pin : Bool) (s : State) : State := inReset s (s.boot.pwrgd && !pin) (s.boot.resetN && pin)

/-- Whether start-up runs or the device is up: both pins are high. -/
def powered (s : State) : Bool := s.boot.pwrgd && s.boot.resetN

/-- PHASE of BOOT_STATUS (R409). -/
def bootPhase (s : State) : Nat := csrField s rBootStatus 31 28
def setPhaseOf (s : State) (p : Nat) : State := csrSetField s rBootStatus 31 28 p

/-! Flash (R394, R395). -/

def flashRead (s : State) (a n : Nat) : List Byte := stGetMany 0xFF s.boot.flash a n

/-- First byte of a slot: 0 A, 1 B. -/
def slotBase (slot : Nat) : Nat := if slot = 0 then 0x0800000 else 0x2000000

/-- 24 MiB, the size of a slot. -/
def slotSize : Nat := 24 * 2 ^ 20

/-- The fields of a boot-record copy. -/
structure BootRec where
  seq  : Nat
  pref : Nat
  valid : Nat
deriving DecidableEq, Repr

/-- A copy whose CHECK passes. -/
def bootCopy (s : State) (copy : Nat) : Option BootRec :=
  let b := flashRead s (0x1000 * copy) 64
  if sliceB b 56 8 = (sha3_256 (b.take 56)).take 8 then
    some { seq := leAt b 0 8, pref := boolNat (leAt b 8 1 != 0), valid := leAt b 9 1 % 4 }
  else none

/-- The copy in force, and its record: the higher SEQ (R395). -/
def bootRecord (s : State) : Option (Nat × BootRec) :=
  match bootCopy s 0, bootCopy s 1 with
  | some a, some b => if a.seq < b.seq then some (1, b) else some (0, a)
  | some a, none => some (0, a)
  | none, some b => some (1, b)
  | none, none => none

/-- The record in force, where there is none a record of nothing (DEDUCED 50). -/
def bootRecOf (s : State) : Nat × BootRec := (bootRecord s).getD (1, { seq := 0, pref := 0, valid := 0 })

/-- A record written as the other copy, one SEQ higher (R395). -/
def writeBootRec (s : State) (pref valid : Nat) : State :=
  let r := bootRecOf s
  let b := leBytes 8 (r.2.seq + 1) ++ [byteOf pref, byteOf valid] ++ List.replicate 46 0
  flashWrite s (0x1000 * (1 - r.1)) (b ++ (sha3_256 b).take 8)

/-! Images (R396, R397). -/

/-- A component entry of TABLE: type, offset, length, digest, and whether its reserved bytes are 0. -/
structure ImageEntry where
  kind   : Nat
  off    : Nat
  len    : Nat
  digest : List Byte
  clean  : Bool
deriving DecidableEq, Repr

/-- The 16 entries of a manifest. -/
def imageEntries (m : List Byte) : List ImageEntry :=
  (List.range 16).map (fun i =>
    let b := sliceB m (2656 + 96 * i) 96
    { kind := leAt b 0 1, off := leAt b 4 4, len := leAt b 8 4, digest := sliceB b 32 64, clean := zeroAt b 1 3 && zeroAt b 12 20 })

/-- The one entry of a type. -/
def imageEntry (m : List Byte) (kind : Nat) : Option ImageEntry := (imageEntries m).find? (fun e => e.kind == kind)

/-- Condition 1 of R397. -/
def manifestOk (m : List Byte) : Bool :=
  let len := leAt m 12 4
  let used := (imageEntries m).filter (fun e => e.kind != 0)
  let one (k : Nat) : Bool := (used.filter (fun e => e.kind == k)).length == 1
  leAt m 0 4 == 0x4D495847 && leAt m 4 2 == 1 && decide (2 ≤ leAt m 6 1) && decide (leAt m 6 1 ≤ 16) && decide (leAt m 7 1 < 2)
    && decide (leAt m 8 1 ≤ 64) && zeroAt m 9 3 && zeroAt m 16 48 && decide (len ≤ slotSize)
    && one 1 && one 2 && one 3 && (imageEntries m).all (fun e => e.clean && decide (e.kind ≤ 3))
    && used.all (fun e => e.off % 4096 == 0 && decide (12288 ≤ e.off) && decide (e.off + e.len ≤ len))
    && used.all (fun e => used.all (fun f => e.kind == f.kind || decide (e.off + e.len ≤ f.off) || decide (f.off + f.len ≤ e.off)))

/-- MIN_SVN: consecutive 1 bits from bit 3264 upward (R393). -/
def minSvn (s : State) : Nat := ((List.range 64).takeWhile (fun i => bitOf (fuseBits s 3327 3264) i)).length

/-- The manifest of a slot. -/
def manifestOf (s : State) (slot : Nat) : List Byte := flashRead s (slotBase slot) 8819

/-- A slot verified (R397): 1, or the code of R409 of the first condition it fails. -/
def verifySlot (s : State) (slot : Nat) : Nat :=
  let m := manifestOf s slot
  let pk := sliceB m 64 2592
  if !manifestOk m then 2
  else if sha3_512 pk ≠ stGetMany 0 s.boot.fuses 448 64 then 3
  else if leAt m 8 1 < minSvn s then 4
  else if !Config.mldsaVerify pk (sha3_512 (sliceB m 0 4192)) (sliceB m 4192 4627) then 5
  else if !(imageEntries m).all (fun e => e.kind == 0 || sha3_512 (flashRead s (slotBase slot + e.off) e.len) == e.digest) then 6
  else 1

/-! The safe state (R401, R410). -/

/-- A record of check 0x15 (R410). -/
def bootEvent (s : State) (severity : Nat) : State :=
  let w := csrGet s rBootStatus
  snagRecord s { errRec (unitHub 0x411) 0x15 0 severity 0 with
    syndrome := [byteOf (fieldOf w 31 28), byteOf (fieldOf w 27 24), byteOf (fieldOf w 11 8), byteOf (fieldOf w 7 4)]
      ++ leBytes 4 (csrGet s rBootTime) ++ leBytes 4 (bootRecOf s).2.seq }

/-- Milliseconds since power good (R409). -/
def bootMillis (s : State) : Nat := s.plumb / 10 ^ 6

/-- SP_MAC (R393); its octets in the order of the fuse image (DEDUCED 52). -/
def spMac (s : State) : List Byte := stGetMany 0 s.boot.fuses 402 6

/-- The IPv6 link-local address a MAC gives by modified EUI-64. -/
def linkLocal (mac : List Byte) : List Byte :=
  [0xFE, 0x80, 0, 0, 0, 0, 0, 0] ++ [nthD mac 0 0 ^^^ 2] ++ sliceB mac 1 2 ++ [0xFF, 0xFE] ++ sliceB mac 3 3

/-- The registers the safe state keeps: the fuses' own, the start-up registers and SNG_STATUS. -/
def keptCsr (s : State) : Store Word :=
  [rHubGrade, rHubClusterMap, rHubClusterMap + 4, rHubClusterMap + 8, rHubClusterMap + 12, rSngStatus, rBootStatus, rBootTime, rSecStage]
      ++ (List.range 8).map (fun i => rSecIdFp + 4 * i)
    |>.foldl (fun m a => stSet 0 m a (stGet 0 s.csr a)) csr0

/-- The safe state entered with a cause: all but the hub's management processor, the security block,
the flash and SP is unpowered or in reset. -/
def toSafe (s : State) (cause : Nat) : State :=
  let s := csrSetField (csrPut s rBootTime (bootMillis s)) rBootStatus 27 24 cause
  let s := setPhaseOf s 0xE
  let mac := spMac s
  let sp : PortCfg := { port0 with present := true, mac := mac }
  let t := { State.reset with
    pending := s.pending, free := s.free, plumb := s.plumb, snag := s.snag, csr := keptCsr s
    power := { power0 with droopN := s.power.droopN }
    net := { net0 with ports := (List.replicate 6 port0) ++ [sp], spIp6 := linkLocal mac, tx := s.net.tx }
    boot := { s.boot with ready := false, faultN := false, staged := [], staging := false, recovery := [] } }
  bootEvent t 3

/-- The cumulative limit in nanoseconds of a phase, by PHASE (R392). -/
def phaseEnd (p : Nat) : Nat :=
  match p with
  | 1 => 10 * 10 ^ 6
  | 3 => 6 * 10 ^ 9
  | 5 => 7 * 10 ^ 9
  | 6 => 40 * 10 ^ 9
  | _ => 44 * 10 ^ 9

/-- Whether start-up is past the limit of the phase it is in. -/
def pastLimit (s : State) : Bool := decide (s.boot.startAt + phaseEnd (bootPhase s) ≤ s.plumb)

/-- Whether start-up is in progress. -/
def starting (s : State) : Bool := powered s && !s.boot.ready && !inSafe s && decide (bootPhase s ≤ 7)

/-- PHASE_LIMIT (R392). -/
def phaseLimitState (s : State) : State := if starting s && pastLimit s then toSafe s 3 else s

/-! Fuse load (R392, R393, R406, R417). -/

/-- HUB_CLUSTER_MAP of a die: its enabled physical clusters in ascending order (R22). -/
def fuseMap (s : State) (d : Nat) : Nat :=
  let l := (List.range 8).filter (fun p => clusterEnabled s (d * 8 + p))
  (List.range 8).foldl (fun w i => w + nthD l i 15 <<< (4 * i)) 0

/-- The seed of the identity key (R406). -/
def identityXi (s : State) : List Byte :=
  (sha3_512 (stGetMany 0 s.boot.fuses 416 32
    ++ [0x4D, 0x49, 0x52, 0x43, 0x45, 0x4E, 0x2D, 0x49, 0x44, 0x45, 0x4E, 0x54, 0x49, 0x54, 0x59])).take 32

/-- The identity public key: 2,592 bytes. -/
def identityKey (s : State) : List Byte := sliceB (Config.mldsaPublic (identityXi s)) 0 2592

/-- FUSE_LOAD_END (R392, R406, R417): `railsOk` says that every fixed rail is within its window. -/
def fuseLoadEndState (railsOk : Bool) (s : State) : State :=
  if !starting s ∨ bootPhase s ≠ 1 ∨ s.boot.loaded then s
  else if pastLimit s then toSafe s 3
  else
    let s := csrPut s rHubGrade (fuseBits s 3131 3124 <<< 8 + fuseBits s 3135 3132)
    let s := (List.range 4).foldl (fun t d => csrPut t (rHubClusterMap + 4 * d) (fuseMap s d)) s
    let s := csrSetField s rSecStage 7 0 (minSvn s)
    let fp := sha3_256 (identityKey s)
    let s := (List.range 8).foldl (fun t i => csrPut t (rSecIdFp + 4 * i) (leAt fp (4 * i) 4)) s
    let s := { s with boot := { s.boot with loaded := true, identity := true, railWait := if railsOk then [] else [0] } }
    if railsOk then setPhaseOf s 3 else s

/-- FIXED_RAIL_IN_WINDOW (R417): the rail, by its place in the table of R416, that start-up waits for in
phase 2 has entered its window. -/
def fixedRailInWindowState (rail : Nat) (s : State) : State :=
  if !starting s ∨ bootPhase s ≠ 1 ∨ s.boot.railWait.isEmpty ∨ rail = 0 ∨ 8 < rail then s
  else if pastLimit s then toSafe s 3
  else setPhaseOf { s with boot := { s.boot with railWait := [] } } 3

/-! The configuration component (R398). The bodies' byte layout is the model's (DESIGN CHOICE 49). -/

/-- The records of a configuration, none where they do not parse. -/
def configRecords : Nat → List Byte → Option (List (Nat × List Byte))
  | 0, _ => none
  | fuel + 1, b =>
    if b.isEmpty then some []
    else
      let n := leAt b 2 2
      let pad := (n + 7) / 8 * 8
      if b.length < 8 + pad ∨ !zeroAt b 4 4 then none
      else (configRecords fuel (b.drop (8 + pad))).map (fun r => (leAt b 0 2, sliceB b 8 n) :: r)

/-- The fields a configuration sets: those whose Reset is "cfg" (R10). -/
def cfgMask (a : Nat) : Nat :=
  if a = rHubStepCountLo ∨ a = rHubStepCountHi then 0xFFFFFFFF
  else if a = rScrUdp then 0xFFFFFFF0
  else if a = rScrDscp then 0x3F3F
  else if a = rPwrStatus then 0x3FF
  else 0

/-- An IPv4 address, none where it is all zeros. -/
def optIp4 (b : List Byte) : List Byte := if b.all (· == 0) then [] else b

/-- Whether a Snag-list offset is a multiple of 64 KiB outside every other region of R394. -/
def snagPlaceOk (o : Nat) : Bool :=
  o % 65536 == 0 && ((decide (0x0110000 ≤ o) && decide (o + 0x400000 ≤ 0x0800000)))

/-- One record applied; none for one that sends the device to the safe state. -/
def applyConfig (s : State) (r : Nat × List Byte) : Option State :=
  let b := r.2
  match r.1 with
  | 1 =>
    let ps := (List.range (b.length / 8)).map (fun i => (leAt b (8 * i) 4, leAt b (8 * i + 4) 4))
    if b.length % 8 ≠ 0 ∨ !ps.all (fun p => (regAt p.1).isSome) then none
    else some (ps.foldl (fun s p =>
      let m := cfgMask p.1
      if m = 0 then s else csrPut s p.1 ((csrGet s p.1 &&& (2 ^ 32 - 1 - m)) ||| (p.2 &&& m))) s)
  | 2 =>
    let p : PortCfg := { present := true, pmd := leAt b 1 1, fec := leAt b 2 1, mac := sliceB b 4 6, nextHop := sliceB b 10 6, vlan := leAt b 16 2 }
    if 7 ≤ leAt b 0 1 then none else some { s with net := { s.net with ports := s.net.ports.set (leAt b 0 1) p } }
  | 3 =>
    some { s with net := { s.net with ip6 := sliceB b 0 16, ip4 := optIp4 (sliceB b 16 4), spIp6 := sliceB b 20 16, spIp4 := optIp4 (sliceB b 36 4) } }
  | 4 => if snagPlaceOk (leAt b 0 4) then some { s with boot := { s.boot with snagAt := leAt b 0 4 } } else none
  | 5 => some s
  | _ => none

/-- CONFIGURATION_APPLY (R398). -/
def applyConfigs (s : State) (b : List Byte) : Option State :=
  match configRecords (b.length + 1) b with
  | none => none
  | some rs =>
    (rs.foldl (fun (o : Option State) r => o.bind (fun s => applyConfig s r)) (some s)).bind
      (fun s => if s.net.ports.all (·.present) then some s else none)

/-! The Snag list read back (R354, R355, R399, R410). -/

/-- A counter entry from its 48 bytes. -/
def counterOf (b : List Byte) : SnagCounter :=
  { unit := leAt b 0 4, flags := leAt b 4 1, events := leAt b 8 4, corrs := leAt b 12 4
    times := ((List.range 3).map (fun i => leAt b (16 + 8 * i) 8)).take (min 3 (leAt b 8 4)) }

/-- The sequence number of a copy whose check passes. -/
def snagSeq (s : State) (base : Nat) : Option Nat :=
  let b := flashRead s (base + 0x130040) 8
  if leAt b 0 4 + leAt b 4 4 = 2 ^ 32 - 1 then some (leAt b 0 4) else none

/-- A copy's list put into the RAM image. -/
def loadSnag (s : State) (base : Nat) : State :=
  let m := flashRead s (base + 0x130000) 64
  let written := leAt m 8 4
  let ring := (List.range (min written 16384)).foldl (fun r i => stSet [] r i (flashRead s (base + 64 * i) 64)) []
  let counters := (List.range (leAt m 18 2)).map (fun i => counterOf (flashRead s (base + 0x100000 + 48 * i) 48))
  { s with snag := { snag0 with
      time := leAt m 0 8, ring := ring, written := written, index := leAt m 12 4 % 16384, counters := counters
      retired := leAt m 16 2, permanent := leAt m 20 4, transient := leAt m 24 4, takeovers := leAt m 28 4 } }

/-- The newer copy read; the records written since power good follow and are committed. -/
def readSnag (s : State) : State :=
  let a := s.boot.snagAt
  let base : Option Nat := match snagSeq s a, snagSeq s (a + 0x200000) with
    | some x, some y => if x < y then some (a + 0x200000) else some a
    | some _, none => some a
    | none, some _ => some (a + 0x200000)
    | none, none => none
  let new := s.snag.pending.map (fun i => stGet [] s.snag.ring i)
  match base with
  | some b =>
    let s := csrSetField (loadSnag s b) rSngStatus 13 0 0
    if new.isEmpty then s else commitSnag (new.foldl snagPush s)
  | none => if new.isEmpty then s else commitSnag s

/-- The cluster maps of start-up (R21, R26): logical clusters from 0 upward on the usable physical clusters of
each die in ascending order, the rest absent. -/
def mapClusters (s : State) : State :=
  let usable (d : Nat) : List Nat := (List.range 8).filter (fun p =>
    clusterEnabled s (d * 8 + p) && !bitOf (snagEntry s.snag (unitCluster (d * 8 + p) 0xFFF)).flags 0)
  syncAvail ((List.range 4).foldl (fun t d =>
    csrPut t (rHubClusterMap + 4 * d) ((List.range 8).foldl (fun w i => w + nthD (usable d) i 15 <<< (4 * i)) 0)) s)

/-- A listed unit kept out of the maps (R21, R399). -/
def applyRetired (s : State) (c : SnagCounter) : State :=
  let u := c.unit
  if !bitOf c.flags 0 then s
  else match fieldOf u 31 28 with
    | 1 => retireUnit s u 0x15
    | 2 => retireUnit s u 0x15
    | 3 => if fieldOf u 11 0 = 0xFFF then retireUnit s u 0x15 else s
    | 6 => if fieldOf u 23 16 < 64 ∧ fieldOf u 11 0 = 0 then retirePc s (fieldOf u 27 24 % 8) (fieldOf u 23 16) else s
    | 7 => retireUnit s u 0x15
    | 8 => retireUnit s u 0x15
    | _ => s

/-- The rows that the Snag list names for repair in a pseudo-channel (R349): those of its records with ACTION 0x9, whose
syndrome holds a sector of the row (R204). -/
def listedRows (s : State) (unit : Nat) : List (Nat × Nat) :=
  (s.snag.ring.filterMap (fun p =>
    if leAt p.2 0 4 = unit ∧ leAt p.2 4 2 = 0x0802 ∧ leAt p.2 7 1 = 9 then some (unit, leAt p.2 34 3 / 16) else none)).eraseDups

/-- A pseudo-channel's listed rows repaired for good, as far as its stack has spare rows (R207); once none is left, its
entry is no longer marked. -/
def repairRows (s : State) (c : SnagCounter) : State :=
  if !bitOf c.flags 1 then s
  else
    let want := (listedRows s c.unit).filter (fun r => !s.boot.repaired.contains r)
    let stack := fieldOf c.unit 27 24
    let used := (s.boot.repaired.filter (fun r => fieldOf r.1 27 24 == stack)).length
    let now := want.take (Config.spareRows stack - used)
    let s := { s with boot := { s.boot with repaired := s.boot.repaired ++ now } }
    if now.length = want.length then { s with snag := snagPutEntry s.snag { c with flags := putField c.flags 1 1 0 } } else s

/-- Phase 5a after the configuration: PLLs locked, the Snag list read and the maps rewritten; rows
listed for repair are repaired (R207). -/
def applySnag (s : State) : State :=
  let s := csrPut s rClkStatus 0x800000FF
  let s := readSnag s
  let s := mapClusters (s.snag.counters.foldl applyRetired (s.snag.counters.foldl repairRows s))
  if csrField s rSngStatus 30 30 = 1 then toSafe s 4 else setPhaseOf s 6

/-! Phases 3 to 5a (R392, R397). -/

/-- RESULT_A or RESULT_B written. -/
def setResult (s : State) (slot v : Nat) : State :=
  if slot = 0 then csrSetField s rBootStatus 11 8 v else csrSetField s rBootStatus 7 4 v

/-- A slot that has verified boots. -/
def bootSlot (s : State) (slot : Nat) (fallback : Bool) : State :=
  let m := manifestOf s slot
  let s := csrSetField (csrSetField s rBootStatus 22 22 slot) rBootStatus 23 23 (boolNat fallback)
  let s := csrSetField s rSecStage 15 8 (leAt m 8 1)
  let s := if fallback then bootEvent s 0 else s
  let s := setPhaseOf s 5
  match imageEntry m 2 with
  | none => toSafe s 2
  | some e => match applyConfigs s (flashRead s (slotBase slot + e.off) e.len) with
    | none => toSafe s 2
    | some t => applySnag t

/-- IMAGE_VERIFIED (R395, R397, R398): the preferred slot, then the other if it is VALID. -/
def imageVerifiedState (s : State) : State :=
  if !starting s ∨ bootPhase s ≠ 3 then s
  else if pastLimit s then toSafe s 3
  else match bootRecord s with
    | none => toSafe s 5
    | some (_, r) =>
      let p := r.pref
      let a := verifySlot s p
      let s := setResult s p a
      if a = 1 then bootSlot s p false
      else if !bitOf r.valid (1 - p) then toSafe s 1
      else
        let b := verifySlot s (1 - p)
        let s := setResult s (1 - p) b
        if b = 1 then bootSlot s (1 - p) true else toSafe s 1

/-! Release (R399, R400, R405). -/

/-- MIN_SVN_BURN (R405): one bit more for each version up to the booted one. -/
def burnSvn (s : State) : State :=
  let m := manifestOf s (csrField s rBootStatus 22 22)
  let svn := csrField s rSecStage 15 8
  if bitOf (leAt m 7 1) 0 ∧ minSvn s < svn then
    let old := fuseBits s 3327 3264
    let new := (List.range svn).foldl (fun w i => w ||| 2 ^ i) old
    let s := { s with boot := { s.boot with fuses := stSetMany 0 s.boot.fuses 408 (leBytes 8 new) } }
    csrSetField s rSecStage 7 0 (minSvn s)
  else s

/-- The units that have passed their start-up patch test, in ascending order (R358). -/
def testedUnits (s : State) (bad : List Nat) : List Nat :=
  ((List.range 288).filter (fun c => clusterEnabled s (c / 9) && !bad.contains c)).map (fun c => unitCore c 0xFFF)
    ++ ((List.range 32).filter (clusterEnabled s)).map (fun n => unitCluster n 0xFFF) ++ (List.range 8).map (fun st => unitMem st 0xFF 0x600) ++ [unitHub 0x420]

/-- A core that failed its start-up patch test (R358, R360, R399). -/
def startupFail (s : State) (c : Nat) : State :=
  let s := { s with snag := snagEvent s.snag (unitCore c 0xFFF) }
  retireCore (snagRecord s (errRec (unitCore c 0xFFF) 0x0E 0 2 0xA)) (c / 9) (c % 9) 0x0E

/-- A unit other than a core that failed start-up training or its start-up patch test (R358, R360, R399): one whose
retirement lets the job go on is retired, any other makes firmware request takeover. A pseudo-channel is
remapped at once, as no traffic runs. A unit ID outside these names none. -/
def startupUnitFail (s : State) (u : Nat) : State :=
  let port := decide (fieldOf u 3 0 < 7) && u == unitPort (fieldOf u 3 0)
  let pc := decide (fieldOf u 27 24 < 8) && decide (fieldOf u 23 16 < 64) && u == unitMem (fieldOf u 27 24) (fieldOf u 23 16) 0
  if !(port || pc || (testable s u && fieldOf u 31 28 != 2)) then s
  else
    let s := { s with snag := snagEvent s.snag u }
    let s := snagRecord s (errRec u (if port then 0x0A else if pc then 0x08 else 0x0E) 0 2 (if port || pc then 5 else 10))
    if pc then retirePc (markRetired s u) (fieldOf u 27 24) (fieldOf u 23 16) else retireUnit s u 0x0E

/-- RELEASE (R399, R400): memory reads as zeros, the tests' failures are retired, queues open, and
READY is asserted. -/
def releaseState (rep : BootReport) (s : State) : State :=
  if !starting s ∨ bootPhase s ≠ 6 then s
  else if s.boot.startAt + 45 * 10 ^ 9 ≤ s.plumb then toSafe s 3
  else
    let s := (List.range 8).foldl (fun t c => csrSetField t (rCapStatus + 0x20 * c) 30 30 (boolNat (bitOf rep.trained c))) s
    let s := rep.badUnits.foldl startupUnitFail ((rep.badCores.filter (fun c => clusterEnabled s (c / 9))).foldl startupFail s)
    let s := mapClusters s
    if rep.trained % 256 ≠ 255 ∨ csrField s rSngStatus 30 30 = 1 then toSafe s 4
    else
      let s := { s with
        mem := mem0, queues := List.replicate 8 queue0
        snag := { s.snag with lastPass := if s.snag.time = 0 then [] else ((testedUnits s rep.badCores).filter (fun u => !rep.badUnits.contains u)).map (fun u => (u, s.snag.time)) }
        boot := { s.boot with ready := true } }
      burnSvn (csrPut (setPhaseOf (syncAvail (setStepState s sIdle)) 8) rBootTime (bootMillis s))

/-! The meanings of the rows. -/

/-- POWER_GOOD (R391). PWRGD and RESET_N both high restart the plumb count at 0 and begin start-up with fuse load. -/
def execPowerGood (s : State) : Host.Outcome State Fault Refusal :=
  .next (powerGoodState s)

/-- RESET (R391). A fall of PWRGD or RESET_N stops start-up or a released device and returns it to reset. -/
def execReset (pin : Bool) (s : State) : Host.Outcome State Fault Refusal :=
  .next (resetState pin s)

/-- IMAGE_VERIFIED (R397). The fetched image slot is verified, falling back to the other slot or entering the safe state. -/
def execImageVerified (s : State) : Host.Outcome State Fault Refusal :=
  .next (imageVerifiedState s)

/-- PHASE_LIMIT (R392). A start-up phase not ended by its limit sends the device to the safe state with cause 0x3. -/
def execPhaseLimit (s : State) : Host.Outcome State Fault Refusal :=
  .next (phaseLimitState s)

/-- RELEASE (R400). After start-up work completes, ports are enabled, queues opened, step state IDLE and READY asserted. -/
def execRelease (rep : BootReport) (s : State) : Host.Outcome State Fault Refusal :=
  .next (releaseState rep s)

/-- FUSE_LOAD_END (R392). Fuse load finishes, the identity key is formed, the fixed rails are checked and phase 3 starts the SPI NOR read. -/
def execFuseLoadEnd (railsOk : Bool) (s : State) : Host.Outcome State Fault Refusal :=
  .next (fuseLoadEndState railsOk s)

/-- FIXED_RAIL_IN_WINDOW (R417). A fixed rail that was outside its window when fuse load ended enters its window, and start-up leaves its wait in phase 2. -/
def execFixedRailInWindow (rail : Nat) (s : State) : Host.Outcome State Fault Refusal :=
  .next (fixedRailInWindowState rail s)

end Sys2Proof.Machine
end

