-- ==== Sys2Proof/Machine/Clocks.lean ====
section
/-! DEFINITION. Clocks, gates and heat (R382–R390): CLOCK_SELECT, GATE, CLKOUT_CFG, the oscillator
monitor, and the thermal rows. -/

namespace Sys2Proof.Machine

/-! Sources (R382–R384). -/

def oscOk (s : State) : Bool := csrField s rClkStatus 31 31 == 1

/-- CLOCK_SELECT (R384). -/
def bodyClockSelect (c : Cmd) (s : State) : Option State :=
  let d := leAt c.body 0 1
  let src := leAt c.body 1 1
  if jobOpen? s then some (finish s c stNotReady)
  else if 6 < d ∨ 1 < src ∨ !zeroAt c.body 2 6 then some (finish s c stBadParam)
  else if !(if src = 1 then bitOf (csrGet s rClkStatus) d else oscOk s) then some (finish s c stSourceNotReady)
  else some (finish (csrSetField s rClkSel d d src) c stOk)

/-- CLOCK_SELECT (R384). -/
def clockSelectState (q qseq : Nat) (s : State) : State := hostRow s q qseq (fun c => c.opcode == 0x0B01) bodyClockSelect

/-- Frequency of a domain in units of 0.25 MHz, by its source now (R382, R384). -/
def domainFreq (s : State) (d : Nat) : Nat :=
  let pll := nthD [9600, 9600, 9600, 9600, 7200, 6400, 4800, 5000, 625, 625] d 0
  if d < 7 ∧ !bitOf (csrGet s rClkSel) d then 625 else pll

/-- Whether a domain's source is there: not gated, locked, present (R386). -/
def domainOk (s : State) (d : Nat) : Bool :=
  if d < 4 && s.power.gatesOff.contains (unitDie d 0xFFF) then false
  else if d = 5 && s.power.gatesOff.contains (unitHub 0xFFF) then false
  else if d < 7 then (if bitOf (csrGet s rClkSel) d then bitOf (csrGet s rClkStatus) d else oscOk s)
  else if d = 7 then bitOf (csrGet s rClkStatus) 7
  else if d = 8 then oscOk s
  else
    let p := csrField s rPlbStatus 26 24
    csrField s rPlbStatus 27 27 == 1 && portUsable s p && csrField s (rScrPortStatus + 0x10 * p) 24 24 == 1

/-- CLKOUT_CFG (R386). The source need not be there to turn the output off; the pair is then held, P low and
N high (R421). -/
def bodyClkoutCfg (c : Cmd) (s : State) : Option State :=
  let b := c.body
  let en := leAt b 0 1
  let src := leAt b 1 1
  let div := leAt b 2 2
  if 1 < en ∨ 9 < src ∨ !zeroAt b 4 4 ∨ 3200 * (div + 1) < domainFreq s src then some (finish s c stBadParam)
  else if en = 1 ∧ !domainOk s src then some (finish s c stSourceNotReady)
  else
    let pair := if en = 1 then ClkPair.running src (div + 1) else ClkPair.held false true
    some (finish (csrPut { s with power := { s.power with clkPair := pair } } rClkOut (en <<< 31 + src <<< 16 + div)) c stOk)

/-- CLKOUT_CFG (R386). -/
def clkoutCfgState (q qseq : Nat) (s : State) : State := hostRow s q qseq (fun c => c.opcode == 0x0B03) bodyClkoutCfg

/-- OSC_LOSS (R383). -/
def oscLossState (s : State) : State :=
  if !watched s then s
  else enterS5 (csrSetField s rClkStatus 31 31 0) (unitPackage 0) 9 0 0

/-! Gates (R385). -/

/-- The node above a node of the gate tree: none at a root of it, none for a unit outside it. A cluster the
fuses disable is no unit of the device (R16). -/
def gateParent (s : State) (u : Nat) : Option (Option Nat) :=
  let sub := fieldOf u 11 0
  let die := fieldOf u 27 24
  let n := die * 8 + fieldOf u 23 20
  let core := fieldOf u 19 16
  match fieldOf u 31 28 with
  | 1 => if clusterEnabled s n ∧ core < 9 ∧ fieldOf u 15 12 < 4 ∧ u = unitEngine ((n * 9 + core) * 4 + fieldOf u 15 12) 0xFFF then
      some (some (unitCore (n * 9 + core) 0xFFF)) else none
  | 2 => if clusterEnabled s n ∧ core < 9 ∧ u = unitCore (n * 9 + core) 0xFFF then some (some (unitCluster n 0xFFF)) else none
  | 3 => if clusterEnabled s n ∧ u = unitCluster n 0xFFF then some (some (unitDie die 0xFFF)) else none
  | 4 => if die < 4 ∧ u = unitDie die 0xFFF then some none else none
  | 6 =>
    if die < 8 ∧ u = unitMem die 0xFF 0xFFF then some none
    else if die < 8 ∧ (sub = 0x600 ∨ sub = 0x601) ∧ u = unitMem die 0xFF sub then some (some (unitMem die 0xFF 0xFFF)) else none
  | 7 => if u = unitPort (fieldOf u 3 0) ∧ fieldOf u 3 0 < 7 then some none else none
  | 9 => if u = unitHub 0xFFF then some none else if u = unitHub 0x420 then some (some (unitHub 0xFFF)) else none
  | _ => none

/-- The nodes below a node. -/
def gateChildren (s : State) (u : Nat) : List Nat :=
  let die := fieldOf u 27 24
  let n := die * 8 + fieldOf u 23 20
  match fieldOf u 31 28 with
  | 2 => (List.range 4).map (fun e => unitEngine ((n * 9 + fieldOf u 19 16) * 4 + e) 0xFFF)
  | 3 => (List.range 9).map (fun k => unitCore (n * 9 + k) 0xFFF)
  | 4 => ((List.range 8).filter (fun k => clusterEnabled s (die * 8 + k))).map (fun k => unitCluster (die * 8 + k) 0xFFF)
  | 6 => if u = unitMem die 0xFF 0xFFF then [unitMem die 0xFF 0x600, unitMem die 0xFF 0x601] else []
  | 9 => if u = unitHub 0xFFF then [unitHub 0x420] else []
  | _ => []

/-- GATE (R385): every gate is on at release. A port's gate powers its lanes down. -/
def bodyGate (c : Cmd) (s : State) : Option State :=
  let u := leAt c.body 0 4
  let w := leAt c.body 4 1
  let off := s.power.gatesOff
  match gateParent s u with
  | none => some (finish s c (if jobOpen? s then stNotReady else stBadParam))
  | some up =>
    if w = 0 ∧ (gateChildren s u).any (fun k => !off.contains k) then some (finish s c stChildActive)
    else if w = 1 ∧ up.any off.contains then some (finish s c stNotReady)
    else if jobOpen? s then some (finish s c stNotReady)
    else if 1 < w ∨ !zeroAt c.body 5 3 then some (finish s c stBadParam)
    else
      let rest := off.filter (· != u)
      let s := { s with power := { s.power with gatesOff := if w = 1 then rest else rest ++ [u] } }
      some (finish (if w = 0 ∧ fieldOf u 31 28 = 7 then linkDown s (fieldOf u 3 0) else s) c stOk)

/-- GATE (R385). -/
def gateState (q qseq : Nat) (s : State) : State := hostRow s q qseq (fun c => c.opcode == 0x0B02) bodyGate

/-! Heat (R213, R387–R390). -/

/-- TMAX of a die, in 1/16 °C. -/
def dieTemp (s : State) (k : Nat) : Int := sextNat 16 (csrField s (rThmDie + 4 * k) 15 0)

/-- A die's own step put in force: THM_DIE, CLK_ARRAY (R388, R390). The hub has one step, half its
agents' issue rate. -/
def setDieStep (s : State) (k v : Nat) : State :=
  let s := { s with power := { s.power with
    dieStep := s.power.dieStep.set k v, dieStepAt := s.power.dieStepAt.set k s.plumb, dieCoolAt := s.power.dieCoolAt.set k none } }
  let s := csrSetField (csrSetField s (rThmDie + 4 * k) 31 31 (boolNat (v != 0))) (rThmDie + 4 * k) 30 29 v
  if k < 4 then clockStep (csrSetField s (rClkArray + 4 * k) 30 30 (boolNat (v != 0))) k else s

/-- One die's reading (R387, R388). -/
def dieSample (s : State) (k : Nat) (t : Int) : State :=
  let a := rThmPeak + 4 * k
  let s := csrSetField s (rThmDie + 4 * k) 15 0 (wrapInt 16 t)
  let s := if sextNat 16 (csrField s a 15 0) < t then csrSetField s a 15 0 (wrapInt 16 t) else s
  let s :=
    if 1600 ≤ t ∧ nthD s.power.dieStep k 0 = 0 then powerRecord (setDieStep s k 1) (unitDie k 0xFFF) 3 false 1 k t 0
    else
      let cool := nthD s.power.dieCoolAt k none
      let next := if t < 1520 ∧ nthD s.power.dieStep k 0 ≠ 0 then some (cool.getD s.plumb) else none
      { s with power := { s.power with dieCoolAt := s.power.dieCoolAt.set k next } }
  if 1760 ≤ t then enterS5 s (unitDie k 0xFFF) 4 k t else s

/-- STACK of the home die's clock (R389): a hot stack steps the clusters beside it. -/
def stackAsk (s : State) (d : Nat) : State :=
  let hot (st : Nat) : Bool := csrField s (rMemTherm + 0x10000 * st) 31 31 == 1
  clockStep (csrSetField s (rClkArray + 4 * d) 29 29 (boolNat (hot (2 * d) || hot (2 * d + 1)))) d

/-- One stack's readings (R213): its Undercoat and its case estimate. -/
def stackSample (s : State) (st : Nat) (t c : Int) : State :=
  let a := rMemTherm + 0x10000 * st
  let hot := csrField s a 31 31 == 1
  let hot' := decide (1440 ≤ t) || (hot && decide (1360 ≤ t))
  let case := csrField s a 30 30 == 1
  let case' := decide (1520 ≤ c) || (case && decide (1440 ≤ c))
  let s := csrSetField (csrSetField (csrSetField s a 31 31 (boolNat hot')) a 30 30 (boolNat case')) a 15 0 (wrapInt 16 t)
  let s := if hot = hot' then s else powerRecord (stackAsk s (st / 2)) (unitMem st 0xFF 0xFFF) 5 hot (boolNat hot') st t 0
  if case = case' then s else powerRecord s (unitMem st 0xFF 0xFFF) 6 case (boolNat case') st c 0

/-- THERMAL_SAMPLE (R213, R387–R389); what a stack in CASE held goes on once it has cooled. -/
def thermalSampleState (t : TempSample) (s : State) : State :=
  if !watched s then s
  else
    let s := (List.range 8).foldl (fun s k => stackSample s k (nthD t.stackT k 0) (nthD t.caseT k 0)) s
    (List.range 5).foldl (fun s k => dieSample s k (nthD t.dieT k 0)) (mirrorPump (telFlush s))

/-- THERMAL_STEP_DOWN (R388). -/
def thermalStepDownState (die : Nat) (s : State) : State :=
  if 4 ≤ die ∨ !watched s ∨ nthD s.power.dieStep die 0 ≠ 1 ∨ dieTemp s die < 1600 ∨ s.plumb < nthD s.power.dieStepAt die 0 + 10 ^ 7 then s
  else powerRecord (setDieStep s die 2) (unitDie die 0xFFF) 3 false 2 die (dieTemp s die) 0

/-- THERMAL_STEP_UP (R388): one step back; a die still cool begins its next hold at once. -/
def thermalStepUpState (die : Nat) (s : State) : State :=
  let v := nthD s.power.dieStep die 0
  match nthD s.power.dieCoolAt die none with
  | none => s
  | some t =>
    if 5 ≤ die ∨ v = 0 ∨ s.plumb < t + 10 ^ 7 then s
    else
      let s := powerRecord (setDieStep s die (v - 1)) (unitDie die 0xFFF) 3 true (v - 1) die (dieTemp s die) 0
      { s with power := { s.power with dieCoolAt := s.power.dieCoolAt.set die (if v = 1 then none else some s.plumb) } }

/-! The meanings of the rows. -/

/-- CLOCK_SELECT (R384). Switches a clock domain between its PLL and oscillator bypass without a glitch. -/
def execClockSelect (q qseq : Nat) (s : State) : Host.Outcome State Fault Refusal :=
  .next (clockSelectState q qseq s)

/-- GATE (R385). Turns the clock gate of a gate-tree node on or off under the parent and child rules. -/
def execGate (q qseq : Nat) (s : State) : Host.Outcome State Fault Refusal :=
  .next (gateState q qseq s)

/-- CLKOUT_CFG (R386). Enables or disables the CLKOUT pair with a chosen domain and divider. -/
def execClkoutCfg (q qseq : Nat) (s : State) : Host.Outcome State Fault Refusal :=
  .next (clkoutCfgState q qseq s)

/-- OSC_LOSS (R383). Loss or drift of the 156.25 MHz input clears OSC_OK and enters S5. -/
def execOscLoss (s : State) : Host.Outcome State Fault Refusal :=
  .next (oscLossState s)

/-- THERMAL_SAMPLE (R387). Every 100 µs all sensors are read; thresholds step clocks, trip to S5, or set HOT and CASE. -/
def execThermalSample (t : TempSample) (s : State) : Host.Outcome State Fault Refusal :=
  .next (thermalSampleState t s)

/-- THERMAL_STEP_DOWN (R388). Tj still at 100 °C 10 ms after the step to 1.8 GHz steps the array clock to 1.2 GHz. -/
def execThermalStepDown (die : Nat) (s : State) : Host.Outcome State Fault Refusal :=
  .next (thermalStepDownState die s)

/-- THERMAL_STEP_UP (R388). Tj below 95 °C for 10 ms steps the array clock one step back up. -/
def execThermalStepUp (die : Nat) (s : State) : Host.Outcome State Fault Refusal :=
  .next (thermalStepUpState die s)

end Sys2Proof.Machine
end

