-- ==== Sys2Proof/Machine/FloatStages.lean ====
section
/-! DEFINITION. The QUANTISE and RETURN stages (R99, R111, R112): the Float edge's two paths
over the operands of a RUN, and their counters (R117). -/

namespace Sys2Proof.Machine

/-- The S16 scales of a stage's channels (R97). -/
def coreScales (s : State) (pc off n : Nat) : List FV := (unpackCodes 16 (coreRead s pc off (2 * n))).map s16Val

/-- Counts of a stage put into the core's registers, in the order of R117, and QERR. -/
def floatCounts (s : State) (pc : Nat) (c : QCounts) : State :=
  let s := ([c.blocks, c.fbDone, c.refused, c.outliers, c.overflow, c.window, 0, 0, 0, 0, c.floored].mapIdx (fun i v => (i, v))).foldl
    (fun s p => coreBump s pc (0x10 + 4 * p.1) p.2) s
  csrPut64 s (coreBlock pc + 8) (f64.toCode c.qerr)

/-- Counts of a stage added to its core's counts of the RUN (R113). -/
def addCounts (s : State) (op core : Nat) (c : QCounts) : State :=
  let r : RunCounts :=
    { runCounts0 with blocks := c.blocks, fbDone := c.fbDone, fbRefused := c.refused, window := c.window
                      overflow := c.overflow, groups := c.groups }
  coreUpd s op core (fun k => { k with counts := k.counts.plus r })

/-- The settings of a quantise stage (R96, R97, R115). -/
def quantSet (level : Bool) (d : Desc) (c : FloatCtl) (rc : Recipe) : QSet :=
  { form := d.fmt, levels := [], recipe := rc, floor := c.floor, offMax := c.offMax
    outEn := c.outEn && !level, fbEn := c.fbEn && !level, level := level }

/-- One row as the quantise path widens, scales and rotates it (R99). -/
def prepRow (n : Nat) (scale : Option (List FV)) (row : List FV) : List FV :=
  let v := row.map f32.round
  let v := match scale with
    | some a => v.mapIdx (fun k x => fMul x (nthD a k fvOne))
    | none => v
  rotateRow n v

/-- The output of a quantise stage written: codes, exponents, outlier records and the core's
part of the fall-back list (R102, R107); a plane the descriptor lacks is not written. -/
def writeQuant (s : State) (io : IoCtx) (d : Desc) (o : QOut) : State × Bool :=
  let a := spaceWrite s io d.space d.code (packCodes d.fmt.bits o.codes)
  let b := spaceWrite a.1 io d.space d.exp (o.exps.map byteOf)
  let c := if d.side = 0 then (b.1, true)
    else spaceWrite b.1 io d.space d.side ((o.recs.take (d.elems / 128)).flatMap OutRec.toBytes)
  let e := if d.fbl = 0 then (c.1, true) else spaceWrite c.1 io d.space d.fbl (fbPart d.block0 d.budget o.fbs)
  (e.1, a.2 && b.2 && c.2 && e.2)

/-- What a quantise stage makes of its source rows. -/
def quantOut (s : State) (pc : Nat) (q : QSet) (d : Desc) (rows : List (List FV)) : QOut :=
  quantRows q
    { codes := [], exps := [], recs := [], fbs := [], block := 0, budget := d.budget
      counts := { qCounts0 with qerr := f64.decode (csrGet64 s (coreBlock pc + 8)) } } rows

/-- QUANTISE over one core's slice (R99). -/
def quantiseBody (x : StCtx) (s : State) : State :=
  let rc := Recipe.ofBytes x.run.recipe
  match FloatCtl.ofBytes x.rcd.ctrl, x.desc s x.rcd.dIn, x.desc s x.rcd.dOut with
  | some c, some a, some d =>
    let r := readVals s x.io a
    match r.2 with
    | none => x.fail r.1 stFault
    | some rows =>
      let scale := if c.scaleEn then some (coreScales r.1 x.io.pc c.scale a.width) else none
      let o := quantOut r.1 x.io.pc (quantSet x.run.level d c rc) d (rows.map (prepRow (if c.rotEn then rc.rot else 1) scale))
      let w := writeQuant r.1 x.io d o
      let s := addCounts (floatCounts w.1 x.io.pc o.counts) x.run.cmd.op x.core.core o.counts
      if w.2 then x.done s else x.fail s stFault
  | _, _, _ => x.fail s stBadParam

/-- QUANTISE (R99) with its spot check. -/
def quantiseState (op core : Nat) (ev : StageEvents) (s : State) : State :=
  stageRow op core ev (isKind kQuantise) (fun x s => x.checked s 0x101 ev.spot quantiseBody) s

/-! Feeding and decoding an operand's side planes. -/

/-- The outlier records of an operand, by its rows (R54); none for a poisoned or malformed one. -/
def readRecs (s : State) (io : IoCtx) (d : Desc) : State × Option (List (List OutRec)) :=
  if d.side = 0 then (s, some [])
  else
    let r := spaceRead s io d.space d.side (d.elems / 128 * 16)
    (r.1, r.2.bind (fun b =>
      let rs := (chunksOf 16 b.length b).map OutRec.ofBytes
      if rs.all Option.isSome then some (chunksOf (d.width / 128) rs.length (rs.filterMap id)) else none))

/-- The core's part of an operand's fall-back list (R108). -/
def readFbs (s : State) (io : IoCtx) (d : Desc) : State × Option (List (Nat × List Nat)) :=
  if d.fbl = 0 then (s, some [])
  else
    let r := spaceRead s io d.space d.fbl (d.budget * 32)
    (r.1, r.2.bind (readFbPart d.block0 (d.elems / 32)))

/-- Whether an operand's outlier records or fall-back list can be read and are malformed (R54, R108): a
Float-edge fault. -/
def sideFault (s : State) (io : IoCtx) (d : Desc) : Bool :=
  (d.side != 0 && (match (spaceRead s io d.space d.side (d.elems / 128 * 16)).2 with
    | some b => (chunksOf 16 b.length b).any (fun r => (OutRec.ofBytes r).isNone)
    | none => false))
  || (d.fbl != 0 && (match (spaceRead s io d.space d.fbl (d.budget * 32)).2 with
    | some b => (readFbPart d.block0 (d.elems / 32) b).isNone
    | none => false))

/-- A malformed operand reported as an event of the core's Float edge (R54, R108; its class is check
0x05, detail 1: DESIGN CHOICE 82). -/
def reportSide (x : StCtx) (s : State) (ds : List Desc) : State :=
  if ds.any (sideFault s x.io) then
    decideEvent s { unit := unitCore x.io.pc 0x101, check := 0x05, detail := 1, severity := 1, action := 0
                    opcode := x.run.cmd.opcode, op := x.run.cmd.op, syndrome := [] } false
  else s

/-- The decoded elements of a stashed operand: codes, fall-back and outliers (R112). -/
def readStash (s : State) (io : IoCtx) (d : Desc) : State × Option (List (List FV)) :=
  let v := readVals s io d
  let e := readExps v.1 io d
  let r := readRecs e.1 io d
  let f := readFbs r.1 io d
  (f.1, match v.2, e.2, r.2, f.2 with
    | some rows, some es, some rs, some fs => some (rows.mapIdx (fun i row => row.mapIdx (fun j y =>
        -- a not-finite block or record gives no finite value (R54, R66)
        if !y.isFin then f32.round y else
        match (nthD (nthD rs i []) (j / 128) { eo := 0, entries := [] }) with
        | o => match o.entries.find? (fun p => p.1 == j % 128) with
          | some p => if o.eo = 0xFF then .nan else fvInt p.2 ((o.eo : Int) - 127)
          | none => match fs.find? (fun p => p.1 == i * (d.width / 32) + j / 32) with
            | some p => f32.round (y.add (fvInt (nthD p.2 (j % 32) 0 : Nat) (((nthD (nthD es i []) (j / 32) 0 : Nat) : Int) - 131)))
            | none => f32.round y)))
    | _, _, _, _ => none)

/-- The scale-gradient partials after every row, in ascending order (R112). -/
def sgradRows (n : Nat) (a : List FV) (dxs wides stash : List (List FV)) (g : List FV) : List FV :=
  (List.range dxs.length).foldl (fun g i => sgradRow n a (nthD dxs i []) (nthD wides i []) (nthD stash i []) g) g

/-- The scale-gradient part of a return stage: D_AUX names the stashed operand and the
descriptor after it the wide source (DESIGN CHOICE 21). -/
def sgradPart (x : StCtx) (s : State) (n : Nat) (c : FloatCtl) (a : List FV) (w : Nat) (dxs : List (List FV)) : State × Bool :=
  match x.desc s x.rcd.dAux, x.desc s (x.rcd.dAux + 1) with
  | some d, some u =>
    let st := readStash s x.io d
    let wi := readVals st.1 x.io u
    match st.2, wi.2 with
    | some ss, some ws =>
      let g := coreFloats wi.1 x.io.pc c.sgrad w
      (corePutFloats wi.1 x.io.pc c.sgrad (sgradRows n a dxs (ws.map (·.map f32.round)) ss g), true)
    | _, _ => (wi.1, false)
  | _, _ => (s, false)

/-- RETURN over one core's slice (R111). -/
def returnBody (x : StCtx) (s : State) : State :=
  let rc := Recipe.ofBytes x.run.recipe
  match FloatCtl.ofBytes x.rcd.ctrl, x.desc s x.rcd.dIn, x.desc s x.rcd.dOut with
  | some c, some a, some d =>
    let r := readVals s x.io a
    match r.2 with
    | none => x.fail r.1 stFault
    | some rows =>
      let n := if c.rotEn then rc.rot else 1
      let scale := if c.scaleEn then some (coreScales r.1 x.io.pc c.scale a.width) else none
      let out := rows.map (returnRow c.ret n scale)
      let w := writeFloats r.1 x.io d f32 out
      let g := if c.sgradEn then sgradPart x w.1 n c (scale.getD (List.replicate a.width fvOne)) a.width out else (w.1, true)
      if w.2 && g.2 then x.done g.1
      else x.fail (if c.sgradEn then reportSide x g.1 ((x.desc s x.rcd.dAux).toList) else g.1) stFault
  | _, _, _ => x.fail s stBadParam

/-- RETURN (R111) with its spot check. -/
def returnStageState (op core : Nat) (ev : StageEvents) (s : State) : State :=
  stageRow op core ev (isKind kReturn) (fun x s => x.checked s 0x101 ev.spot returnBody) s

/-! The meanings of the rows. -/

/-- QUANTISE (R99). A QUANTISE stage scales, rotates, extracts outliers and quantises each group with metering and fall-back. -/
def execQuantise (op core : Nat) (ev : StageEvents) (s : State) : Host.Outcome State Fault Refusal :=
  .next (quantiseState op core ev s)

/-- RETURN (R111). A RETURN stage inverse-rotates and rescales F32 output and may form scale-gradient partials. -/
def execReturnStage (op : Nat) (work : StageAt) (s : State) : Host.Outcome State Fault Refusal :=
  .next (returnStageState op work.core work.ev s)

end Sys2Proof.Machine
end

