-- ==== Sys2Proof/Machine/Multiply.lean ====
section
/-! DEFINITION. The MULTIPLY stage (R77): the feed path (R108–R110), opening and continuing
tiles (R83, R87, R88), the engines' work, and what a failed check leaves behind (R92). -/

namespace Sys2Proof.Machine

/-! The feed path. -/

/-- What the feed of an operand counts: blocks fed with c = 1 to 4 (R109), and Level-mode blocks
raised to the floor and lowered to the window (R115). -/
structure FeedCounts where
  digits  : List Nat
  floored : Nat
  lowered : Nat
deriving DecidableEq, Repr

/-- An operand ready to feed. -/
structure Feed where
  mat    : OpMat
  counts : FeedCounts
deriving DecidableEq, Repr

/-- One element of an operand (R69, R71, R110). -/
def feedElt (d : Desc) (k : ElKind) (levels : List Int) (level : Bool) (mask count floor E : Nat) (low : Option Nat) (c : Nat) : Elt :=
  let v : Int := if d.fmt.isPalette then nthD levels c 0 else d.fmt.codeInt c
  { val := v, off := if d.fmt.blocked then (E : Int) - floor else 0, nf := d.fmt.blocked && E == 0xFF
    mask := if k = .g16 then neededMask level mask count E v else 0, low := low, code := c }

/-- Rows of codes with their exponents as elements. -/
def feedRows (d : Desc) (k : ElKind) (levels : List Int) (level : Bool) (mask budget floor : Nat) (fbs : List (Nat × List Nat))
    (codes exps : List (List Nat)) : List (List Elt) :=
  codes.mapIdx (fun r row => row.mapIdx (fun j c =>
    let E := nthD (nthD exps r []) (j / 32) 0
    let low := (fbs.find? (fun p => p.1 == r * (d.width / 32) + j / 32)).map (fun p => nthD p.2 (j % 32) 0)
    -- a list that is not empty gives every block its fall-back pass, zero where it is not listed (R108)
    feedElt d k levels level mask (if level then 4 else digitCount budget E) floor E low c))

/-- The outliers of an operand as the lane feeds them (R103). -/
def feedOutliers (floor : Nat) (recs : List (List OutRec)) : List OutElt :=
  (recs.mapIdx (fun r row => (row.mapIdx (fun g o => o.entries.map (fun e =>
    ({ row := r, col := 128 * g + e.1, val := e.2, off := (o.eo : Int) - floor, nf := o.eo == 0xFF } : OutElt)))).flatten)).flatten

/-- Blocks fed by their digit count (R109, R117). -/
def feedDigits (level : Bool) (budget : Nat) (exps : List (List Nat)) : List Nat :=
  [1, 2, 3, 4].map (fun n => ((exps.flatten).filter (fun E => (if level then 4 else digitCount budget E) == n)).length)

/-- A weight operand formed from the hi16 view (R115, R429). Its place in the tensor follows from the
copy's plane; where the descriptor's code plane is not in that plane (another slot's, or in the core
buffer), the operand is the tensor from its first element on, at the core's slice (DEDUCED 22). -/
def feedLevel (s : State) (x : StCtx) (d : Desc) (t : Tensor) (j floor : Nat) : State × Option Feed :=
  let start := match planeAddr s t (plCode j) with
    | some a => if d.space = 0 ∧ a ≤ d.code ∧ d.code < a + 64 * t.groups then (d.code - a) * 2 else d.block0 * 32
    | none => d.block0 * 32
  let r := levelWeights s t j start (d.elems / 32)
  (r.1, r.2.map (fun w =>
    let codes := chunksOf d.width d.elems w.2.1.flatten
    let exps := chunksOf (d.width / 32) d.elems w.1
    let d8 := { d with fmt := .i8b32, pal := 0 }
    { mat := { kind := .i8, rows := feedRows d8 .i8 [] x.run.level 0 0xFF floor [] codes exps, outl := [] }
      counts := { digits := [0, 0, 0, 0], floored := w.2.2.1, lowered := w.2.2.2 } }))

/-- An operand read for the arrays (R68, R71, R108–R110); none where it is poisoned or
malformed. -/
def feedOperand (s : State) (x : StCtx) (d : Desc) (mask floor : Nat) : State × Option Feed :=
  let rc := Recipe.ofBytes x.run.recipe
  let copy := x.run.copies.find? (fun c => x.run.level && c.1 == d.tensor)
  match copy, tensorAt s d.tensor, d.fmt.elKind with
  | some c, some t, _ => feedLevel s x d t c.2.1 floor
  | _, _, none => (s, none)
  | _, _, some k =>
    let a := readCodes s x.io d
    let b := readExps a.1 x.io d
    let e := readRecs b.1 x.io d
    let f := readFbs e.1 x.io d
    (f.1, match a.2, b.2, e.2, f.2 with
      | some codes, some exps, some recs, some fbs =>
        some { mat := { kind := k, outl := feedOutliers floor recs
                        rows := feedRows d k (paletteLevels s d.pal) x.run.level mask rc.budget floor fbs codes exps }
               counts := { digits := if k = .g16 then feedDigits x.run.level rc.budget exps else [0, 0, 0, 0]
                           floored := 0, lowered := 0 } }
      | _, _, _, _ => none)

/-- The counts of an operand put into the core's registers and its RUN's counts. -/
def feedCount (s : State) (x : StCtx) (c : FeedCounts) : State :=
  let s := (c.digits.mapIdx (fun i n => (i, n))).foldl (fun s p => coreBump s x.io.pc (0x28 + 4 * p.1) p.2) s
  let s := coreBump (coreBump s x.io.pc 0x38 c.floored) x.io.pc 0x24 c.lowered
  let r : RunCounts := { runCounts0 with full := nthD c.digits 3 0, fed := c.digits.foldl (· + ·) 0, window := c.lowered }
  coreUpd s x.run.cmd.op x.core.core (fun k => { k with counts := k.counts.plus r })

/-! Tiles (R83, R87, R88). -/

/-- The spill words of a Yarna tile, by row (R88). -/
def spillWords (s : State) (pc : Nat) (t : Tile) : List (List Int) :=
  if !t.yarna then []
  else chunksOf (tileCols t.trans) 4096 ((chunksOf 8 4096 (coreRead s pc t.spill spillUnit)).map (fun b => sextNat 64 (leNat b)))

/-- The spill words written back. -/
def putSpill (s : State) (pc : Nat) (t : Tile) (ws : List (List Int)) : State :=
  if !t.yarna then s else coreWrite s pc t.spill (ws.flatten.flatMap (fun w => leBytes 8 (wrapInt 64 w)))

/-- Engine `e`'s tile as a stage opens it; none where a continued or restored tile is of another
mode or tile exponent (R72, R83, R87). -/
def openTile (s : State) (pc e : Nat) (c : TileCtl) (t : Tile) : State × Option Tile :=
  match c.opn with
  | 0 =>
    let sp := c.addr + e * spillUnit
    let s := if c.yarna then coreWrite s pc sp (List.replicate spillUnit 0) else s
    (s, some (t.opened c.trans c.tx c.yarna sp))
  | 3 =>
    let b := coreRead s pc (c.addr + e * imageUnit) imageUnit
    let r := t.restored (b.take 24576) (sliceB b 24576 32)
    (s, if r.trans = c.trans ∧ r.tx = c.tx then some r else none)
  | _ => (s, if t.trans = c.trans ∧ t.tx = c.tx then some t else none)

/-! The engines' work. -/

/-- Stationary blocks of a stage. -/
def stageBlocks (trans : Bool) (stat : OpMat) (width : Nat) : Nat :=
  if trans then ceilDiv stat.rows.length 32 else ceilDiv width 128

/-- The digit number, and whether a nibble pass, of a pass (R69). -/
def Pass.digitNo : Pass → Nat
  | .digit d => d
  | _ => 0

def Pass.isHigh : Pass → Bool
  | .high => true
  | _ => false

/-- The failure registers of an engine, when VALID is 0 (R82). -/
def failRegs (s : State) (pe tile observed predicted vec digit : Nat) (hs hv : Bool) (kind block : Nat) : State :=
  let a := engBlock pe
  if csrField s (a + 0x14) 31 31 = 1 then s
  else csrPut (csrPut s (a + 0x10) (observed <<< 24 + predicted <<< 16 + vec <<< 9 + digit <<< 7 + boolNat hs <<< 6
      + boolNat hv <<< 5 + kind <<< 3 + tile)) (a + 0x14) (1 <<< 31 + block)

/-- The pass-hold register of a physical engine. -/
def holdGet (s : State) (pe : Nat) : Option PassHold := stGet none s.chip.passHold pe

/-- What a stopped engine leaves for the decision (R92, R350). -/
def holdPass (s : State) (pe : Nat) (h : PassHold) : State :=
  { s with chip := { s.chip with passHold := stSet none s.chip.passHold pe (some h) } }

/-- An engine's stop reported (R92). -/
def engineStop (s : State) (pe tile : Nat) (x : EngStop) : State :=
  let s := failRegs s pe tile x.observed x.predicted x.issue.vec (max x.issue.ps.digitNo x.issue.pv.digitNo)
    x.issue.ps.isHigh x.issue.pv.isHigh x.kind x.block
  let s := if x.kind = 0 then csrBump s (engBlock pe + 8) 15 8 1 else csrBump s (engBlock pe + 8) 3 0 1
  holdPass s pe
    { kind := x.kind, block := x.block, num := x.num, vec := x.issue.vec, tile := tile, word := x.word, syn := x.syn
      sums := x.sums.map (·.val), marks := x.sums.map (·.marked)
      window := (x.sums.map (·.window)).foldl (· + ·) 0, unchecked := x.marked }

/-- A lane's stationary register, active or shadow (R67); one never loaded since reset holds 0. -/
def laneReg (s : State) (pe : Nat) (shadow : Bool) (i : Nat) : LaneReg :=
  nthD (stGet [] (if shadow then s.chip.shadow else s.chip.regs) pe) i { value := 0, off := 0, parity := false }

/-- The stationary registers an engine's work leaves (R67): the load it stands at, and in the shadow the
load after it, which is made while the active one is in use; after the last load the shadow still holds it
(DEDUCED 78). -/
def latchRegs (s : State) (pe : Nat) (reg : Nat × Pass → List LaneReg) (loads : List (Nat × Pass)) (now : Option (Nat × Pass)) :
    State :=
  let k := match now with
    | some l => loads.idxOf l
    | none => loads.length - 1
  match loads[k]? with
  | none => s
  | some a =>
    { s with chip := { s.chip with
        regs := stSet [] s.chip.regs pe (reg a)
        shadow := stSet [] s.chip.shadow pe (reg ((loads[k + 1]?).getD a)) } }

/-- The streaming codes put into an engine's operand buffer (R17): one bank after the other is filled, 128
KiB at a time, and the array reads the one filled last. The bytes are the operand's code plane (DESIGN
CHOICE 83). -/
def fillBanks (s : State) (pe : Nat) (codes : List Byte) : State :=
  (chunksOf 131072 codes.length codes).foldl (fun s b =>
    let k := 1 - stGet 0 s.chip.opReads pe
    { s with chip := { s.chip with opBanks := stSet [] s.chip.opBanks (2 * pe + k) b, opReads := stSet 0 s.chip.opReads pe k } }) s

/-- One engine's share of a stage, from the position it had reached: the state, whether it
stopped, and the position it has reached. None of a tile of another mode or exponent. -/
def engineWork (s : State) (x : StCtx) (c : TileCtl) (mask : Nat) (stat strm : OpMat) (descs : List Nat) (base step nb e : Nat)
    (faults : List ArrayFault) : State × Option (Bool × Nat) :=
  let pe := x.io.pc * 4 + e
  let at0 := nthD x.core.engPos e 0
  let t0 := tileGet s pe c.tile
  let o := if at0 = 0 then openTile s x.io.pc e c t0 else (s, some t0)
  match o.2 with
  | none => (o.1, none)
  | some t =>
    let fs := faults.filter (fun f => f.engine == e)
    let col := base + e * step
    let b := at0 / 2 ^ 20
    let w := workBlocks fs c.trans stat strm mask col (nb - b) b (at0 % 2 ^ 20)
      { tile := t, window := 0, ranged := 0, unchecked := 0, words := spillWords o.1 x.io.pc t, spills := 0, stop := none }
    let s := putSpill (tilePut o.1 pe c.tile w.tile) x.io.pc w.tile w.words
    let s := csrBump (csrBump (csrBump s (engBlock pe + 4) 31 16 w.window) (engBlock pe + 4) 15 0 w.ranged)
      (engBlock pe + 8) 31 16 w.unchecked
    let s := latchRegs s pe (latchedRegs c.trans stat descs col) (stageLoads c.trans stat mask nb col)
      (w.stop.map (fun y => (y.block, y.issue.ps)))
    match w.stop with
    | none => (s, some (false, nb * 2 ^ 20))
    | some y => (engineStop s pe c.tile y, some (true, y.block * 2 ^ 20 + y.num))

/-- The four engines one after another; none where one of them is refused. -/
def enginesWork (x : StCtx) (c : TileCtl) (mask : Nat) (stat strm : OpMat) (descs : List Nat) (base step nb : Nat) (faults : List ArrayFault) :
    List Nat → State → State × Option (List (Bool × Nat))
  | [], s => (s, some [])
  | e :: r, s =>
    let a := engineWork s x c mask stat strm descs base step nb e faults
    match a.2 with
    | none => (a.1, none)
    | some p =>
      let b := enginesWork x c mask stat strm descs base step nb faults r a.1
      (b.1, b.2.map (p :: ·))

/-- The code bytes of the streaming operand. -/
def streamBytes (x : StCtx) (d : Desc) (s : State) : List Byte := ((spaceRead s x.io d.space d.code d.codeBytes).2).getD []

/-- MULTIPLY over one core (R77): on from where the engines stand; a stopped engine holds the
stage until the fault manager has decided. -/
def multiplyBody (faults : List ArrayFault) (x : StCtx) (s : State) : State :=
  match TileCtl.ofBytes x.rcd.ctrl, x.desc s x.rcd.dIn, x.desc s x.rcd.dAux with
  | some c, some a, some b =>
    let mask := if x.run.level then 0xF else c.mask
    let u := feedOperand s x a mask c.statFloor
    let v := feedOperand u.1 x b mask c.strmFloor
    match u.2, v.2 with
    | some st, some sm =>
      let nb := stageBlocks c.trans st.mat a.width
      let descs := if st.mat.kind = .p4 then paletteDescs v.1 a.pal else []
      let codes := streamBytes x b v.1
      let w := if x.core.engPos.all (· == 0) then
        [0, 1, 2, 3].foldl (fun s e => fillBanks s (x.io.pc * 4 + e) codes) v.1 else v.1
      let r := enginesWork x c mask st.mat sm.mat descs a.colBase a.colStep nb faults [0, 1, 2, 3] w
      match r.2 with
      | none => x.fail r.1 stBadParam
      | some ps =>
        let s := if x.core.engPos.all (· == 0) then feedCount (feedCount r.1 x st.counts) x sm.counts else r.1
        if ps.any (·.1) then
          holdClocks (syncRecovering (coreUpd s x.run.cmd.op x.core.core (fun k =>
            { k with stopped := true, engPos := ps.map (·.2) })))
        else x.done s
    | _, _ => x.fail (reportSide x v.1 [a, b]) stFault
  | _, _, _ => x.fail s stBadParam

/-- MULTIPLY (R77). -/
def multiplyState (op core : Nat) (ev : StageEvents) (s : State) : State :=
  stageRow op core ev (isKind kMultiply) (multiplyBody ev.arrays) s

/-! The meanings of the rows. -/

/-- MULTIPLY (R77). A MULTIPLY stage issues passes of stationary blocks and vectors into one tile of each engine. -/
def execMultiply (op core : Nat) (ev : StageEvents) (s : State) : Host.Outcome State Fault Refusal :=
  .next (multiplyState op core ev s)

end Sys2Proof.Machine
end

