-- ==== Sys2Proof/Machine/ScreedStage.lean ====
section
/-! DEFINITION. The SCREED stage (R119–R127): draining the tiles of a core row by row under the
drain check, converting each row, and what a failed check leaves behind (R92, R126). -/

namespace Sys2Proof.Machine

/-- What a SCREED stage drains and writes: its context, control word, tile, output and recipe. -/
structure ScreedJob where
  ctl  : ScreedCtl
  tile : TileCtl
  out  : Desc
  rc   : Recipe

/-- Place `p` of the drain: engine and tile row. Plain rows of the four engines drain side by
side, transposed tiles one after another (R125). -/
def ScreedJob.place (j : ScreedJob) (p : Nat) : Nat × Nat := if j.tile.trans then (p / 32, p % 32) else (p % 4, p / 4)

/-- Places of a drain. -/
def ScreedJob.places (j : ScreedJob) : Nat := 4 * tileRows j.tile.trans

/-- Output column of engine `e`'s tile column 0 (R339). -/
def ScreedJob.col (j : ScreedJob) (e : Nat) : Nat := j.out.colBase + e * j.out.colStep

/-- Whether a place maps to the output; rows and columns outside it are not drained (R120). -/
def ScreedJob.inside (j : ScreedJob) (e i : Nat) : Bool :=
  j.out.fmt == .a48 || (decide (i < j.out.nrows) && decide (j.col e < j.out.width))

/-- An output column's shift, scale and bias (R120). -/
def colParam (s : State) (pc : Nat) (c : ScreedCtl) (col : Nat) : ColParam :=
  { shift := if c.shiftEn then sextNat 8 (leNat (coreRead s pc (c.shift + col) 1)) else 0
    scale := if c.scaleEn then some (f32Val (leNat (coreRead s pc (c.scale + 4 * col) 4))) else none
    bias := if c.biasEn then some (f32Val (leNat (coreRead s pc (c.bias + 4 * col) 4))) else none }

/-- The clip bounds of a control word. -/
def ScreedCtl.clip (c : ScreedCtl) : Option (FV × FV) := if c.clipEn then some (f32Val c.clipLo, f32Val c.clipHi) else none

/-- A tile row's totals, spill words included, and which are marked (R88). -/
def rowTotals (t : Tile) (words : List (List Int)) (i : Nat) : List (Int × Bool) :=
  (nthD t.rows i []).mapIdx (fun k e =>
    let w := nthD (nthD words i []) k 0
    (w + e.toInt, e == accMark || w == -(2 ^ 63 : Nat)))

/-- What the conversion of a tile row makes: writes as (plane, offset, bytes) and counts: elements
saturated, blocks lowered, not-finite results and the origins among them (R122, R123, R127). -/
structure RowOut where
  puts    : List (Nat × List Byte)
  sat     : Nat
  lowered : Nat
  notFin  : Nat
  origins : List (Nat × Nat × Nat)

/-- A float row (R122): element index `base` on. -/
def floatRow (d : Desc) (f : Fmt) (e base : Nat) (vs : List FV) : RowOut :=
  let rs := vs.map (screedFloat f)
  { puts := [(d.code + base * d.fmt.bits / 8, packCodes d.fmt.bits (rs.map (fun r => f.toCode r.1)))]
    sat := 0, lowered := 0, notFin := (rs.filter (fun r => !r.1.isFin)).length
    origins := ((rs.mapIdx (fun k r => (k, r.2))).filter (·.2)).map (fun p => (e, base + p.1, 2)) }

/-- A blocked row (R123). -/
def blockedRow (d : Desc) (levels : List Int) (rc : Recipe) (floor offMax base : Nat) (vs : List FV) : RowOut :=
  (chunksOf 32 vs.length vs).foldl (fun (o : RowOut) b =>
    let k := base / 32 + o.puts.length / 2
    let r := screedBlock d.fmt levels rc floor offMax b
    { o with puts := o.puts ++ [(d.code + k * d.fmt.blockBytes, packCodes d.fmt.bits r.2.1), (d.exp + k, [byteOf r.1])]
             sat := o.sat + r.2.2.1, lowered := o.lowered + boolNat r.2.2.2, notFin := o.notFin + boolNat (r.1 == 0xFF) })
    { puts := [], sat := 0, lowered := 0, notFin := 0, origins := [] }

/-- A row of a tile image, each entry with its spill word and a marked one as M (R88), and after the last row
the tile record and its zeros (R124). -/
def imageRow (d : Desc) (t : Tile) (words : List (List Int)) (e i : Nat) : RowOut :=
  let a := d.code + e * imageUnit
  let row := (rowTotals t words i).flatMap (fun v => leBytes 6 (if v.2 then accMark else BitVec.ofInt 48 v.1).toNat)
  let tail := if i + 1 = tileRows t.trans then [(a + 24576, t.record ++ List.replicate 32 (0 : Byte))] else []
  { puts := (a + i * row.length, row) :: tail, sat := 0, lowered := 0, notFin := 0, origins := [] }

/-- The conversion of tile row `i` of engine `e` (R119–R124). -/
def convertRow (s : State) (x : StCtx) (j : ScreedJob) (t : Tile) (words : List (List Int)) (e i : Nat) : RowOut :=
  let base := i * j.out.width + j.col e
  let n := min (tileCols t.trans) (j.out.width - j.col e)
  let vs := (((rowTotals t words i).take n).mapIdx (fun k v =>
    screedExact j.ctl.clip t.tx (colParam s x.io.pc j.ctl (j.col e + k)) v.1 v.2))
  match j.out.fmt with
  | .a48 => imageRow j.out t words e i
  | .f32 => floatRow j.out f32 e base vs
  | .b16 => floatRow j.out b16 e base vs
  | _ => blockedRow j.out (paletteLevels s j.out.pal) j.rc j.ctl.floor j.ctl.offMax base vs

/-- A drained row written, with its counters (R127) and origins (R140); false where a poisoned
sector kept it from being whole. -/
def putRow (s : State) (x : StCtx) (j : ScreedJob) (o : RowOut) : State × Bool :=
  let w := o.puts.foldl (fun (r : State × Bool) p =>
    let a := spaceWrite r.1 x.io j.out.space p.1 p.2
    (a.1, r.2 && a.2)) (s, true)
  let s := coreBump (coreBump (coreBump (coreBump w.1 x.io.pc 0x100 1) x.io.pc 0x104 o.sat) x.io.pc 0x108 o.lowered)
    x.io.pc 0x10C o.notFin
  (x.propagated (x.origins s 1 0 0 o.origins) (o.notFin - o.origins.length), w.2)

/-- A failed drain (R92, R126): the row is not written, the tile halts, and the stage stops. A Screed write
whose parity fails (kind 5) goes the same way, and leaves the tell-tale's registers alone. -/
def drainStop (s : State) (x : StCtx) (j : ScreedJob) (f : Option ArrayFault) (t : Tile) (p e i kind observed : Nat)
    (es : List Int) : State :=
  let pe := x.io.pc * 4 + e
  let s := tilePut s pe j.tile.tile { t with halted := true }
  let s := if kind = 5 then s
    else
      let s := failRegs s pe j.tile.tile (if kind = 1 then observed else 0) (if kind = 1 then nthD t.rowres i 0 else 0) i 0 false false kind 0
      if kind = 1 then csrBump s (engBlock pe + 8) 7 4 1 else csrBump s (engBlock pe + 8) 3 0 1
  let s := holdPass s pe
    { kind := if kind = 3 then 4 else kind, block := 0, num := p, vec := i, tile := j.tile.tile
      word := (f.map (fun f => f.word)).getD 0, syn := (f.map (fun f => f.syn)).getD 0
      sums := es, marks := [], window := 0, unchecked := false }
  holdClocks (syncRecovering (coreUpd s x.run.cmd.op x.core.core (fun k => { k with stopped := true, rowPos := p })))

/-- One place of the drain: 0 goes on, 1 the stage has stopped, 2 its write failed. -/
def drainPlace (x : StCtx) (j : ScreedJob) (faults : List ArrayFault) (p : Nat) (s : State) : State × Nat :=
  let (e, i) := j.place p
  if !j.inside e i then (s, 0)
  else
    let pe := x.io.pc * 4 + e
    let t := tileGet s pe j.tile.tile
    let words := spillWords s x.io.pc t
    let f := faults.find? (fun f => f.engine == e && f.pos == i)
    -- the row as read, with a fault's error in it
    let u := match f with
      | some f => { t with rows := t.rows.set i ((nthD t.rows i []).mapIdx (fun k v =>
          if k = f.column then v + BitVec.ofInt 48 f.delta else v)) }
      | none => t
    let tot := rowTotals u words i
    let es := tot.map (·.1)
    let observed := res255 (es.foldl (· + ·) 0)
    let marked := (rowTotals t words i).any (·.2)
    let kind := (f.map (fun f => f.kind)).getD 0
    if kind = 3 then (drainStop s x j f t p e i 3 observed es, 1)
    else if !marked && observed != nthD t.rowres i 0 then (drainStop s x j f t p e i 1 observed es, 1)
    else if kind = 5 then (drainStop s x j f t p e i 5 observed es, 1)
    else
      let s := csrBump s (engBlock pe + 8) 31 16 (boolNat marked)
      let w := putRow s x j (convertRow s x j u words e i)
      (w.1, if w.2 then 0 else 2)

/-- The places from `p` on. -/
def drainFrom (x : StCtx) (j : ScreedJob) (faults : List ArrayFault) : Nat → Nat → State → State × Nat
  | 0, _, s => (s, 0)
  | left + 1, p, s =>
    let r := drainPlace x j faults p s
    if r.2 = 0 then drainFrom x j faults left (p + 1) r.1 else r

/-- SCREED over one core (R119), on from the place its drain had reached. -/
def screedBody (faults : List ArrayFault) (x : StCtx) (s : State) : State :=
  match lastMultiply x.head.stages x.i, ScreedCtl.ofBytes x.rcd.ctrl, x.desc s x.rcd.dOut with
  | some m, some c, some d =>
    let j : ScreedJob := { ctl := c, tile := m, out := d, rc := Recipe.ofBytes x.run.recipe }
    let r := drainFrom x j faults (j.places - x.core.rowPos) x.core.rowPos s
    if r.2 = 1 then r.1 else if r.2 = 2 then x.fail r.1 stFault else x.done r.1
  | _, _, _ => x.fail s stBadParam

/-- The rows whose write fails its parity on the way (R126), as faults of the drain. -/
def writeFaults (writes : List ArrayFault) : List ArrayFault := writes.map (fun f => { f with kind := 5 })

/-- SCREED (R119) with its spot check. -/
def screedState (op core : Nat) (ev : StageEvents) (writes : List ArrayFault) (s : State) : State :=
  stageRow op core ev (isKind kScreed) (fun x s => x.checked s 0x103 ev.spot (screedBody (ev.arrays ++ writeFaults writes))) s

/-! The meanings of the rows. -/

/-- SCREED (R121). A SCREED stage drains the tile after the last add and converts each entry with a single rounding. -/
def execScreed (op core : Nat) (ev : StageEvents) (writes : List ArrayFault) (s : State) : Host.Outcome State Fault Refusal :=
  .next (screedState op core ev writes s)

end Sys2Proof.Machine
end

