-- ==== Sys2Proof/Machine/VectorStages.lean ====
section
/-! DEFINITION. The VECTOR stages (R128–R142, R430): each function of R131 over the rows of a
core's slice, its row state, parameters and output. -/

namespace Sys2Proof.Machine

/-- Whether the main input is F64. -/
def VecCtl.in64 (c : VecCtl) : Bool := (Format.ofByte c.inFmt).map (·.1) == some .f64

/-- Whether an input of a function goes through F32: all but an F64 one under PREC or ranked by TOPK (R138). -/
def VecCtl.narrow (c : VecCtl) (is64 : Bool) : Bool := !is64 || !(c.prec || c.func == 0x30)

/-- What a vector function has for one row (R130–R132, R430). -/
def vecIn (s : State) (pc : Nat) (c : VecCtl) (y64 : Bool) (r : Nat) (x y : List FV) : VecIn :=
  let n := x.length
  let x32 := x.map f32.round
  let y32 := y.map f32.round
  { ctl := c, x := x32, raw := x, wide := if c.in64 then x else x32, y := y32, rawY := y, wideY := if y64 then y else y32
    state := if vecUsesState c.func then coreRead s pc (c.state + 64 * r) 64 else rsZero
    gamma := coreFloats s pc c.param n, beta := coreFloats s pc (c.param + 4 * c.rowLen) n
    dgamma := coreFloats s pc c.aux n, dbeta := coreFloats s pc (c.aux + 4 * c.rowLen) n
    ids := if c.func = 0x38 then (List.range n).map (fun i => leNat (coreRead s pc (c.param + 4 * i) 4)) else []
    topk := if c.func = 0x30 then coreRead s pc (c.aux + 8 * c.k * r) (8 * c.k) else [], row := r }

/-- The causes of a row's elements: the conversion of the inputs to F32, and then the function's own (R140). -/
def rowCauses (c : VecCtl) (y64 : Bool) (v : VecIn) (o : VecRow) : List Nat :=
  (List.range (max v.x.length o.causes.length)).map (fun i =>
    firstCause [if c.narrow c.in64 then causeOf [nthD v.raw i fvZero] (nthD v.x i fvZero) else 0,
      if c.narrow y64 then causeOf [nthD v.rawY i fvZero] (nthD v.y i fvZero) else 0, nthD o.causes i 0])

/-- A vector stage's output as it grows: rows of values and of causes, and the other float results. -/
structure VecOut where
  rows   : List (List FV)
  causes : List (List Nat)
  more   : List (Nat × FV × Nat)

/-- One row worked: state, parameters' partials, lists and records go to the core buffer or the
output at once (R132, R137–R139). A row's SEGSUM records lie at the row's own bytes of D_OUT, each after the
records its row has written before (the spec names D_OUT and no offset: DESIGN CHOICE 92). -/
def vecRowStep (f : VecIn → VecRow) (x : StCtx) (c : VecCtl) (seg : Option Desc) (a : State × VecOut × Bool)
    (p : Nat × List FV × List FV) : State × VecOut × Bool :=
  let pc := x.io.pc
  let y64 := ((x.desc a.1 x.rcd.dAux).map (·.fmt)) == some .f64
  let v := vecIn a.1 pc c y64 p.1 p.2.1 p.2.2
  let o := f v
  let s := if vecUsesState c.func then coreWrite a.1 pc (c.state + 64 * p.1) o.state else a.1
  let w := o.puts.foldl (fun (r : State × Bool) q =>
    match seg with
    | some d =>
      let m := spaceWrite r.1 x.io d.space (d.code + p.1 * (d.width * d.fmt.bits / 8) + 16 * q.1) q.2
      (m.1, r.2 && m.2)
    | none => (coreWrite r.1 pc q.1 q.2, r.2)) (s, a.2.2)
  (w.1, { rows := a.2.1.rows ++ [o.out], causes := a.2.1.causes ++ [rowCauses c y64 v o]
          more := a.2.1.more ++ o.more.map (fun m => (p.1 * v.x.length + m.1, m.2)) }, w.2)

/-- Origins and propagations of a stage's float results, each with its element and cause (R140, R141). -/
def StCtx.trapped (x : StCtx) (s : State) (c : VecCtl) (rs : List (Nat × FV × Nat)) : State :=
  x.propagated (x.origins s 2 c.func c.sub ((rs.filter (fun r => r.2.2 != 0)).map (fun r => (0, r.1, r.2.2))))
    (rs.filter (fun r => r.2.2 == 0 && !r.2.1.isFin)).length

/-- A float output written: an element is an origin by its function or by its conversion (R59, R140). An F64
result written as B16 is rounded once (R59 has no such row: DESIGN CHOICE 91). -/
def putFloatOut (s : State) (x : StCtx) (c : VecCtl) (d : Desc) (f : Fmt) (o : VecOut) : State × Bool :=
  let rs := (List.zip o.rows.flatten o.causes.flatten).mapIdx (fun k p =>
    (k, f.round p.1, firstCause [p.2, causeOf [p.1] (f.round p.1)]))
  let w := writeFloats s x.io d f o.rows
  (x.trapped w.1 c (rs ++ o.more), w.2)

/-- A G16B32 output written (R128): quantised by the steps of R123 from the F32 results, saturated elements and
lowered blocks counted as there, its not-finite blocks once each (R141). -/
def putBlockOut (s : State) (x : StCtx) (c : VecCtl) (d : Desc) (o : VecOut) : State × Bool :=
  let vals := o.rows.flatten
  let cs := (List.zip vals (o.causes.flatten)).map (fun p => firstCause [p.2, causeOf [p.1] (f32.round p.1)])
  let bs := (chunksOf 32 vals.length (vals.map f32.round)).map (fun b =>
    screedBlock d.fmt [] (Recipe.ofBytes x.run.recipe) c.floor c.offMax b)
  let cb := chunksOf 32 cs.length cs
  let result (k : Nat) : Nat × FV × Nat :=
    match ((nthD cb k []).mapIdx (fun i q => (i, q))).find? (fun p => p.2 != 0) with
    | some p => (32 * k + p.1, .nan, p.2)
    | none => (32 * k, if (nthD bs k (0, [], 0, false)).1 = 0xFF then .nan else fvZero, 0)
  let w := writeBlocks s x.io d (bs.map (·.2.1)) [bs.map (·.1)]
  let t := coreBump (coreBump w.1 x.io.pc 0x104 ((bs.map (fun b => b.2.2.1)).foldl (· + ·) 0)) x.io.pc 0x108
    (bs.filter (fun b => b.2.2.2)).length
  (x.trapped t c ((List.range bs.length).map result), w.2)

/-- What a function that writes no output tensor adds to the trap's counts: the origins of its row state, and its
other float results. -/
def putNoOut (s : State) (x : StCtx) (c : VecCtl) (width : Nat) (o : VecOut) : State × Bool :=
  let rs := (o.causes.mapIdx (fun r cs => cs.mapIdx (fun k q => (r * width + k, fvZero, q)))).flatten
  (x.trapped s c (rs ++ o.more), true)

/-- A VECTOR stage over one core (R128, R430): rows in ascending order. -/
def vecBody (f : VecIn → VecRow) (x : StCtx) (s : State) : State :=
  match VecCtl.ofBytes x.rcd.ctrl, x.desc s x.rcd.dIn with
  | some c, some a =>
    let r := readVals s x.io a
    let y := match x.desc s x.rcd.dAux with
      | some b => if vecNeedsAux c.func then readVals r.1 x.io b else (r.1, some [])
      | none => (r.1, some [])
    match r.2, y.2 with
    | some xs, some ys =>
      let d := x.desc s x.rcd.dOut
      let seg := if c.func = 0x38 then d else none
      let w := (xs.mapIdx (fun i v => (i, v, nthD ys i []))).foldl (vecRowStep f x c seg) (y.1, { rows := [], causes := [], more := [] }, true)
      let o := match d with
        | some d =>
          if c.func = 0x38 ∨ !vecWritesOut c.func then putNoOut w.1 x c a.width w.2.1
          else match d.fmt.float? with
            | some t => putFloatOut w.1 x c d t w.2.1
            | none => putBlockOut w.1 x c d w.2.1
        | none => putNoOut w.1 x c a.width w.2.1
      if w.2.2 && o.2 then x.done o.1 else x.fail o.1 stFault
    | _, _ => x.fail y.1 stFault
  | _, _ => x.fail s stBadParam

/-- Whether a stage is the vector function of a number (R131). -/
def isVec (f : Nat) (t : StageRec) : Bool := t.kind == kVector && leAt t.ctrl 0 1 == f

/-- A vector function's row, under the vector unit's spot check (R345). -/
def vecRow (num : Nat) (f : VecIn → VecRow) (op core : Nat) (ev : StageEvents) (s : State) : State :=
  stageRow op core ev (isVec num) (fun x s => x.checked s 0x104 ev.spot (vecBody f)) s

/-- COPY (R133). -/
def vecCopyState (op core : Nat) (ev : StageEvents) (s : State) : State := vecRow 0x00 vfCopy op core ev s

/-- ADD (R133). -/
def vecAddState (op core : Nat) (ev : StageEvents) (s : State) : State := vecRow 0x01 vfAdd op core ev s

/-- SUB (R133). -/
def vecSubState (op core : Nat) (ev : StageEvents) (s : State) : State := vecRow 0x02 vfSub op core ev s

/-- MUL (R133). -/
def vecMulState (op core : Nat) (ev : StageEvents) (s : State) : State := vecRow 0x03 vfMul op core ev s

/-- ACT_BWD (R133). -/
def actBwdState (op core : Nat) (ev : StageEvents) (s : State) : State := vecRow 0x11 vfActBwd op core ev s

/-- SM_STATS (R134). -/
def smStatsState (op core : Nat) (ev : StageEvents) (s : State) : State := vecRow 0x20 vfSmStats op core ev s

/-- SM_NORM (R134). -/
def smNormState (op core : Nat) (ev : StageEvents) (s : State) : State := vecRow 0x21 vfSmNorm op core ev s

/-- SM_BWD_SUM (R135). -/
def smBwdSumState (op core : Nat) (ev : StageEvents) (s : State) : State := vecRow 0x22 vfSmBwdSum op core ev s

/-- SM_BWD (R135). -/
def smBwdState (op core : Nat) (ev : StageEvents) (s : State) : State := vecRow 0x23 vfSmBwd op core ev s

/-- LN_STATS (R136). -/
def lnStatsState (op core : Nat) (ev : StageEvents) (s : State) : State := vecRow 0x28 vfLnStats op core ev s

/-- NORM_APPLY (R136). -/
def normApplyState (op core : Nat) (ev : StageEvents) (s : State) : State := vecRow 0x29 vfNormApply op core ev s

/-- NORM_BWD_SUM (R137). -/
def normBwdSumState (op core : Nat) (ev : StageEvents) (s : State) : State := vecRow 0x2A vfNormBwdSum op core ev s

/-- NORM_BWD (R137). -/
def normBwdState (op core : Nat) (ev : StageEvents) (s : State) : State := vecRow 0x2B vfNormBwd op core ev s

/-- RMS_STATS (R136). -/
def rmsStatsState (op core : Nat) (ev : StageEvents) (s : State) : State := vecRow 0x2C vfRmsStats op core ev s

/-- TOPK (R138). -/
def topkState (op core : Nat) (ev : StageEvents) (s : State) : State := vecRow 0x30 vfTopk op core ev s

/-- SEGSUM (R139). -/
def segsumState (op core : Nat) (ev : StageEvents) (s : State) : State := vecRow 0x38 vfSegsum op core ev s

/-- ACT (R133). -/
def actState (op core : Nat) (ev : StageEvents) (s : State) : State := vecRow 0x10 vfAct op core ev s

/-! The meanings of the rows. -/

/-- VEC_COPY (R133). Vector function COPY converts input format to output format. -/
def execVecCopy (op : Nat) (work : StageAt) (s : State) : Host.Outcome State Fault Refusal :=
  .next (vecCopyState op work.core work.ev s)

/-- VEC_ADD (R133). Vector function ADD adds main and second input element-wise. -/
def execVecAdd (op : Nat) (work : StageAt) (s : State) : Host.Outcome State Fault Refusal :=
  .next (vecAddState op work.core work.ev s)

/-- VEC_SUB (R133). Vector function SUB subtracts the second input element-wise. -/
def execVecSub (op : Nat) (work : StageAt) (s : State) : Host.Outcome State Fault Refusal :=
  .next (vecSubState op work.core work.ev s)

/-- VEC_MUL (R133). Vector function MUL multiplies element-wise. -/
def execVecMul (op : Nat) (work : StageAt) (s : State) : Host.Outcome State Fault Refusal :=
  .next (vecMulState op work.core work.ev s)

/-- ACT (R133). Vector function ACT writes an element function of each input. -/
def execAct (op core : Nat) (ev : StageEvents) (s : State) : Host.Outcome State Fault Refusal :=
  .next (actState op core ev s)

/-- ACT_BWD (R133). Vector function ACT_BWD writes dy times the derivative at the stored pre-activation. -/
def execActBwd (op : Nat) (work : StageAt) (s : State) : Host.Outcome State Fault Refusal :=
  .next (actBwdState op work.core work.ev s)

/-- SM_STATS (R134). Vector function SM_STATS updates a row's softmax maximum and sum for one piece. -/
def execSmStats (op : Nat) (work : StageAt) (s : State) : Host.Outcome State Fault Refusal :=
  .next (smStatsState op work.core work.ev s)

/-- SM_NORM (R134). Vector function SM_NORM writes normalised softmax values. -/
def execSmNorm (op : Nat) (work : StageAt) (s : State) : Host.Outcome State Fault Refusal :=
  .next (smNormState op work.core work.ev s)

/-- SM_BWD_SUM (R135). Vector function SM_BWD_SUM accumulates the row sum of dy times y. -/
def execSmBwdSum (op : Nat) (work : StageAt) (s : State) : Host.Outcome State Fault Refusal :=
  .next (smBwdSumState op work.core work.ev s)

/-- SM_BWD (R135). Vector function SM_BWD writes the softmax input gradient. -/
def execSmBwd (op : Nat) (work : StageAt) (s : State) : Host.Outcome State Fault Refusal :=
  .next (smBwdState op work.core work.ev s)

/-- LN_STATS (R136). Vector function LN_STATS accumulates layer-norm statistics and stores mean and r at LAST. -/
def execLnStats (op : Nat) (work : StageAt) (s : State) : Host.Outcome State Fault Refusal :=
  .next (lnStatsState op work.core work.ev s)

/-- RMS_STATS (R136). Vector function RMS_STATS accumulates root-mean-square statistics. -/
def execRmsStats (op : Nat) (work : StageAt) (s : State) : Host.Outcome State Fault Refusal :=
  .next (rmsStatsState op work.core work.ev s)

/-- NORM_APPLY (R136). Vector function NORM_APPLY normalises and applies gamma and beta. -/
def execNormApply (op : Nat) (work : StageAt) (s : State) : Host.Outcome State Fault Refusal :=
  .next (normApplyState op work.core work.ev s)

/-- NORM_BWD_SUM (R137). Vector function NORM_BWD_SUM accumulates G1 and G2 over the row. -/
def execNormBwdSum (op : Nat) (work : StageAt) (s : State) : Host.Outcome State Fault Refusal :=
  .next (normBwdSumState op work.core work.ev s)

/-- NORM_BWD (R137). Vector function NORM_BWD writes dx and accumulates gamma and beta gradient partials. -/
def execNormBwd (op : Nat) (work : StageAt) (s : State) : Host.Outcome State Fault Refusal :=
  .next (normBwdState op work.core work.ev s)

/-- TOPK (R138). Vector function TOPK merges a piece into the row's ranked list of K values and positions. -/
def execTopk (op : Nat) (work : StageAt) (s : State) : Host.Outcome State Fault Refusal :=
  .next (topkState op work.core work.ev s)

/-- SEGSUM (R139). Vector function SEGSUM writes one record per run of equal segment IDs. -/
def execSegsum (op : Nat) (work : StageAt) (s : State) : Host.Outcome State Fault Refusal :=
  .next (segsumState op work.core work.ev s)

end Sys2Proof.Machine
end

