-- ==== Sys2Proof/Machine/Decisions.lean ====
section
/-! DEFINITION. What the fault manager decides of an array's event (R350, R351): the vote of
three on a suppressed pass, a drain mismatch read again, and cell parity and SECDED events. -/

namespace Sys2Proof.Machine

/-- The RUN and logical core that stand stopped on a physical core. -/
def stoppedOn (s : State) (pc : Nat) : Option (Cmd × Nat) :=
  s.runs.findSome? (fun r => (r.cores.find? (fun k => k.stopped && physCore s k.core == pc)).map (fun k => (r.cmd, k.core)))

/-- A held pass's sums added to the tile's row with their residue (R90, R350): `sums` as the decision takes
them, with the pass's own marks and counts, so that the tile holds what the pass would have left. -/
def addHeld (s : State) (pe : Nat) (h : PassHold) (sums : List Int) : State :=
  let t := tileGet s pe h.tile
  let w : EngWork :=
    { tile := t, window := 0, ranged := 0, unchecked := 0, words := spillWords s (pe / 4) t, spills := 0, stop := none }
  let w := w.addRow h.vec (sums.mapIdx (fun j v => { val := v, marked := nthD h.marks j false, window := 0 }))
    (res255 (sums.foldl (· + ·) 0))
  let s := putSpill (tilePut s pe h.tile w.tile) (pe / 4) w.tile w.words
  csrBump (csrBump (csrBump s (engBlock pe + 4) 31 16 h.window) (engBlock pe + 4) 15 0 w.ranged)
    (engBlock pe + 8) 31 16 (boolNat h.unchecked)

/-- An engine's event decided: its tile is no longer halted, its pass-hold register is free, and
its stage goes on at `pos`; the core goes on once none of its engines waits. -/
def resumeEngine (s : State) (c : Cmd) (lc pe tile : Nat) (pos : Option Nat) : State :=
  let s := tilePut s pe tile { tileGet s pe tile with halted := false }
  let s := { s with chip := { s.chip with passHold := stErase s.chip.passHold pe } }
  let waits := (List.range 4).any (fun e => (holdGet s (pe / 4 * 4 + e)).isSome)
  coreUpd s c.op lc (fun k => { k with
    stopped := waits
    engPos := match pos with
      | some p => k.engPos.set (pe % 4) p
      | none => k.engPos })

/-- The record of an array's event (R353): the failure registers and the vote's outcome, a SECDED word's
address and syndrome, or the failing byte lanes. -/
def arrayRec (s : State) (c : Cmd) (h : PassHold) (unit check outcome pe : Nat) : ErrRec :=
  { unit := unit, check := check, detail := 0, severity := 1, action := 3, opcode := c.opcode, op := c.op
    syndrome :=
      if check = 0x04 then leBytes 8 h.word ++ [byteOf h.syn]
      else if check = 0x05 then leBytes 2 h.word
      else leBytes 4 (csrGet s (engBlock pe + 0x10)) ++ leBytes 4 (csrGet s (engBlock pe + 0x14)) ++ [byteOf outcome] }

/-- The engine of re-run B (R350): the idle spare's, or that of logical core k xor 1. -/
def engineB (s : State) (lc pe : Nat) : Nat :=
  let n := pe / 36
  if spareState s n = 0 ∧ coreNo n (spareCore s n) ≠ pe / 4 then coreNo n (spareCore s n) * 4 + pe % 4
  else (physCore s (lc / 8 * 8 + (lc % 8) ^^^ 1)) * 4 + pe % 4

/-- The vote of R350: the outcome row 1–5, and the sums to add. -/
def passVote (o : List Int) (a b : ReRun) : Nat × Option (List Int) :=
  let eqAB := a.passed && b.passed && a.sums == b.sums
  let eqAO := a.passed && a.sums == o
  let eqBO := b.passed && b.sums == o
  if eqAB && eqAO then (1, some o)
  else if eqAB then (2, some a.sums)
  else if eqAO then (3, some o)
  else if eqBO then (4, some o)
  else (5, none)

/-- PASS_MISMATCH_DECISION (R350). -/
def passMismatchDecisionState (eng : Nat) (runA runB : ReRun) (s : State) : State :=
  match holdGet s eng, stoppedOn s (eng / 4) with
  | some h, some (c, lc) =>
    if h.kind ≠ 0 then s
    else
      let v := passVote h.sums runA runB
      let t := match v.2 with
        | some x => addHeld s eng h x
        | none => s
      let t := resumeEngine t c lc eng h.tile (some (h.block * 2 ^ 20 + h.num + 1))
      let unit := if v.1 = 1 then unitEngine eng 0x021 else if v.1 = 3 then unitEngine (engineB s lc eng) 0x020 else unitEngine eng 0x020
      let t := decideEvent t (arrayRec t c h unit 0x02 v.1 eng) (v.1 == 1 || v.1 == 5)
      holdClocks (syncRecovering (if v.1 = 5 then orderReplay t unit 0x02 else t))
  | _, _ => s

/-- A pass run again after a cell parity or operand-buffer event (R351): clean, its sums are added
and the stage goes on; failed again, the fault is permanent, and the pass runs on the core that
stands in. -/
def hardAgain (s : State) (eng unit check : Nat) (h : PassHold) (c : Cmd) (lc : Nat) (r : ReRun) : State :=
  let place := h.block * 2 ^ 20 + h.num
  if r.passed then
    let t := resumeEngine (addHeld s eng h r.sums) c lc eng h.tile (some (place + 1))
    decideEvent t (arrayRec t c h unit check 0 eng) false
  else
    let t := resumeEngine s c lc eng h.tile (some place)
    decideEvent t (arrayRec t c h unit check 0 eng) true

/-- ARRAY_EVENT_DECISION (R351): `again` holds the two reads of a drained row, the re-run of a pass, or
the second try of a Screed write. The table names no decision for a Screed write whose parity fails (R126): the
row is converted and written again, and an error that recurs is permanent (R348; DEDUCED 86). -/
def arrayEventDecisionState (eng : Nat) (again : List ReRun) (s : State) : State :=
  match holdGet s eng, stoppedOn s (eng / 4) with
  | some h, some (c, lc) =>
    let r := nthD again 0 { passed := false, sums := [] }
    let t := tileGet s eng h.tile
    let u :=
      if h.kind = 1 then
        let good := (again.take 2).any (fun x => res255 (x.sums.foldl (· + ·) 0) == nthD t.rowres h.vec 0)
        let w := resumeEngine s c lc eng h.tile none
        let w := decideEvent w (arrayRec w c h (unitEngine eng h.tile) 0x03 0 eng) false
        if good then w else orderReplay w (unitEngine eng h.tile) 0x03
      else if h.kind = 2 then hardAgain s eng (unitEngine eng 0x020) 0x01 h c lc r
      else if h.kind = 3 then hardAgain s eng (unitEngine eng (0x010 + h.block % 2)) 0x04 h c lc r
      else if h.kind = 4 then
        let w := resumeEngine s c lc eng h.tile none
        let w := coreUpd w c.op lc (fun k => { k with status := stFault })
        orderReplay (decideEvent w (arrayRec w c h (unitEngine eng h.tile) 0x04 0 eng) false) (unitEngine eng h.tile) 0x04
      else if h.kind = 5 then
        let w := resumeEngine s c lc eng h.tile none
        decideEvent w (arrayRec w c h (unitCore (eng / 4) 0x103) 0x05 0 eng) (!r.passed)
      else s
    holdClocks (syncRecovering u)
  | _, _ => s

/-! The meanings of the rows. -/

/-- PASS_MISMATCH_DECISION (R350). After two re-runs, the fault manager decides by vote what is added and which unit is counted or retired. -/
def execPassMismatchDecision (eng : Nat) (runA runB : ReRun) (s : State) : Host.Outcome State Fault Refusal :=
  .next (passMismatchDecisionState eng runA runB s)

/-- ARRAY_EVENT_DECISION (R351). The fault manager decides a drain mismatch, cell parity or uncorrectable SECDED event. -/
def execArrayEventDecision (eng : Nat) (again : List ReRun) (s : State) : Host.Outcome State Fault Refusal :=
  .next (arrayEventDecisionState eng again s)

end Sys2Proof.Machine
end

