-- ==== Sys2Proof/Machine/Hbm.lean ====
section
/-! DEFINITION. The memory's own rows (chapter 08): a pseudo-channel's and a capacity controller's
grants, refresh, the patrol scrubber, the retirement of a pseudo-channel, and the migration of
Hawk overflow units. -/

namespace Sys2Proof.Machine

/-! Grants (R29, R30, R32, R195). -/

/-- The request a scheduler grants among those it may take, its queue without it, and the pointers
moved. `port` numbers a request's requester. -/
def grantReq (s : State) (base n : Nat) (port : MemReq → Nat) (ok : MemReq → Bool) (q : List MemReq) :
    Option (MemReq × List MemReq × State) :=
  let can := q.filter ok
  match grant s base n (can.map (fun r => (port r, r.cls))) with
  | none => none
  | some (j, t) =>
    let c := can.foldl (fun m r => min m r.cls) 7
    match can.find? (fun r => port r == j && r.cls == c) with
    | none => none
    | some r => some (r, q.erase r, t)

/-- SECTOR_GRANT (R195): requesters 0 to 3 are the compute dies, 4 Topcoat, 5 the adders, 6 refresh
(R32); what the hub asks for comes through the stack's home die. CASE holds classes 4 and 5 (R213). -/
def sectorGrantState (stack pc : Nat) (s : State) : State :=
  let k := stack * 64 + pc
  let port (r : MemReq) : Nat := if r.kind = 4 then 5 else if r.src < 4 then r.src else stack / 2
  if 8 ≤ stack ∨ 64 ≤ pc then s
  else match grantReq s k 7 port (fun r => decide (r.cls < 4) || !caseHot s stack) (stGet [] s.mem.queues k) with
    | none => s
    | some (r, q, t) => memServed { t with mem := { t.mem with queues := stSet [] t.mem.queues k q } } r

/-- CAPACITY_ACCESS (R215–R217): requesters 0 hub traffic, 1 mirror, 2 migration, 3 refresh (R32). What waits here has
come over the Lath and is hub traffic; the others are granted at their own rows. The group-index check is part of the
access (R216). -/
def capacityAccessState (ctl : Nat) (s : State) : State :=
  if 8 ≤ ctl then s
  else match grantReq s (600 + ctl) 4 (fun _ => 0) (fun _ => true) (stGet [] s.mem.tierQ ctl) with
    | none => s
    | some (r, q, t) => memServed { t with mem := { t.mem with tierQ := stSet [] t.mem.tierQ ctl q } } r

/-! Refresh (R212). -/

/-- REFRESH (R212): the scheduler's requester 6, of class 0 (R32); what the bank holds is kept; the tick of its last refresh is noted. It goes on
at every shed level up to S5. -/
def refreshState (stack pc bank : Nat) (s : State) : State :=
  if 8 ≤ stack ∨ 64 ≤ pc ∨ !released s then s
  else
    let k := (stack * 64 + pc) * 256 + bank % 256
    let s := ((grant s (stack * 64 + pc) 7 [(6, 0)]).map (·.2)).getD s
    { s with mem := { s.mem with refreshed := stSet 0 s.mem.refreshed k s.plumb } }

/-! The patrol scrubber (R206, R219). -/

/-- The tier byte offset of a controller's `i`th data sector (R217). -/
def tierSector (ctl i : Nat) : Nat :=
  let h := i / 7
  ((8 * h + (ctl ^^^ xorPieces 3 20 h)) * 7 + i % 7) * 64

/-- The local address whose bytes stand at a tier byte offset: the tier's own, or the remapped
pseudo-channel whose slot it is (R207). -/
def tierAddr (s : State) (t : Nat) : Option Nat :=
  if tierOut s then none else if t < 1784 * 2 ^ 30 then some (0x20000000000 + t)
  else
    let slot := t / 2 ^ 30 - 1784
    match (List.range 512).find? (fun i =>
        let w := csrGet s (rMemPcStatus + 0x10000 * (i / 64) + 4 * (i % 64))
        bitOf w 30 && fieldOf w 29 27 == slot) with
    | none => none
    | some i => some (hbmAddr s (i / 64) (i % 64) (t % 2 ^ 30))

/-- An error laid over a sector's: symbols xored, none left at 0. -/
def mergeErr (es : List (Nat × Nat)) (e : Nat × Nat) : List (Nat × Nat) :=
  let old := (es.find? (fun x => x.1 == e.1)).elim 0 (·.2)
  let rest := es.filter (fun x => x.1 != e.1)
  let v := (old ^^^ e.2) % 2 ^ 16
  if v = 0 then rest else rest ++ [(e.1, v)]

/-- What the cells of a sector had lost when the scrubber reads it: symbol positions 0 to 35, and in
the tier 36 and 37 for the two copies of the group's index. -/
def cellFlips (s : State) (k : Nat) (flips : List (Nat × Nat)) : State :=
  let s := setErrs s k ((flips.filter (fun e => decide (e.1 < 36))).foldl mergeErr (sectorErrs s k))
  match tierGroupOf s k with
  | none => s
  | some g =>
    let x := stGet (0, 0) s.mem.tierIdx g
    let d (p : Nat) : Nat := (flips.filter (fun e => e.1 == p)).foldl (fun v e => v ^^^ e.2 % 2 ^ 32) 0
    { s with mem := { s.mem with tierIdx := stSet (0, 0) s.mem.tierIdx g (x.1 ^^^ d 36, x.2 ^^^ d 37) } }

/-- PATROL_SCRUB (R206, R219): the next sector of pseudo-channel `pc` of stack `stack` read; stack 8
names the capacity controllers, `pc` being the controller. A pass goes round; `flips` is what the
cells had lost. A retired pseudo-channel's own cells and an empty remap slot only move the scrubber on: nothing is served
there. -/
def patrolScrubState (stack pc : Nat) (flips : List (Nat × Nat)) (s : State) : State :=
  if 9 ≤ stack ∨ 64 ≤ pc ∨ (stack = 8 ∧ 8 ≤ pc) ∨ !released s then s
  else
    let k := stack * 64 + pc
    let i := stGet 0 s.mem.scrub k
    let n := if stack = 8 then 7 * 2 ^ 29 else 2 ^ 24
    let a := if stack = 8 then tierAddr s (tierSector pc i)
      else if bitOf (csrGet s (rMemPcStatus + 0x10000 * stack + 4 * pc)) 30 then none
      else some (hbmAddr s stack pc (64 * i))
    let s := { s with mem := { s.mem with scrub := stSet 0 s.mem.scrub k ((i + 1) % n) } }
    match a with
    | none => s
    | some a =>
      let s := cellFlips s (a / 64) flips
      if (badSectors s a 64).isEmpty then s else meetSector (!writeWaits s a) s (a / 64)

/-! Retirement (R207). -/

/-- Whether the traffic of a stack stands still: nothing waits at its pseudo-channels, and the device is between steps, or
in fault recovery (R207). -/
def stackQuiet (s : State) (st : Nat) : Bool :=
  (List.range 64).all (fun pc => (stGet [] s.mem.queues (st * 64 + pc)).isEmpty)
    && ((stepPhase s != sOpen && stepPhase s != sDeciding) || csrField s rSngStatus 29 29 == 1
        || (s.runs.isEmpty && s.topcoat.running.isNone))

/-- PSEUDO_CHANNEL_RETIREMENT (R207): a pseudo-channel the fault manager has condemned is copied
into a remap slot and served there; an open step is then replayed. -/
def pseudoChannelRetirementState (stack pc : Nat) (s : State) : State :=
  let u := unitMem stack pc 0
  if 8 ≤ stack ∨ 64 ≤ pc ∨ !s.snag.retires.contains u ∨ !stackQuiet s stack then s
  else
    let s := retirePc (markRetired { s with snag := { s.snag with retires := s.snag.retires.filter (· != u) } } u) stack pc
    if stepPhase s = sOpen ∨ stepPhase s = sDeciding then orderReplay s u 0x08 else s

/-! Migration of Hawk overflow units (R156). -/

/-- HAWK_MIGRATION (R156): one 4 KiB unit of stack `mb` that lies in the overflow part of a frame is
copied to `staging` in interleaved space, as requester 2 of the tier and of class 4 (R32); S2 holds it (R375), and so do a
stack in CASE (R213) and waiting requests of a higher class. A unit that cannot be read whole stays
where it is. -/
def hawkMigrationState (mb unit staging : Nat) (s : State) : State :=
  let h := hawkOf s mb
  let l := (rangeOf s.job.hawkHbm mb).len
  if 16 ≤ mb ∨ !released s ∨ 2 ≤ shedLevel s ∨ unit * 4096 < l ∨ staging % 4096 ≠ 0 ∨ !inInterleaved s staging 4096
      ∨ lowerWaits s 4 ∨ caseHolds s (hawkAddr s mb (unit * 4096)) 4096 ∨ caseHolds s staging 4096
      ∨ stGet 0 h.migrated unit ≠ 0 ∨ !h.frames.any (fun f => decide (f.start ≤ unit) && decide (unit < f.start + f.length)) then s
  else
    let s := portGrant s (hawkAddr s mb (unit * 4096)) 0 2 4
    let r := readMem s (hawkAddr s mb (unit * 4096)) 4096
    match r.2 with
    | none => r.1
    | some b => hawkPut (writeMem r.1 staging b).1 mb { h with migrated := stSet 0 h.migrated unit (staging + 1) }

/-! The meanings of the rows. -/

/-- SECTOR_GRANT (R195). A pseudo-channel scheduler grants an access, which reads, writes or adds its whole sector. -/
def execSectorGrant (stack pc : Nat) (s : State) : Host.Outcome State Fault Refusal :=
  .next (sectorGrantState stack pc s)

/-- CAPACITY_ACCESS (R216). A capacity controller reads or writes a tier group with its check sector and group-index check. -/
def execCapacityAccess (ctl : Nat) (s : State) : Host.Outcome State Fault Refusal :=
  .next (capacityAccessState ctl s)

/-- REFRESH (R212). A pseudo-channel performs a per-bank refresh at class 0. -/
def execRefresh (stack pc bank : Nat) (s : State) : Host.Outcome State Fault Refusal :=
  .next (refreshState stack pc bank s)

/-- PATROL_SCRUB (R206). The patrol scrubber reads the next sector in a refresh slot. -/
def execPatrolScrub (stack pc : Nat) (flips : List (Nat × Nat)) (s : State) : Host.Outcome State Fault Refusal :=
  .next (patrolScrubState stack pc flips s)

/-- PSEUDO_CHANNEL_RETIREMENT (R207). A failing pseudo-channel is copied into a tier remap slot and served from there. -/
def execPseudoChannelRetirement (stack pc : Nat) (s : State) : Host.Outcome State Fault Refusal :=
  .next (pseudoChannelRetirementState stack pc s)

/-- HAWK_MIGRATION (R156). Class 4 migration copies overflow units of Hawk frames into HBM staging ahead of their UNSTASH. -/
def execHawkMigration (mb unit staging : Nat) (s : State) : Host.Outcome State Fault Refusal :=
  .next (hawkMigrationState mb unit staging s)

end Sys2Proof.Machine
end

