-- ==== Sys2Proof/Machine/JobCmds.lean ====
section
/-! DEFINITION. QUEUE_SETUP (R336), JOB_OPEN and JOB_CLOSE (R333), and the memory commands of
R340: REGION_MAP, FILL, COPY, WINDOW_MAP (R263) and MARGIN (R214). -/

namespace Sys2Proof.Machine

/-! Queues. -/

/-- Whether a queue holds no placed slot and no command that has not completed (R336). -/
def queueEmpty (s : State) (q : Nat) : Bool :=
  (queueAt s q).slots.all (·.begun) && !s.flights.any (fun f => f.cmd.queue == q)

/-- The checks of the queue form (R321, R322, R336). -/
def queueSetupCheck (s : State) (c : Cmd) : Option Nat :=
  let b := c.body
  let q := leAt b 1 1
  let d := leAt b 2 1
  let ring := leAt b 8 8
  let cq := leAt b 16 8
  if leAt b 0 1 ≠ 1 ∨ 7 < q ∨ d < 4 ∨ 10 < d ∨ !zeroAt b 3 5 ∨ !zeroAt b 24 24 ∨ 2 ^ 42 ≤ ring ∨ 2 ^ 42 ≤ cq then some stBadParam
  else if !placedHbm s ring (512 * 2 ^ d) ∨ cq % 64 ≠ 0 ∨ !placedHbm s cq ((2 ^ d + 64) * 32 + 64) then some stBadParam
  else if q = c.queue ∨ !queueEmpty s q then some stNotReady
  else none

/-- A queue's rings moved into interleaved space (R336): the history cleared, N and HEAD and
TAIL 0, the completion ring's contents unchanged. -/
def moveQueue (s : State) (q d ring cq : Nat) : State :=
  let x : Queue :=
    { queue0 with depthLog2 := d, inHub := false, ring := ring, cq := cq, launchHold := (queueAt s q).launchHold }
  (writeMem (queuePut s q x) cq (List.replicate 8 0)).1

/-- QUEUE_SETUP, queue form. -/
def bodyQueueSetup (c : Cmd) (s : State) : Option State :=
  refuseOr s c (queueSetupCheck s c)
    (finish (moveQueue s (leAt c.body 1 1) (leAt c.body 2 1) (leAt c.body 8 8) (leAt c.body 16 8)) c stOk)

/-- The checks of the QP form (R265, R336). A destroy names nothing but its QPN. -/
def queueSetupQpCheck (c : Cmd) : Option Nat :=
  let b := c.body
  let qpn := leAt b 4 4
  if qpn < 0x100 ∨ 0x1FF < qpn ∨ 1 < leAt b 3 1 ∨ leAt b 11 1 ≠ 0 ∨ leAt b 15 1 ≠ 0 ∨ !zeroAt b 19 5 ∨ !zeroAt b 40 8 then
    some stBadParam
  else if leAt b 3 1 = 1 ∧ (7 < leAt b 1 1 ∨ leAt b 2 1 < 3 ∨ 5 < leAt b 2 1) then some stBadParam
  else none

/-- QUEUE_SETUP, QP form: the context written, replaced or destroyed. -/
def bodyQueueSetupQp (c : Cmd) (s : State) : Option State :=
  let b := c.body
  let qpn := leAt b 4 4
  let qp : Qp :=
    { valid := true, queue := leAt b 1 1, mtu := 128 * 2 ^ leAt b 2 1, remote := leAt b 8 3, gid := sliceB b 24 16
      epsn := leAt b 12 3, msn := 0, rpsn := leAt b 16 3, send := [], sending := false, writeAt := 0
      writeLeft := 0, writing := false, lastCnp := none, byJob := jobOpen? s }
  let qps := if leAt b 3 1 = 1 then stInsert qpn qp (stErase s.net.qps qpn) else stErase s.net.qps qpn
  refuseOr s c (queueSetupQpCheck c) (finish { s with net := { s.net with qps := qps } } c stOk)

/-- QUEUE_SETUP (R336); a reserved KIND is refused here. -/
def queueSetupState (q qseq : Nat) (s : State) : State :=
  hostRow s q qseq (fun c => c.opcode == 0x0104 && leAt c.body 0 1 != 2) bodyQueueSetup

/-- QUEUE_SETUP with KIND 0x2 (R336). -/
def queueSetupQpState (q qseq : Nat) (s : State) : State :=
  hostRow s q qseq (fun c => c.opcode == 0x0104 && leAt c.body 0 1 == 2) bodyQueueSetupQp

/-! Jobs. -/

/-- Logical clusters per die the grade allows (R23). -/
def gradeClusters (s : State) : Nat := if csrField s rHubGrade 3 0 = 2 then 7 else 8

/-- The checks of JOB_OPEN that read no table (R23, R333). -/
def jobOpenCheck (s : State) (c : Cmd) : Option Nat :=
  let b := c.body
  let n := leAt b 2 1
  let pt := leAt b 16 8
  let dt := leAt b 32 8
  if leAt b 0 2 = 0 ∨ n = 0 ∨ gradeClusters s < n ∨ !zeroAt b 3 5 ∨ !zeroAt b 26 2 ∨ !zeroAt b 40 24 then some stBadParam
  else if pt % 64 ≠ 0 ∨ dt % 64 ≠ 0 ∨ 2 ^ 42 ≤ pt ∨ 2 ^ 42 ≤ dt ∨ leAt b 24 2 = 0 ∨ leAt b 28 4 = 0 ∨ 65535 < leAt b 28 4 then
    some stBadParam
  else if csrField s rBootStatus 15 12 < n then some stNotReady
  else if !rangeOk s pt (64 * leAt b 24 2) ∨ !rangeOk s dt (64 * leAt b 28 4) then some stBadParam
  else none

/-- The job opened over its tensors (R333): HUB_JOB, STEPS, tables; no recipe loaded; step
state COMMITTED with LAST_OUTCOME 0x0. -/
def openJob (s : State) (b : List Byte) (ts : List Tensor) : State :=
  let s := csrPut s rHubJob (1 <<< 31 + leAt b 2 1 <<< 16 + leAt b 0 2)
  let s := csrPut64 s rHubStepCountLo (leAt b 8 8)
  let s := csrSetField (csrSetField s rHubStepState 2 0 sCommitted) rHubStepState 11 8 0
  { s with job := { job0 with ptabAddr := leAt b 16 8, dtabAddr := leAt b 32 8, dtabCount := leAt b 28 4, tensors := ts }
           step := { step0 with startSteps := leAt b 8 8 }, chip := { s.chip with recipes := [] } }

/-- JOB_OPEN (R333). -/
def bodyJobOpen (c : Cmd) (s : State) : Option State :=
  match jobOpenCheck s c with
  | some st => some (finish s c st)
  | none =>
    let r := readTable s (leAt c.body 16 8) (leAt c.body 24 2)
    match r.2 with
    | none => some (finish r.1 c stBadParam)
    | some ts => some (finish (openJob r.1 c.body ts) c stOk)

/-- Whether a RUN, UPDATE, collective or stream is in flight: one that has begun, a RUN held
for its tiles, or a channel whose completion is due (R333; DEDUCED 18). -/
def jobBusy (s : State) : Bool :=
  s.flights.any (fun f => [0x04, 0x06, 0x07].contains (f.cmd.opcode / 256) && f.cmd.opcode != 0x0706)
    || !s.held.isEmpty || s.topcoat.running.isSome
    || (List.range 33).any (fun b => (blockGet s b).chans.any (·.cmd.isSome))

/-- The job closed (R333): tiles, regions, windows, R_Keys, QPs, tables and recipes go; the
step state is IDLE with LAST_OUTCOME 0x0. MEM_PARAM_BASE stays (DEDUCED 19). -/
def closeJob (s : State) : State :=
  let s := remapMemory s ((List.range 64).foldl (fun t n => setPreg t n 0 0 0 0) s)
  let s := csrPut (csrPut s rHubJob 0) rTelRingWrite 0
  let s := csrSetField (csrSetField s rHubStepState 2 0 sIdle) rHubStepState 11 6 0
  { s with job := job0, step := step0, hawk := [], chip := { s.chip with tiles := [], recipes := [] }
           topcoat := { s.topcoat with waiting := [], taken := [], named := [], w2 := [] }, mem := { s.mem with bgHeld := [] }
           net := { s.net with qps := s.net.qps.filter (fun p => !p.2.byJob) } }

/-- JOB_CLOSE (R333). -/
def bodyJobClose (c : Cmd) (s : State) : Option State :=
  if leAt c.body 0 2 ≠ jobId s ∨ !zeroAt c.body 2 14 then some (finish s c stBadParam)
  else if !betweenSteps s ∨ jobBusy s ∨ s.coll.permute.isSome then some (finish s c stNotReady)
  else some (finish (closeJob s) c stOk)

/-- JOB_OPEN (R333). -/
def jobOpenState (q qseq : Nat) (s : State) : State := hostRow s q qseq (fun c => c.opcode == 0x0105) bodyJobOpen

/-- JOB_CLOSE (R333). -/
def jobCloseState (q qseq : Nat) (s : State) : State := hostRow s q qseq (fun c => c.opcode == 0x0106) bodyJobClose

/-! Memory commands (R340). -/

/-- REGION_MAP (R340): the whole list or nothing; what the DRAM cells hold stays with them (R199). -/
def bodyRegionMap (c : Cmd) (s : State) : Option State :=
  let a := leAt c.body 0 8
  let n := leAt c.body 8 2
  if !betweenSteps s then some (finish s c stNotReady)
  else if 2 ^ 42 ≤ a ∨ n = 0 ∨ 256 < n ∨ !zeroAt c.body 10 6 ∨ !rangeOk s a (32 * n) then some (finish s c stBadParam)
  else
    let r := readMem s a (32 * n)
    match r.2 with
    | none => some (finish r.1 c stFault)
    | some b => match applyRegions ((List.range n).map (fun i => sliceB b (32 * i) 32)) r.1 with
      | .error st => some (finish r.1 c st)
      | .ok t => if regionsOk t then some (finish (remapMemory r.1 t) c stOk) else some (finish r.1 c stBadParam)

/-- FILL (R340): PATTERN repeated over the range; memory requests of a class above its own, 2, go first (R32). -/
def bodyFill (c : Cmd) (s : State) : Option State :=
  let a := leAt c.body 0 8
  let n := leAt c.body 8 8
  if 2 ^ 42 ≤ a ∨ n % 32 ≠ 0 ∨ 2 ^ 42 < n ∨ !rangeOk s a n then some (finish s c stBadParam)
  else if lowerWaits s 2 then none
  else
    let r := writeMem s a (List.replicate (n / 32) (sliceB c.body 16 32)).flatten
    some (finish r.1 c (if r.2 then stOk else stFault))

/-- COPY (R340): bytes moved as they are, at class 2 (R32); TALLY counted on the hub at completion. A poisoned
source is not consumed (R34, R205). -/
def bodyCopy (c : Cmd) (s : State) : Option State :=
  let a := leAt c.body 0 8
  let d := leAt c.body 8 8
  let n := leAt c.body 16 8
  if 2 ^ 42 ≤ a ∨ 2 ^ 42 ≤ d ∨ 2 ^ 42 < n ∨ !zeroAt c.body 25 7 ∨ !rangeOk s a n ∨ !rangeOk s d n then
    some (finish s c stBadParam)
  else if lowerWaits s 2 then none
  else
    let r := readMem s a n
    match r.2 with
    | none => some (finish r.1 c stFault)
    | some b =>
      let w := writeMem r.1 d b
      if w.2 then some (finish (tallyBump w.1 32 (leAt c.body 24 1) n) c stOk) else some (finish w.1 c stFault)

/-- One window entry applied (R263, R340): removed, or put in place of the window of its base. -/
def applyWindow (ws : List Window) (e : List Byte) : List Window :=
  let w : Window :=
    { base := leAt e 0 8, len := leAt e 8 8, peer := 0x1000 + leAt e 16 2, read := bitOf (leAt e 18 1) 0
      write := bitOf (leAt e 18 1) 1, host := leAt e 24 8 }
  let keep := ws.filter (fun x => x.base != w.base)
  if bitOf (leAt e 18 1) 2 then keep else keep ++ [w]

/-- Whether an entry's own fields are in range (R263, R340). -/
def windowEntryOk (e : List Byte) : Bool :=
  decide (leAt e 16 2 < 4096) && decide (leAt e 18 1 < 8) && zeroAt e 19 5
    && (bitOf (leAt e 18 1) 2 || leAt e 18 1 % 4 != 0)

/-- Whether a list of windows obeys R263. -/
def windowsOk (ws : List Window) : Bool :=
  decide (ws.length ≤ 64)
    && ws.all (fun w => w.base % 2 ^ 21 == 0 && w.len % 2 ^ 21 == 0 && decide (0 < w.len) && decide (2 ^ 39 ≤ w.base)
        && decide (w.base + w.len ≤ 2 ^ 40)
        && ws.all (fun v => v == w || decide (v.base + v.len ≤ w.base) || decide (w.base + w.len ≤ v.base)))

/-- WINDOW_MAP (R263, R340): the whole list or nothing. -/
def bodyWindowMap (c : Cmd) (s : State) : Option State :=
  let a := leAt c.body 0 8
  let n := leAt c.body 8 1
  if 2 ^ 42 ≤ a ∨ n = 0 ∨ 64 < n ∨ 1 < leAt c.body 9 1 ∨ !zeroAt c.body 10 6 ∨ !rangeOk s a (32 * n) then
    some (finish s c stBadParam)
  else
    let r := readMem s a (32 * n)
    match r.2 with
    | none => some (finish r.1 c stFault)
    | some b =>
      let es := (List.range n).map (fun i => sliceB b (32 * i) 32)
      let ws := es.foldl applyWindow (if leAt c.body 9 1 = 1 then [] else s.job.windows)
      if es.all windowEntryOk ∧ windowsOk ws then
        some (finish { r.1 with job := { r.1.job with windows := ws } } c stOk)
      else some (finish r.1 c stBadParam)

/-- The margins of 36 lanes, which the measurement supplies: free values (R214). -/
def laneRecords : Nat → State → State × List (List Byte)
  | 0, s => (s, [])
  | k + 1, s =>
    let f := takeFree s
    let r := laneRecords k f.2
    (r.1, leBytes 4 f.1 :: r.2)

/-- The lane with the smallest left-plus-right margin, the lowest of several (R340). -/
def worstLane (rs : List (List Byte)) : Nat :=
  let w (r : List Byte) := leAt r 0 1 + leAt r 1 1
  ((List.range rs.length).find? (fun i => rs.all (fun r => decide (w (nthD rs i []) ≤ w r)))).getD 0

/-- A pseudo-channel cleared: every byte 0 with valid check symbols (R214). -/
def clearPc (s : State) (st pc : Nat) : State :=
  let here (a : Nat) : Bool := match locOf s a with
    | .hbm x y _ => x == st && y == pc
    | _ => false
  { s with mem := { s.mem with bytes := s.mem.bytes.filter (fun p => !here p.1)
                               errs := s.mem.errs.filter (fun p => !here (64 * p.1)) } }

/-- MARGIN (R214, R340); it waits while shed level S1 or deeper is in force, and an EYE run outside background window 3
(R310) while its stack is in CASE (R213). -/
def bodyMargin (c : Cmd) (s : State) : Option State :=
  let b := c.body
  let mode := leAt b 0 1
  let d := leAt b 8 8
  if mode = 0 ∨ 2 < mode ∨ 7 < leAt b 1 1 ∨ 63 < leAt b 2 1 ∨ !zeroAt b 3 5 ∨ 2 ^ 42 ≤ d ∨ !rangeOk s d 144 then
    some (finish s c stBadParam)
  else if mode = 2 ∧ jobOpen? s then some (finish s c stNotReady)
  else if 1 ≤ shedLevel s ∨ (mode = 1 ∧ caseHot s (leAt b 1 1) ∧ bgClass s 3 = 5) then none
  else
    let r := laneRecords 36 (if mode = 2 then clearPc s (leAt b 1 1) (leAt b 2 1) else s)
    let w := worstLane r.2
    let t := writeMem r.1 d r.2.flatten
    some (complete t.1 c (if t.2 then stOk else stFault) 0 ([36, byteOf w, 0, 0] ++ nthD r.2 w []))

/-- REGION_MAP (R340). -/
def regionMapState (q qseq : Nat) (s : State) : State := hostRow s q qseq (fun c => c.opcode == 0x0201) bodyRegionMap

/-- FILL (R340). -/
def fillState (q qseq : Nat) (s : State) : State := hostRow s q qseq (fun c => c.opcode == 0x0202) bodyFill

/-- COPY (R340). -/
def copyState (q qseq : Nat) (s : State) : State := hostRow s q qseq (fun c => c.opcode == 0x0203) bodyCopy

/-- WINDOW_MAP (R263). -/
def windowMapState (q qseq : Nat) (s : State) : State := hostRow s q qseq (fun c => c.opcode == 0x0204) bodyWindowMap

/-- MARGIN (R214). -/
def marginState (q qseq : Nat) (s : State) : State := hostRow s q qseq (fun c => c.opcode == 0x0B05) bodyMargin

/-! The meanings of the rows. -/

/-- QUEUE_SETUP (R336). Moves a command queue's ring and completion ring into interleaved space, clears its duplicate history and sets N to 0. -/
def execQueueSetup (q qseq : Nat) (s : State) : Host.Outcome State Fault Refusal :=
  .next (queueSetupState q qseq s)

/-- QUEUE_SETUP_QP (R336). Writes, replaces or destroys a RoCEv2 queue-pair context bound to a command queue. -/
def execQueueSetupQp (q qseq : Nat) (s : State) : Host.Outcome State Fault Refusal :=
  .next (queueSetupQpState q qseq s)

/-- JOB_OPEN (R333). Opens a job: sets HUB_JOB, loads the step count, tables, versions and slot records, and leaves the step state COMMITTED. -/
def execJobOpen (q qseq : Nat) (s : State) : Host.Outcome State Fault Refusal :=
  .next (jobOpenState q qseq s)

/-- JOB_CLOSE (R333). Releases every tile, invalidates the job's regions, windows, keys and QPs, clears its tables and leaves step state IDLE. -/
def execJobClose (q qseq : Nat) (s : State) : Host.Outcome State Fault Refusal :=
  .next (jobCloseState q qseq s)

/-- REGION_MAP (R340). Applies a list of region entries whole or not at all, checked against placement and the parameter table. -/
def execRegionMap (q qseq : Nat) (s : State) : Host.Outcome State Fault Refusal :=
  .next (regionMapState q qseq s)

/-- FILL (R340). Writes a 32-byte pattern repeatedly over a memory range at class 2. -/
def execFill (q qseq : Nat) (s : State) : Host.Outcome State Fault Refusal :=
  .next (fillState q qseq s)

/-- COPY (R340). Copies a memory range at class 2 and counts a hub tally when it completes. -/
def execCopy (q qseq : Nat) (s : State) : Host.Outcome State Fault Refusal :=
  .next (copyState q qseq s)

/-- WINDOW_MAP (R263). Maps, replaces or removes host windows in the host-window aperture. -/
def execWindowMap (q qseq : Nat) (s : State) : Host.Outcome State Fault Refusal :=
  .next (windowMapState q qseq s)

/-- MARGIN (R214). Measures lane margins of one pseudo-channel in EYE or STRESS mode and writes the lane records. -/
def execMargin (q qseq : Nat) (s : State) : Host.Outcome State Fault Refusal :=
  .next (marginState q qseq s)

end Sys2Proof.Machine
end

