-- ==== Sys2Proof/Machine/Roce.lean ====
section
/-! DEFINITION. The RoCEv2 responder (R265–R267): base transport headers, the PSN check, SEND into
the bound queue, RDMA WRITE, RDMA READ, and what it refuses. The packet layouts and codes are those
of RoCEv2 itself, which the spec names and does not repeat (PRESUMED 23). -/

namespace Sys2Proof.Machine

/-- CRC-32 of a byte string, as the ICRC uses it. -/
def crc32 (bs : List Byte) : Nat := crcReflected 0xEDB88320 bs

/-- The ICRC of a UDP payload without its last four bytes, with the fields that change on the way
as ones (PRESUMED 23). -/
def icrc (src dst : List Byte) (sport : Nat) (b : List Byte) : Nat :=
  let ones (n : Nat) : List Byte := List.replicate n 0xFF
  let udp := beBytes 2 sport ++ beBytes 2 4791 ++ beBytes 2 (8 + b.length + 4) ++ ones 2
  let bth := sliceB b 0 4 ++ ones 1 ++ b.drop 5
  let ip := if src.length = 4 then
      [0x45, 0xFF] ++ beBytes 2 (28 + b.length + 4) ++ [0, 0, 0x40, 0, 0xFF, 17] ++ ones 2 ++ src ++ dst
    else [0x6F] ++ ones 3 ++ beBytes 2 (8 + b.length + 4) ++ [17, 0xFF] ++ src ++ dst
  crc32 (ones 8 ++ ip ++ udp ++ bth)

/-- A base transport header. -/
structure Bth where
  op     : Nat
  pad    : Nat
  qpn    : Nat
  ackReq : Bool
  psn    : Nat

/-- The header of a packet's payload. -/
def bthOf (b : List Byte) : Bth :=
  { op := beAt b 0 1, pad := fieldOf (beAt b 1 1) 5 4, qpn := beAt b 5 3, ackReq := bitOf (beAt b 8 1) 7, psn := beAt b 9 3 }

/-- An address as a GID. -/
def gidOf (ip : List Byte) : List Byte := if ip.length = 4 then List.replicate 10 0 ++ [0xFF, 0xFF] ++ ip else ip

/-- A RoCEv2 packet accepted for one of `ops`: port, address, UDP port 4791, frame (R248), ICRC, partition key
0xFFFF, and a QP whose remote GID the sender is (R265). -/
def acceptRoce (s : State) (p : Packet) (ops : List Nat) : Option (Bth × Qp × List Byte) :=
  let b := p.payload
  let n := b.length
  let h := bthOf b
  if !released s || !portUsable s p.port || !ownIp s p.port p.dst || p.dport != 4791 || !frameOk s p then none
  else if n < 16 ∨ icrc p.src p.dst p.sport (b.take (n - 4)) ≠ leAt b (n - 4) 4 then none
  else if fieldOf (beAt b 1 1) 3 0 ≠ 0 ∨ beAt b 2 2 ≠ 0xFFFF ∨ !ops.contains h.op then none
  else match s.net.qps.find? (fun q => q.1 == h.qpn) with
    | some (_, q) => if q.gid = gidOf p.src then some (h, q, sliceB b 12 (n - 16 - h.pad)) else none
    | none => none

/-- A QP replaced. -/
def qpPut (s : State) (qpn : Nat) (q : Qp) : State :=
  { s with net := { s.net with qps := stInsert qpn q (stErase s.net.qps qpn) } }

/-- A RoCEv2 packet sent back to a requester: ECT(0), on the port of its request (R265). -/
def sendRoce (s : State) (p : Packet) (q : Qp) (op psn flags : Nat) (body : List Byte) : State :=
  match pickPort (if portUsable s p.port then [p.port] else usablePorts s 0x3F) 0 with
  | none => s
  | some port =>
    let b := [byteOf op, 0, 0xFF, 0xFF, byteOf flags] ++ beBytes 3 q.remote ++ [0] ++ beBytes 3 psn ++ body
    let f := udpFrame s port p.src p.sport 4791 (csrField s rScrDscp 13 8) 2 (b ++ leBytes 4 (icrc p.dst p.src p.sport b))
    { s with net := { s.net with tx := s.net.tx ++ [f] } }

/-- An Acknowledge with its AETH: syndrome and message number. -/
def sendAeth (s : State) (p : Packet) (q : Qp) (psn syn : Nat) : State :=
  sendRoce s p q 0x11 psn 0 ([byteOf syn] ++ beBytes 3 q.msn)

/-- Syndromes: ACK, and the NAK codes. -/
def aethAck : Nat := 0x1F
def nakSeq : Nat := 0x60
def nakInvalid : Nat := 0x61
def nakAccess : Nat := 0x62
def nakOper : Nat := 0x63

/-- A CNP for a CE-marked packet, at most one a QP in 50 µs (R265). -/
def congest (s : State) (p : Packet) (qpn : Nat) (q : Qp) : State × Qp :=
  let due := match q.lastCnp with
    | some t => decide (t + 50000 ≤ s.plumb)
    | none => true
  if p.ce && due then
    let q := { q with lastCnp := some s.plumb }
    (sendRoce (qpPut s qpn q) p q 0x81 0 0x40 (List.replicate 16 0), q)
  else (s, q)

/-- The PSN check (R265): a request of the expected PSN is executed by `run`, which answers the QP,
the state, the PSNs it took, and the syndrome to answer with, none where it has answered itself; an
earlier one is `again`; a later one is NAKed. -/
def roceRow (ops : List Nat) (p : Packet) (s : State) (run : Bth → List Byte → Qp → State → State × Qp × Nat × Option Nat)
    (again : Bth → List Byte → Qp → State → State) : State :=
  match acceptRoce s p ops with
  | none =>
    -- a RoCEv2 packet that the port's rules discard is counted (R248, R269)
    if released s && portUsable s p.port && ownIp s p.port p.dst && p.dport == 4791 && !frameOk s p then
      scrCount (linkErrors s p.port p.link) 6 1
    else s
  | some (h, q, body) =>
    let c := congest (linkErrors s p.port p.link) p h.qpn q
    let d := (h.psn + 2 ^ 24 - c.2.epsn) % 2 ^ 24
    if d = 0 then
      let r := run h body c.2 c.1
      let q := { r.2.1 with epsn := (r.2.1.epsn + r.2.2.1) % 2 ^ 24 }
      let s := qpPut r.1 h.qpn q
      match r.2.2.2 with
      | some syn => sendAeth s p q h.psn syn
      | none => s
    else if 2 ^ 23 ≤ d then again h body c.2 c.1
    else sendAeth c.1 p c.2 c.2.epsn nakSeq

/-- A duplicate acknowledged again. -/
def ackAgain (p : Packet) (_h : Bth) (_b : List Byte) (q : Qp) (s : State) : State :=
  sendAeth s p q ((q.epsn + 2 ^ 24 - 1) % 2 ^ 24) aethAck

/-- Where a QP's commands come from. -/
def qpOrigin (p : Packet) (qpn : Nat) : Origin :=
  { port := p.port, mac := p.mac, ip := p.src, sport := p.sport, dev := 0, chan := 0, seq := 0, qpn := qpn, opid := 0 }

/-- A SEND packet (R266): a whole message of 1 to 8 entries goes into the bound queue in order. -/
def sendRun (p : Packet) (h : Bth) (body : List Byte) (q : Qp) (s : State) : State × Qp × Nat × Option Nat :=
  let first := h.op == 0x00 || h.op == 0x04
  let last := h.op == 0x02 || h.op == 0x04
  let known := [0x00, 0x01, 0x02, 0x04].contains h.op
  let buf := if first then body else q.send ++ body
  if !known || first == q.sending || q.writing || (!last && body.length != q.mtu) || decide (q.mtu < body.length)
      || decide (4096 < buf.length) then (s, { q with sending := false, send := [] }, 0, some nakInvalid)
  else if !last then (s, { q with sending := true, send := buf }, 1, if h.ackReq then some aethAck else none)
  else if buf.length = 0 ∨ buf.length % 512 ≠ 0 then (s, { q with sending := false, send := [] }, 0, some nakInvalid)
  else
    let s := (chunksOf 512 8 buf).foldl (fun s e => placeEntry s q.queue e (qpOrigin p h.qpn)) s
    (s, { q with sending := false, send := [], msn := (q.msn + 1) % 2 ^ 24 }, 1, some aethAck)

/-- SEND (R266); its forms with immediate data or invalidate are not implemented (R267). -/
def sendState (p : Packet) (s : State) : State :=
  roceRow [0x00, 0x01, 0x02, 0x03, 0x04, 0x05, 0x16, 0x17] p s (sendRun p) (ackAgain p)

/-- Whether an R_Key allows an access (R266). -/
def keyOk (s : State) (rkey a n : Nat) (write : Bool) : Bool :=
  a % 32 == 0 && n % 32 == 0 && (accessFault s a n).isNone
    && s.job.rkeys.any (fun k => k.2.key == rkey && (if write then k.2.write else k.2.read) && decide (k.2.base ≤ a)
        && decide (a + n ≤ k.2.base + k.2.len))

/-- An RDMA WRITE packet (R266). -/
def writeRun (h : Bth) (body : List Byte) (q : Qp) (s : State) : State × Qp × Nat × Option Nat :=
  let first := h.op == 0x06 || h.op == 0x0A
  let last := h.op == 0x08 || h.op == 0x0A
  let known := [0x06, 0x07, 0x08, 0x0A].contains h.op
  let data := if first then body.drop 16 else body
  let a := if first then beAt body 0 8 else q.writeAt
  let n := if first then beAt body 12 4 else q.writeLeft
  let idle := { q with writing := false, writeLeft := 0 }
  if !known || first == q.writing || q.sending || (first && decide (body.length < 16)) || decide (n < data.length)
      || (if last then data.length != n || decide (q.mtu < n) else data.length != q.mtu) then (s, idle, 0, some nakInvalid)
  else if first && !keyOk s (beAt body 8 4) a n true then (s, idle, 0, some nakAccess)
  else
    let w := writeMem s a data
    if !w.2 then (w.1, idle, 0, some nakOper)
    else if last then (w.1, { idle with msn := (q.msn + 1) % 2 ^ 24 }, 1, some aethAck)
    else (w.1, { q with writing := true, writeAt := a + data.length, writeLeft := n - data.length }, 1, if h.ackReq then some aethAck else none)

/-- RDMA_WRITE (R266). -/
def rdmaWriteState (p : Packet) (s : State) : State :=
  roceRow [0x06, 0x07, 0x08, 0x09, 0x0A, 0x0B] p s writeRun (ackAgain p)

/-- READ Responses of `q.mtu` bytes each, from a request's PSN on (R265). -/
def readResponses (p : Packet) (q : Qp) (psn : Nat) (b : List Byte) (s : State) : State × Nat :=
  let k := max 1 (ceilDiv b.length q.mtu)
  ((List.range k).foldl (fun s i =>
    let op := if k = 1 then 0x10 else if i = 0 then 0x0D else if i + 1 = k then 0x0F else 0x0E
    let aeth := if op = 0x0E then [] else [byteOf aethAck] ++ beBytes 3 q.msn
    sendRoce s p q op ((psn + i) % 2 ^ 24) 0 (aeth ++ (b.drop (q.mtu * i)).take q.mtu)) s, k)

/-- An RDMA READ Request (R265, R266). -/
def readRun (p : Packet) (h : Bth) (body : List Byte) (q : Qp) (s : State) : State × Qp × Nat × Option Nat :=
  let a := beAt body 0 8
  let n := beAt body 12 4
  if body.length ≠ 16 ∨ q.sending ∨ q.writing then (s, q, 0, some nakInvalid)
  else if !keyOk s (beAt body 8 4) a n false then (s, q, 0, some nakAccess)
  else
    let r := readMem s a n
    match r.2 with
    | none => (r.1, q, 0, some nakOper)
    | some b =>
      let q := { q with msn := (q.msn + 1) % 2 ^ 24 }
      let t := readResponses p q h.psn b r.1
      (t.1, q, t.2, none)

/-- A duplicate READ is read again (R265). -/
def readAgain (p : Packet) (h : Bth) (body : List Byte) (q : Qp) (s : State) : State :=
  let r := readMem s (beAt body 0 8) (beAt body 12 4)
  if body.length ≠ 16 ∨ !keyOk s (beAt body 8 4) (beAt body 0 8) (beAt body 12 4) false then s
  else match r.2 with
    | none => sendAeth r.1 p q h.psn nakOper
    | some b => (readResponses p q h.psn b r.1).1

/-- RDMA_READ_REQUEST (R265). -/
def rdmaReadRequestState (p : Packet) (s : State) : State := roceRow [0x0C] p s (readRun p) (readAgain p)

/-- ATOMIC_OPERATION (R267): NAK Invalid Request. -/
def atomicOperationState (p : Packet) (s : State) : State :=
  roceRow [0x13, 0x14] p s (fun _ _ q s => (s, q, 0, some nakInvalid)) (fun h _ q s => sendAeth s p q h.psn nakInvalid)

/-! The meanings of the rows. -/

/-- SEND (R266). A RoCEv2 SEND of whole 512-byte entries places them in the QP's bound queue and is acknowledged. -/
def execSend (p : Packet) (s : State) : Host.Outcome State Fault Refusal :=
  .next (sendState p s)

/-- RDMA_WRITE (R266). A RoCEv2 RDMA WRITE is checked against its R_Key and written to local memory. -/
def execRdmaWrite (p : Packet) (s : State) : Host.Outcome State Fault Refusal :=
  .next (rdmaWriteState p s)

/-- RDMA_READ_REQUEST (R265). A RoCEv2 RDMA READ Request is checked against its R_Key and answered with READ Responses. -/
def execRdmaReadRequest (p : Packet) (s : State) : Host.Outcome State Fault Refusal :=
  .next (rdmaReadRequestState p s)

/-- ATOMIC_OPERATION (R267). A received RoCEv2 atomic request is answered with NAK Invalid Request. -/
def execAtomicOperation (p : Packet) (s : State) : Host.Outcome State Fault Refusal :=
  .next (atomicOperationState p s)

end Sys2Proof.Machine
end

