-- ==== Sys2Proof/Machine/Security.lean ====
section
/-! DEFINITION. The security block's host commands (R403, R407, R408), the SMBus target and the TAP
(R423, R424), and the lockstep check of the management processor (R344). -/

namespace Sys2Proof.Machine

/-! Identity (R407, R408). -/

/-- IDENTITY_READ (R407): the public key, a length, and the certificate, of at most 8 KiB. -/
def bodyIdentityRead (c : Cmd) (s : State) : Option State :=
  let pk := identityKey s
  let cert := (Config.kilulareCert pk).take 8192
  let bs := pk ++ leBytes 4 cert.length ++ cert
  match addrField c.body 0 with
  | none => some (finish s c stBadParam)
  | some d =>
    if !cmdRangeOk s d bs.length then some (finish s c stBadParam)
    else some (cmdAnswer s c d bs (leBytes 4 bs.length))

/-- IDENTITY_READ (R407). -/
def identityReadState (q qseq : Nat) (s : State) : State := hostRow s q qseq (fun c => c.opcode == 0x0C02) bodyIdentityRead

/-- The slot an attestation speaks of: the booted one; in the safe state the preferred one, none
without a boot record. -/
def attestedSlot (s : State) : Option Nat :=
  if inSafe s then (bootRecord s).map (fun r => r.2.pref) else some (csrField s rBootStatus 22 22)

/-- DIGEST of a component of a manifest, 0 where it has none. -/
def digestOf (m : List Byte) (kind : Nat) : List Byte :=
  match imageEntry m kind with
  | some e => e.digest
  | none => List.replicate 64 0

/-- MANIFEST, FIRMWARE and CONFIG of a report (R408). -/
def slotDigests (s : State) : List Byte :=
  match attestedSlot s with
  | none => List.replicate 192 0
  | some slot => let m := manifestOf s slot; sha3_512 (sliceB m 0 4192) ++ digestOf m 1 ++ digestOf m 2

/-- The 512-byte fuse image with IDENTITY_SEED read as 0. -/
def publicFuses (s : State) : List Byte :=
  stGetMany 0 s.boot.fuses 0 416 ++ List.replicate 32 0 ++ stGetMany 0 s.boot.fuses 448 64

/-- SEC_ID_FP as bytes. -/
def idFingerprint (s : State) : List Byte := (List.range 8).flatMap (fun i => leBytes 4 (csrGet s (rSecIdFp + 4 * i)))

/-- The 512-byte report (R408). -/
def attestReport (s : State) (nonce : List Byte) : List Byte :=
  [0x47, 0x58, 0x41, 0x52] ++ leBytes 2 1 ++ [byteOf (if inSafe s then 2 else 1)]
    ++ [byteOf (if inSafe s then 0 else csrField s rSecStage 15 8)]
    ++ leBytes 8 s.plumb ++ leBytes 8 s.snag.time ++ leBytes 2 (idWord s) ++ [byteOf (minSvn s)]
    ++ [byteOf (csrField s rBootStatus 15 12)] ++ leBytes 4 (csrGet s rBootStatus) ++ sliceB nonce 0 32
    ++ sha3_512 (publicFuses s) ++ stGetMany 0 s.boot.fuses 448 64 ++ slotDigests s
    ++ summaryBytes s.snag ++ idFingerprint s ++ List.replicate 32 0

/-- The report and its signature: 5,139 bytes. -/
def attestation (s : State) (nonce : List Byte) : List Byte :=
  let r := attestReport s nonce
  r ++ sliceB (Config.mldsaSign (identityXi s) (sha3_512 r)) 0 4627

/-- ATTEST (R408). -/
def bodyAttest (c : Cmd) (s : State) : Option State :=
  match addrField c.body 32 with
  | none => some (finish s c stBadParam)
  | some d =>
    if d % 64 ≠ 0 ∨ !cmdRangeOk s d 5139 then some (finish s c stBadParam)
    else some (cmdAnswer s c d (attestation s (sliceB c.body 0 32)) (leBytes 4 5139))

/-- ATTEST (R408). -/
def attestState (q qseq : Nat) (s : State) : State := hostRow s q qseq (fun c => c.opcode == 0x0C01) bodyAttest

/-! Staging (R403). -/

/-- The slot that staging targets: the one that did not boot; in the safe state the non-preferred one. -/
def stageTarget (s : State) : Nat := if inSafe s then 1 - (bootRecOf s).2.pref else 1 - csrField s rBootStatus 22 22

/-- OP of an IMAGE_STAGE. -/
def stageOp (c : Cmd) : Nat := leAt c.body 0 1

/-- Fields of IMAGE_STAGE that must be 0: reserved ones, and REBOOT but with FINISH in the safe state. -/
def stageClean (s : State) (c : Cmd) : Bool :=
  zeroAt c.body 2 2 && zeroAt c.body 12 4 && (leAt c.body 1 1 == 0 || (leAt c.body 1 1 == 1 && stageOp c == 3 && inSafe s))
    && decide (leAt c.body 16 8 < 2 ^ 42)

/-- SEC_STAGE's STATE and TARGET (R409): staging open for a slot, or none. -/
def stageMark (s : State) (o : Option Nat) : State :=
  match o with
  | some t => csrSetField (csrSetField s rSecStage 31 30 2) rSecStage 29 29 t
  | none => csrSetField (csrSetField s rSecStage 31 30 0) rSecStage 29 29 0

/-- Staging closed. -/
def closeStaging (s : State) : State := stageMark { s with boot := { s.boot with staging := false, staged := [] } } none

/-- IMAGE_STAGE with BEGIN, or with a reserved OP (R403). -/
def bodyStageBegin (c : Cmd) (s : State) : Option State :=
  if stageOp c ≠ 1 then some (finish s c stBadParam)
  else if s.boot.staging then some (finish s c stNotReady)
  else if !stageClean s c then some (finish s c stBadParam)
  else
    let t := stageTarget s
    let r := (bootRecOf s).2
    let s := if bitOf r.valid t then writeBootRec s r.pref (r.valid - 2 ^ t) else s
    let s := { s with boot := { s.boot with
      flash := stClear s.boot.flash (slotBase t) (slotBase t + slotSize), staging := true, staged := [] } }
    some (finish (stageMark s (some t)) c stOk)

/-- Whether a range overlaps one already staged. -/
def stageOverlaps (s : State) (off len : Nat) : Bool :=
  s.boot.staged.any (fun r => decide (off < r.1 + r.2) && decide (r.1 < off + len))

/-- IMAGE_STAGE with DATA (R403). -/
def bodyStageData (c : Cmd) (s : State) : Option State :=
  let off := leAt c.body 4 4
  let len := leAt c.body 8 4
  let src := leAt c.body 16 8
  if !s.boot.staging then some (finish s c stNotReady)
  else if !stageClean s c ∨ off % 256 ≠ 0 ∨ len % 256 ≠ 0 ∨ len < 256 ∨ 65536 < len ∨ slotSize < off + len ∨ stageOverlaps s off len
      ∨ !cmdRangeOk s src len then some (finish s c stBadParam)
  else
    let r := cmdRead s src len
    match r.2 with
    | none => some (finish r.1 c stFault)
    | some bs =>
      let s := flashWrite r.1 (slotBase (stageTarget r.1) + off) bs
      some (finish { s with boot := { s.boot with staged := (off, len) :: s.boot.staged } } c stOk)

/-- Start-up begun again at phase 2 (R403): the hub's RAM, and with it the Snag list's records, stay. -/
def reboot (s : State) : State :=
  let t := inReset s true true
  { t with plumb := s.plumb, snag := s.snag, net := { t.net with tx := s.net.tx }
           csr := stSet 0 t.csr rSngStatus (stGet 0 s.csr rSngStatus), boot := { t.boot with startAt := s.plumb } }

/-- IMAGE_STAGE with FINISH (R397, R403). -/
def bodyStageFinish (c : Cmd) (s : State) : Option State :=
  if !s.boot.staging then some (finish s c stNotReady)
  else if !stageClean s c then some (finish s c stBadParam)
  else
    let t := stageTarget s
    let s := closeStaging s
    if verifySlot s t ≠ 1 then some (finish s c stAuthFail)
    else
      let s := finish (writeBootRec s t ((bootRecOf s).2.valid ||| 2 ^ t)) c stOk
      some (if leAt c.body 1 1 = 1 then reboot s else s)

/-- IMAGE_STAGE with ABORT (R403). -/
def bodyStageAbort (c : Cmd) (s : State) : Option State :=
  if !s.boot.staging then some (finish s c stNotReady)
  else if !stageClean s c then some (finish s c stBadParam)
  else some (finish (closeStaging s) c stOk)

/-- IMAGE_STAGE, BEGIN and reserved OPs (R403). -/
def imageStageBeginState (q qseq : Nat) (s : State) : State :=
  hostRow s q qseq (fun c => c.opcode == 0x0C03 && !(stageOp c == 2 || stageOp c == 3 || stageOp c == 4)) bodyStageBegin

/-- IMAGE_STAGE, DATA (R403). -/
def imageStageDataState (q qseq : Nat) (s : State) : State :=
  hostRow s q qseq (fun c => c.opcode == 0x0C03 && stageOp c == 2) bodyStageData

/-- IMAGE_STAGE, FINISH (R403). -/
def imageStageFinishState (q qseq : Nat) (s : State) : State :=
  hostRow s q qseq (fun c => c.opcode == 0x0C03 && stageOp c == 3) bodyStageFinish

/-- IMAGE_STAGE, ABORT (R403). -/
def imageStageAbortState (q qseq : Nat) (s : State) : State :=
  hostRow s q qseq (fun c => c.opcode == 0x0C03 && stageOp c == 4) bodyStageAbort

/-! SMBus (R423). -/

/-- The bytes behind a command code; the fuses' own read as 0 until fuse load has ended. -/
def smbusValue (s : State) (code : Nat) : Option (List Byte) :=
  match code with
  | 0 => some (leBytes 4 (csrValue s rBootStatus))
  | 1 => some (leBytes 4 (csrValue s rPwrStatus))
  | 2 => some (leBytes 4 (csrValue s rPwrPkg))
  | 3 => some ((List.range 5).flatMap (fun d => leBytes 2 (csrField s (rThmDie + 4 * d) 15 0)))
  | 4 => some ((List.range 8).flatMap (fun k => leBytes 2 (csrField s (rMemTherm + 0x10000 * k) 15 0)))
  | 5 => some (sliceB (summaryBytes s.snag) 16 8)
  | 6 => some (if s.boot.loaded then stGetMany 0 s.boot.fuses 392 8 else List.replicate 8 0)
  | _ => none

/-- Whether the target answers: from the end of phase 2, and in the safe state, which ends every phase. -/
def smbusOn (s : State) : Bool := powered s && (inSafe s || (s.boot.loaded && s.boot.railWait.isEmpty))

/-- The target's answer: bytes, or a NACK. -/
def smbusAnswer (s : State) (r : Option (List Byte)) : State :=
  { s with boot := { s.boot with smbus := r, smbusNack := r.isNone } }

/-- SMBUS_READ (R423): one snapshot, taken when the command code comes. -/
def smbusReadState (code : Nat) (s : State) : State := smbusAnswer s (if smbusOn s then smbusValue s code else none)

/-- SMBUS_WRITE (R423): every write is NACKed. -/
def smbusWriteState (_code : Nat) (_data : List Byte) (s : State) : State := smbusAnswer s none

/-! TAP (R424). -/

/-- Whether an instruction acts as BYPASS. The numbers are the model's (DESIGN CHOICE 51): 0 EXTEST, 1
EXTEST_PULSE, 2 EXTEST_TRAIN, 3 BYPASS, 4 to 6 the other instructions of the two standards, above
them every other one. -/
def tapActsBypass (s : State) (ir : Nat) : Bool :=
  if ir < 3 then s.boot.resetN
  else if ir = 3 then true
  else if ir < 7 then false
  else fuseBits s 3072 3072 == 1

/-- TAP_INSTRUCTION (R424). -/
def tapInstructionState (ir : Nat) (s : State) : State := 
  { s with boot := { s.boot with tapIr := ir, tapBypass := tapActsBypass s ir } }

/-! Lockstep (R344). -/

/-- LOCKSTEP_DIVERGENCE (R344): the fault manager's cores 0 and 1 differ at a retired instruction; the
hub stops, and the device is lost. -/
def lockstepDivergenceState (pc : Nat) (s : State) : State :=
  if !released s then s
  else
    let s := snagRecord s { errRec (unitHub 0x400) 0x11 0 3 0 with syndrome := leBytes 8 pc }
    { s with boot := { s.boot with ready := false, faultN := false } }

/-! The meanings of the rows. -/

/-- ATTEST (R408). Writes a 512-byte report with the nonce, signed under the identity key. -/
def execAttest (q qseq : Nat) (s : State) : Host.Outcome State Fault Refusal :=
  .next (attestState q qseq s)

/-- IDENTITY_READ (R407). Writes the identity public key and its Kilulare certificate. -/
def execIdentityRead (q qseq : Nat) (s : State) : Host.Outcome State Fault Refusal :=
  .next (identityReadState q qseq s)

/-- IMAGE_STAGE_BEGIN (R403). Clears the target slot's VALID bit, erases it and opens staging. -/
def execImageStageBegin (q qseq : Nat) (s : State) : Host.Outcome State Fault Refusal :=
  .next (imageStageBeginState q qseq s)

/-- IMAGE_STAGE_DATA (R403). Programs a range of image bytes into the target slot. -/
def execImageStageData (q qseq : Nat) (s : State) : Host.Outcome State Fault Refusal :=
  .next (imageStageDataState q qseq s)

/-- IMAGE_STAGE_FINISH (R403). Reads back and verifies the staged slot, making it valid and preferred on success, and closes staging. -/
def execImageStageFinish (q qseq : Nat) (s : State) : Host.Outcome State Fault Refusal :=
  .next (imageStageFinishState q qseq s)

/-- IMAGE_STAGE_ABORT (R403). Closes staging and leaves the target slot invalid. -/
def execImageStageAbort (q qseq : Nat) (s : State) : Host.Outcome State Fault Refusal :=
  .next (imageStageAbortState q qseq s)

/-- SMBUS_READ (R423). The SMBus target returns a coherent snapshot of a fixed health value. -/
def execSmbusRead (code : Nat) (s : State) : Host.Outcome State Fault Refusal :=
  .next (smbusReadState code s)

/-- SMBUS_WRITE (R423). An SMBus write or unknown command code is NACKed. -/
def execSmbusWrite (code : Nat) (data : List Byte) (s : State) : Host.Outcome State Fault Refusal :=
  .next (smbusWriteState code data s)

/-- TAP_INSTRUCTION (R424). A TAP instruction acts as boundary scan while RESET_N is low, and otherwise as BYPASS. -/
def execTapInstruction (ir : Nat) (s : State) : Host.Outcome State Fault Refusal :=
  .next (tapInstructionState ir s)

/-- LOCKSTEP_DIVERGENCE (R344). A divergence between management-processor cores 0 and 1 at a retired instruction stops the hub, asserts FAULT_N and loses the device. -/
def execLockstepDivergence (pc : Nat) (s : State) : Host.Outcome State Fault Refusal :=
  .next (lockstepDivergenceState pc s)

end Sys2Proof.Machine
end

