-- ==== Sys2Proof/Machine/Dispatch.lean ====
section
/-! DEFINITION. One arm per command of the table: a direct call of its meaning. -/

namespace Sys2Proof.Machine

/-- The meaning of a command over everything but the queue of waiting commands. -/
def exec (i : Instr) (s : State) : Host.Outcome State Fault Refusal :=
  match i with
  | .identify q qseq => Sys2Proof.Machine.execIdentify q qseq s
  | .readCsr q qseq => Sys2Proof.Machine.execReadCsr q qseq s
  | .writeCsr q qseq => Sys2Proof.Machine.execWriteCsr q qseq s
  | .queueSetup q qseq => Sys2Proof.Machine.execQueueSetup q qseq s
  | .queueSetupQp q qseq => Sys2Proof.Machine.execQueueSetupQp q qseq s
  | .jobOpen q qseq => Sys2Proof.Machine.execJobOpen q qseq s
  | .jobClose q qseq => Sys2Proof.Machine.execJobClose q qseq s
  | .regionMap q qseq => Sys2Proof.Machine.execRegionMap q qseq s
  | .fill q qseq => Sys2Proof.Machine.execFill q qseq s
  | .copy q qseq => Sys2Proof.Machine.execCopy q qseq s
  | .windowMap q qseq => Sys2Proof.Machine.execWindowMap q qseq s
  | .stencilLoad q qseq => Sys2Proof.Machine.execStencilLoad q qseq s
  | .streamStart q qseq => Sys2Proof.Machine.execStreamStart q qseq s
  | .streamStop q qseq => Sys2Proof.Machine.execStreamStop q qseq s
  | .streamResume q qseq => Sys2Proof.Machine.execStreamResume q qseq s
  | .run q qseq => Sys2Proof.Machine.execRun q qseq s
  | .runLevel q qseq => Sys2Proof.Machine.execRunLevel q qseq s
  | .stepBegin q qseq => Sys2Proof.Machine.execStepBegin q qseq s
  | .stepSeam q qseq => Sys2Proof.Machine.execStepSeam q qseq s
  | .stepCommit q qseq => Sys2Proof.Machine.execStepCommit q qseq s
  | .stepSkip q qseq => Sys2Proof.Machine.execStepSkip q qseq s
  | .fenceReached => Sys2Proof.Machine.execFenceReached s
  | .commitVote => Sys2Proof.Machine.execCommitVote s
  | .topcoatLoad q qseq => Sys2Proof.Machine.execTopcoatLoad q qseq s
  | .update q qseq => Sys2Proof.Machine.execUpdate q qseq s
  | .updateTakesTensor op ev => Sys2Proof.Machine.execUpdateTakesTensor op ev s
  | .updateComplete op => Sys2Proof.Machine.execUpdateComplete op s
  | .topcoatAdd stack => Sys2Proof.Machine.execTopcoatAdd stack s
  | .topcoatSub stack => Sys2Proof.Machine.execTopcoatSub stack s
  | .topcoatMul stack => Sys2Proof.Machine.execTopcoatMul stack s
  | .topcoatFma stack => Sys2Proof.Machine.execTopcoatFma stack s
  | .topcoatDiv stack => Sys2Proof.Machine.execTopcoatDiv stack s
  | .topcoatSqrt stack => Sys2Proof.Machine.execTopcoatSqrt stack s
  | .topcoatRsqrt stack => Sys2Proof.Machine.execTopcoatRsqrt stack s
  | .topcoatMax stack => Sys2Proof.Machine.execTopcoatMax stack s
  | .topcoatMin stack => Sys2Proof.Machine.execTopcoatMin stack s
  | .topcoatAbs stack => Sys2Proof.Machine.execTopcoatAbs stack s
  | .topcoatNeg stack => Sys2Proof.Machine.execTopcoatNeg stack s
  | .topcoatSign stack => Sys2Proof.Machine.execTopcoatSign stack s
  | .topcoatClamp stack => Sys2Proof.Machine.execTopcoatClamp stack s
  | .topcoatLdk stack => Sys2Proof.Machine.execTopcoatLdk stack s
  | .topcoatMulk stack => Sys2Proof.Machine.execTopcoatMulk stack s
  | .topcoatAddk stack => Sys2Proof.Machine.execTopcoatAddk stack s
  | .topcoatFmak stack => Sys2Proof.Machine.execTopcoatFmak stack s
  | .topcoatRowacc stack => Sys2Proof.Machine.execTopcoatRowacc stack s
  | .topcoatColacc stack => Sys2Proof.Machine.execTopcoatColacc stack s
  | .topcoatLdrow stack => Sys2Proof.Machine.execTopcoatLdrow stack s
  | .topcoatLdcol stack => Sys2Proof.Machine.execTopcoatLdcol stack s
  | .topcoatLdrsum stack => Sys2Proof.Machine.execTopcoatLdrsum stack s
  | .topcoatPhase stack => Sys2Proof.Machine.execTopcoatPhase stack s
  | .topcoatEnd stack => Sys2Proof.Machine.execTopcoatEnd stack s
  | .reduceScatter q qseq => Sys2Proof.Machine.execReduceScatter q qseq s
  | .allGather q qseq => Sys2Proof.Machine.execAllGather q qseq s
  | .allReduce q qseq => Sys2Proof.Machine.execAllReduce q qseq s
  | .broadcast q qseq => Sys2Proof.Machine.execBroadcast q qseq s
  | .allToAll q qseq => Sys2Proof.Machine.execAllToAll q qseq s
  | .permute q qseq => Sys2Proof.Machine.execPermute q qseq s
  | .permuteVote => Sys2Proof.Machine.execPermuteVote s
  | .mapSet q qseq => Sys2Proof.Machine.execMapSet q qseq s
  | .mapSetRemap q qseq => Sys2Proof.Machine.execMapSetRemap q qseq s
  | .acquire q qseq => Sys2Proof.Machine.execAcquire q qseq s
  | .reparent q qseq => Sys2Proof.Machine.execReparent q qseq s
  | .root q qseq => Sys2Proof.Machine.execRoot q qseq s
  | .launchAt q qseq => Sys2Proof.Machine.execLaunchAt q qseq s
  | .plumbRead q qseq => Sys2Proof.Machine.execPlumbRead q qseq s
  | .patchTest q qseq => Sys2Proof.Machine.execPatchTest q qseq s
  | .snagRead q qseq => Sys2Proof.Machine.execSnagRead q qseq s
  | .retire q qseq => Sys2Proof.Machine.execRetire q qseq s
  | .replay q qseq => Sys2Proof.Machine.execReplay q qseq s
  | .takeover q qseq => Sys2Proof.Machine.execTakeover q qseq s
  | .mirrorCfg q qseq => Sys2Proof.Machine.execMirrorCfg q qseq s
  | .telSample q qseq => Sys2Proof.Machine.execTelSample q qseq s
  | .clockSelect q qseq => Sys2Proof.Machine.execClockSelect q qseq s
  | .gate q qseq => Sys2Proof.Machine.execGate q qseq s
  | .clkoutCfg q qseq => Sys2Proof.Machine.execClkoutCfg q qseq s
  | .powerCfg q qseq => Sys2Proof.Machine.execPowerCfg q qseq s
  | .margin q qseq => Sys2Proof.Machine.execMargin q qseq s
  | .attest q qseq => Sys2Proof.Machine.execAttest q qseq s
  | .identityRead q qseq => Sys2Proof.Machine.execIdentityRead q qseq s
  | .imageStageBegin q qseq => Sys2Proof.Machine.execImageStageBegin q qseq s
  | .imageStageData q qseq => Sys2Proof.Machine.execImageStageData q qseq s
  | .imageStageFinish q qseq => Sys2Proof.Machine.execImageStageFinish q qseq s
  | .imageStageAbort q qseq => Sys2Proof.Machine.execImageStageAbort q qseq s
  | .cmd p => Sys2Proof.Machine.execCmd p s
  | .send p => Sys2Proof.Machine.execSend p s
  | .put p => Sys2Proof.Machine.execPut p s
  | .get p => Sys2Proof.Machine.execGet p s
  | .acc p => Sys2Proof.Machine.execAcc p s
  | .getReply p => Sys2Proof.Machine.execGetReply p s
  | .ack p => Sys2Proof.Machine.execAck p s
  | .nack p => Sys2Proof.Machine.execNack p s
  | .syncRequest p t2 => Sys2Proof.Machine.execSyncRequest p t2 s
  | .syncResponse p t4 => Sys2Proof.Machine.execSyncResponse p t4 s
  | .rdmaWrite p => Sys2Proof.Machine.execRdmaWrite p s
  | .rdmaReadRequest p => Sys2Proof.Machine.execRdmaReadRequest p s
  | .arpRequest port frame => Sys2Proof.Machine.execArpRequest port frame s
  | .neighbourSolicitation port frame => Sys2Proof.Machine.execNeighbourSolicitation port frame s
  | .icmpEchoRequest port frame => Sys2Proof.Machine.execIcmpEchoRequest port frame s
  | .pauseFrame port frame => Sys2Proof.Machine.execPauseFrame port frame s
  | .portUp port lanes => Sys2Proof.Machine.execPortUp port lanes s
  | .portDown port => Sys2Proof.Machine.execPortDown port s
  | .packetRetry op idx => Sys2Proof.Machine.execPacketRetry op idx s
  | .operationTimeout op => Sys2Proof.Machine.execOperationTimeout op s
  | .channelEviction src => Sys2Proof.Machine.execChannelEviction src s
  | .ready p => Sys2Proof.Machine.execReady p s
  | .go p => Sys2Proof.Machine.execGo p s
  | .done p => Sys2Proof.Machine.execDone p s
  | .collectiveData d => Sys2Proof.Machine.execCollectiveData d s
  | .collectiveTimeout op => Sys2Proof.Machine.execCollectiveTimeout op s
  | .lathCellArrival plane die node bad => Sys2Proof.Machine.execLathCellArrival plane die node bad s
  | .addAssemblyTimeout node src win => Sys2Proof.Machine.execAddAssemblyTimeout node src win s
  | .cellAck block => Sys2Proof.Machine.execCellAck block s
  | .cellReply block => Sys2Proof.Machine.execCellReply block s
  | .cellNack block => Sys2Proof.Machine.execCellNack block s
  | .lathParcelRetry block win => Sys2Proof.Machine.execLathParcelRetry block win s
  | .allStop block => Sys2Proof.Machine.execAllStop block s
  | .mergeHoldExpiry block win => Sys2Proof.Machine.execMergeHoldExpiry block win s
  | .sectorGrant stack pc => Sys2Proof.Machine.execSectorGrant stack pc s
  | .capacityAccess ctl => Sys2Proof.Machine.execCapacityAccess ctl s
  | .refresh stack pc bank => Sys2Proof.Machine.execRefresh stack pc bank s
  | .patrolScrub stack pc flips => Sys2Proof.Machine.execPatrolScrub stack pc flips s
  | .pseudoChannelRetirement stack pc => Sys2Proof.Machine.execPseudoChannelRetirement stack pc s
  | .hawkMigration mb unit staging => Sys2Proof.Machine.execHawkMigration mb unit staging s
  | .baseOp block chan => Sys2Proof.Machine.execBaseOp block chan s
  | .stride block chan => Sys2Proof.Machine.execStride block chan s
  | .loopOp block chan => Sys2Proof.Machine.execLoopOp block chan s
  | .endl block chan => Sys2Proof.Machine.execEndl block chan s
  | .move block chan => Sys2Proof.Machine.execMove block chan s
  | .scatterAdd block chan => Sys2Proof.Machine.execScatterAdd block chan s
  | .waitp block chan => Sys2Proof.Machine.execWaitp block chan s
  | .waitt block chan => Sys2Proof.Machine.execWaitt block chan s
  | .waitc block chan => Sys2Proof.Machine.execWaitc block chan s
  | .signal block chan => Sys2Proof.Machine.execSignal block chan s
  | .sett block chan => Sys2Proof.Machine.execSett block chan s
  | .peer block chan => Sys2Proof.Machine.execPeer block chan s
  | .endChan block chan => Sys2Proof.Machine.execEndChan block chan s
  | .waitpDue block chan => Sys2Proof.Machine.execWaitpDue block chan s
  | .waitSatisfied block chan => Sys2Proof.Machine.execWaitSatisfied block chan s
  | .waitTimeout block chan => Sys2Proof.Machine.execWaitTimeout block chan s
  | .loadStage op work => Sys2Proof.Machine.execLoadStage op work s
  | .quantise op core ev => Sys2Proof.Machine.execQuantise op core ev s
  | .multiply op core ev => Sys2Proof.Machine.execMultiply op core ev s
  | .screed op core ev writes => Sys2Proof.Machine.execScreed op core ev writes s
  | .returnStage op work => Sys2Proof.Machine.execReturnStage op work s
  | .storeStage op work => Sys2Proof.Machine.execStoreStage op work s
  | .stash op work => Sys2Proof.Machine.execStash op work s
  | .unstash op work => Sys2Proof.Machine.execUnstash op work s
  | .vecCopy op work => Sys2Proof.Machine.execVecCopy op work s
  | .vecAdd op work => Sys2Proof.Machine.execVecAdd op work s
  | .vecSub op work => Sys2Proof.Machine.execVecSub op work s
  | .vecMul op work => Sys2Proof.Machine.execVecMul op work s
  | .act op core ev => Sys2Proof.Machine.execAct op core ev s
  | .actBwd op work => Sys2Proof.Machine.execActBwd op work s
  | .smStats op work => Sys2Proof.Machine.execSmStats op work s
  | .smNorm op work => Sys2Proof.Machine.execSmNorm op work s
  | .smBwdSum op work => Sys2Proof.Machine.execSmBwdSum op work s
  | .smBwd op work => Sys2Proof.Machine.execSmBwd op work s
  | .lnStats op work => Sys2Proof.Machine.execLnStats op work s
  | .rmsStats op work => Sys2Proof.Machine.execRmsStats op work s
  | .normApply op work => Sys2Proof.Machine.execNormApply op work s
  | .normBwdSum op work => Sys2Proof.Machine.execNormBwdSum op work s
  | .normBwd op work => Sys2Proof.Machine.execNormBwd op work s
  | .topk op work => Sys2Proof.Machine.execTopk op work s
  | .segsum op work => Sys2Proof.Machine.execSegsum op work s
  | .takeTiles core => Sys2Proof.Machine.execTakeTiles core s
  | .tileConflict q qseq => Sys2Proof.Machine.execTileConflict q qseq s
  | .runComplete op => Sys2Proof.Machine.execRunComplete op s
  | .passMismatchDecision eng runA runB => Sys2Proof.Machine.execPassMismatchDecision eng runA runB s
  | .arrayEventDecision eng again => Sys2Proof.Machine.execArrayEventDecision eng again s
  | .patchTestDue unit => Sys2Proof.Machine.execPatchTestDue unit s
  | .patchTestComplete unit result last => Sys2Proof.Machine.execPatchTestComplete unit result last s
  | .mirrorComplete => Sys2Proof.Machine.execMirrorComplete s
  | .snagFlashCommit ok => Sys2Proof.Machine.execSnagFlashCommit ok s
  | .sendSyncRequest => Sys2Proof.Machine.execSendSyncRequest s
  | .childEntryExpiry dev => Sys2Proof.Machine.execChildEntryExpiry dev s
  | .holdoverEntry => Sys2Proof.Machine.execHoldoverEntry s
  | .unlockedEntry => Sys2Proof.Machine.execUnlockedEntry s
  | .launch q qseq => Sys2Proof.Machine.execLaunch q qseq s
  | .launchAtDue op => Sys2Proof.Machine.execLaunchAtDue op s
  | .windowStart w => Sys2Proof.Machine.execWindowStart w s
  | .windowEnd w => Sys2Proof.Machine.execWindowEnd w s
  | .plumbAlignedPoint => Sys2Proof.Machine.execPlumbAlignedPoint s
  | .sagSample mv => Sys2Proof.Machine.execSagSample mv s
  | .s5QuiesceEnd => Sys2Proof.Machine.execS5QuiesceEnd s
  | .droopN => Sys2Proof.Machine.execDroopN s
  | .shedReturn => Sys2Proof.Machine.execShedReturn s
  | .railOutOfWindow rail mv below => Sys2Proof.Machine.execRailOutOfWindow rail mv below s
  | .regulatorPoll reply => Sys2Proof.Machine.execRegulatorPoll reply s
  | .avsSetpointMove want => Sys2Proof.Machine.execAvsSetpointMove want s
  | .powerCap watts => Sys2Proof.Machine.execPowerCap watts s
  | .oscLoss => Sys2Proof.Machine.execOscLoss s
  | .thermalSample t => Sys2Proof.Machine.execThermalSample t s
  | .thermalStepDown die => Sys2Proof.Machine.execThermalStepDown die s
  | .thermalStepUp die => Sys2Proof.Machine.execThermalStepUp die s
  | .powerGood => Sys2Proof.Machine.execPowerGood s
  | .reset pin => Sys2Proof.Machine.execReset pin s
  | .imageVerified => Sys2Proof.Machine.execImageVerified s
  | .phaseLimit => Sys2Proof.Machine.execPhaseLimit s
  | .release rep => Sys2Proof.Machine.execRelease rep s
  | .smbusRead code => Sys2Proof.Machine.execSmbusRead code s
  | .smbusWrite code data => Sys2Proof.Machine.execSmbusWrite code data s
  | .tapInstruction ir => Sys2Proof.Machine.execTapInstruction ir s
  | .lockstepDivergence pc => Sys2Proof.Machine.execLockstepDivergence pc s
  | .droopComparator die => Sys2Proof.Machine.execDroopComparator die s
  | .droopNDeasserted => Sys2Proof.Machine.execDroopNDeasserted s
  | .fuseLoadEnd railsOk => Sys2Proof.Machine.execFuseLoadEnd railsOk s
  | .fixedRailInWindow rail => Sys2Proof.Machine.execFixedRailInWindow rail s
  | .atomicOperation p => Sys2Proof.Machine.execAtomicOperation p s

end Sys2Proof.Machine
end

