-- ==== Sys2Proof/Safety.lean ====
section
/-! DEFINITION. The terms in which claims about the block are made: when a host command begins with
every common check passed, what a completed command leaves behind, which parts of the state an
operation leaves alone, and the invariant every step keeps. -/

namespace Sys2Proof.Machine

/-- The host command `c` of an opcode stands at a place of its queue and begins there, with every
check common to all commands passed (R325, R329, R331, R334), outside the safe state and under no
STEP_SKIP with EARLY. -/
def Begins (s : State) (q qseq opcode : Nat) (c : Cmd) : Prop :=
  readyCmd s q qseq = some c ∧ c.opcode = opcode ∧ earlySkip s q qseq = false ∧ inSafe s = false ∧ admission s c = none

/-- Nothing of the device is changed but what placing, beginning and completing commands and
sending frames work on: queues, flights, the books of the step, memory, CSRs, the Snag list with its flash, and frames sent. -/
def SameUnits (s t : State) : Prop :=
  t.pending = s.pending ∧ t.job = s.job ∧ t.hawk = s.hawk ∧ t.chip = s.chip ∧ t.runs = s.runs ∧ t.held = s.held
    ∧ t.topcoat = s.topcoat ∧ t.blocks = s.blocks ∧ t.hubBlock = s.hubBlock ∧ t.lath = s.lath ∧ t.coll = s.coll
    ∧ t.time = s.time ∧ t.power = s.power ∧ t.boot = { s.boot with flash := t.boot.flash } ∧ t.plumb = s.plumb ∧ t.settings = s.settings ∧ t.free = s.free

/-- Memory that holds no symbol error and no wrong group index (R201, R216). -/
def CleanMem (s : State) : Prop := s.mem.errs = [] ∧ s.mem.tierIdx = []

/-- Logical core `core` of the RUN of operation `op` stands at the stage `x` describes, free to go on:
not stopped, its chain not ended, the arrays running, and no memory request of a class above the step's waiting
(R32, R148, R149, R378). -/
def AtStage (s : State) (op core : Nat) (x : StCtx) : Prop :=
  runOf s op = some x.run ∧ x.head = runHead x.run.cmd.body ∧ x.run.cores.find? (fun k => k.core == core) = some x.core
    ∧ x.head.stages[x.core.next]? = some x.rcd ∧ x.core.stopped = false ∧ x.core.status = stOk ∧ shedLevel s < 4
    ∧ released s = true ∧ lowerWaits s 2 = false ∧ x.pos = x.head.cores.idxOf core ∧ x.n = x.head.cores.length ∧ x.i = x.core.next
    ∧ x.io = { pc := physCore s core, mb := x.head.mb
               frame := ((x.run.frames.filter (fun p => decide (p.1 ≤ x.core.next))).getLast?).map (·.2) }

/-- In state `d` a RUN passes its checks, every tile it names can be taken, its recipe is loaded and its compute
copies resolve (R84, R85, R159, R343). -/
def RunTakes (d : State) (c : Cmd) (rb : List Byte) (copies : List (Nat × Nat × Bool)) : Prop :=
  runCheck d (runLevelled d c) (runHead c.body) = true ∧ tilesState d (runHead c.body) = 0
    ∧ recipeOf d (runHead c.body).recipe = some rb ∧ resolveCopies d (runHead c.body).copies = .ok copies
    ∧ takeCheck d (runHead c.body) copies (Recipe.ofBytes rb) = true

/-- From `d` to `u` a RUN has begun: it stands among the RUNs with every core at its first stage, and every tile it
names is owned by its operation ID on every engine of its cores (R84). -/
def RunTaken (d u : State) (c : Cmd) (rb : List Byte) (copies : List (Nat × Nat × Bool)) : Prop :=
  (∃ r : Run, u.runs = d.runs ++ [r] ∧ r.cmd = c ∧ r.level = runLevelled d c ∧ r.recipe = rb ∧ r.copies = copies ∧ r.frames = []
      ∧ r.cores = (runHead c.body).cores.map coreRun0)
    ∧ (∀ lc ∈ (runHead c.body).cores, ∀ pe ∈ enginesOf d lc, ∀ t ∈ tilesNamed (runHead c.body),
        (tileGet u pe t.tile).owned = true ∧ (tileGet u pe t.tile).owner = c.op ∧ (tileGet u pe t.tile).kept = false)
    ∧ u.mem = d.mem ∧ u.csr = d.csr ∧ u.queues = d.queues ∧ u.job = d.job

/-- Where a core of a RUN stands. -/
def coreAt (s : State) (op core : Nat) : Option CoreRun := (runOf s op).bind (fun r => r.cores.find? (fun k => k.core == core))

/-- Channel `ch` of Stencil block `b` is `x`, runs, and stands at the instruction word `w` of operation
`op`, with nothing that stops, halts or sheds its block (R222, R223, R240, R268). -/
def AtWord (s : State) (b ch op : Nat) (x : Chan) (w : Nat) : Prop :=
  b < 33 ∧ ch < blockChans b ∧ chanGet s b ch = x ∧ w = imageWord x.image x.pc ∧ stOp w = op ∧ x.state = chRunning
    ∧ x.stopping = false ∧ (blockGet s b).stops = false ∧ shedLevel s < 4 ∧ released s = true

/-- Stack `st`'s Topcoat stands, running, at an instruction word of operation `op` in the UPDATE under
way; `c` is what the word sees (R178, R191). -/
def AtTopWord (s : State) (st op : Nat) (c : TopCtx) : Prop :=
  s.topcoat.running = some c.u ∧ s.topcoat.tops[st]? = some c.x ∧ tensorAt s c.u.cmd.uTensor = some c.t
    ∧ topProg s c.u.cmd.uProg = some c.p ∧ c.p.words[c.x.pc]? = some c.word ∧ c.st = st ∧ wordOp c.word = op
    ∧ c.x.busy = true ∧ c.x.atPhase = false ∧ c.x.halted = false ∧ released s = true ∧ stackWaits s st 3 = false
    ∧ (c.x.fresh = true → shedLevel s < 4)

/-- The invariant every step keeps: the canonical form of the memory and of the register file, the
eight command queues (R321), and the bound of the child table (R302). -/
def BlockInv (s : State) : Prop :=
  Store.wf 0 s.mem.bytes = true ∧ Store.wf 0 s.csr = true ∧ s.queues.length = 8 ∧ s.time.children.length ≤ 64

end Sys2Proof.Machine
end

