-- ==== Sys2Proof/Certificates/Slice0/Obligations.lean ====
section
/-! DEFINITION. The statements about the block, one definition each. -/

open Sys2Proof Sys2Proof.Machine

/-! The block: its queue of waiting commands, reset, and the invariant. -/

/-- A step runs the command at the front of the queue of waiting commands over the rest of it. -/
def Obligations.StepRunsFront : Prop :=
  ∀ (c : Instr) (rest : List Instr) (s : State),
    step { s with pending := c :: rest } = exec c { s with pending := rest }

/-- With no command waiting, a step is one plumb tick: it leaves the queue empty, and the count moves by
one while the device runs (R298; that an empty queue passes a tick is the model's choice, log entry 1). -/
def Obligations.IdleStepTicks : Prop :=
  ∀ s : State, s.pending = [] → s.boot.pwrgd = true → s.boot.resetN = true →
    ∃ t, step s = .next t ∧ t.pending = [] ∧ t.plumb = (s.plumb + 1) % 2 ^ 64

/-- Right after reset the invariant holds. -/
def Obligations.ResetHoldsInv : Prop := BlockInv State.reset

/-- Every step keeps the invariant, from every state that has it: the memory and the register file keep
their canonical form, the eight queues stay, and the child table never outgrows its 64 entries. -/
def Obligations.StepKeepsInv : Prop :=
  ∀ s t : State, BlockInv s → step s = .next t → BlockInv t

/-- What reset leaves: the reset values the field tables state, among them the tile-hold limit of
2,000 µs, the retry settings of Lath and Scrim, the collective timeout and the clock divisors, and 0 in
every other register (where a table states no reset value, and for memory and tiles, the model's choice, log
entry 4); no queue holds a slot and each stands at N 0 with 64 slots; no job is open, the
step is IDLE, every tile is free, every memory byte reads 0 and READY is deasserted. -/
def Obligations.ResetLeaves : Prop :=
  (∀ p ∈ resetRegs, csrGet State.reset p.1 = p.2)
    ∧ (∀ a, a ∉ resetRegs.map Prod.fst → csrGet State.reset a = 0)
    ∧ csrGet State.reset 0x3100 = 2000 ∧ csrGet State.reset 0x9000 = 0x714 ∧ csrGet State.reset 0x9004 = 1000
    ∧ csrGet State.reset 0x8000 = 0x308 ∧ csrGet State.reset 0xA018 = 20000 ∧ csrGet State.reset 0x200 = 0x76543210
    ∧ (∀ q, q < 8 → (queueAt State.reset q).slots = [] ∧ (queueAt State.reset q).n = 0 ∧ (queueAt State.reset q).depth = 64)
    ∧ jobOpen? State.reset = false ∧ stepState State.reset = sIdle ∧ State.reset.chip.tiles = []
    ∧ (∀ a, memByte State.reset a = 0) ∧ State.reset.boot.ready = false

/-! Memory and registers: the shared operations. -/

/-- A register set reads as what was put there, and every other register as before.

Setting a field of a register leaves its other bits: fields that do not meet read as before, and the
field reads as the value cut to its width. -/
def Obligations.RegistersReadBackFieldByField : Prop :=
  (∀ (s : State) (a b v : Nat),
      csrGet (csrPut s a v) b = if b = a then v % 2 ^ 32 else csrGet s b)
    ∧ (∀ (s : State) (a hi lo v : Nat), lo ≤ hi → hi < 32 →
      csrField (csrSetField s a hi lo v) a hi lo = v % 2 ^ (hi + 1 - lo)
        ∧ ∀ h l, (h < lo ∨ hi < l) → l ≤ h → h < 32 → csrField (csrSetField s a hi lo v) a h l = csrField s a h l)

/-- Bytes written to memory without errors read back, and every byte outside them reads as before; the
write changes nothing else.

A checked read of memory without errors answers the bytes that stand there and changes nothing. -/
def Obligations.MemoryReadsBackWhatWasWritten : Prop :=
  (∀ (s : State) (a : Nat) (bs : List Byte), CleanMem s →
      (writeMem s a bs).2 = true
        ∧ memBytes (writeMem s a bs).1 a bs.length = bs
        ∧ (∀ x, x < a ∨ a + bs.length ≤ x → memByte (writeMem s a bs).1 x = memByte s x)
        ∧ CleanMem (writeMem s a bs).1
        ∧ { (writeMem s a bs).1 with mem := s.mem } = s)
    ∧ (∀ (s : State) (a n : Nat), CleanMem s → readMem s a n = (s, some (memBytes s a n)))

/-- A partial write to a poisoned sector leaves every byte of that sector as it stood and is reported as failed
(R205); a write that covers a poisoned sector whole leaves it poisoned no more.

A checked read that meets a poisoned sector answers no bytes (R205). -/
def Obligations.PoisonedSectorsAnswerNothing : Prop :=
  (∀ (s : State) (a : Nat) (bs : List Byte) (k : Nat), k ∈ badSectors s a bs.length → poisoned s k = true →
      (coversSector a bs.length k = false → (writeMem s a bs).2 = false
        ∧ ∀ x, x / 64 = k → memByte (writeMem s a bs).1 x = memByte s x)
      ∧ (coversSector a bs.length k = true → poisoned (writeMem s a bs).1 k = false))
    ∧ (∀ (s : State) (a n k : Nat), k ∈ badSectors s a n → poisoned s k = true → (readMem s a n).2 = none)

/-! Placing, beginning and completing commands. -/

/-- A CMD whose number is a free slot of its queue, at or above N and within the depth, is placed: the slot is PLACED
with the entry, N is unchanged, nothing has begun, and no other queue and nothing else changes (R327).

An entry whose number a slot of its queue already holds is not placed again: no queue's slots change, and no
queue's N (R327, R328). -/
def Obligations.PlacingTakesFreeSlotsOnly : Prop :=
  (∀ (s : State) (q : Nat) (entry : List Byte) (o : Origin), inSafe s = false → q < s.queues.length →
      (queueAt s q).inHub = true → qdist (queueAt s q) (leAt entry 4 4) < (queueAt s q).depth →
      slotOf (queueAt s q) (leAt entry 4 4) = none →
      ∃ sl, slotOf (queueAt (placeEntry s q entry o) q) (leAt entry 4 4) = some sl ∧ sl.entry = entry ∧ sl.begun = false
        ∧ sl.arrived = s.plumb ∧ (queueAt (placeEntry s q entry o) q).n = (queueAt s q).n
        ∧ (∀ p, p ≠ q → queueAt (placeEntry s q entry o) p = queueAt s p)
        ∧ { placeEntry s q entry o with queues := s.queues } = s)
    ∧ (∀ (s : State) (q : Nat) (entry : List Byte) (o : Origin) (sl : QSlot),
      (queueAt s q).inHub = true → slotOf (queueAt s q) (leAt entry 4 4) = some sl →
      qdist (queueAt s q) (leAt entry 4 4) < (if inSafe s then 1 else (queueAt s q).depth) →
      ∀ p, (queueAt (placeEntry s q entry o) p).slots = (queueAt s p).slots
        ∧ (queueAt (placeEntry s q entry o) p).n = (queueAt s p).n)

/-- A completion is remembered once in its queue's history with the status, and the command is no longer
in flight; what the command's queue holds besides, its slots and its N, is unchanged (R326, R327). -/
def Obligations.FinishRemembers : Prop :=
  ∀ (s : State) (c : Cmd) (st : Nat), c.queue < s.queues.length → s.step.silent.contains (c.queue, c.qseq) = false →
    (∃ e, stGet [] (queueAt (finish s c st) c.queue).history c.qseq = stGet [] (queueAt s c.queue).history c.qseq ++ [e]
        ∧ leAt e 0 2 = st % 2 ^ 16 ∧ leAt e 4 2 = c.opcode % 2 ^ 16 ∧ leAt e 8 4 = c.qseq % 2 ^ 32)
      ∧ (finish s c st).flights = s.flights.filter (fun f => !(f.cmd.queue == c.queue && f.cmd.qseq == c.qseq))
      ∧ (queueAt (finish s c st) c.queue).slots = (queueAt s c.queue).slots
      ∧ (queueAt (finish s c st) c.queue).n = (queueAt s c.queue).n

/-- The frame of beginning and completing a command: no unit of the device but the queues' own books, the
memory of rings and log, error counts and frames sent.

Where memory holds no errors, completing a command changes no byte but the 32 of its entry in the
completion ring and the four of TAIL, and none at all while the ring stands in hub memory (R322, R326). -/
def Obligations.BeginAndFinishFrames : Prop :=
  (∀ (s : State) (q qseq : Nat) (c : Cmd) (st flags : Nat) (result : List Byte),
      SameUnits s (markBegun s q qseq) ∧ SameUnits s (complete s c st flags result))
    ∧ (∀ (s : State) (c : Cmd) (st flags : Nat) (result : List Byte) (a : Nat), CleanMem s →
      ((queueAt s c.queue).inHub = true
        ∨ ((a < (queueAt s c.queue).cq + 64 + 32 * ((queueAt s c.queue).tail % ((queueAt s c.queue).depth + 64))
              ∨ (queueAt s c.queue).cq + 64 + 32 * ((queueAt s c.queue).tail % ((queueAt s c.queue).depth + 64)) + 32 ≤ a)
            ∧ (a < (queueAt s c.queue).cq + 4 ∨ (queueAt s c.queue).cq + 8 ≤ a))) →
      memByte (complete s c st flags result) a = memByte s a)

/-! Commands to the device, its queues and its job. In each, `b` is the state in which the command has
begun. -/

/-- A host command that one of the common checks refuses (job condition, JOB, operation ID, opcode,
reserved header bits, body length: R325, R331, R334) completes with that status, and no unit of the device changes:
not the job, the engines, Topcoat, the Stencil blocks, the Lath, the collectives, time, power or start-up.

A command that a STEP_SKIP with EARLY covers and that has not begun completes at once with
STEP_SKIPPED and never starts (R166): here FILL, COPY, REGION_MAP, RUN and UPDATE, of five families. -/
def Obligations.RefusedOrSkippedHasNoEffect : Prop :=
  (∀ (s : State) (q qseq : Nat) (c : Cmd) (st : Nat) (sel : Cmd → Bool) (body : Cmd → State → Option State),
      readyCmd s q qseq = some c → sel c = true → earlySkip s q qseq = false → inSafe s = false → admission s c = some st →
      hostRow s q qseq sel body = finish (markBegun s q qseq) c st
        ∧ SameUnits s (hostRow s q qseq sel body))
    ∧ (∀ (s : State) (q qseq : Nat) (c : Cmd), readyCmd s q qseq = some c → earlySkip s q qseq = true →
      (c.opcode = 0x0201 → exec (.regionMap q qseq) s = .next (finish (markBegun s q qseq) c stSkipped))
        ∧ (c.opcode = 0x0202 → exec (.fill q qseq) s = .next (finish (markBegun s q qseq) c stSkipped))
        ∧ (c.opcode = 0x0203 → exec (.copy q qseq) s = .next (finish (markBegun s q qseq) c stSkipped))
        ∧ (c.opcode = 0x0401 → exec (.run q qseq) s = .next (finish (markBegun s q qseq) c stSkipped))
        ∧ (c.opcode = 0x0602 → exec (.update q qseq) s = .next (finish (markBegun s q qseq) c stSkipped)))

/-- IDENTIFY (R335) completes with the firmware version, the grade, the enabled clusters, the device's ID
or 0x8000, and whether a job is open and READY is asserted; nothing else happens.

READ_CSR of one register (R335, R8): RESULT holds its value with write-only fields as 0, and its
read-to-clear fields are cleared, nothing else; READ_CSR of two answers both in RESULT, the lower first,
and of more than two writes them to DEST and ends with OK, or with ABORTED_FAULT where a sector of DEST
cannot take them. -/
def Obligations.IdentifyAndReadCsrAnswer : Prop :=
  (∀ (s : State) (q qseq : Nat) (c : Cmd), Begins s q qseq 0x0101 c →
      exec (.identify q qseq) s = .next (complete (markBegun s q qseq) c stOk 0
        (leBytes 2 Config.firmwareVersion.toNat
          ++ [byteOf (csrField (markBegun s q qseq) rHubGrade 3 0), byteOf (csrField (markBegun s q qseq) rHubGrade 15 8)]
          ++ leBytes 2 (if csrField (markBegun s q qseq) rColId 30 30 = 1 then csrField (markBegun s q qseq) rColId 11 0 else 0x8000)
          ++ [byteOf (boolNat (jobOpen? (markBegun s q qseq)) + 2 * boolNat (markBegun s q qseq).boot.ready), 0])))
    ∧ (∀ (s : State) (q qseq : Nat) (c : Cmd) (dst : Nat), Begins s q qseq 0x0102 c → zeroAt c.body 6 2 = true →
      leAt c.body 0 4 % 4 = 0 → leAt c.body 4 2 ≠ 0 → leAt c.body 4 2 ≤ 256 → inSafe (markBegun s q qseq) = false →
      (∀ i, i < leAt c.body 4 2 → (regAt (leAt c.body 0 4 + 4 * i)).isSome = true) → addrField c.body 8 = some dst →
      (∀ f, leAt c.body 4 2 = 1 → regAt (leAt c.body 0 4) = some f →
          exec (.readCsr q qseq) s = .next (complete
            (if accMask f .rc = 0 then markBegun s q qseq else
              csrPut (markBegun s q qseq) (leAt c.body 0 4)
                (csrGet (markBegun s q qseq) (leAt c.body 0 4) &&& (2 ^ 32 - 1 - accMask f .rc)))
            c stOk 0 (leBytes 4 (csrValue (markBegun s q qseq) (leAt c.body 0 4) &&& (2 ^ 32 - 1 - accMask f .wo)))))
        ∧ (leAt c.body 4 2 = 2 →
          exec (.readCsr q qseq) s = .next (complete (csrReads (markBegun s q qseq) (leAt c.body 0 4) 2).2 c stOk 0
            ((csrReads (markBegun s q qseq) (leAt c.body 0 4) 2).1.flatMap (leBytes 4))))
        ∧ (2 < leAt c.body 4 2 → rangeOk (markBegun s q qseq) dst (4 * leAt c.body 4 2) = true →
          exec (.readCsr q qseq) s = .next (cmdAnswer (csrReads (markBegun s q qseq) (leAt c.body 0 4) (leAt c.body 4 2)).2 c dst
            ((csrReads (markBegun s q qseq) (leAt c.body 0 4) (leAt c.body 4 2)).1.flatMap (leBytes 4)) [])))

/-- WRITE_CSR (R335) of a register with a writable field whose value no rule forbids: RW and WO fields take
the value, W1C bits written 1 are cleared, RO and RC fields stay, and a setting that holds for what
arrives later has its old word noted (R426); a register without a writable field, or an address that names
none, is refused with REFUSED_BAD_PARAM and changes nothing. TEL_RING_READ, whose write also counts the
unread records, is left to its own rule.

The word a WRITE_CSR leaves, field by field (R8, R9): an RW field holds the written value, an RO or RC
field what it held, and a W1C field what it held with the written ones cleared, in every register of the
map. -/
def Obligations.WriteCsrByField : Prop :=
  (∀ (s : State) (q qseq : Nat) (c : Cmd), Begins s q qseq 0x0103 c →
      (∀ f, regAt (leAt c.body 0 4) = some f → writable f = true → leAt c.body 0 4 ≠ rTelRingRead →
          csrWriteCheck (markBegun s q qseq) (leAt c.body 0 4)
            (writeWord f (csrGet (markBegun s q qseq) (leAt c.body 0 4)) (leAt c.body 4 4)) = none →
          exec (.writeCsr q qseq) s = .next (finish (csrPut
            (if timedSettings.contains (leAt c.body 0 4) then settingNote (markBegun s q qseq) (leAt c.body 0 4) else markBegun s q qseq)
            (leAt c.body 0 4) (writeWord f (csrGet (markBegun s q qseq) (leAt c.body 0 4)) (leAt c.body 4 4))) c stOk))
        ∧ (∀ f, regAt (leAt c.body 0 4) = some f → writable f = false →
          exec (.writeCsr q qseq) s = .next (finish (markBegun s q qseq) c stBadParam))
        ∧ (regAt (leAt c.body 0 4) = none →
          exec (.writeCsr q qseq) s = .next (finish (markBegun s q qseq) c stBadParam)))
    ∧ (∀ f ∈ regFams, ∀ x ∈ f.fields, ∀ old v, old < 2 ^ 32 → v < 2 ^ 32 →
      (x.acc = .rw → fieldOf (writeWord f old v) x.hi x.lo = fieldOf v x.hi x.lo)
        ∧ (x.acc = .ro ∨ x.acc = .rc → fieldOf (writeWord f old v) x.hi x.lo = fieldOf old x.hi x.lo)
        ∧ (x.acc = .w1c → fieldOf (writeWord f old v) x.hi x.lo
            = fieldOf old x.hi x.lo &&& (2 ^ (x.hi + 1 - x.lo) - 1 - fieldOf v x.hi x.lo)))

/-- QUEUE_SETUP (R336) that its checks allow moves the named queue's rings into interleaved space: depth,
RING and CQ as given, N 0, no slot and no history, HEAD and TAIL written 0, every other queue unchanged.

QUEUE_SETUP with KIND 0x2 (R336): a context with ENABLE is written or replaced whole, without ENABLE it
is destroyed, and every other queue pair stays. -/
def Obligations.QueueSetupMovesRingsAndContexts : Prop :=
  (∀ (s : State) (q qseq : Nat) (c : Cmd), Begins s q qseq 0x0104 c → leAt c.body 0 1 = 1 →
      queueSetupCheck (markBegun s q qseq) c = none → (markBegun s q qseq).queues.length = 8 →
      ∃ u, exec (.queueSetup q qseq) s = .next (finish u c stOk)
        ∧ (queueAt u (leAt c.body 1 1)).depthLog2 = leAt c.body 2 1 ∧ (queueAt u (leAt c.body 1 1)).inHub = false
        ∧ (queueAt u (leAt c.body 1 1)).ring = leAt c.body 8 8 ∧ (queueAt u (leAt c.body 1 1)).cq = leAt c.body 16 8
        ∧ (queueAt u (leAt c.body 1 1)).n = 0 ∧ (queueAt u (leAt c.body 1 1)).slots = []
        ∧ (queueAt u (leAt c.body 1 1)).history = [] ∧ (queueAt u (leAt c.body 1 1)).tail = 0
        ∧ (∀ p, p ≠ leAt c.body 1 1 → queueAt u p = queueAt (markBegun s q qseq) p)
        ∧ SameUnits (markBegun s q qseq) u
        ∧ (CleanMem (markBegun s q qseq) →
            memBytes u (leAt c.body 16 8) 8 = List.replicate 8 0
              ∧ ∀ a, a < leAt c.body 16 8 ∨ leAt c.body 16 8 + 8 ≤ a → memByte u a = memByte (markBegun s q qseq) a))
    ∧ (∀ (s : State) (q qseq : Nat) (c : Cmd), Begins s q qseq 0x0104 c → leAt c.body 0 1 = 2 → queueSetupQpCheck c = none →
      ∃ u, exec (.queueSetupQp q qseq) s = .next (finish u c stOk)
        ∧ u = { markBegun s q qseq with net := { (markBegun s q qseq).net with qps := u.net.qps } }
        ∧ (∀ d k, k ≠ leAt c.body 4 4 → stGet d u.net.qps k = stGet d (markBegun s q qseq).net.qps k)
        ∧ (leAt c.body 3 1 = 0 → ∀ d, stGet d u.net.qps (leAt c.body 4 4) = d)
        ∧ (leAt c.body 3 1 = 1 → ∀ d, (stGet d u.net.qps (leAt c.body 4 4)).valid = true
            ∧ (stGet d u.net.qps (leAt c.body 4 4)).queue = leAt c.body 1 1
            ∧ (stGet d u.net.qps (leAt c.body 4 4)).mtu = 128 * 2 ^ leAt c.body 2 1
            ∧ (stGet d u.net.qps (leAt c.body 4 4)).remote = leAt c.body 8 3
            ∧ (stGet d u.net.qps (leAt c.body 4 4)).gid = sliceB c.body 24 16
            ∧ (stGet d u.net.qps (leAt c.body 4 4)).epsn = leAt c.body 12 3
            ∧ (stGet d u.net.qps (leAt c.body 4 4)).rpsn = leAt c.body 16 3))

/-- JOB_OPEN (R333) whose checks pass and whose parameter table reads as the tensors `ts`: HUB_JOB holds the
job, STEPS is the body's, the tensors are in place, no recipe is loaded, and the step state reads COMMITTED
with LAST_OUTCOME 0x0; engines, memory and queues are as the table's read left them.

JOB_CLOSE (R333) between steps with nothing in flight: no job is open, every tile is free, regions,
windows, R_Keys, tables and Hawk stacks are gone, no job's queue pair is left, and the step is IDLE; every
cell of memory keeps its bytes: those that a region named stand where the map without regions names them (the
addresses of cells that no address of the map names are the model's, log entry 97). -/
def Obligations.JobOpensAndCloses : Prop :=
  (∀ (s : State) (q qseq : Nat) (c : Cmd) (ts : List Tensor), Begins s q qseq 0x0105 c →
      jobOpenCheck (markBegun s q qseq) c = none →
      (readTable (markBegun s q qseq) (leAt c.body 16 8) (leAt c.body 24 2)).2 = some ts →
      ∃ u, exec (.jobOpen q qseq) s = .next (finish u c stOk)
        ∧ jobOpen? u = true ∧ jobId u = leAt c.body 0 2 ∧ csrField u rHubJob 19 16 = leAt c.body 2 1
        ∧ stepsOf u = leAt c.body 8 8 ∧ stepState u = sCommitted ∧ csrField u rHubStepState 11 8 = 0
        ∧ u.job.tensors = ts ∧ u.chip.recipes = []
        ∧ u.chip.tiles = (markBegun s q qseq).chip.tiles
        ∧ u.mem = (readTable (markBegun s q qseq) (leAt c.body 16 8) (leAt c.body 24 2)).1.mem
        ∧ u.queues = (markBegun s q qseq).queues)
    ∧ (∀ (s : State) (q qseq : Nat) (c : Cmd), Begins s q qseq 0x0106 c → leAt c.body 0 2 = jobId (markBegun s q qseq) →
      zeroAt c.body 2 14 = true → betweenSteps (markBegun s q qseq) = true → jobBusy (markBegun s q qseq) = false →
      (markBegun s q qseq).coll.permute = none →
      ∃ u, exec (.jobClose q qseq) s = .next (finish u c stOk)
        ∧ jobOpen? u = false ∧ stepState u = sIdle ∧ u.chip.tiles = [] ∧ u.job = job0 ∧ u.hawk = []
        ∧ (∀ n, n < 64 → pregValid u n = false) ∧ (∀ p ∈ u.net.qps, p.2.byJob = false)
        ∧ u.queues = (markBegun s q qseq).queues
        ∧ ∀ r, r = (List.range 64).foldl (fun t n => setPreg t n 0 0 0 0) (markBegun s q qseq) →
            u.mem = { (remapMemory (markBegun s q qseq) r).mem with bgHeld := [] }
              ∧ (movedGranules (markBegun s q qseq) r = [] → ∀ a, memByte u a = memByte (markBegun s q qseq) a))

/-- REGION_MAP (R340) between steps: a list whose every entry applies and whose regions all fit their
placement takes effect whole, and the bytes of a cell whose address changes with it go along (R199); one that
does not is refused and nothing of it takes effect.

WINDOW_MAP (R263, R340): the list applies whole, to the windows there are or, with REPLACE, to none, and
the result obeys R263; or it is refused and the windows stay. -/
def Obligations.MapsWholeOrNothing : Prop :=
  (∀ (s r : State) (q qseq : Nat) (c : Cmd) (bytes : List Byte), Begins s q qseq 0x0201 c →
      betweenSteps (markBegun s q qseq) = true → leAt c.body 0 8 < 2 ^ 42 → leAt c.body 8 2 ≠ 0 → leAt c.body 8 2 ≤ 256 →
      zeroAt c.body 10 6 = true → rangeOk (markBegun s q qseq) (leAt c.body 0 8) (32 * leAt c.body 8 2) = true →
      readMem (markBegun s q qseq) (leAt c.body 0 8) (32 * leAt c.body 8 2) = (r, some bytes) →
      (∀ t, applyRegions ((List.range (leAt c.body 8 2)).map (fun i => sliceB bytes (32 * i) 32)) r = .ok t →
          regionsOk t = true → exec (.regionMap q qseq) s = .next (finish (remapMemory r t) c stOk)
            ∧ (movedGranules r t = [] → (remapMemory r t) = t))
        ∧ (∀ t, applyRegions ((List.range (leAt c.body 8 2)).map (fun i => sliceB bytes (32 * i) 32)) r = .ok t →
          regionsOk t = false → exec (.regionMap q qseq) s = .next (finish r c stBadParam))
        ∧ (∀ e, applyRegions ((List.range (leAt c.body 8 2)).map (fun i => sliceB bytes (32 * i) 32)) r = .error e →
          exec (.regionMap q qseq) s = .next (finish r c e)))
    ∧ (∀ (s r : State) (q qseq : Nat) (c : Cmd) (bytes : List Byte), Begins s q qseq 0x0204 c →
      leAt c.body 0 8 < 2 ^ 42 → leAt c.body 8 1 ≠ 0 → leAt c.body 8 1 ≤ 64 → leAt c.body 9 1 ≤ 1 → zeroAt c.body 10 6 = true →
      rangeOk (markBegun s q qseq) (leAt c.body 0 8) (32 * leAt c.body 8 1) = true →
      readMem (markBegun s q qseq) (leAt c.body 0 8) (32 * leAt c.body 8 1) = (r, some bytes) →
      ∃ u ws, ws = ((List.range (leAt c.body 8 1)).map (fun i => sliceB bytes (32 * i) 32)).foldl applyWindow
            (if leAt c.body 9 1 = 1 then [] else (markBegun s q qseq).job.windows)
        ∧ ((((List.range (leAt c.body 8 1)).map (fun i => sliceB bytes (32 * i) 32)).all windowEntryOk && windowsOk ws) = true →
            exec (.windowMap q qseq) s = .next (finish u c stOk) ∧ u = { r with job := { r.job with windows := ws } })
        ∧ ((((List.range (leAt c.body 8 1)).map (fun i => sliceB bytes (32 * i) 32)).all windowEntryOk && windowsOk ws) = false →
            exec (.windowMap q qseq) s = .next (finish r c stBadParam)))

/-- FILL (R340) over a range of memory: PATTERN stands repeated over the whole range and every byte outside
it is unchanged, where the memory holds no errors; otherwise the checked write decides the status. It begins once no
memory request of a class above its own waits (R32).

COPY (R340) between ranges of memory without errors: the destination holds the bytes the source held,
every byte outside the destination is unchanged, and the tally counts the bytes; a poisoned source ends it
with ABORTED_FAULT and nothing is written; while a memory request of a class above its own waits it does not
begin (R32). -/
def Obligations.FillAndCopyMoveBytes : Prop :=
  (∀ (s : State) (q qseq : Nat) (c : Cmd), Begins s q qseq 0x0202 c → leAt c.body 0 8 < 2 ^ 42 → leAt c.body 8 8 % 32 = 0 →
      leAt c.body 8 8 ≤ 2 ^ 42 → rangeOk (markBegun s q qseq) (leAt c.body 0 8) (leAt c.body 8 8) = true →
      lowerWaits (markBegun s q qseq) 2 = false →
      ∃ u, exec (.fill q qseq) s = .next (finish u c (if (writeMem (markBegun s q qseq) (leAt c.body 0 8)
            (List.replicate (leAt c.body 8 8 / 32) (sliceB c.body 16 32)).flatten).2 then stOk else stFault))
        ∧ SameUnits (markBegun s q qseq) u
        ∧ (CleanMem (markBegun s q qseq) →
            exec (.fill q qseq) s = .next (finish u c stOk)
              ∧ (∀ i, i < leAt c.body 8 8 → memByte u (leAt c.body 0 8 + i) = (sliceB c.body 16 32).getD (i % 32) 0)
              ∧ ∀ a, a < leAt c.body 0 8 ∨ leAt c.body 0 8 + leAt c.body 8 8 ≤ a → memByte u a = memByte (markBegun s q qseq) a))
    ∧ (∀ (s : State) (q qseq : Nat) (c : Cmd), Begins s q qseq 0x0203 c → leAt c.body 0 8 < 2 ^ 42 → leAt c.body 8 8 < 2 ^ 42 →
      leAt c.body 16 8 ≤ 2 ^ 42 → zeroAt c.body 25 7 = true →
      rangeOk (markBegun s q qseq) (leAt c.body 0 8) (leAt c.body 16 8) = true →
      rangeOk (markBegun s q qseq) (leAt c.body 8 8) (leAt c.body 16 8) = true →
      (lowerWaits (markBegun s q qseq) 2 = true → exec (.copy q qseq) s = .next s)
        ∧ (lowerWaits (markBegun s q qseq) 2 = false →
      (CleanMem (markBegun s q qseq) →
          ∃ u, exec (.copy q qseq) s = .next (finish (tallyBump u 32 (leAt c.body 24 1) (leAt c.body 16 8)) c stOk)
            ∧ SameUnits (markBegun s q qseq) u
            ∧ memBytes u (leAt c.body 8 8) (leAt c.body 16 8) = memBytes (markBegun s q qseq) (leAt c.body 0 8) (leAt c.body 16 8)
            ∧ ∀ a, a < leAt c.body 8 8 ∨ leAt c.body 8 8 + leAt c.body 16 8 ≤ a → memByte u a = memByte (markBegun s q qseq) a)
        ∧ ((readMem (markBegun s q qseq) (leAt c.body 0 8) (leAt c.body 16 8)).2 = none →
          exec (.copy q qseq) s
            = .next (finish (readMem (markBegun s q qseq) (leAt c.body 0 8) (leAt c.body 16 8)).1 c stFault))))

/-- MARGIN (R214, R340): in STRESS mode with a job open it is refused; while shed level S1 or deeper is in
force it does not begin; otherwise, on a stack that is not in CASE, 36 lane records, which the measurement supplies
(free values), are written to DEST and the worst lane's is the RESULT; STRESS first clears its pseudo-channel.

TEL_SAMPLE (R340): over memory without errors DEST holds the record of the step so far and no other byte
of memory changes; the device's counters stand as they stood. -/
def Obligations.MeasurementsWritten : Prop :=
  (∀ (s : State) (q qseq : Nat) (c : Cmd), Begins s q qseq 0x0B05 c → 1 ≤ leAt c.body 0 1 → leAt c.body 0 1 ≤ 2 →
      leAt c.body 1 1 ≤ 7 → leAt c.body 2 1 ≤ 63 → zeroAt c.body 3 5 = true → leAt c.body 8 8 < 2 ^ 42 →
      rangeOk (markBegun s q qseq) (leAt c.body 8 8) 144 = true →
      (leAt c.body 0 1 = 2 → jobOpen? (markBegun s q qseq) = true →
          exec (.margin q qseq) s = .next (finish (markBegun s q qseq) c stNotReady))
        ∧ (leAt c.body 0 1 = 1 → 1 ≤ shedLevel (markBegun s q qseq) → exec (.margin q qseq) s = .next s)
        ∧ (leAt c.body 0 1 = 1 ∨ jobOpen? (markBegun s q qseq) = false → shedLevel (markBegun s q qseq) = 0 →
          caseHot (markBegun s q qseq) (leAt c.body 1 1) = false → CleanMem (markBegun s q qseq) →
          ∃ u lanes w, exec (.margin q qseq) s = .next (complete u c stOk 0 ([36, w, 0, 0] ++ nthD lanes w.toNat []))
            ∧ lanes.length = 36 ∧ w.toNat < 36
            ∧ memBytes u (leAt c.body 8 8) 144 = lanes.flatten
            ∧ (leAt c.body 0 1 = 1 → ∀ a, a < leAt c.body 8 8 ∨ leAt c.body 8 8 + 144 ≤ a →
                memByte u a = memByte (markBegun s q qseq) a)
            ∧ (leAt c.body 0 1 = 2 → ∀ a, a < leAt c.body 8 8 ∨ leAt c.body 8 8 + 144 ≤ a →
                memByte u a = memByte (clearPc (markBegun s q qseq) (leAt c.body 1 1) (leAt c.body 2 1)) a)))
    ∧ (∀ (s : State) (q qseq : Nat) (c : Cmd) (r : State × List Byte), Begins s q qseq 0x0A01 c → leAt c.body 0 8 < 2 ^ 42 →
      zeroAt c.body 8 8 = true → r = telRecord (markBegun s q qseq) 0 0 →
      (rangeOk (markBegun s q qseq) (leAt c.body 0 8) r.2.length = false →
          exec (.telSample q qseq) s = .next (finish (markBegun s q qseq) c stBadParam))
        ∧ (rangeOk (markBegun s q qseq) (leAt c.body 0 8) r.2.length = true → CleanMem (markBegun s q qseq) →
          ∃ u, exec (.telSample q qseq) s = .next (finish u c stOk)
            ∧ memBytes u (leAt c.body 0 8) r.2.length = r.2
            ∧ (∀ a, a < leAt c.body 0 8 ∨ leAt c.body 0 8 + r.2.length ≤ a → memByte u a = memByte (markBegun s q qseq) a)
            ∧ u.csr = (markBegun s q qseq).csr ∧ u.job = (markBegun s q qseq).job))

/-! The training step, its seam, and the collectives. In these statements `b` of a host row is the state in
which its command has begun. -/

/-- STEP_BEGIN (R147) that its checks allow opens the step: OPEN, with the attempt and the level of the
body, the opening tick, the micro-batches, no fence, no vote and NF_LOCAL clear; engines, tensors and queues stay,
and memory without errors does. In a step state other than IDLE it is refused.

STEP_COMMIT and STEP_SKIP (R165, R166) in an open step with no fence: the command stays in flight and
its fence is held, with the numbers, the mask, and for a skip the host's reason; the step stays OPEN. -/
def Obligations.StepBeginsAndFences : Prop :=
  (∀ (s : State) (q qseq : Nat) (c : Cmd), Begins s q qseq 0x0501 c →
      (stepBeginCheck (markBegun s q qseq) c = none →
          ∃ u, exec (.stepBegin q qseq) s = .next (finish u c stOk)
            ∧ stepPhase u = sOpen ∧ csrField u rHubStepState 31 16 = leAt c.body 8 2 ∧ csrField u rHubStepState 7 7 = leAt c.body 10 1
            ∧ u.step.beganAt = (markBegun s q qseq).plumb ∧ u.step.microbatches = leAt c.body 11 1
            ∧ u.step.fence = none ∧ u.step.vote = none ∧ u.step.nfLocal = false
            ∧ u.chip = (markBegun s q qseq).chip ∧ u.job = (markBegun s q qseq).job ∧ u.queues = (markBegun s q qseq).queues
            ∧ (CleanMem (markBegun s q qseq) → u.mem = (markBegun s q qseq).mem))
        ∧ (stepPhase (markBegun s q qseq) ≠ sIdle →
          ∃ u, exec (.stepBegin q qseq) s = .next (finish u c stNotReady) ∧ u = markBegun s q qseq))
    ∧ (∀ (s : State) (q qseq op : Nat) (c : Cmd) (i : Instr), Begins s q qseq op c →
      ((op = 0x0503 ∧ i = .stepCommit q qseq) ∨ (op = 0x0504 ∧ i = .stepSkip q qseq)) →
      stepPhase (markBegun s q qseq) = sOpen → placed? (markBegun s q qseq) = true → (markBegun s q qseq).step.fence = none →
      fenceBodyOk c = true →
      ∃ u, exec i s = .next u ∧ u.step.fence = some (fenceOfCmd c) ∧ u.step.fenceOps = none
        ∧ (fenceOfCmd c).seqs = (List.range 8).map (fun k => leAt c.body (4 * k) 4)
        ∧ (fenceOfCmd c).mask = leAt c.body 32 1 ∧ (fenceOfCmd c).skip = (op == 0x0504)
        ∧ (fenceOfCmd c).reason = (if op = 0x0504 then leAt c.body 36 1 else 0) ∧ stepPhase u = sOpen
        ∧ ((fenceOfCmd c).early = false →
            u.flights = (markBegun s q qseq).flights ++ [{ cmd := c, started := (markBegun s q qseq).plumb }]
              ∧ SameUnits (markBegun s q qseq) u ∧ u.mem = (markBegun s q qseq).mem ∧ u.csr = (markBegun s q qseq).csr))

/-- FENCE_REACHED (R165): with every fenced command done and no UPDATE or collective of the step in flight
the device is DECIDING and its vote starts, over a word of NF_LOCAL, HOST_SKIP and STEPS; where a Hawk
stack outside the carried mask still holds frames a STEP_COMMIT is refused instead, and nothing is decided.

The vote decides (R165, R167): with no bit set the device commits, STEPS grows by one and every pending
slot becomes the committed one; with NF_LOCAL (bit 0) or HOST_SKIP (bit 1) set in the vote's word it skips, STEPS stays
and the pending slots are given up; with a bit set both in the members' STEPS and in their complements, so that the
members stand at different steps, the command ends with ABORTED_FAULT. -/
def Obligations.FenceAndVoteDecide : Prop :=
  (∀ (s : State) (f : Fence), s.step.fence = some f → stepPhase s = sOpen → fencePassed s f = true → stepFlights s = [] →
      s.step.fenceOps = none →
      ((f.skip = true ∨ strandedHawk s f.carry = false) →
          ∃ t, exec .fenceReached s = .next (startVote t 1 (voteWord t f)) ∧ stepPhase t = sDeciding ∧ t.step.fence = some f
            ∧ bitOf (leAt (voteWord t f) 0 1) 0 = s.step.nfLocal ∧ bitOf (leAt (voteWord t f) 0 1) 1 = f.skip
            ∧ leAt (voteWord t f) 4 8 = stepsOf s ∧ t.job = s.job ∧ t.chip = s.chip ∧ t.mem = s.mem)
        ∧ (f.skip = false → strandedHawk s f.carry = true →
          ∃ u, exec .fenceReached s = .next (finish u f.cmd stNotReady) ∧ u.step.fence = none ∧ stepPhase u = sOpen))
    ∧ (∀ (s : State) (f : Fence) (w : List Byte), s.step.fence = some f → s.step.vote = some w → s.step.voteDone = true →
      stepPhase s = sDeciding →
      (leAt w 4 8 &&& leAt w 12 8 ≠ 0 → voteOutcome w = 4)
        ∧ (leAt w 4 8 &&& leAt w 12 8 = 0 → bitOf (leAt w 0 1) 1 = true → voteOutcome w = 3)
        ∧ (leAt w 4 8 &&& leAt w 12 8 = 0 → bitOf (leAt w 0 1) 1 = false → bitOf (leAt w 0 1) 0 = true → voteOutcome w = 2)
        ∧ (leAt w 4 8 &&& leAt w 12 8 = 0 → bitOf (leAt w 0 1) 1 = false → bitOf (leAt w 0 1) 0 = false → voteOutcome w = 1)
        ∧ (voteOutcome w = 1 →
          ∃ u, exec .commitVote s = .next (finish u f.cmd stOk) ∧ stepPhase u = sCommitted
            ∧ stepsOf u = (stepsOf s + 1) % 2 ^ 64 ∧ csrField u rHubStepState 11 8 = 1
            ∧ u.job.tensors = s.job.tensors.map (fun t => if t.pending then
                { t with cur := 1 - t.cur, version := (t.version + 1) % 65536, prevOk := true, pending := false } else t)
            ∧ u.step.carriedNow = f.carry ∧ u.step.fence = none ∧ u.mem = s.mem ∧ u.chip = s.chip)
        ∧ (voteOutcome w = 2 ∨ voteOutcome w = 3 →
          ∃ u, exec .commitVote s = .next (finish u f.cmd stSkipped) ∧ stepPhase u = sSkipped
            ∧ stepsOf u = stepsOf s ∧ csrField u rHubStepState 11 8 = voteOutcome w
            ∧ u.job.tensors = s.job.tensors.map (fun t => if t.pending then { t with pending := false, prevOk := false } else t)
            ∧ u.step.carriedNow = 0 ∧ u.step.fence = none ∧ u.mem = s.mem ∧ u.chip = s.chip)
        ∧ (voteOutcome w = 4 → ∃ u, exec .commitVote s = .next (finish u f.cmd stFault)))

/-- STEP_SEAM (R168) whose lists read and pass their checks, with no PERMUTE to run, no test in place to wait for, and,
in a replayed step, a CMD_DIGEST that matches, completes with OK and leaves the step IDLE, its level at 0 and its
log and norms empty. With a test in place it waits for the test and completes nothing. In a step neither committed
nor skipped it is refused.

PERMUTE's vote (R295), over: HELD falls, no PERMUTE is held, and the PERMUTE ends: with a failure anywhere in
TIMEOUT and with the map, the epoch and the job as they were; else, the tables reading valid, in OK with the new map,
epoch and parameter table in force. The seam that carried it goes on. -/
def Obligations.SeamAndPermuteEnd : Prop :=
  (∀ (s : State) (q qseq : Nat) (c : Cmd), Begins s q qseq 0x0502 c →
      (∀ (r : State) (rb : List Byte) (p : State) (pals : List (Nat × List Nat)) (l w t : State),
        (stepPhase (markBegun s q qseq) = sCommitted ∨ stepPhase (markBegun s q qseq) = sSkipped) →
        seamBodyOk (markBegun s q qseq) c.body = true →
        readMem (markBegun s q qseq) (leAt c.body 8 8) (64 * leAt c.body 0 2) = (r, some rb) →
        readPalettes (leAt c.body 16 8) (maskedSlots (leAt c.body 2 1)) r = (p, some pals) →
        noRepeats ((seamRecords rb).map (·.1)) = true → (chunksOf 64 rb.length rb).all seamRecordOk = true →
        pals.all (fun x => x.2.all levelValid) = true →
        l = loadSeam (seamHawk (fly p c)) (seamRecords rb) pals → permuteDue l = false → w = seamTests (seamRetires l) →
        t = { w with mem := { w.mem with ptrs := [] } } →
        (seamWaits w = false → digestCase t (csrField t rHubStepState 11 8) ≠ 1 →
          ∃ u, exec (.stepSeam q qseq) s = .next (finish u c stOk)
            ∧ stepPhase u = sIdle ∧ csrField u rHubStepState 7 7 = 0 ∧ u.step.cmdLog = [] ∧ u.step.norms = [])
        ∧ (seamWaits w = true → exec (.stepSeam q qseq) s = .next { w with snag := { w.snag with seamHold := some c } }))
      ∧ (∀ t : State, t.step.again = false → digestCase t (csrField t rHubStepState 11 8) = 0)
      ∧ (stepPhase (markBegun s q qseq) ≠ sCommitted → stepPhase (markBegun s q qseq) ≠ sSkipped →
        exec (.stepSeam q qseq) s = .next (finish (markBegun s q qseq) c stNotReady)))
    ∧ (∀ (s v : State) (p : Permute), s.coll.permute = some p → p.stage = 3 →
      v = csrSetField { s with coll := { s.coll with permute := none } } rColEpoch 16 16 0 →
      (p.failed = true →
          (p.seam = none → exec .permuteVote s = .next (finish v p.cmd stTimeout))
          ∧ (∀ c, p.seam = some c → exec .permuteVote s = .next (seamRest (finish v p.cmd stTimeout) c))
          ∧ v.coll.permute = none ∧ csrField v rColEpoch 16 16 = 0 ∧ v.coll.map = s.coll.map ∧ epochOf v = epochOf s
          ∧ v.job = s.job ∧ v.mem = s.mem)
        ∧ (p.failed = false → ∀ r ids ts, permuteTables v p.cmd.body = (r, some (ids, ts)) →
          ∃ u, (p.seam = none → exec .permuteVote s = .next (finish u p.cmd stOk))
            ∧ (∀ c, p.seam = some c → exec .permuteVote s = .next (seamRest (finish u p.cmd stOk) c))
            ∧ u.coll.permute = r.coll.permute ∧ u.coll.map = ids ∧ epochOf u = leAt p.cmd.body 0 2
            ∧ u.job.tensors = ts.map (fun x => { x with prevOk := false }) ∧ u.mem = r.mem))

/-- The five collectives (R280, R284, R293, R375): while no channel is free or S4 is in force an admissible
command waits and nothing happens; one its checks refuse ends with that status; otherwise it stays in
flight on its channel, and its first phase starts. -/
def Obligations.CollectivesStart : Prop :=
  ∀ (s : State) (q qseq op : Nat) (c : Cmd) (i : Instr), Begins s q qseq op c →
    ((op = 0x0701 ∧ i = .reduceScatter q qseq) ∨ (op = 0x0702 ∧ i = .allGather q qseq) ∨ (op = 0x0703 ∧ i = .allReduce q qseq)
      ∨ (op = 0x0704 ∧ i = .broadcast q qseq) ∨ (op = 0x0705 ∧ i = .allToAll q qseq)) →
    (collCheck s c = none → (freeChannel s = none ∨ 4 ≤ shedLevel s) → exec i s = .next s)
      ∧ (shedLevel s < 4 → freeChannel s ≠ none →
          (∀ st, collCheck (markBegun s q qseq) c = some st → exec i s = .next (finish (markBegun s q qseq) c st))
          ∧ (∀ ch, collCheck (markBegun s q qseq) c = none → freeChannel (markBegun s q qseq) = some ch →
            ∃ t, exec i s = .next (collAdvance (startPhase t c.op) c.op)
              ∧ t.coll.running = (markBegun s q qseq).coll.running ++ [collOfCmd (markBegun s q qseq) c ch]
              ∧ t.flights = (markBegun s q qseq).flights ++ [{ cmd := c, started := (markBegun s q qseq).plumb }]
              ∧ t.mem = (markBegun s q qseq).mem ∧ t.csr = (markBegun s q qseq).csr ∧ t.chip = (markBegun s q qseq).chip))

/-- A collective's packets (R256, R281–R283): a READY, GO or DONE record and a data packet in their own
rows go through the sequence window and are then taken; a row whose packet is of another kind does
nothing. A record of an older epoch is counted and dropped, and one that no collective in flight waits for
is kept for it.

COLLECTIVE_TIMEOUT (R285): a collective without progress for its window, which is never shorter than
the operation timeout and 40 µs, ends with TIMEOUT and is counted; before that nothing happens. -/
def Obligations.CollectivePacketsAndTimeout : Prop :=
  (∀ (s t : State) (p : Packet) (h : ScHdr) (data : List Byte), acceptScrim s p 0x1 = (t, some (h, data)) → released t = true →
      isCollChan h = true →
      (packetKind t h data = 1 → exec (.ready p) s = .next (sequenced t p h (recordRun h data)))
        ∧ (packetKind t h data = 2 → exec (.go p) s = .next (sequenced t p h (recordRun h data)))
        ∧ (packetKind t h data = 3 → exec (.done p) s = .next (sequenced t p h (recordRun h data)))
        ∧ (∀ agent, packetKind t h data = 0 → exec (.collectiveData ⟨p, agent⟩) s = .next (sequenced t p h (dataRun agent h data)))
        ∧ (packetKind t h data ≠ 1 → exec (.ready p) s = .next s) ∧ (packetKind t h data ≠ 2 → exec (.go p) s = .next s)
        ∧ (packetKind t h data ≠ 3 → exec (.done p) s = .next s)
        ∧ (∀ agent, packetKind t h data ≠ 0 → exec (.collectiveData ⟨p, agent⟩) s = .next s)
        ∧ (∀ u, epochDiff (leAt data 2 2) (epochOf u) < 0 → recordRun h data u = (colCount u 1 1, none))
        ∧ (∀ u, 0 ≤ epochDiff (leAt data 2 2) (epochOf u) → isMoveRec u { addr := h.addr, src := h.src, body := data } = false →
            u.coll.running.find? (fun c => c.recAt u h.addr) = none →
            recordRun h data u
              = ({ u with coll := { u.coll with kept := u.coll.kept ++ [{ addr := h.addr, src := h.src, body := data }] } }, none)))
    ∧ (∀ (s : State) (op : Nat) (c : Coll), collOf s op = some c →
      (c.lastAt + collWindow s ≤ s.plumb → exec (.collectiveTimeout op) s = .next (collEnd (colCount s 3 1) c stTimeout 0x0B))
        ∧ (s.plumb < c.lastAt + collWindow s → exec (.collectiveTimeout op) s = .next s)
        ∧ 1000 * (fieldOf (settingGet s rScrOpTimeout) 15 0 + 40) ≤ collWindow s)

/-- MAP_SET with INITIAL (R275, R276), with REMAP (R277), and PERMUTE (R294), each with its checks passed:
the first sets the ID, the tables, the collective region and the epoch; the second sets the tables and
leaves the epoch; the third is held, HELD reads 1, and the layout stays until its seam. -/
def Obligations.MappingCommandsSet : Prop :=
  ∀ (s r : State) (q qseq : Nat) (c : Cmd) (map spares : List Nat) (peers : Option (List (List Byte))),
    (Begins s q qseq 0x0707 c → isRemap c = false → mapSetCheck (markBegun s q qseq) c.body = none →
        readMapping (markBegun s q qseq) c.body = (r, some (map, spares, peers)) →
        idsOk (msSelf c.body) map spares = true → peersOk peers (map ++ spares) = true →
        ∃ u, exec (.mapSet q qseq) s = .next (finish u c stOk) ∧ u.coll.map = map ∧ u.coll.spares = spares
          ∧ u.coll.base = leAt c.body 40 8 ∧ u.coll.len = 2 ^ 21 * leAt c.body 48 4 ∧ epochOf u = leAt c.body 8 2
          ∧ csrField u rColId 11 0 = msSelf c.body ∧ csrField u rColId 30 30 = 1 ∧ u.mem = r.mem ∧ u.chip = r.chip)
      ∧ (Begins s q qseq 0x0707 c → isRemap c = true → csrField (markBegun s q qseq) rColId 30 30 = 1 →
        msBodyOk (markBegun s q qseq) c.body = true → remapKeeps (markBegun s q qseq) c.body = true →
        readMapping (markBegun s q qseq) c.body = (r, some (map, spares, peers)) →
        idsOk (msSelf c.body) map spares = true → remapLists (markBegun s q qseq) map spares = true → peersOk peers (map ++ spares) = true →
        ∃ u, exec (.mapSetRemap q qseq) s = .next (finish u c stOk) ∧ u.coll.map = map ∧ u.coll.spares = spares
          ∧ epochOf u = epochOf r ∧ u.coll.base = r.coll.base ∧ u.mem = r.mem ∧ u.chip = r.chip)
      ∧ (∀ x, Begins s q qseq 0x0706 c →
        (markBegun s q qseq).coll.permute = none → placed? (markBegun s q qseq) = true →
        permuteBodyOk (markBegun s q qseq) c.body = true → permuteTables (markBegun s q qseq) c.body = (r, some x) →
        ∃ u p, exec (.permute q qseq) s = .next u ∧ u.coll.permute = some p ∧ p.cmd = c ∧ p.stage = 0
          ∧ csrField u rColEpoch 16 16 = 1 ∧ epochOf u = epochOf r ∧ u.coll.map = r.coll.map ∧ u.job = r.job
          ∧ u.flights = r.flights ++ [{ cmd := c, started := r.plumb }])

/-- The Hawk stacks at a seam (R157). After a commit a stack of STEP_COMMIT's mask is kept as it stands and every
other is empty, as after a skip every one is; a fence is refused while a stack outside the mask holds frames; a pop
of a carried stack lowers its pointer, and a replay gives it back the frames it had at the seam. -/
def Obligations.HawkStacksAtSeam : Prop :=
  (∀ (s : State) (m : Nat), m < 16 →
      (stepPhase s = sCommitted → bitOf s.step.carriedNow m = true → (hawkOf (seamHawk s) m).frames = (hawkOf s m).frames)
      ∧ (stepPhase s = sCommitted → bitOf s.step.carriedNow m = false → (hawkOf (seamHawk s) m).frames = [])
      ∧ (stepPhase s ≠ sCommitted → (hawkOf (seamHawk s) m).frames = [])
      ∧ ∀ r, r.hawk.map (fun p => (p.1, p.2.atSeam)) = (seamHawk s).hawk.map (fun p => (p.1, p.2.atSeam)) →
        (hawkOf (restoreHawk r) m).frames = (hawkOf (seamHawk s) m).frames)
    ∧ (∀ (s : State) (f : Fence), s.step.fence = some f → stepPhase s = sOpen → fencePassed s f = true → stepFlights s = [] →
      s.step.fenceOps = none → f.skip = false → strandedHawk s f.carry = true →
      ∃ u, exec .fenceReached s = .next (finish u f.cmd stNotReady) ∧ u.step.fence = none ∧ stepPhase u = sOpen ∧ u.hawk = s.hawk)
    ∧ (∀ (s : State) (m carry : Nat), m < 16 → bitOf carry m = false → (hawkOf s m).frames ≠ [] → strandedHawk s carry = true)
    ∧ (∀ (s : State) (x : StCtx) (r : Run) (f : Frame) (rest : List Frame), runOf s x.run.cmd.op = some r →
      (∀ k ∈ r.cores, x.i < k.next ∨ k.status ≠ stOk) → (hawkOf s x.head.mb).frames = f :: rest → x.io.frame = some f →
      (hawkOf (x.pop s) x.head.mb).frames = rest ∧ (hawkOf (x.pop s) x.head.mb).atSeam = (hawkOf s x.head.mb).atSeam
        ∧ (∀ m, m ≠ x.head.mb → hawkOf (x.pop s) m = hawkOf s m) ∧ (x.pop s).mem = s.mem)

/-! RUN, its tiles and its stages. -/

/-- RUN and RUN_LEVEL (R85, R146, R343). While the step is not OPEN, or a RUN of a queue of higher priority asks for
one of its cores, they wait and nothing changes. In an open step, one that passes its checks while a tile it names is
owned joins the held commands, and no tile, RUN, queue, flight or byte of memory changes. One whose descriptors
read, whose checks pass and whose tiles are free begins: it owns every tile it names and every core of its mask
stands at its first stage. One whose body fails a check completes with REFUSED_BAD_PARAM, one that meets a poisoned
descriptor with ABORTED_FAULT. -/
def Obligations.RunBeginsHoldsOrWaits : Prop :=
  ∀ (s : State) (q qseq op : Nat) (c : Cmd) (i : Instr), Begins s q qseq op c →
    ((op = 0x0401 ∧ i = .run q qseq) ∨ (op = 0x0402 ∧ i = .runLevel q qseq)) →
    (stepPhase s ≠ sOpen → exec i s = .next s)
      ∧ (queueAhead s c (runHead c.body) = true → exec i s = .next s)
      ∧ (stepPhase s = sOpen → isHeld s c.queue c.qseq = false → queueAhead s c (runHead c.body) = false →
          (runCheck s (runLevelled s c) (runHead c.body) = true → tilesState s (runHead c.body) = 1 →
            ∃ u, exec i s = .next u ∧ isHeld u c.queue c.qseq = true ∧ u.chip = s.chip ∧ u.runs = s.runs ∧ u.queues = s.queues
              ∧ u.flights = s.flights ∧ u.mem = s.mem)
          ∧ (runCheck s (runLevelled s c) (runHead c.body) = true → tilesState s (runHead c.body) = 0 →
              earlierReady s (runHead c.body) = false →
              (∀ d rb copies, readDescs (markBegun s q qseq) (runHead c.body) = (d, true) → RunTakes d c rb copies →
                ∃ u, exec i s = .next u ∧ RunTaken d u c rb copies)
              ∧ ∀ d, readDescs (markBegun s q qseq) (runHead c.body) = (d, false) → exec i s = .next (finish d c stFault))
          ∧ (runCheck s (runLevelled s c) (runHead c.body) = false → ∀ d,
              (readDescs (markBegun s q qseq) (runHead c.body) = (d, true) → runCheck d (runLevelled d c) (runHead c.body) = false →
                exec i s = .next (finish d c stBadParam))
              ∧ (readDescs (markBegun s q qseq) (runHead c.body) = (d, false) → exec i s = .next (finish d c stFault))))

/-- A held command (R85, R86): on a release the first in order whose tiles are all free begins, within its
hold window, and owns its tiles; once the window has run out a held command completes with TILE_CONFLICT, and no
engine, tile, RUN, job or Topcoat has changed for it; before that the row does nothing.

RUN_COMPLETE (R84, R113, R142, R150): once every core has ended, the command ends once, with its cores' status of
highest precedence (a fault status, another failing status, NAN_TRAP, FLAGGED, OK) and the causes that any core's own
counts raise, none in Level mode; the RUN is gone, and of the tiles of its engines it still owns only those it keeps
and those halted. Before that the row does nothing. -/
def Obligations.RunsHeldAndReleased : Prop :=
  ((∀ (s : State) (core : Nat) (x : Held) (c : Cmd), nextHeld s core = some (x, c) → stepPhase s = sOpen → holdUsed s x < x.limit →
        (readyCmd s x.q x.qseq).isSome = true → earlySkip s x.q x.qseq = false →
        isHeld (unhold s x.q x.qseq) x.q x.qseq = false
          ∧ ∀ d rb copies, readDescs (markBegun (unhold s x.q x.qseq) x.q x.qseq) (runHead c.body) = (d, true) →
              RunTakes d c rb copies → ∃ u, exec (.takeTiles core) s = .next u ∧ RunTaken d u c rb copies)
      ∧ (∀ (s : State) (q qseq : Nat) (x : Held) (c : Cmd), s.held.find? (fun h => h.q == q && h.qseq == qseq) = some x →
        heldCmd s x = some c →
        (x.limit ≤ holdUsed s x →
          ∃ u, exec (.tileConflict q qseq) s = .next (finish u c stTileConflict) ∧ isHeld u q qseq = false
            ∧ u.chip = s.chip ∧ u.runs = s.runs ∧ u.job = s.job ∧ u.topcoat = s.topcoat)
          ∧ (holdUsed s x < x.limit → exec (.tileConflict q qseq) s = .next s)))
    ∧ (∀ (s : State) (op : Nat) (r : Run), runOf s op = some r →
      (r.cores.all (·.ended (runHead r.cmd.body).nstage) = true →
          ∃ u, exec (.runComplete op) s
              = .next (complete u r.cmd (runStatus r) (r.cores.foldl (fun a k => a ||| coreCauses r k) 0) [])
            ∧ u.runs = s.runs.filter (fun x => x.cmd.op != op)
            ∧ (r.level = true → ∀ k ∈ r.cores, coreCauses r k = 0)
            ∧ (∀ k ∈ r.cores, k.status / 256 = 3 → runStatus r / 256 = 3)
            ∧ ((∀ k ∈ r.cores, k.status = stOk) → (∃ k ∈ r.cores, k.origin = true) → runStatus r = stNanTrap)
            ∧ ((∀ k ∈ r.cores, k.status = stOk ∧ k.origin = false ∧ coreCauses r k = 0) → runStatus r = stOk)
            ∧ (∀ lc ∈ (runHead r.cmd.body).cores, ∀ pe ∈ enginesOf s lc, ∀ t, t < 8 →
                (tileGet u pe t).owned = true → (tileGet u pe t).owner = op → (tileGet u pe t).kept = true ∨ (tileGet u pe t).halted = true)
            ∧ u.mem = s.mem ∧ u.job = s.job ∧ u.queues = s.queues)
        ∧ (r.cores.all (·.ended (runHead r.cmd.body).nstage) = false → exec (.runComplete op) s = .next s))

/-- LOAD, STORE, STASH and UNSTASH where no error meets the stage (R148, R151, R155). With every plane moved the core
stands at its next stage; with a poisoned sector its chain ends in ABORTED_FAULT. A LOAD of one plane from memory
leaves the core buffer holding the memory's bytes; a STORE of one plane leaves memory holding the core buffer's, and
every other byte of memory as it was, where memory holds no errors. A STASH reserves its frame within the stack's size, and
one that does not fit ends REFUSED_BAD_PARAM; an UNSTASH reads the top frame and lowers the pointer, and one of a frame
that is not on top, or of an empty stack, ends REFUSED_BAD_PARAM. -/
def Obligations.MovingStages : Prop :=
  ∀ (s : State) (op core : Nat) (x : StCtx) (ev : StageEvents), AtStage s op core x → ev.upsets = [] →
    (isKind kLoad x.rcd = true → x.prefetched s = false →
        ((x.move s).2.1 = true → exec (.loadStage op ⟨core, ev⟩) s = .next (x.done (x.move s).1))
        ∧ ((x.move s).2.1 = false → exec (.loadStage op ⟨core, ev⟩) s = .next (x.fail (x.move s).1 stFault))
        ∧ (∀ a d, x.desc s x.rcd.dIn = some a → x.desc s x.rcd.dOut = some d → a.fmt.blocked = false → a.side = 0 → a.fbl = 0 →
            a.space = 0 → d.space = 1 → d.code + a.codeBytes ≤ 2 ^ 22 → CleanMem s →
            ∃ u, exec (.loadStage op ⟨core, ev⟩) s = .next u ∧ coreRead u x.io.pc d.code a.codeBytes = memBytes s a.code a.codeBytes
              ∧ u.mem = s.mem ∧ u.csr = s.csr ∧ (coreAt u op core).map (·.next) = some (x.i + 1)))
      ∧ (isKind kStore x.rcd = true →
        ((x.move s).2.1 = true → exec (.storeStage op ⟨core, ev⟩) s
            = .next (x.done (tallyBump (x.move s).1 (x.io.pc / 9) (leAt x.rcd.ctrl 0 1) (x.move s).2.2)))
        ∧ ((x.move s).2.1 = false → exec (.storeStage op ⟨core, ev⟩) s = .next (x.fail (x.move s).1 stFault))
        ∧ (∀ a d, x.desc s x.rcd.dIn = some a → x.desc s x.rcd.dOut = some d → a.fmt.blocked = false → a.side = 0 → a.fbl = 0 →
            a.space = 1 → d.space = 0 → CleanMem s →
            ∃ u, exec (.storeStage op ⟨core, ev⟩) s = .next u ∧ memBytes u d.code a.codeBytes = coreRead s x.io.pc a.code a.codeBytes
              ∧ (∀ b, b < d.code ∨ d.code + a.codeBytes ≤ b → memByte u b = memByte s b)
              ∧ (coreAt u op core).map (·.next) = some (x.i + 1)))
      ∧ (isKind kStash x.rcd = true →
        (∀ t y, x.reserve s = some (t, y) →
          ((y.move t).2.1 = true → exec (.stash op ⟨core, ev⟩) s = .next (y.done (y.move t).1))
          ∧ ((y.move t).2.1 = false → exec (.stash op ⟨core, ev⟩) s = .next (y.fail (y.move t).1 stFault)))
        ∧ (x.ownFrame = none →
          (hawkSize s x.head.mb < (hawkTop (hawkOf s x.head.mb) + leAt x.rcd.ctrl 4 4) * 4096 →
            exec (.stash op ⟨core, ev⟩) s = .next (x.fail s stBadParam))
          ∧ ((hawkTop (hawkOf s x.head.mb) + leAt x.rcd.ctrl 4 4) * 4096 ≤ hawkSize s x.head.mb → (x.reserve s).isSome = true)))
      ∧ (isKind kUnstash x.rcd = true →
        (∀ t y, x.topFrame s = some (t, y) →
          ((y.move t).2.1 = true → exec (.unstash op ⟨core, ev⟩) s = .next (y.pop (y.done (y.move t).1)))
          ∧ ((y.move t).2.1 = false → exec (.unstash op ⟨core, ev⟩) s = .next (y.pop (y.fail (y.move t).1 stFault))))
        ∧ (x.ownFrame = none → (∀ f, (hawkOf s x.head.mb).frames.head? = some f →
            f.layer ≠ leAt x.rcd.ctrl 0 2 ∨ f.slot ≠ leAt x.rcd.ctrl 2 1) →
          exec (.unstash op ⟨core, ev⟩) s = .next (x.fail s stBadParam)))

/-- QUANTISE, MULTIPLY, SCREED and RETURN where no error meets the stage and its spot check agrees (R77, R99, R111,
R119). With operands that read, outputs that write whole and no engine stopped, each ends with the core at its next
stage and its counts taken; a QUANTISE whose source does not read, or whose output does not write, ends the chain in
ABORTED_FAULT, as does a MULTIPLY with an operand that does not read; a MULTIPLY or SCREED that stops stays at its stage.
A tile opened fresh has every entry zero. -/
def Obligations.EngineStages : Prop :=
  ∀ (s : State) (op core : Nat) (x : StCtx) (ev : StageEvents), AtStage s op core x → ev.upsets = [] → ev.spot = .agree →
    (isKind kQuantise x.rcd = true → ∀ c a d, FloatCtl.ofBytes x.rcd.ctrl = some c → x.desc s x.rcd.dIn = some a →
        x.desc s x.rcd.dOut = some d →
        (∀ r rows o w t, readVals s x.io a = (r, some rows) →
          o = quantOut r x.io.pc (quantSet x.run.level d c (Recipe.ofBytes x.run.recipe)) d
              (rows.map (prepRow (if c.rotEn then (Recipe.ofBytes x.run.recipe).rot else 1)
                (if c.scaleEn then some (coreScales r x.io.pc c.scale a.width) else none))) →
          w = writeQuant r x.io d o →
          t = addCounts (floatCounts w.1 x.io.pc o.counts) x.run.cmd.op x.core.core o.counts →
          (w.2 = true → exec (.quantise op core ev) s = .next (x.done t))
            ∧ (w.2 = false → exec (.quantise op core ev) s = .next (x.fail t stFault)))
        ∧ (∀ r, readVals s x.io a = (r, none) → exec (.quantise op core ev) s = .next (x.fail r stFault)))
      ∧ (isKind kMultiply x.rcd = true → ∀ c a b mask u v, TileCtl.ofBytes x.rcd.ctrl = some c →
        x.desc s x.rcd.dIn = some a → x.desc s x.rcd.dAux = some b → mask = (if x.run.level then 0xF else c.mask) →
        u = feedOperand s x a mask c.statFloor → v = feedOperand u.1 x b mask c.strmFloor →
        (∀ st sm w r ps t, u.2 = some st → v.2 = some sm →
          w = (if x.core.engPos.all (· == 0) then
            [0, 1, 2, 3].foldl (fun s e => fillBanks s (x.io.pc * 4 + e) (streamBytes x b v.1)) v.1 else v.1) →
          enginesWork x c mask st.mat sm.mat (if st.mat.kind = .p4 then paletteDescs v.1 a.pal else []) a.colBase a.colStep
            (stageBlocks c.trans st.mat a.width) ev.arrays [0, 1, 2, 3] w = (r, some ps) →
          t = (if x.core.engPos.all (· == 0) then feedCount (feedCount r x st.counts) x sm.counts else r) →
          (ps.any (·.1) = false → exec (.multiply op core ev) s = .next (x.done t))
            ∧ (ps.any (·.1) = true → exec (.multiply op core ev) s = .next (holdClocks (syncRecovering
                (coreUpd t x.run.cmd.op x.core.core (fun k => { k with stopped := true, engPos := ps.map (·.2) }))))))
        ∧ (u.2 = none ∨ v.2 = none → exec (.multiply op core ev) s = .next (x.fail (reportSide x v.1 [a, b]) stFault)))
      ∧ (∀ pc e (c : TileCtl) (t : Tile), c.opn = 0 →
        ∃ n, (openTile s pc e c t).2 = some n ∧ n.rows = List.replicate (tileRows c.trans) (List.replicate (tileCols c.trans) 0)
          ∧ n.owner = t.owner ∧ n.kcount = 0 ∧ n.halted = false)
      ∧ (isKind kScreed x.rcd = true → ∀ m c d j ws fs, fs = ev.arrays ++ writeFaults ws → lastMultiply x.head.stages x.i = some m → ScreedCtl.ofBytes x.rcd.ctrl = some c →
        x.desc s x.rcd.dOut = some d → j = ({ ctl := c, tile := m, out := d, rc := Recipe.ofBytes x.run.recipe } : ScreedJob) →
          ((drainFrom x j fs (j.places - x.core.rowPos) x.core.rowPos s).2 = 0 → exec (.screed op core ev ws) s
            = .next (x.done (drainFrom x j fs (j.places - x.core.rowPos) x.core.rowPos s).1))
          ∧ ((drainFrom x j fs (j.places - x.core.rowPos) x.core.rowPos s).2 = 1 → exec (.screed op core ev ws) s
            = .next (drainFrom x j fs (j.places - x.core.rowPos) x.core.rowPos s).1))
      ∧ (isKind kReturn x.rcd = true → ∀ c a d r rows n scale out w g, FloatCtl.ofBytes x.rcd.ctrl = some c → x.desc s x.rcd.dIn = some a →
        x.desc s x.rcd.dOut = some d → readVals s x.io a = (r, some rows) →
        n = (if c.rotEn then (Recipe.ofBytes x.run.recipe).rot else 1) →
        scale = (if c.scaleEn then some (coreScales r x.io.pc c.scale a.width) else none) →
        out = rows.map (returnRow c.ret n scale) → w = writeFloats r x.io d f32 out →
        g = (if c.sgradEn then sgradPart x w.1 n c (scale.getD (List.replicate a.width fvOne)) a.width out else (w.1, true)) →
        ((w.2 && g.2) = true → exec (.returnStage op ⟨core, ev⟩) s = .next (x.done g.1))
          ∧ ((w.2 && g.2) = false → exec (.returnStage op ⟨core, ev⟩) s
            = .next (x.fail (if c.sgradEn then reportSide x g.1 (x.desc s x.rcd.dAux).toList else g.1) stFault)))

/-- The seventeen vector functions where no error meets the stage and its spot check agrees (R128, R131). A core whose stage
names the function works its rows in ascending order with that function's row rule, writes the output its format asks
for, and stands at its next stage; where an operand does not read its chain ends in ABORTED_FAULT. A row whose function
the stage does not name does nothing.

What the vector functions make of a row (R133–R138): copies, sums, differences and products rounded
once to F32; an element function and its derivative times dy; a wholly masked softmax row gives +0
everywhere, forward and back; a top-k row leaves exactly K entries of 8 bytes; the functions that only
keep row state write no output. -/
def Obligations.VectorStagesAndValues : Prop :=
  (∀ (s : State) (op core num : Nat) (f : VecIn → VecRow) (i : Instr) (x : StCtx) (ev : StageEvents), AtStage s op core x →
      ev.upsets = [] → ev.spot = .agree →
      (num, f, i) ∈
        [(0x00, vfCopy, Instr.vecCopy op ⟨core, ev⟩), (0x01, vfAdd, .vecAdd op ⟨core, ev⟩), (0x02, vfSub, .vecSub op ⟨core, ev⟩),
         (0x03, vfMul, .vecMul op ⟨core, ev⟩), (0x10, vfAct, .act op core ev), (0x11, vfActBwd, .actBwd op ⟨core, ev⟩),
         (0x20, vfSmStats, .smStats op ⟨core, ev⟩), (0x21, vfSmNorm, .smNorm op ⟨core, ev⟩), (0x22, vfSmBwdSum, .smBwdSum op ⟨core, ev⟩),
         (0x23, vfSmBwd, .smBwd op ⟨core, ev⟩), (0x28, vfLnStats, .lnStats op ⟨core, ev⟩), (0x29, vfNormApply, .normApply op ⟨core, ev⟩),
         (0x2A, vfNormBwdSum, .normBwdSum op ⟨core, ev⟩), (0x2B, vfNormBwd, .normBwd op ⟨core, ev⟩),
         (0x2C, vfRmsStats, .rmsStats op ⟨core, ev⟩), (0x30, vfTopk, .topk op ⟨core, ev⟩), (0x38, vfSegsum, .segsum op ⟨core, ev⟩)] →
      (isVec num x.rcd = false → exec i s = .next s)
        ∧ (isVec num x.rcd = true → ∀ c a r y, VecCtl.ofBytes x.rcd.ctrl = some c → x.desc s x.rcd.dIn = some a →
          r = readVals s x.io a →
          y = (match x.desc s x.rcd.dAux with
            | some b => if vecNeedsAux c.func then readVals r.1 x.io b else (r.1, some [])
            | none => (r.1, some [])) →
          (r.2 = none ∨ y.2 = none → exec i s = .next (x.fail y.1 stFault))
          ∧ (∀ xs ys w o, r.2 = some xs → y.2 = some ys →
            w = (xs.mapIdx (fun k v => (k, v, nthD ys k []))).foldl
              (vecRowStep f x c (if c.func = 0x38 then x.desc s x.rcd.dOut else none)) (y.1, { rows := [], causes := [], more := [] }, true) →
            o = (match x.desc s x.rcd.dOut with
              | some d =>
                if c.func = 0x38 ∨ !vecWritesOut c.func then putNoOut w.1 x c a.width w.2.1
                else match d.fmt.float? with
                  | some ft => putFloatOut w.1 x c d ft w.2.1
                  | none => putBlockOut w.1 x c d w.2.1
              | none => putNoOut w.1 x c a.width w.2.1) →
            (w.2.2 && o.2) = true → exec i s = .next (x.done o.1))))
    ∧ (∀ v : VecIn,
      (v.ctl.prec = false →
          (vfCopy v).out = v.x
            ∧ (vfAdd v).out = List.zipWith (fun a b => f32.round (a.add b)) v.x v.y
            ∧ (vfSub v).out = List.zipWith (fun a b => f32.round (a.sub b)) v.x v.y
            ∧ (vfMul v).out = List.zipWith (fun a b => f32.round (a.mul b)) v.x v.y)
        ∧ (vfAct v).out = v.x.map (elemFn v.ctl.sub)
        ∧ (vfActBwd v).out = List.zipWith (fun dy d => f32.round (dy.mul d)) v.y (v.x.map (elemDeriv v.ctl.sub))
        ∧ (rsF32 v.state 0 = .inf true → (∀ y ∈ (vfSmNorm v).out, y = fvZero) ∧ ∀ y ∈ (vfSmBwd v).out, y = fvZero)
        ∧ ((vfTopk v).puts.map (fun p => p.2.length) = [8 * v.ctl.k])
        ∧ (vfSmStats v).out = [] ∧ (vfSmBwdSum v).out = [] ∧ (vfLnStats v).out = [] ∧ (vfRmsStats v).out = []
        ∧ (vfNormBwdSum v).out = [] ∧ (vfTopk v).out = [] ∧ (vfSegsum v).out = []
        ∧ (vfNormApply v).out.length = v.x.length ∧ (vfNormBwd v).out.length = v.x.length)

/-! Stencil streams, the Lath and memory's schedulers. -/

/-- The STREAM commands (R222, R226, R242) where their checks pass and their cluster is not gated (R23). STENCIL_LOAD puts the
image in its channel and leaves it LOADED. STREAM_START sets every named channel running from the first word, with its
ANCHOR and the command, and no other channel. STREAM_STOP marks the named channels that work and
completes at once. STREAM_RESUME runs every HALTED channel on from its saved word. None of them changes a byte of memory
before its completion. -/
def Obligations.StreamCommands : Prop :=
  ∀ (s : State) (q qseq k : Nat) (c : Cmd), blockNo (markBegun s q qseq) (leAt c.body 0 1) = some k →
    (blockGet (markBegun s q qseq) k).chans.length = blockChans k →
    (blockGated (markBegun s q qseq) k = false → Begins s q qseq 0x0301 c → leAt c.body 1 1 < blockChans k → zeroAt c.body 2 14 = true →
        imageOk (c.body.drop 16) (decide (k = 32)) = true → ((chanGet (markBegun s q qseq) k (leAt c.body 1 1)).state ≤ chLoaded
          ∨ (chanGet (markBegun s q qseq) k (leAt c.body 1 1)).state = chAborted) →
        ∃ u, exec (.stencilLoad q qseq) s = .next (finish u c stOk)
          ∧ (chanGet u k (leAt c.body 1 1)).image = sliceB (c.body.drop 16) 0 (16 + 8 * imageLen (c.body.drop 16))
          ∧ (chanGet u k (leAt c.body 1 1)).state = chLoaded
          ∧ (∀ ch, ch ≠ leAt c.body 1 1 → chanGet u k ch = chanGet (markBegun s q qseq) k ch) ∧ u.mem = (markBegun s q qseq).mem)
      ∧ (blockGated (markBegun s q qseq) k = false → Begins s q qseq 0x0302 c → zeroAt c.body 1 3 = true → leAt c.body 4 4 ≠ 0 → leAt c.body 4 4 < 2 ^ blockChans k →
        (∀ ch ∈ maskChans (leAt c.body 4 4), (chanGet (markBegun s q qseq) k ch).state = chLoaded
          ∨ (chanGet (markBegun s q qseq) k ch).state = chAborted) →
        ∃ u, exec (.streamStart q qseq) s = .next u
          ∧ (∀ ch ∈ maskChans (leAt c.body 4 4), (chanGet u k ch).state = chRunning ∧ (chanGet u k ch).pc = 0
              ∧ (chanGet u k ch).anchor = (if c.launched then c.launch else (markBegun s q qseq).plumb)
              ∧ (chanGet u k ch).signal = 0 ∧ (chanGet u k ch).cmd = some c
              ∧ (chanGet u k ch).image = (chanGet (markBegun s q qseq) k ch).image)
          ∧ (∀ ch, ch ∉ maskChans (leAt c.body 4 4) → chanGet u k ch = chanGet (markBegun s q qseq) k ch)
          ∧ u.flights = (markBegun s q qseq).flights ++ [{ cmd := c, started := (markBegun s q qseq).plumb }]
          ∧ u.mem = (markBegun s q qseq).mem)
      ∧ (Begins s q qseq 0x0303 c → zeroAt c.body 1 3 = true → leAt c.body 4 4 ≠ 0 → leAt c.body 4 4 < 2 ^ blockChans k →
        ∃ u, exec (.streamStop q qseq) s = .next (finish (settle u k) c stOk)
          ∧ (∀ ch ∈ maskChans (leAt c.body 4 4), ((chanGet (markBegun s q qseq) k ch).state = chRunning
              ∨ (chanGet (markBegun s q qseq) k ch).state = chWaiting ∨ (chanGet (markBegun s q qseq) k ch).state = chHeld) →
              (chanGet u k ch).stopping = true)
          ∧ (∀ ch, ch ∉ maskChans (leAt c.body 4 4) → chanGet u k ch = chanGet (markBegun s q qseq) k ch)
          ∧ u.mem = (markBegun s q qseq).mem)
      ∧ (Begins s q qseq 0x0304 c → (∃ ch, ch < blockChans k ∧ (chanGet (markBegun s q qseq) k ch).state = chHalted) →
        ∃ u, exec (.streamResume q qseq) s = .next u
          ∧ (∀ ch, ch < blockChans k → (chanGet (markBegun s q qseq) k ch).state = chHalted →
              (chanGet u k ch).state = chRunning ∧ (chanGet u k ch).pc = (chanGet (markBegun s q qseq) k ch).pc)
          ∧ (∀ ch, (chanGet (markBegun s q qseq) k ch).state ≠ chHalted → chanGet u k ch = chanGet (markBegun s q qseq) k ch)
          ∧ u.mem = (markBegun s q qseq).mem)

/-- The Stencil instructions (R225–R229) of a running channel. BASE, STRIDE, LOOP, ENDL, SIGNAL, SETT and
PEER have their effect on the channel (SETT on the tally) and the pc moves on, or back to the word after
LOOP while the count is not reached; WAITP, WAITT and WAITC go on or put the channel to wait, by the plumb
count, the tally or the signal count; END raises the signal count and completes the channel. A channel at
a word of another operation is not the row's. -/
def Obligations.StencilWordsRun : Prop :=
  ∀ (s : State) (b ch op : Nat) (x : Chan) (w : Nat), AtWord s b ch op x w →
    (op = opBase → exec (.baseOp b ch) s = .next (settle (chanPut s b ch { x with
        bases := x.bases.set (fieldOf w 49 48) (if fieldOf w 55 52 = 0 then fieldOf w 41 0 else fieldOf w 23 0)
        spaces := x.spaces.set (fieldOf w 49 48) (fieldOf w 55 52 + 16 * (if fieldOf w 55 52 = 1 then fieldOf w 47 43 else 0))
        pc := x.pc + 1 }) b))
      ∧ (op ≠ opBase → exec (.baseOp b ch) s = .next s)
      ∧ (op = opStride → exec (.stride b ch) s = .next (settle (chanPut s b ch { x with
        strides := stSet 0 x.strides (fieldOf w 50 48 * 4 + fieldOf w 47 46) (sextNat 42 (fieldOf w 41 0)), pc := x.pc + 1 }) b))
      ∧ (op = opLoop → exec (.loopOp b ch) s = .next (settle (chanPut s b ch { x with
        counters := x.counters.set (fieldOf w 50 48) 0, loops := x.loops ++ [(fieldOf w 50 48, x.pc + 1)], pc := x.pc + 1 }) b))
      ∧ (op = opEndl → ∀ l start, x.loops.getLast? = some (l, start) →
        (nthD x.counters (fieldOf w 50 48) 0 + 1 ≤ fieldOf (imageWord x.image (start - 1)) 23 0 →
          exec (.endl b ch) s = .next (settle (chanPut s b ch { x with
            counters := x.counters.set (fieldOf w 50 48) (nthD x.counters (fieldOf w 50 48) 0 + 1), pc := start }) b))
        ∧ (fieldOf (imageWord x.image (start - 1)) 23 0 < nthD x.counters (fieldOf w 50 48) 0 + 1 →
          exec (.endl b ch) s = .next (settle (chanPut s b ch { x with
            counters := x.counters.set (fieldOf w 50 48) (nthD x.counters (fieldOf w 50 48) 0 + 1)
            loops := x.loops.dropLast, pc := x.pc + 1 }) b)))
      ∧ (op = opWaitp →
        (x.anchor + fieldOf w 47 0 ≤ s.plumb → exec (.waitp b ch) s
            = .next (settle (chanPut s b ch { x with anchor := x.anchor + fieldOf w 47 0, pc := x.pc + 1 }) b))
        ∧ (s.plumb < x.anchor + fieldOf w 47 0 → ∃ y, exec (.waitp b ch) s = .next (chanPut s b ch y) ∧ y.state = chWaiting
            ∧ y.wait = 1 ∧ y.waitFor = x.anchor + fieldOf w 47 0 ∧ y.pc = x.pc))
      ∧ (op = opWaitt →
        (fieldOf w 31 0 ≤ tallyGet s b (fieldOf w 47 40) → exec (.waitt b ch) s = .next (settle (chanPut s b ch { x with pc := x.pc + 1 }) b))
        ∧ (tallyGet s b (fieldOf w 47 40) < fieldOf w 31 0 → ∃ y, exec (.waitt b ch) s = .next (chanPut s b ch y)
            ∧ y.state = chWaiting ∧ y.wait = 3 ∧ y.waitFor = fieldOf w 31 0 ∧ y.entry = s.plumb))
      ∧ (op = opWaitc →
        (fieldOf w 31 0 ≤ (chanGet s b (fieldOf w 44 40)).signal → exec (.waitc b ch) s = .next (settle (chanPut s b ch { x with pc := x.pc + 1 }) b))
        ∧ ((chanGet s b (fieldOf w 44 40)).signal < fieldOf w 31 0 → ∃ y, exec (.waitc b ch) s = .next (chanPut s b ch y)
            ∧ y.state = chWaiting ∧ y.wait = 2 ∧ y.waitFor = fieldOf w 31 0 ∧ y.entry = s.plumb))
      ∧ (op = opSignal → exec (.signal b ch) s
          = .next (settle (chanPut s b ch { x with signal := (x.signal + 1) % 2 ^ 32, pc := x.pc + 1 }) b))
      ∧ (op = opSett → ∃ u, exec (.sett b ch) s = .next (settle (chanPut u b ch { x with pc := x.pc + 1 }) b)
          ∧ tallyGet u b (fieldOf w 47 40) = fieldOf w 31 0
          ∧ (∀ t, t ≠ fieldOf w 47 40 → tallyGet u b t = tallyGet s b t) ∧ chanGet u b ch = x ∧ u.mem = s.mem)
      ∧ (op = opPeer → exec (.peer b ch) s = .next (settle (chanPut s b ch { x with
          peer := (if bitOf w 12 then none else some (fieldOf w 11 0)), pc := x.pc + 1 }) b))
      ∧ (op = opStEnd → exec (.endChan b ch) s = .next (settle (chanEnd (chanPut s b ch
          { x with signal := (x.signal + 1) % 2 ^ 32 }) b ch chLoaded stOk false) b))

/-- MOVE and ADD of a running channel (R223, R225, R227, R230, R242). One that begins in class 4 or 5 while S2 is in
force is held; one that had completed before a halt is passed over; one whose addresses do not lie in their spaces is a
bus error that stops the block. Otherwise its parcels are issued as far as the window and the staging buffer let them: with
all of them issued the channel goes on to the next word, with the window full it waits, else it stays at the word. -/
def Obligations.MoveAndAddIssue : Prop :=
  ∀ (s : State) (b ch op : Nat) (x : Chan) (w : Nat) (i : Instr), AtWord s b ch op x w →
    ((op = opMove ∧ i = .move b ch) ∨ (op = opAdd ∧ i = .scatterAdd b ch)) →
    (4 ≤ fieldOf w 55 53 → 2 ≤ shedLevel s → x.issued = 0 →
        exec i s = .next (settle (chanPut s b ch { x with state := chHeld }) b))
      ∧ (fieldOf w 55 53 < 4 ∨ shedLevel s < 2 ∨ 0 < x.issued →
        (x.moves ∈ x.doneIds → exec i s = .next (settle (chanPut s b ch { x with pc := x.pc + 1, moves := x.moves + 1 }) b))
        ∧ (x.moves ∉ x.doneIds →
          (∀ r a, moveOf s b x w = (r, .error a) → exec i s = .next (busError (chanPut r b ch x) b
            { page := false, addr := a, reason := 0, chans := 2 ^ ch, marks := [], tag := 0, tries := 0 }))
          ∧ (∀ r m, moveOf s b x w = (r, .ok m) → ∃ y t, (0 < x.issued → y = x)
            ∧ (x.issued = 0 → ∃ k : ChanMark, k.id = x.moves ∧ k.pc = x.pc ∧ k.loops = x.loops ∧ k.counters = x.counters
                ∧ y = { x with marks := x.marks ++ [k] })
            ∧ t = issuePieces b ch x.moves m 16 (chanPut r b ch y)
            ∧ (m.len ≤ (chanGet t b ch).issued → exec i s = .next (settle (chanPut t b ch
              { chanGet t b ch with pc := (chanGet t b ch).pc + 1, moves := (chanGet t b ch).moves + 1, issued := 0 }) b))
            ∧ ((chanGet t b ch).issued < m.len → (blockGet t b).stops = false → 16 ≤ windowUsed t b ch →
              exec i s = .next (chanPut t b ch { chanGet t b ch with state := chWaiting, wait := 4 }))
            ∧ ((chanGet t b ch).issued < m.len → ((blockGet t b).stops = true ∨ windowUsed t b ch < 16) → exec i s = .next t))))

/-- The waits (R228). WAITP lets the channel continue at a count of at least ANCHOR + Δ, which becomes ANCHOR, at
once where it has passed; WAITT and WAITC where the tally or the named channel's signal count is at least the
threshold; else the channel waits. The wait of a WAITT or WAITC that reaches its window's end, the end tick included,
ends with TIMEOUT; a WAITP has none. END raises the channel's own signal count by 1. -/
def Obligations.StreamWaitsEnd : Prop :=
  ∀ (s : State) (b ch : Nat) (x : Chan),
    (waitingAt s b ch [1] = some x →
        (x.waitFor ≤ s.plumb → exec (.waitpDue b ch) s = .next (settle (chanPut s b ch
          { x with state := chRunning, wait := 0, anchor := x.waitFor, pc := x.pc + 1 }) b))
        ∧ (s.plumb < x.waitFor → exec (.waitpDue b ch) s = .next s) ∧ exec (.waitTimeout b ch) s = .next s)
      ∧ (waitingAt s b ch [2, 3] = some x →
        (s.plumb < x.entry + x.waitLen → x.waitFor ≤ waitValue s b x.wait x.waitId → exec (.waitSatisfied b ch) s
            = .next (settle (chanPut s b ch { x with state := chRunning, wait := 0, pc := x.pc + 1 }) b))
        ∧ (waitValue s b x.wait x.waitId < x.waitFor → exec (.waitSatisfied b ch) s = .next s)
        ∧ (x.entry + x.waitLen ≤ s.plumb → exec (.waitSatisfied b ch) s = .next s)
        ∧ (x.entry + x.waitLen ≤ s.plumb → exec (.waitTimeout b ch) s = .next (chanEnd s b ch chLoaded stTimeout false))
        ∧ (s.plumb < x.entry + x.waitLen → exec (.waitTimeout b ch) s = .next s))
      ∧ (∀ w, AtWord s b ch opWaitp x w →
        (x.anchor + fieldOf w 47 0 ≤ s.plumb → exec (.waitp b ch) s
            = .next (settle (chanPut s b ch { x with anchor := x.anchor + fieldOf w 47 0, pc := x.pc + 1 }) b))
        ∧ (s.plumb < x.anchor + fieldOf w 47 0 → ∃ y, exec (.waitp b ch) s = .next (chanPut s b ch y) ∧ y.state = chWaiting
            ∧ y.wait = 1 ∧ y.waitFor = x.anchor + fieldOf w 47 0 ∧ y.anchor = x.anchor))
      ∧ (∀ w kind v, kind = 2 ∧ AtWord s b ch opWaitc x w ∧ v = (chanGet s b (fieldOf w 44 40)).signal
            ∨ kind = 3 ∧ AtWord s b ch opWaitt x w ∧ v = tallyGet s b (fieldOf w 47 40) →
        ∀ i, i = (if kind = 2 then Instr.waitc b ch else .waitt b ch) →
        (fieldOf w 31 0 ≤ v → exec i s = .next (settle (chanPut s b ch { x with pc := x.pc + 1 }) b))
        ∧ (v < fieldOf w 31 0 → ∃ y, exec i s = .next (chanPut s b ch y) ∧ y.state = chWaiting ∧ y.wait = kind
            ∧ y.waitFor = fieldOf w 31 0 ∧ y.entry = s.plumb ∧ y.waitLen = waitTicks s b x))
      ∧ (∀ w, AtWord s b ch opStEnd x w → exec (.endChan b ch) s = .next (settle (chanEnd (chanPut s b ch
          { x with signal := (x.signal + 1) % 2 ^ 32 }) b ch chLoaded stOk false) b))

/-- The owner's side of the Lath (R229, R231, R239, R240): an ACK ends its parcel and an answer to none is
counted; a NACK fails it; a reply cell goes through its slot, a repeated one being counted and the last one completing the
read; a parcel without an answer is sent again with its tag, or fails with its retries used up; a held parcel goes out once
8 Lath cycles have passed; and of a block whose parcels have settled after page errors alone every working channel is
HALTED.

A Lath router (R235, R237, R238): a lone sound cell that has come to its node and can be taken is ejected there, a
lone cell whose CRC does not hold is discarded and counted, and a node without a link then injects what it has waiting. An ADD parcel's assembly without progress
for its retry budget is freed with nothing applied. -/
def Obligations.LathOwnersAndNodes : Prop :=
  (∀ (s t : State) (k : Nat) (c : Cell) (p : Parcel),
      (takeInbox s k 5 = some (c, t) →
          (parcelFor t k c = some p → p.kind ≠ 2 → exec (.cellAck k) s = .next (parcelDone t k (c.src % 32) p))
          ∧ (parcelFor t k c = none → exec (.cellAck k) s = .next (lathCount t (blockNode k).1 5 1)))
        ∧ (takeInbox s k 6 = some (c, t) → parcelFor t k c = some p → exec (.cellNack k) s
            = .next (parcelFail t k (c.src % 32) p (leAt c.payload 6 1 == 4) (leAt c.payload 6 1) (leAt c.payload 0 6 % 2 ^ 42)))
        ∧ (takeInbox s k 3 = some (c, t) → ∀ slot n d, slot = slotGet t n → n = slotKey (blockNode k).1 (blockNode k).2 c.src c.tag →
          d = (slot.tag + 4096 - c.tag) % 4096 →
          ((d = 0 ∧ bitOf slot.mask c.seq = true) ∨ (16 ≤ d ∧ d ≤ 2047) →
            exec (.cellReply k) s = .next (lathCount t (blockNode k).1 4 1))
          ∧ (¬((d = 0 ∧ bitOf slot.mask c.seq = true) ∨ (16 ≤ d ∧ d ≤ 2047)) →
            (parcelFor t k c = none → exec (.cellReply k) s = .next (lathCount t (blockNode k).1 5 1))
            ∧ (parcelFor t k c = some p → ∀ y u q,
              y = { (if d = 0 then slot else { slot0 with tag := c.tag }) with
                    mask := (if d = 0 then slot else { slot0 with tag := c.tag }).mask ||| 2 ^ c.seq } →
              q = (if p.onward.isNone then p else { p with data := placeReply p c }) →
              u = parcelMap (if p.onward.isNone then ownStore (slotPut t n y) k c.addr c.payload else slotPut t n y) c.src c.tag (fun _ => q) →
              exec (.cellReply k) s = .next (if y.whole c.ncell then readDone u k (c.src % 32) q else u))))
        ∧ (∀ win at', k < 33 → (chanGet s k (win / 16)).window.find? (fun p => p.tag % 16 == win % 16 && !p.peer) = some p →
          p.sentAt = some at' →
          (s.plumb < at' + p.interval → exec (.lathParcelRetry k win) s = .next s)
          ∧ (at' + p.interval ≤ s.plumb → p.attempts < p.retries → ∃ u, exec (.lathParcelRetry k win) s
              = .next (injectCells (lathCount u (blockNode k).1 3 1) (blockNode k).1 (blockNode k).2
                  (parcelCells u k (win / 16) { p with attempts := p.attempts + 1, sentAt := none })) ∧ u.mem = s.mem)
          ∧ (at' + p.interval ≤ s.plumb → p.retries ≤ p.attempts → windowOpen s (ownerSrc s k (win / 16)) p.tag = false →
              exec (.lathParcelRetry k win) s = .next (parcelFail s k (win / 16) p false 0 (if p.kind = 2 then p.src else p.addr))))
        ∧ (∀ ch win since, (blockGet s k).held = some (ch, since, p) → ch = win / 16 → released s = true →
          (since + 5 ≤ s.plumb → exec (.mergeHoldExpiry k win) s = .next (sendParcel (blockPut s k { blockGet s k with held := none }) k ch p))
          ∧ (s.plumb < since + 5 → exec (.mergeHoldExpiry k win) s = .next s))
        ∧ (∀ e, k < 33 → (blockGet s k).stops = true → (blockGet s k).held = none → (blockGet s k).chans.all (fun x => x.window.isEmpty) = true →
          (blockGet s k).chans.length = blockChans k → (blockGet s k).errs.head? = some e → (blockGet s k).errs.all (·.page) = true →
          ∃ u, exec (.allStop k) s = .next u ∧ (blockGet u k).stops = false ∧ (blockGet u k).errs = []
            ∧ (∀ ch, ch < blockChans k → ((chanGet s k ch).state = chRunning ∨ (chanGet s k ch).state = chWaiting) →
                (chanGet u k ch).state = chHalted)))
    ∧ ((∀ (s s1 : State) (plane die node : Nat) (c : Cell), plane < 72 → die < 5 → (ringOf die).contains node = true → released s = true →
        stGet [] s.lath.rings (ringKey plane die node) = [c] → c.way < 3 →
        s1 = { s with lath := { s.lath with rings := stSet [] s.lath.rings (ringKey plane die node) [] } } →
        (cellSound c = true → ∀ s0 t, s0 = lathCount s1 die 0 0 →
          preferred s0 die node (reachInter s1 die node c) = none → canEject s0 die node (reachInter s1 die node c) = true →
          grant s0 (0x10000 + 2 * ringKey plane die node) 3 [(c.way, c.cls)] = some (c.way, t) →
          exec (.lathCellArrival plane die node []) s = .next (if (linkOf die node).isSome then ejectCell t die node (reachInter s1 die node c)
            else injectOne (ejectCell t die node (reachInter s1 die node c)) plane die node [0, 1]))
        ∧ (cellSound c = false →
          ∀ u, u = linkDrops (lathCount s1 die 0 1) die node (if c.way = 2 then 1 else 0) →
          exec (.lathCellArrival plane die node []) s = .next (if (linkOf die node).isSome then u else injectOne u plane die node [0, 1])))
      ∧ (∀ (s : State) (node src win : Nat) (a : Assembly),
        (assemblyAt s node).find? (fun a => a.src == src && a.win == win) = some a →
        (s.plumb < a.since + a.limit → exec (.addAssemblyTimeout node src win) s = .next s)
        ∧ (a.since + a.limit ≤ s.plumb → ∃ u, exec (.addAssemblyTimeout node src win) s = .next u
            ∧ assemblyAt u node = (assemblyAt s node).filter (fun x => x != a)
            ∧ (slotGet u (slotKey (node / 16) (node % 16) src win)).mask = 0
            ∧ u.mem = s.mem ∧ u.chip = s.chip ∧ u.blocks = s.blocks)))

/-- A scheduler's grant (R29, R30): among requesters that ask it goes to one of the most urgent class, the
first from that class's pointer on, and the pointer moves past it; nothing else changes. With no request none is
granted. Every pointer is 0 at release and again at the end of each seam.

Memory's own commands (R156, R195, R206, R207, R212, R215): the schedulers of a pseudo-channel and of a
tier controller take the request they grant out of their queue and serve it; REFRESH notes the tick and
nothing else but the grant; over memory without errors the scrubber moves on and changes no byte; a condemned
pseudo-channel of a quiet stack between steps leaves the list of those waiting to be retired and is retired; a Hawk unit of
the overflow part is copied to its staging place and no other byte changes. -/
def Obligations.MemoryGrantsAndCommands : Prop :=
  ((∀ (s : State) (base n : Nat) (reqs : List (Nat × Nat)), 0 < n → reqs ≠ [] → (∀ r ∈ reqs, r.1 < n) →
        ∃ j cls t, grant s base n reqs = some (j, t) ∧ (j, cls) ∈ reqs ∧ (∀ r ∈ reqs, cls ≤ r.2)
          ∧ (∀ i, i < (j + n - stGet 0 s.mem.ptrs (base * 8 + cls) % n) % n →
              ((stGet 0 s.mem.ptrs (base * 8 + cls) + i) % n, cls) ∉ reqs)
          ∧ (∀ k, stGet 0 t.mem.ptrs k = if k = base * 8 + cls then (j + 1) % n else stGet 0 s.mem.ptrs k)
          ∧ { t with mem := { t.mem with ptrs := s.mem.ptrs } } = s)
      ∧ (∀ (s : State) (base n : Nat), grant s base n [] = none)
      ∧ (∀ (s u : State) (r : BootReport), starting s = true → exec (.release r) s = .next u → u.boot.ready = true →
        ∀ k, stGet 0 u.mem.ptrs k = 0)
      ∧ (∀ (s : State) (c : Cmd) (k : Nat), seamWaits (seamTests (seamRetires s)) = false → stGet 0 (seamRest s c).mem.ptrs k = 0))
    ∧ ((∀ (s t : State) (stack pc : Nat) (r : MemReq) (rest : List MemReq), stack < 8 → pc < 64 →
        grantReq s (stack * 64 + pc) 7 (fun r => if r.kind = 4 then 5 else if r.src < 4 then r.src else stack / 2)
          (fun r => decide (r.cls < 4) || !caseHot s stack) (stGet [] s.mem.queues (stack * 64 + pc)) = some (r, rest, t) →
        ∃ u, exec (.sectorGrant stack pc) s = .next (memServed u r) ∧ stGet [] u.mem.queues (stack * 64 + pc) = rest
          ∧ u.mem.bytes = t.mem.bytes ∧ u.csr = t.csr)
      ∧ (∀ (s t : State) (ctl : Nat) (r : MemReq) (rest : List MemReq), ctl < 8 →
        grantReq s (600 + ctl) 4 (fun _ => 0) (fun _ => true) (stGet [] s.mem.tierQ ctl) = some (r, rest, t) →
        ∃ u, exec (.capacityAccess ctl) s = .next (memServed u r) ∧ stGet [] u.mem.tierQ ctl = rest ∧ u.mem.bytes = t.mem.bytes)
      ∧ (∀ (s : State) (stack pc bank : Nat), stack < 8 → pc < 64 → bank < 256 → released s = true →
        ∃ u, exec (.refresh stack pc bank) s = .next u ∧ stGet 0 u.mem.refreshed ((stack * 64 + pc) * 256 + bank) = s.plumb
          ∧ { u with mem := { u.mem with refreshed := s.mem.refreshed, ptrs := s.mem.ptrs } } = s)
      ∧ (∀ (s : State) (stack pc : Nat), stack < 8 → pc < 64 → released s = true → CleanMem s →
        ∃ u, exec (.patrolScrub stack pc []) s = .next u ∧ u.mem.bytes = s.mem.bytes
          ∧ stGet 0 u.mem.scrub (stack * 64 + pc) = (stGet 0 s.mem.scrub (stack * 64 + pc) + 1) % 2 ^ 24)
      ∧ (∀ (s : State) (stack pc : Nat), stack < 8 → pc < 64 → unitMem stack pc 0 ∈ s.snag.retires → stackQuiet s stack = true →
        stepPhase s ≠ sOpen → stepPhase s ≠ sDeciding →
        ∃ u v, exec (.pseudoChannelRetirement stack pc) s = .next (retirePc u stack pc) ∧ u = markRetired v (unitMem stack pc 0)
          ∧ v = { s with snag := { s.snag with retires := s.snag.retires.filter (· != unitMem stack pc 0) } })
      ∧ (∀ (s : State) (mb unit staging : Nat), mb < 16 → released s = true → shedLevel s < 2 →
        (rangeOf s.job.hawkHbm mb).len ≤ unit * 4096 → staging % 4096 = 0 → inInterleaved s staging 4096 = true → lowerWaits s 4 = false →
        caseHolds s (hawkAddr s mb (unit * 4096)) 4096 = false → caseHolds s staging 4096 = false →
        stGet 0 (hawkOf s mb).migrated unit = 0 → (∃ f ∈ (hawkOf s mb).frames, f.start ≤ unit ∧ unit < f.start + f.length) → CleanMem s →
        ∃ u, exec (.hawkMigration mb unit staging) s = .next u ∧ stGet 0 (hawkOf u mb).migrated unit = staging + 1
          ∧ (hawkOf u mb).frames = (hawkOf s mb).frames
          ∧ memBytes u staging 4096 = memBytes s (hawkAddr s mb (unit * 4096)) 4096
          ∧ (∀ a, a < staging ∨ staging + 4096 ≤ a → memByte u a = memByte s a)))

/-! Topcoat: its commands and its instructions. -/

/-- TOPCOAT_LOAD and UPDATE (R146, R172, R176, R188). Between steps, in IDLE, a valid program goes into its slot
and its valid bit is set; at any other time the load is refused. An UPDATE of an open step whose body and tensor stand
names its tensor in the step and takes its place among those that Topcoat takes, and no tensor, queue, register or byte of
memory changes yet; one whose body or tensor does not stand is refused; before OPEN nothing happens. -/
def Obligations.TopcoatCommands : Prop :=
  ∀ (s : State) (q qseq : Nat) (c : Cmd),
    (Begins s q qseq 0x0601 c →
        (stepPhase (markBegun s q qseq) ≠ sIdle → exec (.topcoatLoad q qseq) s = .next (finish (markBegun s q qseq) c stNotReady))
        ∧ (stepPhase (markBegun s q qseq) = sIdle → 4 ≤ leAt c.body 0 1 → leAt c.body 0 1 ≤ 15 → 1 ≤ leAt c.body 1 1 →
            leAt c.body 1 1 ≤ 64 → 16 + 4 * leAt c.body 1 1 ≤ c.body.length → leAt c.body 2 1 ≤ 31 → leAt c.body 3 1 ≤ 31 →
            zeroAt c.body 4 12 = true → progValid (progOfBytes c.body) = true →
            ∃ u, exec (.topcoatLoad q qseq) s = .next (finish u c stOk)
              ∧ stGet [] u.topcoat.programs (leAt c.body 0 1) = sliceB c.body 0 (16 + 4 * leAt c.body 1 1)
              ∧ (∀ k, k ≠ leAt c.body 0 1 → stGet [] u.topcoat.programs k = stGet [] (markBegun s q qseq).topcoat.programs k)
              ∧ bitOf (csrGet u rTopProgValid) (leAt c.body 0 1) = true ∧ u.mem = (markBegun s q qseq).mem))
      ∧ (Begins s q qseq 0x0602 c →
        (stepPhase s ≠ sOpen → exec (.update q qseq) s = .next s)
        ∧ (stepPhase s = sOpen → s.topcoat.waiting.contains (c.queue, c.qseq) = false → (updBodyOk s c && updNamesOk s c) = true →
            ∃ u n, exec (.update q qseq) s = .next u ∧ u.topcoat.waiting = s.topcoat.waiting ++ [(c.queue, c.qseq)]
              ∧ n ∈ u.topcoat.named ∧ n.tensor = c.uTensor ∧ n.op = c.op ∧ n.status = none
              ∧ { u with topcoat := s.topcoat } = s)
        ∧ (stepPhase s = sOpen → s.topcoat.waiting.contains (c.queue, c.qseq) = false → (updBodyOk s c && updNamesOk s c) = false →
            exec (.update q qseq) s = .next (finish (nameTensor (markBegun s q qseq) c true) c stBadParam)))

/-- A waiting UPDATE and the one under way (R160, R172, R174). While its WAIT_OP or its scale UPDATE holds it nothing happens, and
one that ends it ends it. With these waits over the tensor's other slot is pending and its previous version gone; once no RUN reads that
version and no UPDATE is under way, Topcoat reads the row list, where it has one, and takes the tensor; a row list out of
order ends it REFUSED_BAD_PARAM, one that cannot be read ABORTED_FAULT, the tensor as it was. Once all eight Topcoats are
done the UPDATE completes, FLAGGED where a value was not finite, the window was met or a scale saturated, and its
layer's norms are kept. -/
def Obligations.UpdateTakesAndCompletes : Prop :=
  ∀ (s : State) (op : Nat),
    (∀ ev c t, waitingUpdate s op = some c → stepPhase s = sOpen → shedLevel s < 4 → tensorAt s c.uTensor = some t →
        (waitOpEnd s c = .waits → exec (.updateTakesTensor op ev) s = .next s)
        ∧ (waitOpEnd s c = .over → waitScaleEnd s c = .waits → exec (.updateTakesTensor op ev) s = .next s)
        ∧ (∀ st, waitOpEnd s c = .ends st → exec (.updateTakesTensor op ev) s = .next (updQuit s c st))
        ∧ (∀ st, waitOpEnd s c = .over → waitScaleEnd s c = .ends st → exec (.updateTakesTensor op ev) s = .next (updQuit s c st))
        ∧ (waitOpEnd s c = .over → waitScaleEnd s c = .over → ∀ d, d = claimTensor s c t →
            (s.topcoat.taken.any (fun k => k.1 == c.queue && k.2.1 == c.qseq) = false →
              tensorAt d c.uTensor = some { t with pending := true, prevOk := false })
            ∧ ((d.runs.any (fun x => x.copies.any (fun k => k.1 == c.uTensor && k.2.2)) = true ∨ d.topcoat.running.isSome = true) →
                exec (.updateTakesTensor op ev) s = .next d)
            ∧ (d.runs.any (fun x => x.copies.any (fun k => k.1 == c.uTensor && k.2.2)) = false → d.topcoat.running = none →
                (c.uRows = false → exec (.updateTakesTensor op ev) s = .next (takeTensor d c t none ev))
                ∧ (∀ r l, c.uRows = true → readRows d c t = (r, some (some l)) →
                    exec (.updateTakesTensor op ev) s = .next (takeTensor r c t (some l) ev))
                ∧ (∀ r, c.uRows = true → readRows d c t = (r, some none) →
                    exec (.updateTakesTensor op ev) s = .next (updDrop (unclaimTensor r c t) c))
                ∧ (∀ r, c.uRows = true → readRows d c t = (r, none) →
                    exec (.updateTakesTensor op ev) s = .next (updQuit (unclaimTensor (topRecurs r) c t) c stFault)))))
      ∧ (∀ u, s.topcoat.running = some u → u.cmd.op = op →
        (s.topcoat.tops.any (·.busy) = true → exec (.updateComplete op) s = .next s)
        ∧ (s.topcoat.tops.any (·.busy) = false →
            ∃ t flags, exec (.updateComplete op) s = .next (endUpdate t u.cmd (if flags = 0 then stOk else stFlagged) flags)
              ∧ t.step.norms = addNorm s.step.norms u.norm ∧ t.mem = s.mem ∧ t.job = s.job
              ∧ flags = boolNat u.notFin * 0x40 + boolNat u.winSat * 8 + boolNat u.scaleSat * 32))

/-- Topcoat's arithmetic instructions (R178, R179): D takes the F32 code of the value, each rounded once,
the pc moves on, and every other register and every other stack stays. -/
def Obligations.TopcoatArithmetic : Prop :=
  ∀ (s : State) (st op : Nat) (c : TopCtx) (v : FV) (i : Instr), AtTopWord s st op c →
    (op, v, i) ∈
      [(0x01, c.a.add c.b, Instr.topcoatAdd st), (0x02, c.a.sub c.b, .topcoatSub st), (0x03, c.a.mul c.b, .topcoatMul st),
       (0x04, (c.a.mul c.b).add c.c, .topcoatFma st), (0x05, f32.div c.a c.b, .topcoatDiv st), (0x06, f32.sqrt c.a, .topcoatSqrt st),
       (0x07, f32.rsqrt c.a, .topcoatRsqrt st), (0x08, FV.max c.a c.b, .topcoatMax st), (0x09, fMin c.a c.b, .topcoatMin st),
       (0x0A, c.a.abs, .topcoatAbs st), (0x0B, c.a.negate, .topcoatNeg st), (0x0C, fSign c.a, .topcoatSign st),
       (0x0D, fMin (FV.max c.a c.b) c.c, .topcoatClamp st), (0x10, c.k, .topcoatLdk st), (0x11, c.a.mul c.k, .topcoatMulk st),
       (0x12, c.a.add c.k, .topcoatAddk st), (0x13, (c.a.mul c.k).add c.b, .topcoatFmak st)] →
    ∃ u x, exec i s = .next u ∧ u.topcoat.tops[st]? = some x
      ∧ x.regs = c.x.regs.set (fieldOf c.word 23 20) (f32Code v) ∧ x.pc = c.x.pc + 1 ∧ x.param = c.x.param ∧ x.groups = c.x.groups
      ∧ (∀ k, k ≠ st → u.topcoat.tops[k]? = s.topcoat.tops[k]?)
      ∧ u.topcoat.running = s.topcoat.running ∧ { u with topcoat := s.topcoat } = s

/-- The factor instructions, PHASE and END (R179, R180, R191). ROWACC and COLACC add A exactly to the parameter's
row or column sum. LDROW, LDCOL and LDRSUM give the updated factors in phase 2; before PHASE there are
none, D is a free value (the model's choice, log entry 35); each moves the pc on. PHASE goes on to the next parameter,
and the phase ends with the last. END writes back, and over memory without errors the low half of the pending master is the
low half of f0; then it goes on to the next parameter, the group ending with its last. A sector that fails in PHASE or END
makes the UPDATE start again or end. -/
def Obligations.TopcoatFactorsAndEnds : Prop :=
  ∀ (s : State) (st op : Nat) (c : TopCtx), AtTopWord s st op c →
    (op = 0x20 → exec (.topcoatRowacc st) s = .next (c.pass (modRun s (fun r => { r with
        rowSum := stSet exZero r.rowSum c.row ((stGet exZero r.rowSum c.row).plus c.a factorUnit) }))))
      ∧ (op = 0x21 → exec (.topcoatColacc st) s = .next (c.pass (modRun s (fun r => { r with
        colSum := stSet exZero r.colSum c.col ((stGet exZero r.colSum c.col).plus c.a factorUnit) }))))
      ∧ (c.u.phase2 = true →
        (op = 0x22 → exec (.topcoatLdrow st) s = .next (c.put s (leNat (planeBytes s c.t (plM2 (1 - c.t.cur)) (4 * c.row) 4))))
        ∧ (op = 0x23 → exec (.topcoatLdcol st) s = .next (c.put s (leNat (planeBytes s c.t (plS16 (1 - c.t.cur)) (4 * c.col) 4))))
        ∧ (op = 0x24 → exec (.topcoatLdrsum st) s = .next (c.put s c.u.rsum)))
      ∧ (c.u.phase2 = false → ∀ i, (op, i) ∈ [(0x22, Instr.topcoatLdrow st), (0x23, .topcoatLdcol st), (0x24, .topcoatLdrsum st)] →
        ∃ v, exec i s = .next (c.put (takeFree s).2 v) ∧ v = (takeFree s).1 % 2 ^ 32)
      ∧ (op = opPhase → ∀ t ok, c.next s (fun s => (s, true)) = (t, ok) →
          exec (.topcoatPhase st) s = .next (if ok then endPhase t c.u c.t c.p else topFault t))
      ∧ (op = opEnd → ∀ t ok, c.writeBack s = (t, ok) →
          (ok = false → exec (.topcoatEnd st) s = .next (topFault t))
          ∧ (ok = true → ∀ u done, c.next t (fun s => endGroup s c.st c.u.cmd c.t c.p (nthD c.x.groups 0 0) true) = (u, done) →
            exec (.topcoatEnd st) s = .next (if done then u else topFault u))
          ∧ (∀ a b, CleanMem s → c.p.moments = 0 → planeAddr s c.t (plHi (1 - c.t.cur)) = some a →
            planeAddr s c.t (plLo (1 - c.t.cur)) = some b → ok = true
              ∧ memBytes t (b + (256 * nthD c.x.groups 0 0 + 2 * c.x.param)) 2 = leBytes 2 (nthD c.x.regs 0 0)))

/-! Time: plumb, launches, windows and links. -/

/-- PLUMB_SYNC_CFG and PLUMB_READ (R304, R306, R309, R335). With its checks passed ACQUIRE enters
ACQUIRING under the parent and depth given with nothing of the old exchanges left; REPARENT changes the
parent and keeps the state and the depth; ROOT makes the device the root at depth 0; none of them steps the
count. A check that fails gives its own status. PLUMB_READ completes with PLB_STATUS and PLB_OFFSET. -/
def Obligations.PlumbCommands : Prop :=
  ∀ (s : State) (q qseq : Nat) (c : Cmd),
    (Begins s q qseq 0x0801 c → syncCfgCheck (markBegun s q qseq) c.body = none →
        (leAt c.body 0 1 = 1 → ∃ u, exec (.acquire q qseq) s = .next (finish u c stOk) ∧ plbState u = plAcquiring
          ∧ plbParent u = leAt c.body 4 2 ∧ plbDepth u = leAt c.body 6 1 ∧ u.time.exchanges = [] ∧ u.time.stepped = false
          ∧ u.time.slew = 0 ∧ u.plumb = (markBegun s q qseq).plumb ∧ u.mem = (markBegun s q qseq).mem)
        ∧ (leAt c.body 0 1 = 2 → ∃ u, exec (.reparent q qseq) s = .next (finish u c stOk)
          ∧ plbState u = plbState (markBegun s q qseq) ∧ plbParent u = leAt c.body 4 2
          ∧ plbDepth u = plbDepth (markBegun s q qseq) ∧ u.time.exchanges = [] ∧ u.plumb = (markBegun s q qseq).plumb)
        ∧ (leAt c.body 0 1 = 3 → ∃ u, exec (.root q qseq) s = .next (finish u c stOk) ∧ plbState u = plRoot
          ∧ plbParent u = 0 ∧ plbDepth u = 0 ∧ u.time.slew = 0 ∧ u.plumb = (markBegun s q qseq).plumb))
      ∧ (Begins s q qseq 0x0801 c → ∀ st i, syncCfgCheck (markBegun s q qseq) c.body = some st →
        (leAt c.body 0 1, i) ∈ [(1, Instr.acquire q qseq), (2, .reparent q qseq), (3, .root q qseq)] →
        exec i s = .next (finish (markBegun s q qseq) c st))
      ∧ (Begins s q qseq 0x0803 c → exec (.plumbRead q qseq) s = .next (complete (markBegun s q qseq) c stOk 0
          (leBytes 4 (csrValue (markBegun s q qseq) rPlbStatus) ++ leBytes 4 (csrGet (markBegun s q qseq) rPlbOffset))))

/-- Launches (R308). A launched command at its queue's head may begin from its tick on, is late and counted
where the tick has passed before it reached the head, and stays where it is before it. LAUNCH_AT holds the head of each queue of its
mask until its count, a count already passed completes at once, and on its tick it completes and the queues
whose counts have passed go on. -/
def Obligations.LaunchesOnTheirTick : Prop :=
  (∀ (s : State) (q qseq : Nat) (sl : QSlot), slotOf (queueAt s q) qseq = some sl → q < 8 → s.queues.length = 8 → sl.begun = false →
      sl.launched = false → (cmdOf q sl).launched = true → released s = true → launchHeld s q = false → mayBegin s (cmdOf q sl) = true →
      (cmdOf q sl).launch ≤ (cmdOf q sl).arrived + 2 ^ 36 →
      (s.plumb < (cmdOf q sl).launch → exec (.launch q qseq) s = .next s)
      ∧ (∀ late, late = (decide ((cmdOf q sl).launch < s.plumb) && !sl.timely) → (cmdOf q sl).launch ≤ s.plumb →
          ∃ u, exec (.launch q qseq) s = .next (if late then csrBump u rPlbLateLaunch 31 0 1 else u)
            ∧ slotOf (queueAt u q) qseq = some { sl with launched := true, late := late }
            ∧ (∀ p, p ≠ q → queueAt u p = queueAt s p) ∧ { u with queues := s.queues } = s))
    ∧ (∀ (s : State) (q qseq : Nat) (c : Cmd), Begins s q qseq 0x0802 c → zeroAt c.body 9 7 = true → leAt c.body 0 8 ≤ c.arrived + 2 ^ 36 →
      (leAt c.body 0 8 ≤ (markBegun s q qseq).plumb → exec (.launchAt q qseq) s = .next (finish (markBegun s q qseq) c stOk))
      ∧ ((markBegun s q qseq).plumb < leAt c.body 0 8 → (markBegun s q qseq).queues.length = 8 →
          ∃ u, exec (.launchAt q qseq) s = .next u
            ∧ (∀ p, p < 8 → bitOf (leAt c.body 8 1) p = true → launchHeld u p = true)
            ∧ (∀ p, bitOf (leAt c.body 8 1) p = false → queueAt u p = queueAt (markBegun s q qseq) p)
            ∧ u.flights = (markBegun s q qseq).flights ++ [{ cmd := c, started := (markBegun s q qseq).plumb }]
            ∧ u.mem = (markBegun s q qseq).mem))
    ∧ (∀ (s : State) (op : Nat) (f : Flight), s.flights.find? (fun f => f.cmd.op == op && f.cmd.opcode == 0x0802) = some f →
      (s.plumb < leAt f.cmd.body 0 8 → exec (.launchAtDue op) s = .next s)
      ∧ (leAt f.cmd.body 0 8 ≤ s.plumb → ∃ u, exec (.launchAtDue op) s = .next (finish u f.cmd stOk)
          ∧ (∀ q t o, (queueAt s q).launchHold = some (t, o) → t ≤ s.plumb → q < s.queues.length → (queueAt u q).launchHold = none)
          ∧ (∀ q, (queueAt u q).slots = (queueAt s q).slots) ∧ u.mem = s.mem))

/-- The plumb exchange (R302–R304). A parent answers a child's REQUEST and keeps the child's entry, in a table
of at most 64; a RESPONSE to the request last sent names the root and is used where it is good and in time, with θ and δ
from the four stamps; a child sends its request on its own tick of each 100 µs; an entry silent for 10 ms is
freed; 1 ms without a usable exchange leads from LOCKED to HOLDOVER, 10 s of that to UNLOCKED. -/
def Obligations.PlumbExchanges : Prop :=
  (∀ (s t : State) (p : Packet) (h : ScHdr) (b : List Byte) (t2 : Int), acceptScrim s p 0x7 = (t, some (h, b)) → b.length = 64 →
      beAt b 0 1 = 1 → shedLevel t ≠ 5 → plbState t ≠ plFree → beAt b 4 2 % 4096 = rootOf t → beAt b 6 1 = plbDepth t + 1 →
      beAt b 6 1 ≤ 2 → h.src < 0x1000 → peerValid t h.src = true →
      (t.time.children.any (fun c => c.dev == h.src) = true ∨ t.time.children.length < 64) →
      ∃ u t3, exec (.syncRequest p t2) s = .next (sendAnswer u (originOf p h) 0x7 1 0 0 0 (syncBytes 2
            (boolNat (plbState t == plRoot || plbState t == plLocked)) (beAt b 2 2) (rootOf t) (plbDepth t) (beAt b 8 10) (t2 % 2 ^ 80).toNat t3))
        ∧ u.time.children = t.time.children.filter (fun c => c.dev != h.src) ++ [{ dev := h.src, lastAt := t.plumb }]
        ∧ u.plumb = t.plumb ∧ u.mem = t.mem)
    ∧ (∀ (s t : State) (p : Packet) (h : ScHdr) (b : List Byte) (t4 : Int) (x sent : Nat), acceptScrim s p 0x7 = (t, some (h, b)) →
      b.length = 64 → beAt b 0 1 = 2 → 2 ≤ plbState t → h.src = plbParent t → (t.time.rootSeen = false ∨ beAt b 4 2 % 4096 = t.time.rootId) →
      beAt b 6 1 + 1 = plbDepth t → t.time.request = some (x, sent) → beAt b 2 2 = x →
      ∃ u, u = { t with time := { t.time with request := none, rootId := beAt b 4 2 % 4096, rootSeen := true } }
        ∧ (beAt b 1 1 % 2 = 1 → t.plumb ≤ sent + 100000 → plbState t ≠ plUnlocked → exec (.syncResponse p t4) s = .next (useExchange u
            ((beAt b 18 10 : Int) - beAt b 8 10 - (t4 - beAt b 28 10)) (t4 - beAt b 8 10 - ((beAt b 28 10 : Int) - beAt b 18 10))))
        ∧ (beAt b 1 1 % 2 = 0 → exec (.syncResponse p t4) s = .next u))
    ∧ (∀ (s : State) (port : Nat), 2 ≤ plbState s → released s = true → shedLevel s ≠ 5 → ownId s ≠ 0x8000 → s.time.request = none →
      s.plumb % 100000 = ownId s % 64 * 1000 → pickPort (usablePorts s (leAt (peerEntry s (plbParent s)) 16 1)) 0 = some port →
      ∃ u sport dport bs, exec .sendSyncRequest s = .next (sendFrame u port (peerIp (peerEntry s (plbParent s))) sport dport 1 bs)
        ∧ u.time.request = some ((s.time.xseq + 1) % 65536, s.plumb) ∧ u.time.xseq = (s.time.xseq + 1) % 65536 ∧ u.mem = s.mem)
    ∧ (∀ (s : State) (dev : Nat), ∃ u, exec (.childEntryExpiry dev) s = .next u
      ∧ (∀ c ∈ s.time.children, c.dev = dev → c.lastAt + 10 ^ 7 ≤ s.plumb → c ∉ u.time.children)
      ∧ (∀ c ∈ s.time.children, c.dev ≠ dev ∨ s.plumb < c.lastAt + 10 ^ 7 → c ∈ u.time.children)
      ∧ { u with time := { u.time with children := s.time.children } } = s)
    ∧ (∀ s : State, plbState s = plLocked → s.time.lastUsable + 10 ^ 6 ≤ s.plumb →
      ∃ u, exec .holdoverEntry s = .next u ∧ plbState u = plHoldover ∧ u.time.holdover = s.plumb
        ∧ u.time.exchanges = [] ∧ u.plumb = s.plumb)
    ∧ (∀ s : State, plbState s = plHoldover → s.time.holdover + 10 ^ 10 ≤ s.plumb →
      ∃ u, exec .unlockedEntry s = .next u ∧ plbState u = plUnlocked ∧ u.time.slew = 0 ∧ u.plumb = s.plumb)

/-- Background windows and links (R33, R245, R270, R300, R310). A window in use starts on its phase tick with its length as the
registers stand, after the shed levels, seams and window ends of that tick, and lets the traffic that waited for it go; it
ends on its end tick, and nothing else changes. A port of the configuration with all its lanes locked comes up; one
with fewer stays down; one that goes down is down, counted, and keeps nothing of its lanes, a plumb clock recovered
from it falls back to LOCAL, and outside the safe state the
fault manager has an event of it. -/
def Obligations.WindowsAndPorts : Prop :=
  (∀ (s : State) (w : Nat), shedDue s = false → launchAhead s 8 = false →
      (winStarts s w = true → winEndDue s = false → exec (.windowStart w) s = .next (pumpOps (mirrorPump (telFlush { s with time := { s.time with
        winOpen := s.time.winOpen ++ [4 * (s.plumb + 256 * fieldOf (csrGet s (rPlbWinCtrl + 8 * w)) 23 0) + w] } }))))
      ∧ (winStarts s w = false → exec (.windowStart w) s = .next s)
      ∧ ∃ u, exec (.windowEnd w) s = .next u
        ∧ (∀ x, x ∈ u.time.winOpen ↔ x ∈ s.time.winOpen ∧ ¬(x % 4 = w ∧ x / 4 ≤ s.plumb))
        ∧ { u with time := { u.time with winOpen := s.time.winOpen } } = s)
    ∧ (∀ (s : State) (port lanes : Nat), port < 7 → released s = true → (nthD s.net.ports port port0).present = true →
      s.power.gatesOff.contains (unitPort port) = false →
      (lanes % 16 &&& portLanes port = portLanes port → csrField s (rScrPortStatus + 0x10 * port) 30 30 = 0 →
        ∃ u, exec (.portUp port lanes) s = .next u ∧ csrField u (rScrPortStatus + 0x10 * port) 31 31 = 1
          ∧ csrField u (rScrPortStatus + 0x10 * port) 27 24 = portLanes port
          ∧ (∀ a, a ≠ rScrPortStatus + 0x10 * port → csrGet u a = csrGet s a) ∧ { u with csr := s.csr } = s)
      ∧ (lanes % 16 &&& portLanes port ≠ portLanes port → csrField s (rScrPortStatus + 0x10 * port) 31 31 = 0 →
        ∃ u, exec (.portUp port lanes) s = .next u ∧ csrField u (rScrPortStatus + 0x10 * port) 31 31 = 0
          ∧ csrField u (rScrPortStatus + 0x10 * port) 27 24 = lanes % 16 &&& portLanes port
          ∧ (csrField s rPlbStatus 27 27 = 0 → { u with csr := s.csr } = s)))
    ∧ (∀ (s : State) (port : Nat), port < 7 → csrField s (rScrPortStatus + 0x10 * port) 31 31 = 1 →
      ∃ u, csrField u (rScrPortStatus + 0x10 * port) 31 31 = 0 ∧ csrField u (rScrPortStatus + 0x10 * port) 27 24 = 0
        ∧ csrField u (rScrPortStatus + 0x10 * port) 15 0 = min (csrField s (rScrPortStatus + 0x10 * port) 15 0 + 1) 65535
        ∧ (csrField s rPlbStatus 27 27 = 0 → { u with csr := s.csr } = s)
        ∧ (csrField s rPlbStatus 27 27 = 1 → csrField s rPlbStatus 26 24 = port → u.time.sourceOk = false ∧ csrField u rPlbStatus 27 27 = 0)
        ∧ (inSafe s = true → exec (.portDown port) s = .next u)
        ∧ (inSafe s = false → exec (.portDown port) s = .next (decideEvent u (errRec (unitPort port) 0x0A 0 1 0) false)))

/-! Reliability, power, clocks, start-up and security. -/

/-- Patch tests (R25, R26, R358–R360). PATCH_TEST stays in flight for its unit's result, and with NOW makes the unit
due; PATCH_TEST_DUE makes a unit due INTERVAL_MIN after its last pass. A test that ends leaves the
unit no longer under test and answers every command that waits for it: a pass notes the time and keeps
an exchanged core to become its cluster's spare at the next seam; a failure is recorded, and one that failed again retires the
unit. A seam that waits for the last test in place then goes on. -/
def Obligations.PatchTestsFallDueAndEnd : Prop :=
  (∀ (s : State) (q qseq : Nat) (c : Cmd), Begins s q qseq 0x0901 c → testable (markBegun s q qseq) (leAt c.body 0 4) = true →
      leAt c.body 4 1 ≤ 1 → zeroAt c.body 5 3 = true →
      ∃ u, exec (.patchTest q qseq) s = .next u ∧ u.snag.testCmds = (markBegun s q qseq).snag.testCmds ++ [(leAt c.body 0 4, c)]
        ∧ u.flights = (markBegun s q qseq).flights ++ [{ cmd := c, started := (markBegun s q qseq).plumb }]
        ∧ (leAt c.body 4 1 = 0 → u.snag.due = (markBegun s q qseq).snag.due)
        ∧ (leAt c.body 4 1 = 1 → u.snag.due.any (fun d => d.1 == leAt c.body 0 4) = true
            ∨ u.snag.testing.any (fun d => d.1 == leAt c.body 0 4) = true)
        ∧ u.snag.testing = (markBegun s q qseq).snag.testing ∧ u.mem = (markBegun s q qseq).mem ∧ u.chip = (markBegun s q qseq).chip)
    ∧ (∀ (s : State) (unit : Nat), released s = true → testable s unit = true →
      (stGet 0 s.snag.lastPass unit + csrField s rSngPatchCfg 15 0 * 60 * 10 ^ 9 ≤ s.snag.time →
        ∃ u, exec (.patchTestDue unit) s = .next u
          ∧ (u.snag.due.any (fun d => d.1 == unit) = true ∨ u.snag.testing.any (fun d => d.1 == unit) = true)
          ∧ u.snag.testing = s.snag.testing ∧ { u with snag := s.snag, csr := s.csr } = s)
      ∧ (s.snag.time < stGet 0 s.snag.lastPass unit + csrField s rSngPatchCfg 15 0 * 60 * 10 ^ 9 →
        exec (.patchTestDue unit) s = .next s))
    ∧ (∀ (s : State) (unit mode kernel pass : Nat), s.snag.testing.find? (fun t => t.1 == unit) = some (unit, mode) → s.snag.seamHold = none →
      (∃ u, exec (.patchTestComplete unit 0 ⟨kernel, pass⟩) s = .next (syncPatch (endTestCmds u unit 0 0xFF))
          ∧ stGet 0 u.snag.lastPass unit = s.snag.time ∧ u.snag.testing = s.snag.testing.filter (fun t => t.1 != unit)
          ∧ u.snag.testCmds = s.snag.testCmds ∧ { u with snag := s.snag } = s
          ∧ (isCoreUnit unit = true → mode = 0 → (unit, mode) ∈ u.snag.newSpares))
      ∧ (∀ v, v = { s.snag with testing := s.snag.testing.filter (fun t => t.1 != unit) } → thirdEvent (snagEvent v unit) unit = false →
          ∃ u, exec (.patchTestComplete unit 1 ⟨kernel, pass⟩) s = .next (syncPatch (endTestCmds u unit 1 kernel))
            ∧ u.snag.written = s.snag.written + 1 ∧ stGet 0 u.snag.lastPass unit = s.snag.time
            ∧ u.snag.testing = v.testing ∧ u.mem = s.mem ∧ u.chip = s.chip)
      ∧ ∃ u, exec (.patchTestComplete unit 2 ⟨kernel, pass⟩) s = .next (syncPatch (endTestCmds (retireUnit u unit 0x0E) unit 2 kernel))
            ∧ u.snag.written = s.snag.written + 1 ∧ u.snag.testing = s.snag.testing.filter (fun t => t.1 != unit)
            ∧ u.mem = s.mem ∧ u.chip = s.chip)
    ∧ (∀ (s t : State) (unit result kernel pass : Nat) (c : Cmd), t = patchTestEnd unit result kernel pass s → t.snag.seamHold = some c →
      exec (.patchTestComplete unit result ⟨kernel, pass⟩) s
        = .next (if seamWaits t then t else seamTail { t with snag := { t.snag with seamHold := none } } c))

/-- The Snag list's commands (R354–R356). SNAG_READ of ring records writes them to DEST, each of 64 bytes,
and answers the ring's index and their number. RETIRE writes its record at once and keeps the unit for
the next seam: until then nothing of the unit changes. A commit to flash leaves nothing pending; one
that fails keeps all, sets SNG_STATUS bit 31 and is tried again 1 s later. -/
def Obligations.SnagListReadRetiredAndCommitted : Prop :=
  (∀ (s : State) (q qseq : Nat) (c : Cmd), Begins s q qseq 0x0902 c → leAt c.body 0 1 = 1 → zeroAt c.body 1 3 = true →
      zeroAt c.body 12 4 = true → leAt c.body 8 4 ≠ 0 → leAt c.body 8 4 ≤ 16384 → leAt c.body 4 4 < 16384 → leAt c.body 16 8 < 2 ^ 42 →
      leAt c.body 16 8 % 64 = 0 → cmdRangeOk (markBegun s q qseq) (leAt c.body 16 8) (64 * leAt c.body 8 4) = true →
      CleanMem (markBegun s q qseq) →
      ∃ u, exec (.snagRead q qseq) s = .next (complete u c stOk 0
            (leBytes 4 (markBegun s q qseq).snag.index ++ leBytes 4 (leAt c.body 8 4)))
        ∧ (∀ i, i < leAt c.body 8 4 → memBytes u (leAt c.body 16 8 + 64 * i) 64
            = sliceB (stGet [] (markBegun s q qseq).snag.ring ((leAt c.body 4 4 + i) % 16384)) 0 64)
        ∧ (∀ a, a < leAt c.body 16 8 ∨ leAt c.body 16 8 + 64 * leAt c.body 8 4 ≤ a → memByte u a = memByte (markBegun s q qseq) a)
        ∧ u.snag = (markBegun s q qseq).snag)
    ∧ (∀ (s : State) (q qseq : Nat) (c : Cmd), Begins s q qseq 0x0903 c → fieldOf (leAt c.body 0 4) 31 28 ∈ [1, 2, 3, 6, 7] →
      zeroAt c.body 4 4 = true →
      ∃ u, exec (.retire q qseq) s = .next (finish u c stOk) ∧ leAt c.body 0 4 ∈ u.snag.retires
        ∧ (∀ r ∈ (markBegun s q qseq).snag.retires, r ∈ u.snag.retires) ∧ u.snag.written = (markBegun s q qseq).snag.written + 1
        ∧ (∀ a, a ≠ rSngStatus → csrGet u a = csrGet (markBegun s q qseq) a) ∧ u.chip = (markBegun s q qseq).chip
        ∧ u.mem = (markBegun s q qseq).mem ∧ u.snag.counters = (markBegun s q qseq).snag.counters)
    ∧ (∀ s : State, s.snag.pending ≠ [] → s.snag.retryAt ≤ s.plumb → flashOpen s = true →
      (∃ u, exec (.snagFlashCommit true) s = .next u ∧ u.snag = { s.snag with pending := [], retryAt := 0 } ∧ csrField u rSngStatus 13 0 = 0
          ∧ { u with snag := s.snag, csr := s.csr, boot := s.boot } = s)
        ∧ ∃ u, exec (.snagFlashCommit false) s = .next u ∧ u.snag = { s.snag with retryAt := s.plumb + 10 ^ 9 }
          ∧ csrField u rSngStatus 31 31 = 1 ∧ { u with snag := s.snag, csr := s.csr } = s)
    ∧ (∀ (s : State) (ok : Bool), s.plumb < s.snag.retryAt → exec (.snagFlashCommit ok) s = .next s)

/-- The votes of the fault manager (R350, R351). A held pass is decided with two re-runs: where two of the three agree their
sums are added and the unit in the minority is counted — all three alike, the checker; the re-runs alike, the engine; the
held pass and one re-run alike, the engine of the other — and where no two agree nothing is added and the step is
replayed. A drained row that either read shows whole goes on, one that neither does orders a step
replay; a pass run again clean after a cell parity or operand-buffer error is added, one that is not condemns its unit; an
accumulator beyond correction orders a step replay; a Screed write is tried again. -/
def Obligations.VotesDecideArrayEvents : Prop :=
  ∀ (s : State) (eng lc : Nat) (c : Cmd) (h : PassHold), holdGet s eng = some h → stoppedOn s (eng / 4) = some (c, lc) →
    (∀ (a b : ReRun) (out : List Int → Nat → Nat → Bool → State), h.kind = 0 →
        (∀ x unit row perm t, t = resumeEngine (addHeld s eng h x) c lc eng h.tile (some (h.block * 2 ^ 20 + h.num + 1)) →
          out x unit row perm = holdClocks (syncRecovering (decideEvent t (arrayRec t c h unit 0x02 row eng) perm))) →
        (a = ⟨true, h.sums⟩ → b = ⟨true, h.sums⟩ →
            exec (.passMismatchDecision eng a b) s = .next (out h.sums (unitEngine eng 0x021) 1 true))
          ∧ (∀ x, x ≠ h.sums → a = ⟨true, x⟩ → b = ⟨true, x⟩ →
              exec (.passMismatchDecision eng a b) s = .next (out x (unitEngine eng 0x020) 2 false))
          ∧ (a = ⟨true, h.sums⟩ → b ≠ ⟨true, h.sums⟩ →
              exec (.passMismatchDecision eng a b) s = .next (out h.sums (unitEngine (engineB s lc eng) 0x020) 3 false))
          ∧ (a ≠ ⟨true, h.sums⟩ → b = ⟨true, h.sums⟩ →
              exec (.passMismatchDecision eng a b) s = .next (out h.sums (unitEngine eng 0x020) 4 false))
          ∧ (a ≠ ⟨true, h.sums⟩ → b ≠ ⟨true, h.sums⟩ → (a.passed = false ∨ b.passed = false ∨ a.sums ≠ b.sums) →
              ∀ t u, t = resumeEngine s c lc eng h.tile (some (h.block * 2 ^ 20 + h.num + 1)) →
              u = decideEvent t (arrayRec t c h (unitEngine eng 0x020) 0x02 5 eng) true →
              exec (.passMismatchDecision eng a b) s = .next (holdClocks (syncRecovering (orderReplay u (unitEngine eng 0x020) 0x02)))))
      ∧ (∀ again t u, h.kind = 1 → t = resumeEngine s c lc eng h.tile none →
          u = decideEvent t (arrayRec t c h (unitEngine eng h.tile) 0x03 0 eng) false →
          ((∃ x ∈ again.take 2, res255 (x.sums.foldl (· + ·) 0) = nthD (tileGet s eng h.tile).rowres h.vec 0) →
              exec (.arrayEventDecision eng again) s = .next (holdClocks (syncRecovering u)))
            ∧ ((∀ x ∈ again.take 2, res255 (x.sums.foldl (· + ·) 0) ≠ nthD (tileGet s eng h.tile).rowres h.vec 0) →
              exec (.arrayEventDecision eng again) s
                = .next (holdClocks (syncRecovering (orderReplay u (unitEngine eng h.tile) 0x03)))))
      ∧ (∀ r rest unit check, (h.kind = 2 ∧ unit = unitEngine eng 0x020 ∧ check = 0x01
            ∨ h.kind = 3 ∧ unit = unitEngine eng (0x010 + h.block % 2) ∧ check = 0x04) →
          (r.passed = true → ∀ t, t = resumeEngine (addHeld s eng h r.sums) c lc eng h.tile (some (h.block * 2 ^ 20 + h.num + 1)) →
            exec (.arrayEventDecision eng (r :: rest)) s
              = .next (holdClocks (syncRecovering (decideEvent t (arrayRec t c h unit check 0 eng) false))))
          ∧ (r.passed = false → ∀ t, t = resumeEngine s c lc eng h.tile (some (h.block * 2 ^ 20 + h.num)) →
            exec (.arrayEventDecision eng (r :: rest)) s
              = .next (holdClocks (syncRecovering (decideEvent t (arrayRec t c h unit check 0 eng) true)))))
      ∧ (∀ again t u, h.kind = 4 → t = coreUpd (resumeEngine s c lc eng h.tile none) c.op lc (fun k => { k with status := stFault }) →
          u = decideEvent t (arrayRec t c h (unitEngine eng h.tile) 0x04 0 eng) false →
          exec (.arrayEventDecision eng again) s
            = .next (holdClocks (syncRecovering (orderReplay u (unitEngine eng h.tile) 0x04))))
      ∧ (∀ r rest t, h.kind = 5 → t = resumeEngine s c lc eng h.tile none →
          exec (.arrayEventDecision eng (r :: rest)) s = .next (holdClocks (syncRecovering
            (decideEvent t (arrayRec t c h (unitCore (eng / 4) 0x103) 0x05 0 eng) (!r.passed)))))

/-- The Dust-sheet mirror and the state restored (R361–R363, R365–R367). MIRROR_CFG between steps sets EN,
N and the planes and nothing else. With every piece acknowledged the half's header goes out with STATE
complete. REPLAY from the device's own slots ends every open operation, discards pending slots, sets STEPS
to M and the queues' N to the body's, and leaves the device REPLAYING; REPLAY from the mirror and
TAKEOVER begin by fetching a half's header from the buddy. -/
def Obligations.MirrorAndReplay : Prop :=
  (∀ (s : State) (q qseq : Nat) (c : Cmd), Begins s q qseq 0x0906 c →
      (betweenSteps (markBegun s q qseq) = false → exec (.mirrorCfg q qseq) s = .next (finish (markBegun s q qseq) c stNotReady))
      ∧ (betweenSteps (markBegun s q qseq) = true → leAt c.body 0 1 ≤ 1 → leAt c.body 1 1 ≠ 0 → leAt c.body 2 1 ≤ 3 →
        zeroAt c.body 3 5 = true → axisSize (markBegun s q qseq) 2 ≠ 1 → mirrorFits (markBegun s q qseq) (leAt c.body 2 1) = true →
        ∃ u, exec (.mirrorCfg q qseq) s = .next (finish u c stOk) ∧ csrField u rSngMirror 31 31 = leAt c.body 0 1
          ∧ csrField u rSngMirror 30 29 = leAt c.body 2 1 ∧ csrField u rSngMirror 27 20 = leAt c.body 1 1
          ∧ csrField u rSngMirror 28 28 = csrField (markBegun s q qseq) rSngMirror 28 28
          ∧ csrField u rSngMirror 15 0 = csrField (markBegun s q qseq) rSngMirror 15 0
          ∧ (∀ a, a ≠ rSngMirror → csrGet u a = csrGet (markBegun s q qseq) a) ∧ { u with csr := (markBegun s q qseq).csr } = markBegun s q qseq))
    ∧ (∀ (s t : State) (buddy : Nat), buddyOf s = some buddy → s.snag.mirrorAcks = 1 → s.snag.push = [] →
      opOpen s (fun o => o == .mirror || o == .ledger) = false →
      shedLevel s < 2 → csrField s rSngMirror 28 28 = 1 →
      issueOp { s with snag := { s.snag with mirrorAcks := 2 } } .mirror 0 1 buddy 0x60 (bgClass s 0) (halfBase s s.snag.mirrorHalf)
        (sliceB s.snag.mirrorHdr 0 10 ++ [2] ++ sliceB s.snag.mirrorHdr 11 13 ++ leBytes 8 s.plumb) 0 = (t, none) →
      exec .mirrorComplete s = .next t)
    ∧ (∀ (s : State) (q qseq : Nat) (c : Cmd), Begins s q qseq 0x0904 c → zeroAt c.body 9 7 = true →
      (leAt c.body 8 1 = 1 → stepsOf (markBegun s q qseq) ≠ leAt c.body 0 8 →
          exec (.replay q qseq) s = .next (finish (markBegun s q qseq) c stNotReady))
      ∧ (leAt c.body 8 1 = 1 → stepsOf (markBegun s q qseq) = leAt c.body 0 8 →
          ∃ u, exec (.replay q qseq) s = .next (resetQueues (finish u c stOk) c.body)
            ∧ stepState u = sReplaying ∧ stepsOf u = leAt c.body 0 8 ∧ u.runs = [] ∧ u.held = [] ∧ u.coll.running = [] ∧ u.hawk = []
            ∧ (∀ t ∈ u.job.tensors, t.pending = false)
            ∧ (∀ k, k < 8 → (resetQueues (finish u c stOk) c.body).queues.length = 8 →
                (queueAt (resetQueues (finish u c stOk) c.body) k).n = leAt c.body (16 + 4 * k) 4
                ∧ (queueAt (resetQueues (finish u c stOk) c.body) k).slots = []
                ∧ (queueAt (resetQueues (finish u c stOk) c.body) k).history = []))
      ∧ (leAt c.body 8 1 = 2 → ∀ peer, buddyOf (markBegun s q qseq) = some peer → (markBegun s q qseq).job.mirror.len ≠ 0 →
          (markBegun s q qseq).snag.pull = none →
          ∃ u p, exec (.replay q qseq) s = .next (pullNext u p) ∧ p.cmd = c ∧ p.peer = peer
            ∧ p.pieces = [((markBegun s q qseq).job.mirror.base, 0, 32)]
            ∧ u.flights = (markBegun s q qseq).flights ++ [{ cmd := c, started := (markBegun s q qseq).plumb }]
            ∧ u.job = (markBegun s q qseq).job ∧ u.mem = (markBegun s q qseq).mem ∧ stepState u = stepState (markBegun s q qseq)))
    ∧ (∀ (s : State) (q qseq : Nat) (c : Cmd), Begins s q qseq 0x0905 c → leAt c.body 8 1 = 2 → zeroAt c.body 9 1 = true →
      leAt c.body 10 2 < 4096 → leAt c.body 12 2 < 4096 → zeroAt c.body 14 2 = true → placed? (markBegun s q qseq) = true →
      stepsOf (markBegun s q qseq) = leAt c.body 0 8 → (markBegun s q qseq).job.mirror.len ≠ 0 → (markBegun s q qseq).snag.pull = none →
      ∃ u p, exec (.takeover q qseq) s = .next (pullNext u p) ∧ p.cmd = c ∧ p.peer = leAt c.body 12 2
        ∧ p.pieces = [((markBegun s q qseq).job.mirror.base, 0, 32)]
        ∧ u.flights = (markBegun s q qseq).flights ++ [{ cmd := c, started := (markBegun s q qseq).plumb }]
        ∧ u.job = (markBegun s q qseq).job ∧ u.mem = (markBegun s q qseq).mem)

/-- Shed levels (R374–R376, R379). A sample enters the deepest level that it and the one before both lie
beyond, from S3 on with the SHED request on every die's clock; a droop enters S3 with S1 and S2 waiting for the
plumb-aligned point; 1 ms below the return limit leaves one level, S1 and S2 at that point. S5 ends
every run, and after its quiesce READY falls, FAULT_N is asserted, every port is down, and no lane of a port that
was up stays locked. -/
def Obligations.ShedLevelsEnterAndReturn : Prop :=
  (∀ (s : State) (mv both : Nat), watched s = true → sagSetpoint s ≠ 0 → both = min (sagLevel s mv) s.power.lastSag.toNat →
      (both ≤ levelOfPower s → ∃ u, exec (.sagSample mv) s = .next u ∧ levelOfPower u = levelOfPower s
        ∧ u.power.lastSag = sagLevel s mv ∧ csrField u rPwrVolt 15 0 = mv % 65536 ∧ u.mem = s.mem ∧ u.queues = s.queues)
      ∧ (levelOfPower s < both → both ≤ 4 → ∃ u, exec (.sagSample mv) s = .next u ∧ levelOfPower u = both
        ∧ u.power.lastSag = sagLevel s mv
        ∧ (3 ≤ both → (∀ d, d < 4 → csrField u (rClkArray + 4 * d) 31 31 = 1) ∧ u.power.pendEnter = s.power.pendEnter)
        ∧ (both ≤ 2 → u.power.pendEnter = s.power.pendEnter ++ (List.range (both + 1)).filter (fun k => decide (levelOfPower s < k)))
        ∧ u.mem = s.mem ∧ u.queues = s.queues)
      ∧ (levelOfPower s < 5 → both = 5 → ∃ v, exec (.sagSample mv) s = .next (noteHold (enterS5 v (unitPackage 0) 1 0 mv))
        ∧ levelOfPower v = 4))
    ∧ (∀ (s : State) (unit cause sensor : Nat) (reading : Int), levelOfPower s < 5 →
      levelOfPower (enterS5 s unit cause sensor reading) = 5 ∧ (enterS5 s unit cause sensor reading).runs = []
        ∧ (enterS5 s unit cause sensor reading).held = [] ∧ (enterS5 s unit cause sensor reading).power.s5At = some s.plumb
        ∧ (enterS5 s unit cause sensor reading).power.s5Cause = cause)
    ∧ (∀ s : State, watched s = true → (levelOfPower s < 3 → ∃ u, exec .droopN s = .next u ∧ levelOfPower u = 3
        ∧ csrField u rPwrStatus 28 28 = 1 ∧ u.power.droopN = false ∧ (∀ d, d < 4 → csrField u (rClkArray + 4 * d) 31 31 = 1)
        ∧ u.power.pendEnter = s.power.pendEnter ++ (List.range 3).filter (fun k => decide (levelOfPower s < k))
        ∧ u.mem = s.mem ∧ u.queues = s.queues)
      ∧ ∀ die, die ≤ 4 → levelOfPower s < 3 → ∃ u, exec (.droopComparator die) s = .next u ∧ levelOfPower u = 3
        ∧ (∀ d, d < 4 → csrField u (rClkArray + 4 * d) 31 31 = 1)
        ∧ u.power.pendEnter = s.power.pendEnter ++ (List.range 3).filter (fun k => decide (levelOfPower s < k)) ∧ u.mem = s.mem)
    ∧ (∀ s : State, ∃ u, exec .droopNDeasserted s = .next u ∧ u.power.droopN = true ∧ csrField u rPwrStatus 28 28 = 0
        ∧ levelOfPower u = levelOfPower s ∧ u.mem = s.mem ∧ u.queues = s.queues)
    ∧ (∀ (s : State) (h : Nat), s.power.holdAt = some h → s.power.pendLeave = none →
      (s.plumb < h + 10 ^ 6 → exec .shedReturn s = .next s)
      ∧ (h + 10 ^ 6 ≤ s.plumb → (levelOfPower s = 4 → exec .shedReturn s = .next (leaveLevel s 4))
        ∧ (levelOfPower s = 3 → ∃ u, exec .shedReturn s = .next u ∧ levelOfPower u = 2
            ∧ (∀ d, d < 4 → csrField u (rClkArray + 4 * d) 31 31 = 0) ∧ u.mem = s.mem ∧ u.queues = s.queues)
        ∧ (∀ n, n = 1 ∨ n = 2 → levelOfPower s = n → exec .shedReturn s
            = .next { s with power := { s.power with pendLeave := some n, pendSince := s.plumb } })))
    ∧ (∀ s : State, (s.plumb % 4096 ≠ 0 → exec .plumbAlignedPoint s = .next s)
      ∧ (s.plumb % 4096 = 0 → (s.power.pendLeave = none → exec .plumbAlignedPoint s = .next { s with power := { s.power with pendEnter := [] } })
        ∧ (s.power.pendLeave = some 1 → ∃ u, exec .plumbAlignedPoint s = .next u ∧ levelOfPower u = 0 ∧ u.power.pendEnter = []
            ∧ u.power.pendLeave = none ∧ u.mem = s.mem ∧ u.queues = s.queues)))
    ∧ (∀ (s : State) (t : Nat), s.power.s5At = some t → (s.plumb < t + 200000 → exec .s5QuiesceEnd s = .next s)
      ∧ (t + 200000 ≤ s.plumb → ∃ u, exec .s5QuiesceEnd s = .next u ∧ u.boot.ready = false ∧ u.boot.faultN = false
        ∧ u.net.ops = [] ∧ u.power.s5At = none ∧ (∀ p, p < 7 → csrField u (rScrPortStatus + 0x10 * p) 31 31 = 0
            ∧ (csrField s (rScrPortStatus + 0x10 * p) 31 31 = 1 → csrField u (rScrPortStatus + 0x10 * p) 27 24 = 0))))

/-- Rails, the regulator, the setpoint and the cap (R370, R371, R373, R416). A fixed rail outside ±5 % is
recorded, and enters S5 below −10 % for 1 µs; a reading goes into PWR_REG, the third failed poll in a row
sets REG_LOST; AVS by firmware moves the setpoint towards firmware's choice by at most 5 mV once in 1 ms; an
average above the cap asks every die for the next step down, and 10 ms below 95 % of it releases them; POWER_CFG
sets mode, setpoint and cap. -/
def Obligations.RailsRegulatorAndCap : Prop :=
  (∀ (s : State) (rail n mv : Nat) (below : Bool), watched s = true →
      (rail, n) ∈ [(1, 1050), (2, 750), (3, 1800), (4, 750), (5, 1200), (6, 500), (7, 900), (8, 1800)] →
      (95 * n ≤ 100 * mv → 100 * mv ≤ 105 * n → exec (.railOutOfWindow rail mv below) s = .next s)
      ∧ (100 * mv < 95 * n ∨ 105 * n < 100 * mv → ∃ u, u.snag.written = s.snag.written + 1 ∧ levelOfPower u = levelOfPower s
        ∧ u.mem = s.mem ∧ u.queues = s.queues
        ∧ (below = true → 100 * mv < 90 * n → exec (.railOutOfWindow rail mv below) s = .next (enterS5 u (unitPackage 0) 7 rail mv))
        ∧ (below = false ∨ 90 * n ≤ 100 * mv → exec (.railOutOfWindow rail mv below) s = .next u)))
    ∧ (∀ s : State, watched s = true →
      (∀ r : RegPoll, ∃ u, exec (.regulatorPoll (some r)) s = .next u ∧ csrField u rPwrReg 15 0 = r.vout % 65536
        ∧ csrField u rPwrReg 31 16 = r.iout % 65536 ∧ csrField u rPwrStatus 27 27 = 0 ∧ u.power = { s.power with polls := 0, temp := r.temp, status := r.status % 65536 }
        ∧ (∀ a, a ≠ rPwrReg → a ≠ rPwrStatus → csrGet u a = csrGet s a) ∧ u.mem = s.mem)
      ∧ (s.power.polls ≠ 2 → exec (.regulatorPoll none) s = .next { s with power := { s.power with polls := s.power.polls + 1 } })
      ∧ (s.power.polls = 2 → ∃ u, exec (.regulatorPoll none) s = .next u ∧ csrField u rPwrStatus 27 27 = 1
        ∧ u.snag.written = s.snag.written + 1 ∧ u.power = { s.power with polls := 3 } ∧ u.mem = s.mem))
    ∧ (∀ (s : State) (want : Nat), released s = true → csrField s rPwrStatus 26 26 = 0 → levelOfPower s = 0 →
      csrField s rPwrStatus 27 27 = 0 → thermalStep s = false → 600 ≤ want → want ≤ 850 → want % 5 = 0 → want ≠ setpoint s →
      (s.power.movedAt + 10 ^ 6 ≤ s.plumb → ∃ u, exec (.avsSetpointMove want) s = .next u
        ∧ setpoint u = (if want < setpoint s then max want (setpoint s - 5) else min want (setpoint s + 5))
        ∧ u.power = { s.power with oldSetpoint := setpoint s, movedAt := s.plumb } ∧ { u with csr := s.csr, power := s.power } = s)
      ∧ (s.power.movedAt ≠ 0 → s.plumb < s.power.movedAt + 10 ^ 6 → exec (.avsSetpointMove want) s = .next s))
    ∧ (∀ (s : State) (watts : Nat), released s = true → csrField s rPwrPkg 31 16 ≠ 0 →
      (csrField s rPwrPkg 31 16 < watts → csrField s rClkArray 28 28 = 0 → ∃ u, exec (.powerCap watts) s = .next u
        ∧ csrField u rPwrPkg 15 0 = watts % 65536 ∧ (∀ d, d < 4 → csrField u (rClkArray + 4 * d) 28 28 = 1)
        ∧ u.power.capBelow = none ∧ u.snag.written = s.snag.written + 1 ∧ u.mem = s.mem)
      ∧ (100 * watts < 95 * csrField s rPwrPkg 31 16 → s.power.capBelow = none → ∃ u, exec (.powerCap watts) s = .next u
        ∧ u.power = { s.power with capBelow := some s.plumb } ∧ csrField u rPwrPkg 15 0 = watts % 65536
        ∧ { u with csr := s.csr, power := s.power } = s)
      ∧ (∀ t, 100 * watts < 95 * csrField s rPwrPkg 31 16 → s.power.capBelow = some t → t + 10 ^ 7 ≤ s.plumb →
        csrField s rClkArray 28 28 = 1 → ∃ u, exec (.powerCap watts) s = .next u
          ∧ (∀ d, d < 4 → csrField u (rClkArray + 4 * d) 28 28 = 0) ∧ u.snag.written = s.snag.written + 1 ∧ u.mem = s.mem))
    ∧ (∀ (s : State) (q qseq : Nat) (c : Cmd), Begins s q qseq 0x0B04 c → betweenSteps (markBegun s q qseq) = true →
      zeroAt c.body 1 1 = true → zeroAt c.body 6 10 = true → leAt c.body 4 2 = 0 ∨ (800 ≤ leAt c.body 4 2 ∧ leAt c.body 4 2 ≤ 1900) →
      (leAt c.body 0 1 = 1 → ∃ u, exec (.powerCfg q qseq) s = .next (finish u c stOk) ∧ csrField u rPwrStatus 26 26 = 0
        ∧ setpoint u = setpoint (markBegun s q qseq) ∧ csrField u rPwrPkg 31 16 = leAt c.body 4 2 ∧ u.mem = (markBegun s q qseq).mem)
      ∧ (leAt c.body 0 1 = 2 → 600 ≤ leAt c.body 2 2 → leAt c.body 2 2 ≤ 850 → leAt c.body 2 2 % 5 = 0 →
        ∃ u, exec (.powerCfg q qseq) s = .next (finish u c stOk) ∧ csrField u rPwrStatus 26 26 = 1
        ∧ (csrField (markBegun s q qseq) rPwrStatus 27 27 = 0 → setpoint u = leAt c.body 2 2)
        ∧ csrField u rPwrPkg 31 16 = leAt c.body 4 2 ∧ u.mem = (markBegun s q qseq).mem))

/-- Clocks and gates (R383–R386). CLOCK_SELECT changes the one domain's source, refuses a source that is not
there and, with a job open, everything. GATE turns off a node whose children are off and on one whose parent is on,
and a gated port is down. CLKOUT_CFG sets the output to a source whose divided clock is not above its limit, or holds
the pair with P low and N high (R421). Loss of the oscillator clears OSC_OK and enters S5. -/
def Obligations.ClocksAndGates : Prop :=
  (∀ (s : State) (q qseq : Nat) (c : Cmd), Begins s q qseq 0x0B01 c → leAt c.body 0 1 ≤ 6 → leAt c.body 1 1 ≤ 1 → zeroAt c.body 2 6 = true →
      (jobOpen? (markBegun s q qseq) = true → exec (.clockSelect q qseq) s = .next (finish (markBegun s q qseq) c stNotReady))
      ∧ (∀ there, there = (if leAt c.body 1 1 = 1 then bitOf (csrGet (markBegun s q qseq) rClkStatus) (leAt c.body 0 1)
            else oscOk (markBegun s q qseq)) → jobOpen? (markBegun s q qseq) = false →
        (there = false → exec (.clockSelect q qseq) s = .next (finish (markBegun s q qseq) c stSourceNotReady))
        ∧ (there = true → ∃ u, exec (.clockSelect q qseq) s = .next (finish u c stOk)
          ∧ csrField u rClkSel (leAt c.body 0 1) (leAt c.body 0 1) = leAt c.body 1 1
          ∧ (∀ k, k ≠ leAt c.body 0 1 → bitOf (csrGet u rClkSel) k = bitOf (csrGet (markBegun s q qseq) rClkSel) k)
          ∧ (∀ a, a ≠ rClkSel → csrGet u a = csrGet (markBegun s q qseq) a) ∧ { u with csr := (markBegun s q qseq).csr } = markBegun s q qseq)))
    ∧ (∀ (s : State) (q qseq : Nat) (c : Cmd), Begins s q qseq 0x0B01 c → jobOpen? (markBegun s q qseq) = false →
      (6 < leAt c.body 0 1 ∨ 1 < leAt c.body 1 1 ∨ zeroAt c.body 2 6 = false) →
      exec (.clockSelect q qseq) s = .next (finish (markBegun s q qseq) c stBadParam))
    ∧ (∀ (s : State) (q qseq : Nat) (c : Cmd) (up : Option Nat), Begins s q qseq 0x0B02 c →
      gateParent (markBegun s q qseq) (leAt c.body 0 4) = some up →
      (leAt c.body 4 1 = 0 → (∃ k ∈ gateChildren (markBegun s q qseq) (leAt c.body 0 4), k ∉ (markBegun s q qseq).power.gatesOff) →
          exec (.gate q qseq) s = .next (finish (markBegun s q qseq) c stChildActive))
      ∧ (∀ p, leAt c.body 4 1 = 1 → up = some p → p ∈ (markBegun s q qseq).power.gatesOff →
          exec (.gate q qseq) s = .next (finish (markBegun s q qseq) c stNotReady))
      ∧ (leAt c.body 4 1 = 0 → (∀ k ∈ gateChildren (markBegun s q qseq) (leAt c.body 0 4), k ∈ (markBegun s q qseq).power.gatesOff) →
          jobOpen? (markBegun s q qseq) = false → zeroAt c.body 5 3 = true →
          ∃ u, exec (.gate q qseq) s = .next (finish u c stOk)
            ∧ (∀ x, x ∈ u.power.gatesOff ↔ x = leAt c.body 0 4 ∨ x ∈ (markBegun s q qseq).power.gatesOff)
            ∧ (fieldOf (leAt c.body 0 4) 31 28 = 7 → csrField u (rScrPortStatus + 0x10 * fieldOf (leAt c.body 0 4) 3 0) 31 31 = 0)
            ∧ (fieldOf (leAt c.body 0 4) 31 28 ≠ 7 → u.csr = (markBegun s q qseq).csr) ∧ u.mem = (markBegun s q qseq).mem)
      ∧ (leAt c.body 4 1 = 1 → (∀ p, up = some p → p ∉ (markBegun s q qseq).power.gatesOff) →
          jobOpen? (markBegun s q qseq) = false → zeroAt c.body 5 3 = true →
          ∃ u, exec (.gate q qseq) s = .next (finish u c stOk)
            ∧ (∀ x, x ∈ u.power.gatesOff ↔ x ≠ leAt c.body 0 4 ∧ x ∈ (markBegun s q qseq).power.gatesOff)
            ∧ u.csr = (markBegun s q qseq).csr ∧ u.mem = (markBegun s q qseq).mem))
    ∧ (∀ (s : State) (q qseq : Nat) (c : Cmd), Begins s q qseq 0x0B03 c → leAt c.body 0 1 ≤ 1 → leAt c.body 1 1 ≤ 9 → zeroAt c.body 4 4 = true →
      domainFreq (markBegun s q qseq) (leAt c.body 1 1) ≤ 3200 * (leAt c.body 2 2 + 1) →
      (leAt c.body 0 1 = 1 → domainOk (markBegun s q qseq) (leAt c.body 1 1) = false →
          exec (.clkoutCfg q qseq) s = .next (finish (markBegun s q qseq) c stSourceNotReady))
      ∧ (leAt c.body 0 1 = 0 ∨ domainOk (markBegun s q qseq) (leAt c.body 1 1) = true →
          ∃ u, exec (.clkoutCfg q qseq) s = .next (finish u c stOk) ∧ csrField u rClkOut 31 31 = leAt c.body 0 1
            ∧ csrField u rClkOut 19 16 = leAt c.body 1 1 ∧ csrField u rClkOut 15 0 = leAt c.body 2 2
            ∧ u.power.clkPair = (if leAt c.body 0 1 = 1 then .running (leAt c.body 1 1) (leAt c.body 2 2 + 1) else .held false true)
            ∧ (∀ a, a ≠ rClkOut → csrGet u a = csrGet (markBegun s q qseq) a)
            ∧ { u with csr := (markBegun s q qseq).csr
                       power := { u.power with clkPair := (markBegun s q qseq).power.clkPair } } = markBegun s q qseq))
    ∧ (∀ s : State, watched s = true → ∃ v, exec .oscLoss s = .next (enterS5 v (unitPackage 0) 9 0 0) ∧ csrField v rClkStatus 31 31 = 0
        ∧ (∀ a, a ≠ rClkStatus → csrGet v a = csrGet s a) ∧ { v with csr := s.csr } = s)

/-- Heat (R213, R387, R388). A sample puts each die's reading into THM_DIE, steps a die at 100 °C down, and sets
and clears a stack's HOT with its hysteresis; a die at 110 °C enters S5 with cause 4. A die still at 100 °C 10 ms after its step goes to
the second; one below 95 °C for 10 ms comes one step back. Memory stands as it stood where no telemetry record and no
piece of the mirror waits. -/
def Obligations.HeatStepsClocks : Prop :=
  (∀ (s : State) (t : TempSample), watched s = true → (∀ k, k < 5 → nthD t.dieT k 0 < 1760) →
      ∃ u, exec (.thermalSample t) s = .next u ∧ levelOfPower u = levelOfPower s
        ∧ (s.mem.bgHeld = [] → s.snag.push = [] → u.mem = s.mem ∧ u.queues = s.queues)
        ∧ (∀ k, k < 5 → csrField u (rThmDie + 4 * k) 15 0 = wrapInt 16 (nthD t.dieT k 0)
          ∧ (1600 ≤ nthD t.dieT k 0 → nthD s.power.dieStep k 0 = 0 → csrField u (rThmDie + 4 * k) 31 31 = 1 ∧ csrField u (rThmDie + 4 * k) 30 29 = 1)
          ∧ (nthD t.dieT k 0 < 1600 → csrField u (rThmDie + 4 * k) 31 29 = csrField s (rThmDie + 4 * k) 31 29))
        ∧ (∀ k, k < 8 → csrField u (rMemTherm + 0x10000 * k) 15 0 = wrapInt 16 (nthD t.stackT k 0)
          ∧ (1440 ≤ nthD t.stackT k 0 → csrField u (rMemTherm + 0x10000 * k) 31 31 = 1)
          ∧ (nthD t.stackT k 0 < 1360 → csrField u (rMemTherm + 0x10000 * k) 31 31 = 0)
          ∧ (1360 ≤ nthD t.stackT k 0 → nthD t.stackT k 0 < 1440 →
              csrField u (rMemTherm + 0x10000 * k) 31 31 = csrField s (rMemTherm + 0x10000 * k) 31 31)))
    ∧ (∀ (s : State) (t : TempSample) (k : Nat), watched s = true → levelOfPower s < 5 → k < 5 → 1760 ≤ nthD t.dieT k 0 →
      ∃ u, exec (.thermalSample t) s = .next u ∧ levelOfPower u = 5 ∧ u.power.s5Cause = 4 ∧ u.power.s5At = some s.plumb ∧ u.runs = [])
    ∧ (∀ (s : State) (die : Nat), die < 4 → watched s = true → nthD s.power.dieStep die 0 = 1 → 1600 ≤ dieTemp s die →
      (s.plumb < nthD s.power.dieStepAt die 0 + 10 ^ 7 → exec (.thermalStepDown die) s = .next s)
      ∧ (nthD s.power.dieStepAt die 0 + 10 ^ 7 ≤ s.plumb → ∃ u, exec (.thermalStepDown die) s = .next u
        ∧ csrField u (rThmDie + 4 * die) 30 29 = 2 ∧ csrField u (rClkArray + 4 * die) 1 0 = 2 ∧ csrField u (rClkArray + 4 * die) 30 30 = 1
        ∧ u.snag.written = s.snag.written + 1 ∧ u.mem = s.mem ∧ u.queues = s.queues))
    ∧ (∀ (s : State) (die t : Nat), die < 5 → nthD s.power.dieCoolAt die none = some t → 1 ≤ nthD s.power.dieStep die 0 →
      nthD s.power.dieStep die 0 ≤ 2 →
      (s.plumb < t + 10 ^ 7 → exec (.thermalStepUp die) s = .next s)
      ∧ (t + 10 ^ 7 ≤ s.plumb → ∃ u, exec (.thermalStepUp die) s = .next u
        ∧ csrField u (rThmDie + 4 * die) 30 29 = nthD s.power.dieStep die 0 - 1
        ∧ csrField u (rThmDie + 4 * die) 31 31 = nthD s.power.dieStep die 0 - 1
        ∧ u.snag.written = s.snag.written + 1 ∧ u.mem = s.mem ∧ u.queues = s.queues))

/-- Start-up (R391, R392, R395, R397, R399–R401, R406, R417). Power good begins it with the count at 0 and the
device in reset; a fall of a pin puts the device back. Fuse load sets grade, maps and identity and, with every
rail in its window, leads to phase 3, else waits for one; the preferred slot boots if it verifies, else the
other if VALID and verified, else the safe state with cause 1 is entered, with cause 5 without a boot record
(the model's reading, log entry 50) and with cause 3 past a limit. Release asserts READY in phase 8, IDLE, with memory and queues empty. -/
def Obligations.StartUpPhases : Prop :=
  (∀ s : State, ((s.boot.pwrgd && s.boot.resetN) = true → exec .powerGood s = .next s)
      ∧ ((s.boot.pwrgd && s.boot.resetN) = false → ∃ u, exec .powerGood s = .next u ∧ u.plumb = 0 ∧ u.boot.pwrgd = true ∧ u.boot.resetN = true
        ∧ u.boot.ready = false ∧ u.csr = State.reset.csr ∧ u.mem = State.reset.mem ∧ u.boot.flash = s.boot.flash ∧ u.boot.fuses = s.boot.fuses)
      ∧ ∀ pin, ∃ u, exec (.reset pin) s = .next u ∧ (u.boot.pwrgd && u.boot.resetN) = false ∧ u.boot.ready = false ∧ u.csr = State.reset.csr
        ∧ u.queues = State.reset.queues ∧ u.mem = State.reset.mem ∧ u.boot.flash = s.boot.flash ∧ u.boot.fuses = s.boot.fuses)
    ∧ (∀ s : State, starting s = true → bootPhase s = 1 →
      (s.boot.loaded = false → pastLimit s = false → ∀ ok, ∃ u, exec (.fuseLoadEnd ok) s = .next u ∧ u.boot.loaded = true ∧ u.boot.identity = true
        ∧ csrField u rHubGrade 15 8 = fuseBits s 3131 3124 ∧ csrField u rHubGrade 3 0 = fuseBits s 3135 3132
        ∧ (∀ d, d < 4 → csrGet u (rHubClusterMap + 4 * d) = fuseMap s d) ∧ csrField u rSecStage 7 0 = minSvn s
        ∧ (∀ i, i < 8 → csrGet u (rSecIdFp + 4 * i) = leAt (sha3_256 (identityKey s)) (4 * i) 4)
        ∧ bootPhase u = (if ok then 3 else 1) ∧ u.mem = s.mem)
      ∧ (s.boot.loaded = false → pastLimit s = true → ∀ ok, exec (.fuseLoadEnd ok) s = .next (toSafe s 3))
      ∧ (∀ rail, s.boot.railWait ≠ [] → 1 ≤ rail → rail ≤ 8 → pastLimit s = false → ∃ u, exec (.fixedRailInWindow rail) s = .next u
        ∧ bootPhase u = 3 ∧ u.boot.railWait = [] ∧ u.mem = s.mem))
    ∧ (∀ s : State, starting s = true → bootPhase s = 3 → pastLimit s = false →
      (bootRecord s = none → exec .imageVerified s = .next (toSafe s 5))
      ∧ ∀ k r t, bootRecord s = some (k, r) → t = setResult s r.pref (verifySlot s r.pref) →
        (verifySlot s r.pref = 1 → exec .imageVerified s = .next (bootSlot t r.pref false))
        ∧ (verifySlot s r.pref ≠ 1 → bitOf r.valid (1 - r.pref) = false → exec .imageVerified s = .next (toSafe t 1))
        ∧ (verifySlot s r.pref ≠ 1 → bitOf r.valid (1 - r.pref) = true → verifySlot s (1 - r.pref) = 1 →
            exec .imageVerified s = .next (bootSlot (setResult t (1 - r.pref) 1) (1 - r.pref) true))
        ∧ (verifySlot s r.pref ≠ 1 → bitOf r.valid (1 - r.pref) = true → verifySlot s (1 - r.pref) ≠ 1 →
            exec .imageVerified s = .next (toSafe (setResult t (1 - r.pref) (verifySlot s (1 - r.pref))) 1)))
    ∧ (∀ s : State, (starting s = true → pastLimit s = true → exec .phaseLimit s = .next (toSafe s 3))
      ∧ (starting s = false ∨ pastLimit s = false → exec .phaseLimit s = .next s))
    ∧ (∀ (s : State) (cause : Nat), cause < 16 → inSafe (toSafe s cause) = true ∧ csrField (toSafe s cause) rBootStatus 27 24 = cause
        ∧ (toSafe s cause).boot.ready = false ∧ (toSafe s cause).boot.faultN = false ∧ (toSafe s cause).mem = State.reset.mem
        ∧ (toSafe s cause).queues = State.reset.queues ∧ (toSafe s cause).snag.written = s.snag.written + 1)
    ∧ (∀ (s : State) (r : BootReport), starting s = true → bootPhase s = 6 → s.plumb < s.boot.startAt + 45 * 10 ^ 9 →
      r.badCores = [] → r.badUnits = [] → csrField s rSngStatus 30 30 = 0 →
      (r.trained % 256 = 255 → ∃ u, exec (.release r) s = .next u ∧ u.boot.ready = true ∧ bootPhase u = 8 ∧ stepState u = sIdle
        ∧ u.mem = mem0 ∧ u.queues = List.replicate 8 queue0 ∧ (∀ c, c < 8 → csrField u (rCapStatus + 0x20 * c) 30 30 = 1))
      ∧ (r.trained % 256 ≠ 255 → ∃ v, exec (.release r) s = .next (toSafe v 4) ∧ v.snag = s.snag ∧ v.plumb = s.plumb))

/-- Attestation, identity and staging (R403, R407, R408). ATTEST writes a signed report of 5,139 bytes that carries
the nonce; IDENTITY_READ the public key, a length and the certificate. IMAGE_STAGE: BEGIN erases the slot that
did not boot and opens staging; DATA programs its bytes at its offset; FINISH makes the slot preferred and valid only
where it verifies; ABORT closes staging; without an open staging the last three are refused. Signatures and the
certificate are uninterpreted functions (log entry 9). -/
def Obligations.AttestationAndStaging : Prop :=
  ∀ (s : State) (q qseq : Nat) (c : Cmd) (b : State), b = markBegun s q qseq → inSafe b = false →
    (∀ d, Begins s q qseq 0x0C01 c → addrField c.body 32 = some d → d % 64 = 0 → rangeOk b d 5139 = true → CleanMem b →
        ∃ u, exec (.attest q qseq) s = .next (complete u c stOk 0 (leBytes 4 5139))
          ∧ memBytes u d 5139 = attestation b (sliceB c.body 0 32) ∧ memBytes u (d + 32) 32 = sliceB c.body 0 32
          ∧ (∀ a, a < d ∨ d + 5139 ≤ a → memByte u a = memByte b a) ∧ u.boot = b.boot)
      ∧ (∀ d n, Begins s q qseq 0x0C02 c → addrField c.body 0 = some d → n = ((Config.kilulareCert (identityKey b)).take 8192).length →
        rangeOk b d (2596 + n) = true → CleanMem b →
        ∃ u, exec (.identityRead q qseq) s = .next (complete u c stOk 0 (leBytes 4 (2596 + n)))
          ∧ memBytes u d 2592 = identityKey b ∧ memBytes u (d + 2592) 4 = leBytes 4 n
          ∧ memBytes u (d + 2596) n = (Config.kilulareCert (identityKey b)).take 8192
          ∧ (∀ a, a < d ∨ d + 2596 + n ≤ a → memByte u a = memByte b a))
      ∧ (Begins s q qseq 0x0C03 c →
        (stageOp c = 1 → b.boot.staging = true → exec (.imageStageBegin q qseq) s = .next (finish b c stNotReady))
        ∧ (stageOp c = 1 → b.boot.staging = false → stageClean b c = true →
            ∃ u, exec (.imageStageBegin q qseq) s = .next (finish u c stOk) ∧ u.boot.staging = true ∧ u.boot.staged = []
              ∧ csrField u rSecStage 31 30 = 2 ∧ csrField u rSecStage 29 29 = stageTarget b
              ∧ (∀ a, slotBase (stageTarget b) ≤ a → a < slotBase (stageTarget b) + slotSize → stGet 0xFF u.boot.flash a = 0xFF) ∧ u.mem = b.mem)
        ∧ (∀ op, (op = 2 → stageOp c = 2 → b.boot.staging = false → exec (.imageStageData q qseq) s = .next (finish b c stNotReady))
            ∧ (op = 3 → stageOp c = 3 → b.boot.staging = false → exec (.imageStageFinish q qseq) s = .next (finish b c stNotReady))
            ∧ (op = 4 → stageOp c = 4 → b.boot.staging = false → exec (.imageStageAbort q qseq) s = .next (finish b c stNotReady)))
        ∧ (∀ off len src, stageOp c = 2 → off = leAt c.body 4 4 → len = leAt c.body 8 4 → src = leAt c.body 16 8 → b.boot.staging = true →
            stageClean b c = true → off % 256 = 0 → len % 256 = 0 → 256 ≤ len → len ≤ 65536 → off + len ≤ slotSize →
            stageOverlaps b off len = false → rangeOk b src len = true → CleanMem b →
            ∃ u, exec (.imageStageData q qseq) s = .next (finish u c stOk) ∧ u.boot.staged = (off, len) :: b.boot.staged
              ∧ (∀ i, i < len → stGet 0xFF u.boot.flash (slotBase (stageTarget b) + off + i) = memByte b (src + i))
              ∧ (∀ a, a < slotBase (stageTarget b) + off ∨ slotBase (stageTarget b) + off + len ≤ a →
                  stGet 0xFF u.boot.flash a = stGet 0xFF b.boot.flash a) ∧ u.mem = b.mem ∧ u.boot.staging = true)
        ∧ (stageOp c = 3 → b.boot.staging = true → stageClean b c = true →
            ∃ u, u.boot.staging = false ∧ csrField u rSecStage 31 30 = 0 ∧ u.boot.flash = b.boot.flash ∧ u.mem = b.mem
              ∧ (verifySlot b (stageTarget b) = 1 → leAt c.body 1 1 = 0 → exec (.imageStageFinish q qseq) s
                  = .next (finish (writeBootRec u (stageTarget b) ((bootRecOf b).2.valid ||| 2 ^ stageTarget b)) c stOk))
              ∧ (verifySlot b (stageTarget b) ≠ 1 → exec (.imageStageFinish q qseq) s = .next (finish u c stAuthFail)))
        ∧ (stageOp c = 4 → b.boot.staging = true → stageClean b c = true →
            ∃ u, exec (.imageStageAbort q qseq) s = .next (finish u c stOk) ∧ u.boot.staging = false ∧ u.boot.staged = []
              ∧ csrField u rSecStage 31 30 = 0 ∧ u.boot.flash = b.boot.flash ∧ u.mem = b.mem))

/-- SMBus, TAP and lockstep (R344, R423, R424). SMBus answers its seven command codes with the value of the moment
once phase 2 has ended, and in the safe state, NACKs every other code and every write. A TAP instruction of boundary scan acts as
BYPASS while RESET_N is high and not while it is low (the instructions' codes are the model's, log entry 51). A divergence of the management processor stops the hub: READY
falls, FAULT_N is asserted, and the event is recorded. -/
def Obligations.SmbusTapAndLockstep : Prop :=
  (∀ (s : State) (code : Nat), ∃ u, exec (.smbusRead code) s = .next u
      ∧ { u with boot := { u.boot with smbus := s.boot.smbus, smbusNack := s.boot.smbusNack } } = s
      ∧ (smbusOn s = false ∨ 6 < code → u.boot.smbus = none ∧ u.boot.smbusNack = true)
      ∧ (smbusOn s = true → code ≤ 6 → u.boot.smbusNack = false)
      ∧ (smbusOn s = true → code = 0 → u.boot.smbus = some (leBytes 4 (csrValue s rBootStatus)))
      ∧ (smbusOn s = true → code = 1 → u.boot.smbus = some (leBytes 4 (csrValue s rPwrStatus)))
      ∧ (smbusOn s = true → code = 2 → u.boot.smbus = some (leBytes 4 (csrValue s rPwrPkg)))
      ∧ (smbusOn s = true → code = 3 → ∃ b, u.boot.smbus = some b ∧ b.length = 10
          ∧ ∀ d, d < 5 → leAt b (2 * d) 2 = csrField s (rThmDie + 4 * d) 15 0)
      ∧ (smbusOn s = true → code = 4 → ∃ b, u.boot.smbus = some b ∧ b.length = 16
          ∧ ∀ k, k < 8 → leAt b (2 * k) 2 = csrField s (rMemTherm + 0x10000 * k) 15 0)
      ∧ (smbusOn s = true → code = 5 → u.boot.smbus = some (sliceB (summaryBytes s.snag) 16 8))
      ∧ (smbusOn s = true → code = 6 → u.boot.smbus = some (if s.boot.loaded then stGetMany 0 s.boot.fuses 392 8 else List.replicate 8 0)))
    ∧ (∀ (s : State) (code : Nat) (data : List Byte), exec (.smbusWrite code data) s
        = .next { s with boot := { s.boot with smbus := none, smbusNack := true } })
    ∧ (∀ (s : State) (ir : Nat), ∃ v, exec (.tapInstruction ir) s = .next { s with boot := { s.boot with tapIr := ir, tapBypass := v } }
      ∧ (ir < 3 → v = s.boot.resetN) ∧ (ir = 3 → v = true))
    ∧ (∀ (s : State) (pc : Nat), (released s = false → exec (.lockstepDivergence pc) s = .next s)
      ∧ (released s = true → ∃ u, exec (.lockstepDivergence pc) s = .next u ∧ u.boot.ready = false ∧ u.boot.faultN = false
        ∧ u.snag.written = s.snag.written + 1 ∧ u.mem = s.mem ∧ u.queues = s.queues))

/-! The transport: requests from outside, answers, timers, frames and RoCEv2. -/

/-- CMD, PUT, GET and ACC (R252, R256, R261, R264, R327), each an accepted packet. A number not seen before is
executed once and answered: CMD places its entry, PUT writes its bytes and no other, GET replies with the bytes
of its range, ACC is the memory-side adder's; each leaves its number answered. A number already answered is
counted and answered again, and for CMD, PUT and ACC changes no memory (a duplicate GET is read again). -/
def Obligations.RequestsExecutedOnce : Prop :=
  (∀ (s t : State) (p : Packet) (h : ScHdr) (d : List Byte), acceptScrim s p 0x5 = (t, some (h, d)) →
      (rxCase t h.src h.chan h.seq = .fresh → d.length = 512 → h.len = 512 → h.queue ≤ 7 → inSafe t = false →
        exec (.cmd p) s = .next (sendAck (rxMark (placeEntry t h.queue d (originOf p h)) h.src h.chan h.seq 2) p h false))
      ∧ (rxCase t h.src h.chan h.seq = .fresh → (d.length ≠ 512 ∨ h.len ≠ 512 ∨ 7 < h.queue) →
        ∃ u, exec (.cmd p) s = .next (sendNack u p h false 6) ∧ u.queues = t.queues ∧ u.mem = t.mem)
      ∧ (rxCase t h.src h.chan h.seq = .answered 2 →
        ∃ u, exec (.cmd p) s = .next (sendAck u p h true) ∧ u.queues = t.queues ∧ u.mem = t.mem))
    ∧ (∀ (s t : State) (p : Packet) (h : ScHdr) (d : List Byte), acceptScrim s p 0x1 = (t, some (h, d)) → taking t = true →
      isCollChan h = false →
      (rxCase t h.src h.chan h.seq = .fresh → h.addr % 32 = 0 → h.len % 32 = 0 → h.len = d.length → inSafe t = false →
        h.len ≤ 4096 → inCollRegion t h.addr h.len = false → accessFault t h.addr h.len = none → CleanMem t →
        ∃ u, exec (.put p) s = .next (sendAck (rxMark u h.src h.chan h.seq 2) p h false) ∧ memBytes u h.addr h.len = d
          ∧ (∀ a, a < h.addr ∨ h.addr + h.len ≤ a → memByte u a = memByte t a) ∧ u.queues = t.queues ∧ u.csr = t.csr)
      ∧ (∀ r, rxCase t h.src h.chan h.seq = .fresh → h.addr % 32 = 0 → h.len % 32 = 0 → h.len = d.length → inSafe t = false →
        h.len ≤ 4096 → inCollRegion t h.addr h.len = false → accessFault t h.addr h.len = some r →
        exec (.put p) s = .next (sendNack (rxMark t h.src h.chan h.seq (16 + r)) p h false r))
      ∧ (rxCase t h.src h.chan h.seq = .answered 2 → ∃ u, exec (.put p) s = .next (sendAck u p h true) ∧ u.mem = t.mem))
    ∧ (∀ (s t : State) (p : Packet) (h : ScHdr) (d : List Byte), acceptScrim s p 0x2 = (t, some (h, d)) → taking t = true → inSafe t = false →
      (rxCase t h.src h.chan h.seq = .fresh → convertAt t h.addr = none → h.addr % 32 = 0 → h.len % 32 = 0 → h.len ≤ 4096 →
        inCollRegion t h.addr h.len = false → accessFault t h.addr h.len = none → CleanMem t →
        ∃ u, exec (.get p) s = .next (sendAnswer (rxMark u h.src h.chan h.seq 3) (originOf p h) 0x3 h.last h.pkt h.npkt 0
            (memBytes t h.addr h.len)) ∧ u.mem = t.mem ∧ u.queues = t.queues)
      ∧ (∀ c bs w, rxCase t h.src h.chan h.seq = .fresh → convertAt t h.addr = some c → getConverted t c h.addr h.len = (w, .ok bs) →
        exec (.get p) s = .next (sendAnswer (rxMark w h.src h.chan h.seq 3) (originOf p h) 0x3 h.last h.pkt h.npkt 0 bs)))
    ∧ (∀ (s t : State) (p : Packet) (h : ScHdr) (d : List Byte), acceptScrim s p 0x4 = (t, some (h, d)) → taking t = true →
      (∀ w, rxCase t h.src h.chan h.seq = .fresh → accRun h d t = (w, none) →
        exec (.acc p) s = .next (sendAck (rxMark w h.src h.chan h.seq 2) p h false))
      ∧ (rxCase t h.src h.chan h.seq = .fresh → (h.len ≠ d.length ∨ d.length < 16) →
        ∃ u, exec (.acc p) s = .next (sendNack u p h false 6) ∧ u.mem = t.mem)
      ∧ (rxCase t h.src h.chan h.seq = .answered 2 → ∃ u, exec (.acc p) s = .next (sendAck u p h true) ∧ u.mem = t.mem))

/-- Answers to the device's own operations, and its timers (R257–R259). An ACK or reply to an open packet is
noted, and the last one decides the operation; a NACK decides it failed with its reason; an answer to nothing
open is counted and does nothing else. The window's end decides it timed out. A packet without an answer
goes again with ATTEMPT one higher. A source pair silent for 150 ms is evicted, and no other; the table holds
16,384 pairs, a packet of a further pair is discarded and counted, and reset clears the table. -/
def Obligations.AnswersDecideOnce : Prop :=
  (∀ (s t : State) (p : Packet) (h : ScHdr) (d : List Byte), acceptScrim s p 0x8 = (t, some (h, d)) →
      (answered t h = none → exec (.ack p) s = .next (scrCount t 2 1))
      ∧ ∀ o k n, answered t h = some (o, k) → o.kind ≠ 2 → n = { o with pkts := o.pkts.set h.pkt { k with acked := true } } →
        ((∃ x ∈ n.pkts, x.acked = false) → exec (.ack p) s = .next (putOp t o n))
        ∧ ((∀ x ∈ n.pkts, x.acked = true) → exec (.ack p) s = .next (decideOp t o (.ok []))))
    ∧ (∀ (s t : State) (p : Packet) (h : ScHdr) (d : List Byte), acceptScrim s p 0x9 = (t, some (h, d)) →
      (answered t h = none → exec (.nack p) s = .next (scrCount t 2 1))
      ∧ ∀ o k, answered t h = some (o, k) → exec (.nack p) s = .next (decideOp t o (.failed h.reason)))
    ∧ (∀ (s t : State) (p : Packet) (h : ScHdr) (d : List Byte), acceptScrim s p 0x3 = (t, some (h, d)) →
      (answered t h = none → exec (.getReply p) s = .next (scrCount t 2 1))
      ∧ ∀ o k n, answered t h = some (o, k) → o.kind = 2 → d.length = k.len → k.acked = false →
        n = { o with pkts := o.pkts.set h.pkt { k with acked := true }, reply := o.reply ++ [(h.pkt, d)] } →
        ((∃ x ∈ n.pkts, x.acked = false) → exec (.getReply p) s = .next (putOp t o n))
        ∧ ((∀ x ∈ n.pkts, x.acked = true) → exec (.getReply p) s = .next (decideOp t o (.ok (replyBytes n)))))
    ∧ (∀ (s : State) (op : Nat), ((∀ o ∈ s.net.ops, o.id = op → s.plumb < o.limit) → exec (.operationTimeout op) s = .next s)
      ∧ ∀ o, s.net.ops.find? (fun o => o.id == op && decide (o.limit ≤ s.plumb)) = some o →
        exec (.operationTimeout op) s = .next (decideOp (scrCount s 1 1) o .timeout))
    ∧ (∀ (s : State) (op idx : Nat) (o : ScrimOp) (k : TxPkt),
      s.net.ops.find? (fun o => o.id == op && (o.pkts[idx]?).any (fun k => pktDue s o k)) = some o → o.pkts[idx]? = some k →
      ∃ n x, exec (.packetRetry op idx) s = .next (sendPkt (scrCount (putOp s o n) 0 1) n x idx)
        ∧ x = { k with attempt := k.attempt + 1, sentAt := s.plumb } ∧ n = { o with pkts := o.pkts.set idx x })
    ∧ (∀ (s : State) (src : Nat), ∃ u, exec (.channelEviction src) s = .next u
      ∧ (∀ c, c ∈ u.net.rx ↔ c ∈ s.net.rx ∧ ¬(c.src = src ∧ c.lastAt + 150000000 ≤ s.plumb))
      ∧ { u with net := { u.net with rx := s.net.rx } } = s)
    ∧ (∀ (s : State) (src chan seq : Nat), (∀ c ∈ s.net.rx, ¬(c.src = src ∧ c.chan = chan)) →
      (rxCase s src chan seq = if s.net.rx.length < 16384 then .fresh else .noChannel)
      ∧ ∀ (p : Packet) (h : ScHdr) (run : State → State × Option Nat), h.src = src → h.chan = chan → h.seq = seq →
        16384 ≤ s.net.rx.length → sequenced s p h run = scrCount s 7 1)
    ∧ (∀ (s : State) (src chan seq code : Nat), rxCase s src chan seq ≠ .noChannel → s.net.rx.length ≤ 16384 →
      (rxMark s src chan seq code).net.rx.length ≤ 16384)
    ∧ State.reset.net.rx = []

/-- Frames of layer 2 and ICMP (R246, R248) on a usable port. A request for the port's own address is answered, ARP
with the port's MAC address, neighbour solicitation with an advertisement of it, an echo with its data; one for
another address has no effect. A frame of a kind the ports do not support is discarded and counted. -/
def Obligations.FramesAnswered : Prop :=
  ∀ (s : State) (port : Nat) (frame : List Byte), portUsable s port = true →
    (∀ b, frameBody frame = (0x0806, b) → beAt b 0 8 = 0x0001080006040001 → ip4Of s port ≠ [] →
        (sliceB b 24 4 ≠ ip4Of s port → exec (.arpRequest port frame) s = .next s)
        ∧ (sliceB b 24 4 = ip4Of s port → ∃ a, exec (.arpRequest port frame) s = .next (sendRaw s port 0x0806 a)
          ∧ beAt a 6 2 = 2 ∧ sliceB a 8 6 = sliceB (nthD s.net.ports port port0).mac 0 6 ∧ sliceB a 14 4 = ip4Of s port
          ∧ sliceB a 18 10 = sliceB b 8 10))
      ∧ (∀ b, frameBody frame = (0x86DD, b) → leAt b 6 1 = 58 → leAt b 40 1 = 135 → ip6Of s port ≠ [] →
        (sliceB b 48 16 ≠ ip6Of s port → exec (.neighbourSolicitation port frame) s = .next s)
        ∧ (sliceB b 48 16 = ip6Of s port → ∃ a, exec (.neighbourSolicitation port frame) s = .next (sendRaw s port 0x86DD a)
          ∧ sliceB a 8 16 = ip6Of s port ∧ sliceB a 24 16 = sliceB b 8 16 ∧ leAt a 40 1 = 136 ∧ sliceB a 48 16 = ip6Of s port
          ∧ sliceB a 66 6 = sliceB (nthD s.net.ports port port0).mac 0 6))
      ∧ (∀ b m, frameBody frame = (0x0800, b) → m = sliceB b 20 (beAt b 2 2 - 20) → ip4Of s port ≠ [] → sliceB b 16 4 = ip4Of s port →
        leAt b 0 1 = 0x45 → beAt b 6 2 % 0x4000 = 0 → leAt b 9 1 = 1 → leAt m 0 1 = 8 →
        ∃ a, exec (.icmpEchoRequest port frame) s = .next (sendRaw s port 0x0800 a) ∧ sliceB a 12 4 = ip4Of s port
          ∧ sliceB a 16 4 = sliceB b 12 4 ∧ leAt a 20 1 = 0 ∧ a.drop 24 = m.drop 4)
      ∧ (∀ b m, frameBody frame = (0x86DD, b) → m = sliceB b 40 (beAt b 4 2) → ip6Of s port ≠ [] → sliceB b 24 16 = ip6Of s port →
        leAt b 6 1 = 58 → leAt m 0 1 = 128 →
        ∃ a, exec (.icmpEchoRequest port frame) s = .next (sendRaw s port 0x86DD a) ∧ sliceB a 8 16 = ip6Of s port
          ∧ sliceB a 24 16 = sliceB b 8 16 ∧ leAt a 40 1 = 129 ∧ a.drop 44 = m.drop 4)
      ∧ exec (.pauseFrame port frame) s = .next (scrCount s 6 1)

/-- The RoCEv2 responder (R265–R267; the packet layouts are the model's, log entry 23). A SEND of the expected PSN
adds to its message, and the last packet of a whole message of entries places them in the bound queue in order
and is acknowledged; a WRITE under its R_Key writes its bytes and no other; a READ answers the bytes of its range;
an atomic is NAKed. An earlier PSN is acknowledged again without effect and a later one NAKed with the one
expected. -/
def Obligations.RoceResponder : Prop :=
  ∀ (s : State) (p : Packet) (h : Bth) (q : Qp) (body : List Byte) (c : State × Qp), c = congest (linkErrors s p.port p.link) p h.qpn q →
    (acceptRoce s p [0x00, 0x01, 0x02, 0x03, 0x04, 0x05, 0x16, 0x17] = some (h, q, body) →
      (h.psn = c.2.epsn → ∀ buf last, h.op ∈ [0x00, 0x01, 0x02, 0x04] → (h.op = 0x00 ∨ h.op = 0x04 ↔ c.2.sending = false) →
          c.2.writing = false → last = decide (h.op = 0x02 ∨ h.op = 0x04) →
          buf = (if h.op = 0x00 ∨ h.op = 0x04 then body else c.2.send ++ body) → body.length ≤ c.2.mtu → buf.length ≤ 4096 →
          (last = false → body.length = c.2.mtu → ∃ u x, u = qpPut c.1 h.qpn x ∧ x.send = buf ∧ x.sending = true
            ∧ x.epsn = (c.2.epsn + 1) % 2 ^ 24
            ∧ exec (.send p) s = .next (if h.ackReq then sendAeth u p x h.psn aethAck else u))
          ∧ (last = true → buf.length ≠ 0 → buf.length % 512 = 0 → ∃ x, x.send = [] ∧ x.sending = false ∧ x.msn = (c.2.msn + 1) % 2 ^ 24
            ∧ x.epsn = (c.2.epsn + 1) % 2 ^ 24 ∧ exec (.send p) s = .next (sendAeth (qpPut
                ((chunksOf 512 8 buf).foldl (fun s e => placeEntry s c.2.queue e (qpOrigin p h.qpn)) c.1) h.qpn x) p x h.psn aethAck)))
      ∧ (h.psn < 2 ^ 24 → c.2.epsn < 2 ^ 24 → h.psn ≠ c.2.epsn →
          (2 ^ 23 ≤ (h.psn + 2 ^ 24 - c.2.epsn) % 2 ^ 24 →
            exec (.send p) s = .next (sendAeth c.1 p c.2 ((c.2.epsn + 2 ^ 24 - 1) % 2 ^ 24) aethAck))
          ∧ ((h.psn + 2 ^ 24 - c.2.epsn) % 2 ^ 24 < 2 ^ 23 → exec (.send p) s = .next (sendAeth c.1 p c.2 c.2.epsn nakSeq))))
    ∧ (acceptRoce s p [0x06, 0x07, 0x08, 0x09, 0x0A, 0x0B] = some (h, q, body) → h.psn = c.2.epsn → CleanMem s →
      ∀ first last a n data, h.op ∈ [0x06, 0x07, 0x08, 0x0A] → first = decide (h.op = 0x06 ∨ h.op = 0x0A) →
        last = decide (h.op = 0x08 ∨ h.op = 0x0A) → c.2.sending = false → c.2.writing = !first →
        data = (if first then body.drop 16 else body) → a = (if first then beAt body 0 8 else c.2.writeAt) →
        n = (if first then beAt body 12 4 else c.2.writeLeft) → (first = true → 16 ≤ body.length) → data.length ≤ n →
        (last = true → data.length = n ∧ n ≤ c.2.mtu) → (last = false → data.length = c.2.mtu) →
        (first = true → keyOk c.1 (beAt body 8 4) a n true = true) →
        ∃ u x, exec (.rdmaWrite p) s = .next (if last || h.ackReq then sendAeth u p x h.psn aethAck else u)
          ∧ memBytes u a data.length = data ∧ (∀ k, k < a ∨ a + data.length ≤ k → memByte u k = memByte s k)
          ∧ x.epsn = (c.2.epsn + 1) % 2 ^ 24 ∧ x.writing = !last ∧ (last = false → x.writeAt = a + data.length ∧ x.writeLeft = n - data.length))
    ∧ (acceptRoce s p [0x0C] = some (h, q, body) → h.psn = c.2.epsn → body.length = 16 → c.2.sending = false → c.2.writing = false →
      (keyOk c.1 (beAt body 8 4) (beAt body 0 8) (beAt body 12 4) false = false →
        ∃ u x, exec (.rdmaReadRequest p) s = .next (sendAeth u p x h.psn nakAccess) ∧ u.mem = s.mem)
      ∧ (keyOk c.1 (beAt body 8 4) (beAt body 0 8) (beAt body 12 4) false = true → CleanMem s →
        ∃ r x, r = readResponses p { c.2 with msn := (c.2.msn + 1) % 2 ^ 24 } h.psn (memBytes s (beAt body 0 8) (beAt body 12 4)) c.1
          ∧ exec (.rdmaReadRequest p) s = .next (qpPut r.1 h.qpn x) ∧ x.epsn = (c.2.epsn + r.2) % 2 ^ 24
          ∧ r.2 = max 1 (ceilDiv (beAt body 12 4) c.2.mtu)))
    ∧ (acceptRoce s p [0x13, 0x14] = some (h, q, body) → h.psn = c.2.epsn →
      ∃ u x, exec (.atomicOperation p) s = .next (sendAeth u p x h.psn nakInvalid) ∧ u.mem = s.mem ∧ u.queues = s.queues)
end

