-- ==== Sys2Proof/Laws/Sparse.lean ====
section
/-! SUPPORT. Sparse stores: what a key reads as after each operation, and that each keeps the
canonical form. -/

namespace Sys2Proof.Machine

variable {α : Type}

theorem stGet_erase (d : α) (m : Store α) (a b : Nat) :
    stGet d (stErase m a) b = if b = a then d else stGet d m b := by
  induction m with
  | nil => simp [stErase, stGet]
  | cons p r ih =>
    obtain ⟨k, v⟩ := p
    by_cases hk : k = a
    · subst hk
      simp only [stErase, List.filter_cons, bne_self_eq_false, Bool.false_eq_true, if_false] at ih ⊢
      rw [ih]
      by_cases hb : b = k <;> simp [stGet, hb]
    · have : (k != a) = true := by simpa using hk
      simp only [stErase, List.filter_cons, this, if_true, stGet] at ih ⊢
      by_cases hb : b = k
      · subst hb; simp [hk]
      · simp [hb, ih]

theorem stGet_insert (d : α) (m : Store α) (a : Nat) (v : α) (b : Nat)
    (ha : ∀ p ∈ m, p.1 ≠ a) : stGet d (stInsert a v m) b = if b = a then v else stGet d m b := by
  induction m with
  | nil => simp [stInsert, stGet]
  | cons p r ih =>
    obtain ⟨k, w⟩ := p
    have hk : k ≠ a := ha _ (List.mem_cons_self ..)
    have ih := ih (fun q hq => ha q (List.mem_cons_of_mem _ hq))
    unfold stInsert
    split
    · simp [stGet]
    · simp only [stGet, ih]
      by_cases hb : b = k
      · subst hb; simp [hk]
      · simp [hb]

theorem not_mem_erase (m : Store α) (a : Nat) : ∀ p ∈ stErase m a, p.1 ≠ a := by
  intro p hp
  simpa using (List.mem_filter.1 hp).2

/-- What a key reads as after an insertion over its erased self. -/
theorem stGet_put (d : α) (m : Store α) (a : Nat) (v : α) (b : Nat) :
    stGet d (stInsert a v (stErase m a)) b = if b = a then v else stGet d m b := by
  rw [stGet_insert d _ a v b (not_mem_erase m a), stGet_erase]
  by_cases h : b = a <;> simp [h]

/-- What a key reads as after a write. -/
theorem stGet_set [DecidableEq α] (d : α) (m : Store α) (a : Nat) (v : α) (b : Nat) :
    stGet d (stSet d m a v) b = if b = a then v else stGet d m b := by
  unfold stSet
  split
  · rename_i h; rw [stGet_erase]; by_cases hb : b = a <;> simp [hb, h]
  · exact stGet_put d m a v b

@[simp] theorem stGet_set_self [DecidableEq α] (d : α) (m : Store α) (a : Nat) (v : α) :
    stGet d (stSet d m a v) a = v := by simp [stGet_set]

theorem stGet_set_other [DecidableEq α] (d : α) (m : Store α) (a : Nat) (v : α) (b : Nat) (h : b ≠ a) :
    stGet d (stSet d m a v) b = stGet d m b := by simp [stGet_set, h]

/-- What a key reads as after a run of writes. -/
theorem stGet_setMany [DecidableEq α] (d : α) (vs : List α) : ∀ (m : Store α) (a b : Nat),
    stGet d (stSetMany d m a vs) b = if a ≤ b ∧ b < a + vs.length then (vs[b - a]?).getD d else stGet d m b := by
  induction vs with
  | nil => intro m a b; simp [stSetMany]
  | cons v r ih =>
    intro m a b
    simp only [stSetMany, ih, stGet_set, List.length_cons]
    by_cases h1 : b = a
    · subst h1
      simp
    · by_cases h2 : a + 1 ≤ b ∧ b < a + 1 + r.length
      · have h3 : a ≤ b ∧ b < a + (r.length + 1) := by omega
        have h4 : b - a = (b - (a + 1)) + 1 := by omega
        simp [h2, h3, h4]
      · have h3 : ¬(a ≤ b ∧ b < a + (r.length + 1)) := by omega
        rw [if_neg h2, if_neg h1, if_neg h3]

theorem stGetMany_setMany [DecidableEq α] (d : α) (m : Store α) (a : Nat) (vs : List α) :
    stGetMany d (stSetMany d m a vs) a vs.length = vs := by
  apply List.ext_getElem
  · simp [stGetMany]
  · intro i h1 h2
    simp only [stGetMany, List.getElem_map, List.getElem_range, stGet_setMany]
    simp [h2]

/-! The canonical form. -/

theorem wf_cons [DecidableEq α] {d : α} {k : Nat} {v : α} {r : Store α} :
    Store.wf d ((k, v) :: r) = true ↔ v ≠ d ∧ (∀ p ∈ r, k < p.1) ∧ Store.wf d r = true := by
  simp [Store.wf, and_assoc]

theorem wf_filter [DecidableEq α] {d : α} (f : Nat × α → Bool) {m : Store α} (h : Store.wf d m = true) :
    Store.wf d (m.filter f) = true := by
  induction m with
  | nil => exact h
  | cons p r ih =>
    obtain ⟨k, v⟩ := p
    obtain ⟨h1, h2, h3⟩ := wf_cons.1 h
    rw [List.filter_cons]
    split
    · exact wf_cons.2 ⟨h1, fun p hp => h2 p (List.mem_filter.1 hp).1, ih h3⟩
    · exact ih h3

theorem wf_erase [DecidableEq α] {d : α} {m : Store α} (a : Nat) (h : Store.wf d m = true) :
    Store.wf d (stErase m a) = true := wf_filter _ h

theorem wf_clear [DecidableEq α] {d : α} {m : Store α} (lo hi : Nat) (h : Store.wf d m = true) :
    Store.wf d (stClear m lo hi) = true := wf_filter _ h

theorem mem_insert {a : Nat} {v : α} {m : Store α} {p : Nat × α} (h : p ∈ stInsert a v m) : p = (a, v) ∨ p ∈ m := by
  induction m with
  | nil => simpa [stInsert] using h
  | cons q r ih =>
    obtain ⟨k, w⟩ := q
    unfold stInsert at h
    split at h
    · simpa using h
    · rcases List.mem_cons.1 h with h | h
      · exact Or.inr (h ▸ List.mem_cons_self ..)
      · rcases ih h with h | h
        · exact Or.inl h
        · exact Or.inr (List.mem_cons_of_mem _ h)

theorem wf_insert [DecidableEq α] {d : α} {m : Store α} (a : Nat) {v : α} (hv : v ≠ d) (ha : ∀ p ∈ m, p.1 ≠ a)
    (h : Store.wf d m = true) : Store.wf d (stInsert a v m) = true := by
  induction m with
  | nil => simpa [stInsert, Store.wf] using hv
  | cons q r ih =>
    obtain ⟨k, w⟩ := q
    obtain ⟨h1, h2, h3⟩ := wf_cons.1 h
    have hk : k ≠ a := ha _ (List.mem_cons_self ..)
    unfold stInsert
    split
    · rename_i hlt
      refine wf_cons.2 ⟨hv, fun p hp => ?_, h⟩
      rcases List.mem_cons.1 hp with e | hp
      · subst e; exact hlt
      · exact Nat.lt_trans hlt (h2 p hp)
    · rename_i hnl
      refine wf_cons.2 ⟨h1, fun p hp => ?_, ih (fun p hp => ha p (List.mem_cons_of_mem _ hp)) h3⟩
      rcases mem_insert hp with e | hp
      · subst e; simp only; omega
      · exact h2 p hp

/-- A write keeps the canonical form. -/
theorem wf_set [DecidableEq α] {d : α} {m : Store α} (a : Nat) (v : α) (h : Store.wf d m = true) :
    Store.wf d (stSet d m a v) = true := by
  unfold stSet
  split
  · exact wf_erase a h
  · rename_i hv; exact wf_insert a hv (not_mem_erase m a) (wf_erase a h)

/-- A run of writes keeps the canonical form. -/
theorem wf_setMany [DecidableEq α] {d : α} (vs : List α) : ∀ {m : Store α} (a : Nat), Store.wf d m = true →
    Store.wf d (stSetMany d m a vs) = true := by
  induction vs with
  | nil => intro m a h; exact h
  | cons v r ih => intro m a h; exact ih (a + 1) (wf_set a v h)

theorem wf_move [DecidableEq α] {d : α} {dst : Store α} (src : Store α) (a b n : Nat) (h : Store.wf d dst = true) :
    Store.wf d (stMove d dst src a b n) = true := by
  unfold stMove
  generalize List.filter _ src = l
  have h' := wf_clear b (b + n) h
  revert h'
  generalize stClear dst b (b + n) = m
  induction l generalizing m with
  | nil => intro h; exact h
  | cons p r ih => intro h; exact ih _ (wf_set _ _ h)

/-- Two stores in canonical form that read alike at every key are equal data. -/
theorem wf_ext [DecidableEq α] {d : α} : ∀ {m n : Store α}, Store.wf d m = true → Store.wf d n = true →
    (∀ a, stGet d m a = stGet d n a) → m = n := by
  have low : ∀ {m : Store α} {a : Nat}, Store.wf d m = true → (∀ p ∈ m, a < p.1) → stGet d m a = d := by
    intro m a hm h
    induction m with
    | nil => rfl
    | cons p r ih =>
      obtain ⟨k, v⟩ := p
      have := h (k, v) (List.mem_cons_self ..)
      have hne : a ≠ k := by simp only at this; omega
      simp only [stGet, hne, if_false]
      exact ih (wf_cons.1 hm).2.2 (fun p hp => h p (List.mem_cons_of_mem _ hp))
  intro m
  induction m with
  | nil =>
    intro n _ hn h
    cases n with
    | nil => rfl
    | cons p r =>
      obtain ⟨k, v⟩ := p
      have := h k
      simp [stGet] at this
      exact absurd this.symm (wf_cons.1 hn).1
  | cons p r ih =>
    intro n hm hn h
    obtain ⟨k, v⟩ := p
    obtain ⟨a1, a2, a3⟩ := wf_cons.1 hm
    cases n with
    | nil => have := h k; simp [stGet] at this; exact absurd this a1
    | cons q t =>
      obtain ⟨l, w⟩ := q
      obtain ⟨b1, b2, b3⟩ := wf_cons.1 hn
      have e : k = l := by
        rcases Nat.lt_trichotomy k l with c | c | c
        · have := h k
          rw [low (a := k) hn (fun p hp => by
            rcases List.mem_cons.1 hp with e | hp
            · subst e; exact c
            · exact Nat.lt_trans c (b2 p hp))] at this
          simp [stGet] at this; exact absurd this a1
        · exact c
        · have := h l
          rw [low (a := l) hm (fun p hp => by
            rcases List.mem_cons.1 hp with e | hp
            · subst e; exact c
            · exact Nat.lt_trans c (a2 p hp))] at this
          simp [stGet] at this; exact absurd this.symm b1
      subst e
      have ev : v = w := by have := h k; simpa [stGet] using this
      subst ev
      congr 1
      refine ih a3 b3 (fun a => ?_)
      by_cases hak : a = k
      · subst hak; rw [low a3 a2, low b3 b2]
      · have := h a; simpa [stGet, hak] using this

end Sys2Proof.Machine
end

