-- ==== Sys2Proof/Laws/Keeps.lean ====
section
/-! SUPPORT. The shared operations keep the block's invariant: register and memory writes, checked
accesses, error records, queues and their completions, and the rows of host commands. -/

namespace Sys2Proof.Machine

/-- A fold keeps the invariant if each of its steps does. -/
theorem keeps_foldl {α : Type} (f : State → α → State) (hf : ∀ s a, BlockInv s → BlockInv (f s a)) (l : List α) {s : State}
    (h : BlockInv s) : BlockInv (l.foldl f s) := by
  induction l generalizing s with
  | nil => exact h
  | cons a r ih => exact ih (hf s a h)

/-! Registers. -/

theorem csrPut_keeps {s : State} (h : BlockInv s) (a v : Nat) : BlockInv (csrPut s a v) := ⟨h.1, wf_set a _ h.2.1, h.2.2⟩

theorem csrSetField_keeps {s : State} (h : BlockInv s) (a hi lo v : Nat) : BlockInv (csrSetField s a hi lo v) := csrPut_keeps h ..

theorem csrBump_keeps {s : State} (h : BlockInv s) (a hi lo n : Nat) : BlockInv (csrBump s a hi lo n) := csrPut_keeps h ..

theorem csrPut64_keeps {s : State} (h : BlockInv s) (a v : Nat) : BlockInv (csrPut64 s a v) := csrPut_keeps (csrPut_keeps h ..) ..

theorem scrCount_keeps {s : State} (h : BlockInv s) (i n : Nat) : BlockInv (scrCount s i n) := csrBump_keeps h ..

/-! Memory and its errors. -/

theorem memStore_keeps {s : State} (h : BlockInv s) (a : Nat) (bs : List Byte) : BlockInv (memStore s a bs) :=
  ⟨wf_setMany bs a h.1, h.2⟩

/-- The Snag list, the flash and the step's books are none of the invariant's. -/
theorem snag_keeps {s : State} (h : BlockInv s) (g : SnagSt) : BlockInv { s with snag := g } := h

theorem step_keeps {s : State} (h : BlockInv s) (x : StepSt) : BlockInv { s with step := x } := h

theorem noteBad_keeps {s : State} (h : BlockInv s) (ks : List Nat) : BlockInv (noteBad s ks) := h

theorem setErrs_keeps {s : State} (h : BlockInv s) (k : Nat) (e : List (Nat × Nat)) : BlockInv (setErrs s k e) := h

theorem idxClear_keeps {s : State} (h : BlockInv s) (k : Nat) : BlockInv (idxClear s k) := by
  unfold idxClear
  split <;> exact h

theorem snagPush_keeps {s : State} (h : BlockInv s) (bs : List Byte) : BlockInv (snagPush s bs) :=
  csrSetField_keeps (snag_keeps h _) ..

theorem commitCopy_keeps {s : State} (h : BlockInv s) (base : Nat) : BlockInv (commitCopy s base) := by
  unfold commitCopy
  exact keeps_foldl (fun t _ => flashWrite t _ _) (fun _ _ h => h) _ h

theorem commitSnag_keeps {s : State} (h : BlockInv s) : BlockInv (commitSnag s) :=
  csrSetField_keeps (snag_keeps (commitCopy_keeps (commitCopy_keeps h _) _) _) ..

theorem snagRecord_keeps {s : State} (h : BlockInv s) (r : ErrRec) : BlockInv (snagRecord s r) := by
  unfold snagRecord
  split
  · exact commitSnag_keeps (snagPush_keeps h _)
  · exact snagPush_keeps h _

theorem retireLater_keeps {s : State} (h : BlockInv s) (unit : Nat) : BlockInv (retireLater s unit) := by
  unfold retireLater
  split <;> exact h

theorem condemn_keeps {s : State} (h : BlockInv s) (unit : Nat) : BlockInv (condemn s unit) := by
  unfold condemn markPort
  repeat' split
  · exact h
  · exact csrSetField_keeps h ..
  · exact retireLater_keeps h _

theorem reportEvent_keeps {s : State} (h : BlockInv s) (r : ErrRec) : BlockInv (reportEvent s r) := by
  unfold reportEvent
  dsimp only
  split
  · exact condemn_keeps (snagRecord_keeps (snag_keeps h _) _) _
  · exact snagRecord_keeps (snag_keeps h _) _

theorem countCorrected_keeps {s : State} (h : BlockInv s) (k n : Nat) : BlockInv (countCorrected s k n) := by
  unfold countCorrected
  split
  · exact csrBump_keeps (csrBump_keeps h ..) ..
  · exact csrBump_keeps h ..
  · exact h

theorem countPoisoned_keeps {s : State} (h : BlockInv s) (k : Nat) : BlockInv (countPoisoned s k) := by
  unfold countPoisoned
  split
  · exact csrBump_keeps h ..
  · exact csrBump_keeps h ..
  · exact h

theorem symbolThreshold_keeps {s : State} (h : BlockInv s) (unit pos : Nat) : BlockInv (symbolThreshold s unit pos) := by
  unfold symbolThreshold
  dsimp only
  have hn : BlockInv (noteCorr s 1 unit pos) := h
  split
  · exact retireLater_keeps (reportEvent_keeps hn _) _
  · exact hn

theorem rowThreshold_keeps {s : State} (h : BlockInv s) (unit row : Nat) (syn : List Byte) : BlockInv (rowThreshold s unit row syn) := by
  unfold rowThreshold
  dsimp only
  have hn : BlockInv (noteCorr s 2 unit row) := h
  split
  · exact snagRecord_keeps (snag_keeps hn _) _
  · exact hn

theorem overlayErrs_keeps {s : State} (h : BlockInv s) (k : Nat) (errs : List (Nat × Nat)) : BlockInv (overlayErrs s k errs) := by
  refine keeps_foldl _ (fun t e ht => ?_) _ h
  dsimp only
  split
  · exact memStore_keeps ht ..
  · exact ht

theorem meetSymbols_keeps {s : State} (h : BlockInv s) (wb : Bool) (k : Nat) : BlockInv (meetSymbols wb s k) := by
  unfold meetSymbols
  dsimp only
  split
  · split
    · exact h
    · exact overlayErrs_keeps (setErrs_keeps h ..) ..
  · rename_i fix _
    have hf (t : State) (u : Nat) (ht : BlockInv t) : BlockInv (fix.foldl (fun t f => symbolThreshold t u f.1) t) :=
      keeps_foldl _ (fun _ _ h => symbolThreshold_keeps h ..) _ ht
    split
    · exact overlayErrs_keeps (setErrs_keeps (rowThreshold_keeps (hf _ _ (snagRecord_keeps (snag_keeps (countCorrected_keeps h ..) _) _)) ..) ..) ..
    · exact rowThreshold_keeps (hf _ _ (snagRecord_keeps (snag_keeps (countCorrected_keeps h ..) _) _)) ..
  · exact reportEvent_keeps (countPoisoned_keeps h _) _

theorem meetIndex_keeps {s : State} (h : BlockInv s) (wb : Bool) (k : Nat) : BlockInv (meetIndex wb s k) := by
  unfold meetIndex
  dsimp only
  split
  · exact h
  · split
    · exact idxClear_keeps (snagRecord_keeps (countCorrected_keeps h ..) _) _
    · exact snagRecord_keeps (countCorrected_keeps h ..) _
  · exact reportEvent_keeps (countPoisoned_keeps h _) _

theorem meetSector_keeps {s : State} (h : BlockInv s) (wb : Bool) (k : Nat) : BlockInv (meetSector wb s k) := by
  unfold meetSector
  split
  · exact meetIndex_keeps h ..
  · exact meetIndex_keeps (meetSymbols_keeps h ..) ..

theorem touchMem_keeps {s : State} (h : BlockInv s) (a n : Nat) : BlockInv (touchMem s a n).1 := by
  unfold touchMem
  dsimp only
  have hf := keeps_foldl (fun t k => meetSector (!writeWaits s (64 * k)) t k) (fun _ _ h => meetSector_keeps h ..) (badSectors s a n) h
  repeat' split
  · exact h
  · exact hf
  · exact noteBad_keeps hf _

theorem readMem_keeps {s : State} (h : BlockInv s) (a n : Nat) : BlockInv (readMem s a n).1 := touchMem_keeps h ..

theorem writeMem_keeps {s : State} (h : BlockInv s) (a : Nat) (bs : List Byte) : BlockInv (writeMem s a bs).1 := by
  unfold writeMem
  dsimp only
  split
  · exact memStore_keeps h ..
  · have hf (l m : List Nat) (k : List (Nat × List Byte)) :=
      keeps_foldl (fun t (p : Nat × List Byte) => memStore t (p.1 * 64) p.2) (fun _ _ h => memStore_keeps h ..) k (memStore_keeps
        (keeps_foldl (fun t k => idxClear (setErrs t k []) k) (fun _ _ h => idxClear_keeps (setErrs_keeps h ..) _) m
          (keeps_foldl (meetSector true) (fun _ _ h => meetSector_keeps h ..) l h)) a bs)
    split
    · exact hf _ _ _
    · exact noteBad_keeps (hf _ _ _) _

theorem cmdWrite_keeps {s : State} (h : BlockInv s) (a : Nat) (bs : List Byte) : BlockInv (cmdWrite s a bs).1 := by
  unfold cmdWrite
  split
  · exact h
  · exact writeMem_keeps h ..

theorem cmdRead_keeps {s : State} (h : BlockInv s) (a n : Nat) : BlockInv (cmdRead s a n).1 := by
  unfold cmdRead
  split
  · exact h
  · exact readMem_keeps h ..

theorem wf_moves {src : Store Byte} (l : List (Nat × Nat)) {m : Store Byte} (h : Store.wf 0 m = true) :
    Store.wf 0 (l.foldl (fun m p => stMove 0 m src p.1 p.2 256) m) = true := by
  induction l generalizing m with
  | nil => exact h
  | cons p r ih => exact ih (wf_move src _ _ _ h)

/-- Memory under a new map (R199): the cells move with their bytes, and the canonical form stays. -/
theorem remapMemory_keeps {new : State} (h : BlockInv new) (old : State) : BlockInv (remapMemory old new) := by
  unfold remapMemory
  dsimp only
  split
  · exact h
  · exact ⟨wf_moves _ (wf_filter _ h.1), h.2⟩

theorem clearMem_keeps {s : State} (h : BlockInv s) (a n : Nat) : BlockInv (clearMem s a n) := ⟨wf_clear _ _ h.1, h.2⟩

/-! Frames and the duplicate window. -/

theorem sendAnswer_keeps {s : State} (h : BlockInv s) (o : Origin) (op flags pkt npkt reason : Nat) (b : List Byte) :
    BlockInv (sendAnswer s o op flags pkt npkt reason b) := by
  unfold sendAnswer
  split <;> exact h

theorem sendAck_keeps {s : State} (h : BlockInv s) (p : Packet) (x : ScHdr) (dup : Bool) : BlockInv (sendAck s p x dup) :=
  sendAnswer_keeps h ..

theorem sendNack_keeps {s : State} (h : BlockInv s) (p : Packet) (x : ScHdr) (dup : Bool) (reason : Nat) :
    BlockInv (sendNack s p x dup reason) := sendAnswer_keeps h ..

theorem sendPkt_keeps {s : State} (h : BlockInv s) (o : ScrimOp) (k : TxPkt) (idx : Nat) : BlockInv (sendPkt s o k idx) := by
  unfold sendPkt
  dsimp only
  split <;> exact h

theorem noteCorrs_keeps {s : State} (h : BlockInv s) (kind unit pos : Nat) (l : List Nat) :
    BlockInv (l.foldl (fun s _ => noteCorr s kind unit pos) s) := keeps_foldl _ (fun _ _ h => snag_keeps h _) l h

theorem judged_keeps {t : State} (h : BlockInv t) (b c : Bool) (u : Nat) (r : ErrRec) :
    BlockInv (if c = true then reportEvent (if b = true then forgetCorr t 3 u else t) r else if b = true then forgetCorr t 3 u else t) := by
  have h2 : BlockInv (if b = true then forgetCorr t 3 u else t) := by
    cases b
    · exact h
    · exact snag_keeps h _
  cases c
  · exact h2
  · exact reportEvent_keeps h2 r

theorem linkErrors_keeps {s : State} (h : BlockInv s) (port : Nat) (x : LinkErrs) : BlockInv (linkErrors s port x) := by
  unfold linkErrors
  have h1 := noteCorrs_keeps (csrBump_keeps (csrBump_keeps (csrBump_keeps h (rScrPortStatus + 0x10 * port + 4) 31 0 x.corr)
      (rScrPortStatus + 0x10 * port + 8) 31 0 x.uncorr) (rScrPortStatus + 0x10 * port + 12) 31 0 x.fcs) 3 (unitPort port) 0
      (List.range (min x.uncorr 100))
  split
  · exact h
  · dsimp only
    exact judged_keeps h1 _ _ _ _

theorem acceptScrim_keeps {s : State} (h : BlockInv s) (p : Packet) (op : Nat) : BlockInv (acceptScrim s p op).1 := by
  unfold acceptScrim
  dsimp only
  repeat' split
  all_goals first
    | exact h
    | exact linkErrors_keeps h ..
    | exact scrCount_keeps (linkErrors_keeps h ..) ..

/-- A packet taken through the window keeps the invariant where what it runs does. -/
theorem sequenced_keeps {s : State} (h : BlockInv s) (p : Packet) (x : ScHdr) (run : State → State × Option Nat)
    (hr : BlockInv s → BlockInv (run s).1) : BlockInv (sequenced s p x run) := by
  unfold sequenced
  dsimp only
  have ht : BlockInv (rxTouch s x.src x.chan) := h
  split
  · split
    · exact sendAck_keeps (s := rxMark (run s).1 x.src x.chan x.seq 2) (hr h) ..
    · exact sendNack_keeps (s := rxMark (run s).1 x.src x.chan x.seq _) (hr h) ..
  · exact scrCount_keeps ht ..
  · split
    · exact sendAck_keeps (scrCount_keeps ht ..) ..
    · exact sendNack_keeps (scrCount_keeps ht ..) ..
  · exact scrCount_keeps ht ..
  · exact scrCount_keeps h ..

/-! Queues and completions. -/

theorem queuePut_keeps {s : State} (h : BlockInv s) (q : Nat) (x : Queue) : BlockInv (queuePut s q x) := by
  refine ⟨h.1, h.2.1, ?_, h.2.2.2⟩
  show (s.queues.set q x).length = 8
  rw [List.length_set]
  exact h.2.2.1

theorem syncHead_keeps {s : State} (h : BlockInv s) (q : Nat) : BlockInv (syncHead s q) := by
  unfold syncHead
  dsimp only
  repeat' split
  all_goals first
    | exact h
    | exact queuePut_keeps (readMem_keeps h ..) ..
    | exact readMem_keeps h ..

theorem ringWrite_keeps {s : State} (h : BlockInv s) (q : Nat) (r : Bool) (e : List Byte) : BlockInv (ringWrite s q r e) := by
  unfold ringWrite
  dsimp only
  split
  · exact queuePut_keeps h ..
  · split
    · exact csrBump_keeps (writeMem_keeps h ..) ..
    · exact queuePut_keeps (writeMem_keeps (writeMem_keeps h ..) ..) ..

theorem cmdReply_keeps {s : State} (h : BlockInv s) (o : Origin) (b : Bool) (e : List Byte) : BlockInv (cmdReply s o b e) := by
  unfold cmdReply
  split
  · exact h
  · exact sendAnswer_keeps h ..

theorem resend_keeps {s : State} (h : BlockInv s) (c : Cmd) (e : List Byte) : BlockInv (resend s c e) := by
  unfold resend
  dsimp only
  split
  · exact cmdReply_keeps (ringWrite_keeps h ..) ..
  · exact cmdReply_keeps h ..

theorem refuseEntry_keeps {s : State} (h : BlockInv s) (c : Cmd) (st orig : Nat) : BlockInv (refuseEntry s c st orig) := by
  unfold refuseEntry
  dsimp only
  have hs := syncHead_keeps h c.queue
  split
  · exact cmdReply_keeps (ringWrite_keeps hs ..) ..
  · exact cmdReply_keeps (csrBump_keeps hs ..) ..

theorem placeEntry_keeps {s : State} (h : BlockInv s) (q : Nat) (entry : List Byte) (o : Origin) : BlockInv (placeEntry s q entry o) := by
  unfold placeEntry
  dsimp only
  have hs := syncHead_keeps h q
  repeat' split
  all_goals first
    | exact queuePut_keeps hs ..
    | exact queuePut_keeps (writeMem_keeps hs ..) ..
    | exact refuseEntry_keeps hs ..
    | exact keeps_foldl _ (fun _ _ h => resend_keeps h ..) _ hs

theorem noteOp_keeps {s : State} (h : BlockInv s) (c : Cmd) (st : Nat) : BlockInv (noteOp s c st) := by
  unfold noteOp
  dsimp only
  repeat' split
  all_goals exact h

theorem report_keeps {s : State} (h : BlockInv s) (c : Cmd) (st fl : Nat) (r : List Byte) : BlockInv (report s c st fl r) := by
  unfold report
  dsimp only
  repeat' split
  · exact noteOp_keeps h ..
  · exact csrSetField_keeps (noteOp_keeps (step_keeps h _) ..) ..
  · exact noteOp_keeps (step_keeps h _) ..
  · exact cmdReply_keeps (noteOp_keeps (ringWrite_keeps (queuePut_keeps h ..) ..) ..) ..

theorem flights_keeps {s : State} (h : BlockInv s) (l : List Flight) : BlockInv { s with flights := l } := h

theorem complete_keeps {s : State} (h : BlockInv s) (c : Cmd) (st fl : Nat) (r : List Byte) : BlockInv (complete s c st fl r) := by
  unfold complete
  dsimp only
  have h2 := flights_keeps (report_keeps h c st fl r)
    (List.filter (fun f => !(f.cmd.queue == c.queue && f.cmd.qseq == c.qseq)) (report s c st fl r).flights)
  split
  · exact h2
  · exact queuePut_keeps h2 ..

theorem finish_keeps {s : State} (h : BlockInv s) (c : Cmd) (st : Nat) : BlockInv (finish s c st) := complete_keeps h ..

theorem logEntry_keeps {s : State} (h : BlockInv s) (q : Nat) (e : List Byte) : BlockInv (logEntry s q e) := by
  unfold logEntry
  dsimp only
  split
  · exact writeMem_keeps (step_keeps h _) ..
  · exact csrSetField_keeps (step_keeps h _) ..

theorem markBegun_keeps {s : State} (h : BlockInv s) (q qs : Nat) : BlockInv (markBegun s q qs) := by
  unfold markBegun
  dsimp only
  repeat' split
  all_goals first
    | exact h
    | exact logEntry_keeps (queuePut_keeps h ..) ..
    | exact queuePut_keeps h ..

/-- A host command's row keeps the invariant where its own meaning does. -/
theorem hostRow_keeps {s : State} (h : BlockInv s) (q qs : Nat) (sel : Cmd → Bool) (body : Cmd → State → Option State)
    (hb : ∀ c s t, BlockInv s → body c s = some t → BlockInv t) : BlockInv (hostRow s q qs sel body) := by
  unfold hostRow
  have hm := markBegun_keeps h q qs
  dsimp only
  repeat' split
  all_goals first
    | exact h
    | exact finish_keeps hm ..
    | skip
  rename_i c _ _ _ _ _ _
  cases hc : body c (markBegun s q qs) with
  | none => exact h
  | some t => exact hb _ _ _ hm hc

/-- The same for a command that may wait at its queue's head. -/
theorem waitRow_keeps {s : State} (h : BlockInv s) (q qs : Nat) (sel : Cmd → Bool) (wait : Cmd → State → Option State)
    (body : Cmd → State → State) (hw : ∀ c s t, BlockInv s → wait c s = some t → BlockInv t)
    (hb : ∀ c s, BlockInv s → BlockInv (body c s)) : BlockInv (waitRow s q qs sel wait body) := by
  unfold waitRow
  have hm := markBegun_keeps h q qs
  repeat' split
  all_goals first
    | exact h
    | exact finish_keeps hm ..
    | exact hb _ _ hm
    | exact hw _ _ _ h (by assumption)

end Sys2Proof.Machine
end

