-- ==== Sys2Proof/Laws/State.lean ====
section
/-! SUPPORT. The named updates of the state, field by field: each changes the one part it names, so
that no later proof unfolds a record update. -/

namespace Sys2Proof.Machine

/-! `csrPut`. -/

@[simp] theorem csrPut_pending (s : State) (a v : Nat) : (csrPut s a v).pending = s.pending := rfl
@[simp] theorem csrPut_queues (s : State) (a v : Nat) : (csrPut s a v).queues = s.queues := rfl
@[simp] theorem csrPut_flights (s : State) (a v : Nat) : (csrPut s a v).flights = s.flights := rfl
@[simp] theorem csrPut_job (s : State) (a v : Nat) : (csrPut s a v).job = s.job := rfl
@[simp] theorem csrPut_hawk (s : State) (a v : Nat) : (csrPut s a v).hawk = s.hawk := rfl
@[simp] theorem csrPut_step (s : State) (a v : Nat) : (csrPut s a v).step = s.step := rfl
@[simp] theorem csrPut_chip (s : State) (a v : Nat) : (csrPut s a v).chip = s.chip := rfl
@[simp] theorem csrPut_runs (s : State) (a v : Nat) : (csrPut s a v).runs = s.runs := rfl
@[simp] theorem csrPut_held (s : State) (a v : Nat) : (csrPut s a v).held = s.held := rfl
@[simp] theorem csrPut_mem (s : State) (a v : Nat) : (csrPut s a v).mem = s.mem := rfl
@[simp] theorem csrPut_topcoat (s : State) (a v : Nat) : (csrPut s a v).topcoat = s.topcoat := rfl
@[simp] theorem csrPut_blocks (s : State) (a v : Nat) : (csrPut s a v).blocks = s.blocks := rfl
@[simp] theorem csrPut_hubBlock (s : State) (a v : Nat) : (csrPut s a v).hubBlock = s.hubBlock := rfl
@[simp] theorem csrPut_lath (s : State) (a v : Nat) : (csrPut s a v).lath = s.lath := rfl
@[simp] theorem csrPut_net (s : State) (a v : Nat) : (csrPut s a v).net = s.net := rfl
@[simp] theorem csrPut_coll (s : State) (a v : Nat) : (csrPut s a v).coll = s.coll := rfl
@[simp] theorem csrPut_snag (s : State) (a v : Nat) : (csrPut s a v).snag = s.snag := rfl
@[simp] theorem csrPut_time (s : State) (a v : Nat) : (csrPut s a v).time = s.time := rfl
@[simp] theorem csrPut_power (s : State) (a v : Nat) : (csrPut s a v).power = s.power := rfl
@[simp] theorem csrPut_boot (s : State) (a v : Nat) : (csrPut s a v).boot = s.boot := rfl
@[simp] theorem csrPut_plumb (s : State) (a v : Nat) : (csrPut s a v).plumb = s.plumb := rfl
@[simp] theorem csrPut_settings (s : State) (a v : Nat) : (csrPut s a v).settings = s.settings := rfl
@[simp] theorem csrPut_free (s : State) (a v : Nat) : (csrPut s a v).free = s.free := rfl

/-! `csrSetField`. -/

@[simp] theorem csrSetField_pending (s : State) (a hi lo v : Nat) : (csrSetField s a hi lo v).pending = s.pending := rfl
@[simp] theorem csrSetField_queues (s : State) (a hi lo v : Nat) : (csrSetField s a hi lo v).queues = s.queues := rfl
@[simp] theorem csrSetField_flights (s : State) (a hi lo v : Nat) : (csrSetField s a hi lo v).flights = s.flights := rfl
@[simp] theorem csrSetField_job (s : State) (a hi lo v : Nat) : (csrSetField s a hi lo v).job = s.job := rfl
@[simp] theorem csrSetField_hawk (s : State) (a hi lo v : Nat) : (csrSetField s a hi lo v).hawk = s.hawk := rfl
@[simp] theorem csrSetField_step (s : State) (a hi lo v : Nat) : (csrSetField s a hi lo v).step = s.step := rfl
@[simp] theorem csrSetField_chip (s : State) (a hi lo v : Nat) : (csrSetField s a hi lo v).chip = s.chip := rfl
@[simp] theorem csrSetField_runs (s : State) (a hi lo v : Nat) : (csrSetField s a hi lo v).runs = s.runs := rfl
@[simp] theorem csrSetField_held (s : State) (a hi lo v : Nat) : (csrSetField s a hi lo v).held = s.held := rfl
@[simp] theorem csrSetField_mem (s : State) (a hi lo v : Nat) : (csrSetField s a hi lo v).mem = s.mem := rfl
@[simp] theorem csrSetField_topcoat (s : State) (a hi lo v : Nat) : (csrSetField s a hi lo v).topcoat = s.topcoat := rfl
@[simp] theorem csrSetField_blocks (s : State) (a hi lo v : Nat) : (csrSetField s a hi lo v).blocks = s.blocks := rfl
@[simp] theorem csrSetField_hubBlock (s : State) (a hi lo v : Nat) : (csrSetField s a hi lo v).hubBlock = s.hubBlock := rfl
@[simp] theorem csrSetField_lath (s : State) (a hi lo v : Nat) : (csrSetField s a hi lo v).lath = s.lath := rfl
@[simp] theorem csrSetField_net (s : State) (a hi lo v : Nat) : (csrSetField s a hi lo v).net = s.net := rfl
@[simp] theorem csrSetField_coll (s : State) (a hi lo v : Nat) : (csrSetField s a hi lo v).coll = s.coll := rfl
@[simp] theorem csrSetField_snag (s : State) (a hi lo v : Nat) : (csrSetField s a hi lo v).snag = s.snag := rfl
@[simp] theorem csrSetField_time (s : State) (a hi lo v : Nat) : (csrSetField s a hi lo v).time = s.time := rfl
@[simp] theorem csrSetField_power (s : State) (a hi lo v : Nat) : (csrSetField s a hi lo v).power = s.power := rfl
@[simp] theorem csrSetField_boot (s : State) (a hi lo v : Nat) : (csrSetField s a hi lo v).boot = s.boot := rfl
@[simp] theorem csrSetField_plumb (s : State) (a hi lo v : Nat) : (csrSetField s a hi lo v).plumb = s.plumb := rfl
@[simp] theorem csrSetField_settings (s : State) (a hi lo v : Nat) : (csrSetField s a hi lo v).settings = s.settings := rfl
@[simp] theorem csrSetField_free (s : State) (a hi lo v : Nat) : (csrSetField s a hi lo v).free = s.free := rfl

/-! `csrBump`. -/

@[simp] theorem csrBump_pending (s : State) (a hi lo n : Nat) : (csrBump s a hi lo n).pending = s.pending := rfl
@[simp] theorem csrBump_queues (s : State) (a hi lo n : Nat) : (csrBump s a hi lo n).queues = s.queues := rfl
@[simp] theorem csrBump_flights (s : State) (a hi lo n : Nat) : (csrBump s a hi lo n).flights = s.flights := rfl
@[simp] theorem csrBump_job (s : State) (a hi lo n : Nat) : (csrBump s a hi lo n).job = s.job := rfl
@[simp] theorem csrBump_hawk (s : State) (a hi lo n : Nat) : (csrBump s a hi lo n).hawk = s.hawk := rfl
@[simp] theorem csrBump_step (s : State) (a hi lo n : Nat) : (csrBump s a hi lo n).step = s.step := rfl
@[simp] theorem csrBump_chip (s : State) (a hi lo n : Nat) : (csrBump s a hi lo n).chip = s.chip := rfl
@[simp] theorem csrBump_runs (s : State) (a hi lo n : Nat) : (csrBump s a hi lo n).runs = s.runs := rfl
@[simp] theorem csrBump_held (s : State) (a hi lo n : Nat) : (csrBump s a hi lo n).held = s.held := rfl
@[simp] theorem csrBump_mem (s : State) (a hi lo n : Nat) : (csrBump s a hi lo n).mem = s.mem := rfl
@[simp] theorem csrBump_topcoat (s : State) (a hi lo n : Nat) : (csrBump s a hi lo n).topcoat = s.topcoat := rfl
@[simp] theorem csrBump_blocks (s : State) (a hi lo n : Nat) : (csrBump s a hi lo n).blocks = s.blocks := rfl
@[simp] theorem csrBump_hubBlock (s : State) (a hi lo n : Nat) : (csrBump s a hi lo n).hubBlock = s.hubBlock := rfl
@[simp] theorem csrBump_lath (s : State) (a hi lo n : Nat) : (csrBump s a hi lo n).lath = s.lath := rfl
@[simp] theorem csrBump_net (s : State) (a hi lo n : Nat) : (csrBump s a hi lo n).net = s.net := rfl
@[simp] theorem csrBump_coll (s : State) (a hi lo n : Nat) : (csrBump s a hi lo n).coll = s.coll := rfl
@[simp] theorem csrBump_snag (s : State) (a hi lo n : Nat) : (csrBump s a hi lo n).snag = s.snag := rfl
@[simp] theorem csrBump_time (s : State) (a hi lo n : Nat) : (csrBump s a hi lo n).time = s.time := rfl
@[simp] theorem csrBump_power (s : State) (a hi lo n : Nat) : (csrBump s a hi lo n).power = s.power := rfl
@[simp] theorem csrBump_boot (s : State) (a hi lo n : Nat) : (csrBump s a hi lo n).boot = s.boot := rfl
@[simp] theorem csrBump_plumb (s : State) (a hi lo n : Nat) : (csrBump s a hi lo n).plumb = s.plumb := rfl
@[simp] theorem csrBump_settings (s : State) (a hi lo n : Nat) : (csrBump s a hi lo n).settings = s.settings := rfl
@[simp] theorem csrBump_free (s : State) (a hi lo n : Nat) : (csrBump s a hi lo n).free = s.free := rfl

/-! `csrPut64`. -/

@[simp] theorem csrPut64_pending (s : State) (a v : Nat) : (csrPut64 s a v).pending = s.pending := rfl
@[simp] theorem csrPut64_queues (s : State) (a v : Nat) : (csrPut64 s a v).queues = s.queues := rfl
@[simp] theorem csrPut64_flights (s : State) (a v : Nat) : (csrPut64 s a v).flights = s.flights := rfl
@[simp] theorem csrPut64_job (s : State) (a v : Nat) : (csrPut64 s a v).job = s.job := rfl
@[simp] theorem csrPut64_hawk (s : State) (a v : Nat) : (csrPut64 s a v).hawk = s.hawk := rfl
@[simp] theorem csrPut64_step (s : State) (a v : Nat) : (csrPut64 s a v).step = s.step := rfl
@[simp] theorem csrPut64_chip (s : State) (a v : Nat) : (csrPut64 s a v).chip = s.chip := rfl
@[simp] theorem csrPut64_runs (s : State) (a v : Nat) : (csrPut64 s a v).runs = s.runs := rfl
@[simp] theorem csrPut64_held (s : State) (a v : Nat) : (csrPut64 s a v).held = s.held := rfl
@[simp] theorem csrPut64_mem (s : State) (a v : Nat) : (csrPut64 s a v).mem = s.mem := rfl
@[simp] theorem csrPut64_topcoat (s : State) (a v : Nat) : (csrPut64 s a v).topcoat = s.topcoat := rfl
@[simp] theorem csrPut64_blocks (s : State) (a v : Nat) : (csrPut64 s a v).blocks = s.blocks := rfl
@[simp] theorem csrPut64_hubBlock (s : State) (a v : Nat) : (csrPut64 s a v).hubBlock = s.hubBlock := rfl
@[simp] theorem csrPut64_lath (s : State) (a v : Nat) : (csrPut64 s a v).lath = s.lath := rfl
@[simp] theorem csrPut64_net (s : State) (a v : Nat) : (csrPut64 s a v).net = s.net := rfl
@[simp] theorem csrPut64_coll (s : State) (a v : Nat) : (csrPut64 s a v).coll = s.coll := rfl
@[simp] theorem csrPut64_snag (s : State) (a v : Nat) : (csrPut64 s a v).snag = s.snag := rfl
@[simp] theorem csrPut64_time (s : State) (a v : Nat) : (csrPut64 s a v).time = s.time := rfl
@[simp] theorem csrPut64_power (s : State) (a v : Nat) : (csrPut64 s a v).power = s.power := rfl
@[simp] theorem csrPut64_boot (s : State) (a v : Nat) : (csrPut64 s a v).boot = s.boot := rfl
@[simp] theorem csrPut64_plumb (s : State) (a v : Nat) : (csrPut64 s a v).plumb = s.plumb := rfl
@[simp] theorem csrPut64_settings (s : State) (a v : Nat) : (csrPut64 s a v).settings = s.settings := rfl
@[simp] theorem csrPut64_free (s : State) (a v : Nat) : (csrPut64 s a v).free = s.free := rfl

/-! `settingNote`. -/

@[simp] theorem settingNote_pending (s : State) (a : Nat) : (settingNote s a).pending = s.pending := rfl
@[simp] theorem settingNote_csr (s : State) (a : Nat) : (settingNote s a).csr = s.csr := rfl
@[simp] theorem settingNote_queues (s : State) (a : Nat) : (settingNote s a).queues = s.queues := rfl
@[simp] theorem settingNote_flights (s : State) (a : Nat) : (settingNote s a).flights = s.flights := rfl
@[simp] theorem settingNote_job (s : State) (a : Nat) : (settingNote s a).job = s.job := rfl
@[simp] theorem settingNote_hawk (s : State) (a : Nat) : (settingNote s a).hawk = s.hawk := rfl
@[simp] theorem settingNote_step (s : State) (a : Nat) : (settingNote s a).step = s.step := rfl
@[simp] theorem settingNote_chip (s : State) (a : Nat) : (settingNote s a).chip = s.chip := rfl
@[simp] theorem settingNote_runs (s : State) (a : Nat) : (settingNote s a).runs = s.runs := rfl
@[simp] theorem settingNote_held (s : State) (a : Nat) : (settingNote s a).held = s.held := rfl
@[simp] theorem settingNote_mem (s : State) (a : Nat) : (settingNote s a).mem = s.mem := rfl
@[simp] theorem settingNote_topcoat (s : State) (a : Nat) : (settingNote s a).topcoat = s.topcoat := rfl
@[simp] theorem settingNote_blocks (s : State) (a : Nat) : (settingNote s a).blocks = s.blocks := rfl
@[simp] theorem settingNote_hubBlock (s : State) (a : Nat) : (settingNote s a).hubBlock = s.hubBlock := rfl
@[simp] theorem settingNote_lath (s : State) (a : Nat) : (settingNote s a).lath = s.lath := rfl
@[simp] theorem settingNote_net (s : State) (a : Nat) : (settingNote s a).net = s.net := rfl
@[simp] theorem settingNote_coll (s : State) (a : Nat) : (settingNote s a).coll = s.coll := rfl
@[simp] theorem settingNote_snag (s : State) (a : Nat) : (settingNote s a).snag = s.snag := rfl
@[simp] theorem settingNote_time (s : State) (a : Nat) : (settingNote s a).time = s.time := rfl
@[simp] theorem settingNote_power (s : State) (a : Nat) : (settingNote s a).power = s.power := rfl
@[simp] theorem settingNote_boot (s : State) (a : Nat) : (settingNote s a).boot = s.boot := rfl
@[simp] theorem settingNote_plumb (s : State) (a : Nat) : (settingNote s a).plumb = s.plumb := rfl
@[simp] theorem settingNote_free (s : State) (a : Nat) : (settingNote s a).free = s.free := rfl

/-! `flashWrite`. -/

@[simp] theorem flashWrite_pending (s : State) (a : Nat) (bs : List Byte) : (flashWrite s a bs).pending = s.pending := rfl
@[simp] theorem flashWrite_csr (s : State) (a : Nat) (bs : List Byte) : (flashWrite s a bs).csr = s.csr := rfl
@[simp] theorem flashWrite_queues (s : State) (a : Nat) (bs : List Byte) : (flashWrite s a bs).queues = s.queues := rfl
@[simp] theorem flashWrite_flights (s : State) (a : Nat) (bs : List Byte) : (flashWrite s a bs).flights = s.flights := rfl
@[simp] theorem flashWrite_job (s : State) (a : Nat) (bs : List Byte) : (flashWrite s a bs).job = s.job := rfl
@[simp] theorem flashWrite_hawk (s : State) (a : Nat) (bs : List Byte) : (flashWrite s a bs).hawk = s.hawk := rfl
@[simp] theorem flashWrite_step (s : State) (a : Nat) (bs : List Byte) : (flashWrite s a bs).step = s.step := rfl
@[simp] theorem flashWrite_chip (s : State) (a : Nat) (bs : List Byte) : (flashWrite s a bs).chip = s.chip := rfl
@[simp] theorem flashWrite_runs (s : State) (a : Nat) (bs : List Byte) : (flashWrite s a bs).runs = s.runs := rfl
@[simp] theorem flashWrite_held (s : State) (a : Nat) (bs : List Byte) : (flashWrite s a bs).held = s.held := rfl
@[simp] theorem flashWrite_mem (s : State) (a : Nat) (bs : List Byte) : (flashWrite s a bs).mem = s.mem := rfl
@[simp] theorem flashWrite_topcoat (s : State) (a : Nat) (bs : List Byte) : (flashWrite s a bs).topcoat = s.topcoat := rfl
@[simp] theorem flashWrite_blocks (s : State) (a : Nat) (bs : List Byte) : (flashWrite s a bs).blocks = s.blocks := rfl
@[simp] theorem flashWrite_hubBlock (s : State) (a : Nat) (bs : List Byte) : (flashWrite s a bs).hubBlock = s.hubBlock := rfl
@[simp] theorem flashWrite_lath (s : State) (a : Nat) (bs : List Byte) : (flashWrite s a bs).lath = s.lath := rfl
@[simp] theorem flashWrite_net (s : State) (a : Nat) (bs : List Byte) : (flashWrite s a bs).net = s.net := rfl
@[simp] theorem flashWrite_coll (s : State) (a : Nat) (bs : List Byte) : (flashWrite s a bs).coll = s.coll := rfl
@[simp] theorem flashWrite_snag (s : State) (a : Nat) (bs : List Byte) : (flashWrite s a bs).snag = s.snag := rfl
@[simp] theorem flashWrite_time (s : State) (a : Nat) (bs : List Byte) : (flashWrite s a bs).time = s.time := rfl
@[simp] theorem flashWrite_power (s : State) (a : Nat) (bs : List Byte) : (flashWrite s a bs).power = s.power := rfl
@[simp] theorem flashWrite_plumb (s : State) (a : Nat) (bs : List Byte) : (flashWrite s a bs).plumb = s.plumb := rfl
@[simp] theorem flashWrite_settings (s : State) (a : Nat) (bs : List Byte) : (flashWrite s a bs).settings = s.settings := rfl
@[simp] theorem flashWrite_free (s : State) (a : Nat) (bs : List Byte) : (flashWrite s a bs).free = s.free := rfl

/-! `memStore`. -/

@[simp] theorem memStore_pending (s : State) (a : Nat) (bs : List Byte) : (memStore s a bs).pending = s.pending := rfl
@[simp] theorem memStore_csr (s : State) (a : Nat) (bs : List Byte) : (memStore s a bs).csr = s.csr := rfl
@[simp] theorem memStore_queues (s : State) (a : Nat) (bs : List Byte) : (memStore s a bs).queues = s.queues := rfl
@[simp] theorem memStore_flights (s : State) (a : Nat) (bs : List Byte) : (memStore s a bs).flights = s.flights := rfl
@[simp] theorem memStore_job (s : State) (a : Nat) (bs : List Byte) : (memStore s a bs).job = s.job := rfl
@[simp] theorem memStore_hawk (s : State) (a : Nat) (bs : List Byte) : (memStore s a bs).hawk = s.hawk := rfl
@[simp] theorem memStore_step (s : State) (a : Nat) (bs : List Byte) : (memStore s a bs).step = s.step := rfl
@[simp] theorem memStore_chip (s : State) (a : Nat) (bs : List Byte) : (memStore s a bs).chip = s.chip := rfl
@[simp] theorem memStore_runs (s : State) (a : Nat) (bs : List Byte) : (memStore s a bs).runs = s.runs := rfl
@[simp] theorem memStore_held (s : State) (a : Nat) (bs : List Byte) : (memStore s a bs).held = s.held := rfl
@[simp] theorem memStore_topcoat (s : State) (a : Nat) (bs : List Byte) : (memStore s a bs).topcoat = s.topcoat := rfl
@[simp] theorem memStore_blocks (s : State) (a : Nat) (bs : List Byte) : (memStore s a bs).blocks = s.blocks := rfl
@[simp] theorem memStore_hubBlock (s : State) (a : Nat) (bs : List Byte) : (memStore s a bs).hubBlock = s.hubBlock := rfl
@[simp] theorem memStore_lath (s : State) (a : Nat) (bs : List Byte) : (memStore s a bs).lath = s.lath := rfl
@[simp] theorem memStore_net (s : State) (a : Nat) (bs : List Byte) : (memStore s a bs).net = s.net := rfl
@[simp] theorem memStore_coll (s : State) (a : Nat) (bs : List Byte) : (memStore s a bs).coll = s.coll := rfl
@[simp] theorem memStore_snag (s : State) (a : Nat) (bs : List Byte) : (memStore s a bs).snag = s.snag := rfl
@[simp] theorem memStore_time (s : State) (a : Nat) (bs : List Byte) : (memStore s a bs).time = s.time := rfl
@[simp] theorem memStore_power (s : State) (a : Nat) (bs : List Byte) : (memStore s a bs).power = s.power := rfl
@[simp] theorem memStore_boot (s : State) (a : Nat) (bs : List Byte) : (memStore s a bs).boot = s.boot := rfl
@[simp] theorem memStore_plumb (s : State) (a : Nat) (bs : List Byte) : (memStore s a bs).plumb = s.plumb := rfl
@[simp] theorem memStore_settings (s : State) (a : Nat) (bs : List Byte) : (memStore s a bs).settings = s.settings := rfl
@[simp] theorem memStore_free (s : State) (a : Nat) (bs : List Byte) : (memStore s a bs).free = s.free := rfl

/-! `setErrs`. -/

@[simp] theorem setErrs_pending (s : State) (k : Nat) (e : List (Nat × Nat)) : (setErrs s k e).pending = s.pending := rfl
@[simp] theorem setErrs_csr (s : State) (k : Nat) (e : List (Nat × Nat)) : (setErrs s k e).csr = s.csr := rfl
@[simp] theorem setErrs_queues (s : State) (k : Nat) (e : List (Nat × Nat)) : (setErrs s k e).queues = s.queues := rfl
@[simp] theorem setErrs_flights (s : State) (k : Nat) (e : List (Nat × Nat)) : (setErrs s k e).flights = s.flights := rfl
@[simp] theorem setErrs_job (s : State) (k : Nat) (e : List (Nat × Nat)) : (setErrs s k e).job = s.job := rfl
@[simp] theorem setErrs_hawk (s : State) (k : Nat) (e : List (Nat × Nat)) : (setErrs s k e).hawk = s.hawk := rfl
@[simp] theorem setErrs_step (s : State) (k : Nat) (e : List (Nat × Nat)) : (setErrs s k e).step = s.step := rfl
@[simp] theorem setErrs_chip (s : State) (k : Nat) (e : List (Nat × Nat)) : (setErrs s k e).chip = s.chip := rfl
@[simp] theorem setErrs_runs (s : State) (k : Nat) (e : List (Nat × Nat)) : (setErrs s k e).runs = s.runs := rfl
@[simp] theorem setErrs_held (s : State) (k : Nat) (e : List (Nat × Nat)) : (setErrs s k e).held = s.held := rfl
@[simp] theorem setErrs_topcoat (s : State) (k : Nat) (e : List (Nat × Nat)) : (setErrs s k e).topcoat = s.topcoat := rfl
@[simp] theorem setErrs_blocks (s : State) (k : Nat) (e : List (Nat × Nat)) : (setErrs s k e).blocks = s.blocks := rfl
@[simp] theorem setErrs_hubBlock (s : State) (k : Nat) (e : List (Nat × Nat)) : (setErrs s k e).hubBlock = s.hubBlock := rfl
@[simp] theorem setErrs_lath (s : State) (k : Nat) (e : List (Nat × Nat)) : (setErrs s k e).lath = s.lath := rfl
@[simp] theorem setErrs_net (s : State) (k : Nat) (e : List (Nat × Nat)) : (setErrs s k e).net = s.net := rfl
@[simp] theorem setErrs_coll (s : State) (k : Nat) (e : List (Nat × Nat)) : (setErrs s k e).coll = s.coll := rfl
@[simp] theorem setErrs_snag (s : State) (k : Nat) (e : List (Nat × Nat)) : (setErrs s k e).snag = s.snag := rfl
@[simp] theorem setErrs_time (s : State) (k : Nat) (e : List (Nat × Nat)) : (setErrs s k e).time = s.time := rfl
@[simp] theorem setErrs_power (s : State) (k : Nat) (e : List (Nat × Nat)) : (setErrs s k e).power = s.power := rfl
@[simp] theorem setErrs_boot (s : State) (k : Nat) (e : List (Nat × Nat)) : (setErrs s k e).boot = s.boot := rfl
@[simp] theorem setErrs_plumb (s : State) (k : Nat) (e : List (Nat × Nat)) : (setErrs s k e).plumb = s.plumb := rfl
@[simp] theorem setErrs_settings (s : State) (k : Nat) (e : List (Nat × Nat)) : (setErrs s k e).settings = s.settings := rfl
@[simp] theorem setErrs_free (s : State) (k : Nat) (e : List (Nat × Nat)) : (setErrs s k e).free = s.free := rfl

/-! `noteCorr`. -/

@[simp] theorem noteCorr_pending (s : State) (kind unit pos : Nat) : (noteCorr s kind unit pos).pending = s.pending := rfl
@[simp] theorem noteCorr_csr (s : State) (kind unit pos : Nat) : (noteCorr s kind unit pos).csr = s.csr := rfl
@[simp] theorem noteCorr_queues (s : State) (kind unit pos : Nat) : (noteCorr s kind unit pos).queues = s.queues := rfl
@[simp] theorem noteCorr_flights (s : State) (kind unit pos : Nat) : (noteCorr s kind unit pos).flights = s.flights := rfl
@[simp] theorem noteCorr_job (s : State) (kind unit pos : Nat) : (noteCorr s kind unit pos).job = s.job := rfl
@[simp] theorem noteCorr_hawk (s : State) (kind unit pos : Nat) : (noteCorr s kind unit pos).hawk = s.hawk := rfl
@[simp] theorem noteCorr_step (s : State) (kind unit pos : Nat) : (noteCorr s kind unit pos).step = s.step := rfl
@[simp] theorem noteCorr_chip (s : State) (kind unit pos : Nat) : (noteCorr s kind unit pos).chip = s.chip := rfl
@[simp] theorem noteCorr_runs (s : State) (kind unit pos : Nat) : (noteCorr s kind unit pos).runs = s.runs := rfl
@[simp] theorem noteCorr_held (s : State) (kind unit pos : Nat) : (noteCorr s kind unit pos).held = s.held := rfl
@[simp] theorem noteCorr_mem (s : State) (kind unit pos : Nat) : (noteCorr s kind unit pos).mem = s.mem := rfl
@[simp] theorem noteCorr_topcoat (s : State) (kind unit pos : Nat) : (noteCorr s kind unit pos).topcoat = s.topcoat := rfl
@[simp] theorem noteCorr_blocks (s : State) (kind unit pos : Nat) : (noteCorr s kind unit pos).blocks = s.blocks := rfl
@[simp] theorem noteCorr_hubBlock (s : State) (kind unit pos : Nat) : (noteCorr s kind unit pos).hubBlock = s.hubBlock := rfl
@[simp] theorem noteCorr_lath (s : State) (kind unit pos : Nat) : (noteCorr s kind unit pos).lath = s.lath := rfl
@[simp] theorem noteCorr_net (s : State) (kind unit pos : Nat) : (noteCorr s kind unit pos).net = s.net := rfl
@[simp] theorem noteCorr_coll (s : State) (kind unit pos : Nat) : (noteCorr s kind unit pos).coll = s.coll := rfl
@[simp] theorem noteCorr_time (s : State) (kind unit pos : Nat) : (noteCorr s kind unit pos).time = s.time := rfl
@[simp] theorem noteCorr_power (s : State) (kind unit pos : Nat) : (noteCorr s kind unit pos).power = s.power := rfl
@[simp] theorem noteCorr_boot (s : State) (kind unit pos : Nat) : (noteCorr s kind unit pos).boot = s.boot := rfl
@[simp] theorem noteCorr_plumb (s : State) (kind unit pos : Nat) : (noteCorr s kind unit pos).plumb = s.plumb := rfl
@[simp] theorem noteCorr_settings (s : State) (kind unit pos : Nat) : (noteCorr s kind unit pos).settings = s.settings := rfl
@[simp] theorem noteCorr_free (s : State) (kind unit pos : Nat) : (noteCorr s kind unit pos).free = s.free := rfl

/-! `snagPush`. -/

@[simp] theorem snagPush_pending (s : State) (bs : List Byte) : (snagPush s bs).pending = s.pending := rfl
@[simp] theorem snagPush_queues (s : State) (bs : List Byte) : (snagPush s bs).queues = s.queues := rfl
@[simp] theorem snagPush_flights (s : State) (bs : List Byte) : (snagPush s bs).flights = s.flights := rfl
@[simp] theorem snagPush_job (s : State) (bs : List Byte) : (snagPush s bs).job = s.job := rfl
@[simp] theorem snagPush_hawk (s : State) (bs : List Byte) : (snagPush s bs).hawk = s.hawk := rfl
@[simp] theorem snagPush_step (s : State) (bs : List Byte) : (snagPush s bs).step = s.step := rfl
@[simp] theorem snagPush_chip (s : State) (bs : List Byte) : (snagPush s bs).chip = s.chip := rfl
@[simp] theorem snagPush_runs (s : State) (bs : List Byte) : (snagPush s bs).runs = s.runs := rfl
@[simp] theorem snagPush_held (s : State) (bs : List Byte) : (snagPush s bs).held = s.held := rfl
@[simp] theorem snagPush_mem (s : State) (bs : List Byte) : (snagPush s bs).mem = s.mem := rfl
@[simp] theorem snagPush_topcoat (s : State) (bs : List Byte) : (snagPush s bs).topcoat = s.topcoat := rfl
@[simp] theorem snagPush_blocks (s : State) (bs : List Byte) : (snagPush s bs).blocks = s.blocks := rfl
@[simp] theorem snagPush_hubBlock (s : State) (bs : List Byte) : (snagPush s bs).hubBlock = s.hubBlock := rfl
@[simp] theorem snagPush_lath (s : State) (bs : List Byte) : (snagPush s bs).lath = s.lath := rfl
@[simp] theorem snagPush_net (s : State) (bs : List Byte) : (snagPush s bs).net = s.net := rfl
@[simp] theorem snagPush_coll (s : State) (bs : List Byte) : (snagPush s bs).coll = s.coll := rfl
@[simp] theorem snagPush_time (s : State) (bs : List Byte) : (snagPush s bs).time = s.time := rfl
@[simp] theorem snagPush_power (s : State) (bs : List Byte) : (snagPush s bs).power = s.power := rfl
@[simp] theorem snagPush_boot (s : State) (bs : List Byte) : (snagPush s bs).boot = s.boot := rfl
@[simp] theorem snagPush_plumb (s : State) (bs : List Byte) : (snagPush s bs).plumb = s.plumb := rfl
@[simp] theorem snagPush_settings (s : State) (bs : List Byte) : (snagPush s bs).settings = s.settings := rfl
@[simp] theorem snagPush_free (s : State) (bs : List Byte) : (snagPush s bs).free = s.free := rfl

/-! `coreWrite`. -/

@[simp] theorem coreWrite_pending (s : State) (pc off : Nat) (bs : List Byte) : (coreWrite s pc off bs).pending = s.pending := rfl
@[simp] theorem coreWrite_csr (s : State) (pc off : Nat) (bs : List Byte) : (coreWrite s pc off bs).csr = s.csr := rfl
@[simp] theorem coreWrite_queues (s : State) (pc off : Nat) (bs : List Byte) : (coreWrite s pc off bs).queues = s.queues := rfl
@[simp] theorem coreWrite_flights (s : State) (pc off : Nat) (bs : List Byte) : (coreWrite s pc off bs).flights = s.flights := rfl
@[simp] theorem coreWrite_job (s : State) (pc off : Nat) (bs : List Byte) : (coreWrite s pc off bs).job = s.job := rfl
@[simp] theorem coreWrite_hawk (s : State) (pc off : Nat) (bs : List Byte) : (coreWrite s pc off bs).hawk = s.hawk := rfl
@[simp] theorem coreWrite_step (s : State) (pc off : Nat) (bs : List Byte) : (coreWrite s pc off bs).step = s.step := rfl
@[simp] theorem coreWrite_runs (s : State) (pc off : Nat) (bs : List Byte) : (coreWrite s pc off bs).runs = s.runs := rfl
@[simp] theorem coreWrite_held (s : State) (pc off : Nat) (bs : List Byte) : (coreWrite s pc off bs).held = s.held := rfl
@[simp] theorem coreWrite_mem (s : State) (pc off : Nat) (bs : List Byte) : (coreWrite s pc off bs).mem = s.mem := rfl
@[simp] theorem coreWrite_topcoat (s : State) (pc off : Nat) (bs : List Byte) : (coreWrite s pc off bs).topcoat = s.topcoat := rfl
@[simp] theorem coreWrite_blocks (s : State) (pc off : Nat) (bs : List Byte) : (coreWrite s pc off bs).blocks = s.blocks := rfl
@[simp] theorem coreWrite_hubBlock (s : State) (pc off : Nat) (bs : List Byte) : (coreWrite s pc off bs).hubBlock = s.hubBlock := rfl
@[simp] theorem coreWrite_lath (s : State) (pc off : Nat) (bs : List Byte) : (coreWrite s pc off bs).lath = s.lath := rfl
@[simp] theorem coreWrite_net (s : State) (pc off : Nat) (bs : List Byte) : (coreWrite s pc off bs).net = s.net := rfl
@[simp] theorem coreWrite_coll (s : State) (pc off : Nat) (bs : List Byte) : (coreWrite s pc off bs).coll = s.coll := rfl
@[simp] theorem coreWrite_snag (s : State) (pc off : Nat) (bs : List Byte) : (coreWrite s pc off bs).snag = s.snag := rfl
@[simp] theorem coreWrite_time (s : State) (pc off : Nat) (bs : List Byte) : (coreWrite s pc off bs).time = s.time := rfl
@[simp] theorem coreWrite_power (s : State) (pc off : Nat) (bs : List Byte) : (coreWrite s pc off bs).power = s.power := rfl
@[simp] theorem coreWrite_boot (s : State) (pc off : Nat) (bs : List Byte) : (coreWrite s pc off bs).boot = s.boot := rfl
@[simp] theorem coreWrite_plumb (s : State) (pc off : Nat) (bs : List Byte) : (coreWrite s pc off bs).plumb = s.plumb := rfl
@[simp] theorem coreWrite_settings (s : State) (pc off : Nat) (bs : List Byte) : (coreWrite s pc off bs).settings = s.settings := rfl
@[simp] theorem coreWrite_free (s : State) (pc off : Nat) (bs : List Byte) : (coreWrite s pc off bs).free = s.free := rfl

/-! `tilePut`. -/

@[simp] theorem tilePut_pending (s : State) (pe t : Nat) (x : Tile) : (tilePut s pe t x).pending = s.pending := rfl
@[simp] theorem tilePut_csr (s : State) (pe t : Nat) (x : Tile) : (tilePut s pe t x).csr = s.csr := rfl
@[simp] theorem tilePut_queues (s : State) (pe t : Nat) (x : Tile) : (tilePut s pe t x).queues = s.queues := rfl
@[simp] theorem tilePut_flights (s : State) (pe t : Nat) (x : Tile) : (tilePut s pe t x).flights = s.flights := rfl
@[simp] theorem tilePut_job (s : State) (pe t : Nat) (x : Tile) : (tilePut s pe t x).job = s.job := rfl
@[simp] theorem tilePut_hawk (s : State) (pe t : Nat) (x : Tile) : (tilePut s pe t x).hawk = s.hawk := rfl
@[simp] theorem tilePut_step (s : State) (pe t : Nat) (x : Tile) : (tilePut s pe t x).step = s.step := rfl
@[simp] theorem tilePut_runs (s : State) (pe t : Nat) (x : Tile) : (tilePut s pe t x).runs = s.runs := rfl
@[simp] theorem tilePut_held (s : State) (pe t : Nat) (x : Tile) : (tilePut s pe t x).held = s.held := rfl
@[simp] theorem tilePut_mem (s : State) (pe t : Nat) (x : Tile) : (tilePut s pe t x).mem = s.mem := rfl
@[simp] theorem tilePut_topcoat (s : State) (pe t : Nat) (x : Tile) : (tilePut s pe t x).topcoat = s.topcoat := rfl
@[simp] theorem tilePut_blocks (s : State) (pe t : Nat) (x : Tile) : (tilePut s pe t x).blocks = s.blocks := rfl
@[simp] theorem tilePut_hubBlock (s : State) (pe t : Nat) (x : Tile) : (tilePut s pe t x).hubBlock = s.hubBlock := rfl
@[simp] theorem tilePut_lath (s : State) (pe t : Nat) (x : Tile) : (tilePut s pe t x).lath = s.lath := rfl
@[simp] theorem tilePut_net (s : State) (pe t : Nat) (x : Tile) : (tilePut s pe t x).net = s.net := rfl
@[simp] theorem tilePut_coll (s : State) (pe t : Nat) (x : Tile) : (tilePut s pe t x).coll = s.coll := rfl
@[simp] theorem tilePut_snag (s : State) (pe t : Nat) (x : Tile) : (tilePut s pe t x).snag = s.snag := rfl
@[simp] theorem tilePut_time (s : State) (pe t : Nat) (x : Tile) : (tilePut s pe t x).time = s.time := rfl
@[simp] theorem tilePut_power (s : State) (pe t : Nat) (x : Tile) : (tilePut s pe t x).power = s.power := rfl
@[simp] theorem tilePut_boot (s : State) (pe t : Nat) (x : Tile) : (tilePut s pe t x).boot = s.boot := rfl
@[simp] theorem tilePut_plumb (s : State) (pe t : Nat) (x : Tile) : (tilePut s pe t x).plumb = s.plumb := rfl
@[simp] theorem tilePut_settings (s : State) (pe t : Nat) (x : Tile) : (tilePut s pe t x).settings = s.settings := rfl
@[simp] theorem tilePut_free (s : State) (pe t : Nat) (x : Tile) : (tilePut s pe t x).free = s.free := rfl

/-! `queuePut`. -/

@[simp] theorem queuePut_pending (s : State) (q : Nat) (x : Queue) : (queuePut s q x).pending = s.pending := rfl
@[simp] theorem queuePut_csr (s : State) (q : Nat) (x : Queue) : (queuePut s q x).csr = s.csr := rfl
@[simp] theorem queuePut_flights (s : State) (q : Nat) (x : Queue) : (queuePut s q x).flights = s.flights := rfl
@[simp] theorem queuePut_job (s : State) (q : Nat) (x : Queue) : (queuePut s q x).job = s.job := rfl
@[simp] theorem queuePut_hawk (s : State) (q : Nat) (x : Queue) : (queuePut s q x).hawk = s.hawk := rfl
@[simp] theorem queuePut_step (s : State) (q : Nat) (x : Queue) : (queuePut s q x).step = s.step := rfl
@[simp] theorem queuePut_chip (s : State) (q : Nat) (x : Queue) : (queuePut s q x).chip = s.chip := rfl
@[simp] theorem queuePut_runs (s : State) (q : Nat) (x : Queue) : (queuePut s q x).runs = s.runs := rfl
@[simp] theorem queuePut_held (s : State) (q : Nat) (x : Queue) : (queuePut s q x).held = s.held := rfl
@[simp] theorem queuePut_mem (s : State) (q : Nat) (x : Queue) : (queuePut s q x).mem = s.mem := rfl
@[simp] theorem queuePut_topcoat (s : State) (q : Nat) (x : Queue) : (queuePut s q x).topcoat = s.topcoat := rfl
@[simp] theorem queuePut_blocks (s : State) (q : Nat) (x : Queue) : (queuePut s q x).blocks = s.blocks := rfl
@[simp] theorem queuePut_hubBlock (s : State) (q : Nat) (x : Queue) : (queuePut s q x).hubBlock = s.hubBlock := rfl
@[simp] theorem queuePut_lath (s : State) (q : Nat) (x : Queue) : (queuePut s q x).lath = s.lath := rfl
@[simp] theorem queuePut_net (s : State) (q : Nat) (x : Queue) : (queuePut s q x).net = s.net := rfl
@[simp] theorem queuePut_coll (s : State) (q : Nat) (x : Queue) : (queuePut s q x).coll = s.coll := rfl
@[simp] theorem queuePut_snag (s : State) (q : Nat) (x : Queue) : (queuePut s q x).snag = s.snag := rfl
@[simp] theorem queuePut_time (s : State) (q : Nat) (x : Queue) : (queuePut s q x).time = s.time := rfl
@[simp] theorem queuePut_power (s : State) (q : Nat) (x : Queue) : (queuePut s q x).power = s.power := rfl
@[simp] theorem queuePut_boot (s : State) (q : Nat) (x : Queue) : (queuePut s q x).boot = s.boot := rfl
@[simp] theorem queuePut_plumb (s : State) (q : Nat) (x : Queue) : (queuePut s q x).plumb = s.plumb := rfl
@[simp] theorem queuePut_settings (s : State) (q : Nat) (x : Queue) : (queuePut s q x).settings = s.settings := rfl
@[simp] theorem queuePut_free (s : State) (q : Nat) (x : Queue) : (queuePut s q x).free = s.free := rfl

/-! `scrCount`. -/

@[simp] theorem scrCount_pending (s : State) (i n : Nat) : (scrCount s i n).pending = s.pending := rfl
@[simp] theorem scrCount_queues (s : State) (i n : Nat) : (scrCount s i n).queues = s.queues := rfl
@[simp] theorem scrCount_flights (s : State) (i n : Nat) : (scrCount s i n).flights = s.flights := rfl
@[simp] theorem scrCount_job (s : State) (i n : Nat) : (scrCount s i n).job = s.job := rfl
@[simp] theorem scrCount_hawk (s : State) (i n : Nat) : (scrCount s i n).hawk = s.hawk := rfl
@[simp] theorem scrCount_step (s : State) (i n : Nat) : (scrCount s i n).step = s.step := rfl
@[simp] theorem scrCount_chip (s : State) (i n : Nat) : (scrCount s i n).chip = s.chip := rfl
@[simp] theorem scrCount_runs (s : State) (i n : Nat) : (scrCount s i n).runs = s.runs := rfl
@[simp] theorem scrCount_held (s : State) (i n : Nat) : (scrCount s i n).held = s.held := rfl
@[simp] theorem scrCount_mem (s : State) (i n : Nat) : (scrCount s i n).mem = s.mem := rfl
@[simp] theorem scrCount_topcoat (s : State) (i n : Nat) : (scrCount s i n).topcoat = s.topcoat := rfl
@[simp] theorem scrCount_blocks (s : State) (i n : Nat) : (scrCount s i n).blocks = s.blocks := rfl
@[simp] theorem scrCount_hubBlock (s : State) (i n : Nat) : (scrCount s i n).hubBlock = s.hubBlock := rfl
@[simp] theorem scrCount_lath (s : State) (i n : Nat) : (scrCount s i n).lath = s.lath := rfl
@[simp] theorem scrCount_net (s : State) (i n : Nat) : (scrCount s i n).net = s.net := rfl
@[simp] theorem scrCount_coll (s : State) (i n : Nat) : (scrCount s i n).coll = s.coll := rfl
@[simp] theorem scrCount_snag (s : State) (i n : Nat) : (scrCount s i n).snag = s.snag := rfl
@[simp] theorem scrCount_time (s : State) (i n : Nat) : (scrCount s i n).time = s.time := rfl
@[simp] theorem scrCount_power (s : State) (i n : Nat) : (scrCount s i n).power = s.power := rfl
@[simp] theorem scrCount_boot (s : State) (i n : Nat) : (scrCount s i n).boot = s.boot := rfl
@[simp] theorem scrCount_plumb (s : State) (i n : Nat) : (scrCount s i n).plumb = s.plumb := rfl
@[simp] theorem scrCount_settings (s : State) (i n : Nat) : (scrCount s i n).settings = s.settings := rfl
@[simp] theorem scrCount_free (s : State) (i n : Nat) : (scrCount s i n).free = s.free := rfl

/-! `sendFrame`. -/

@[simp] theorem sendFrame_pending (s : State) (port : Nat) (ip : List Byte) (sport dport cls : Nat) (payload : List Byte) : (sendFrame s port ip sport dport cls payload).pending = s.pending := rfl
@[simp] theorem sendFrame_csr (s : State) (port : Nat) (ip : List Byte) (sport dport cls : Nat) (payload : List Byte) : (sendFrame s port ip sport dport cls payload).csr = s.csr := rfl
@[simp] theorem sendFrame_queues (s : State) (port : Nat) (ip : List Byte) (sport dport cls : Nat) (payload : List Byte) : (sendFrame s port ip sport dport cls payload).queues = s.queues := rfl
@[simp] theorem sendFrame_flights (s : State) (port : Nat) (ip : List Byte) (sport dport cls : Nat) (payload : List Byte) : (sendFrame s port ip sport dport cls payload).flights = s.flights := rfl
@[simp] theorem sendFrame_job (s : State) (port : Nat) (ip : List Byte) (sport dport cls : Nat) (payload : List Byte) : (sendFrame s port ip sport dport cls payload).job = s.job := rfl
@[simp] theorem sendFrame_hawk (s : State) (port : Nat) (ip : List Byte) (sport dport cls : Nat) (payload : List Byte) : (sendFrame s port ip sport dport cls payload).hawk = s.hawk := rfl
@[simp] theorem sendFrame_step (s : State) (port : Nat) (ip : List Byte) (sport dport cls : Nat) (payload : List Byte) : (sendFrame s port ip sport dport cls payload).step = s.step := rfl
@[simp] theorem sendFrame_chip (s : State) (port : Nat) (ip : List Byte) (sport dport cls : Nat) (payload : List Byte) : (sendFrame s port ip sport dport cls payload).chip = s.chip := rfl
@[simp] theorem sendFrame_runs (s : State) (port : Nat) (ip : List Byte) (sport dport cls : Nat) (payload : List Byte) : (sendFrame s port ip sport dport cls payload).runs = s.runs := rfl
@[simp] theorem sendFrame_held (s : State) (port : Nat) (ip : List Byte) (sport dport cls : Nat) (payload : List Byte) : (sendFrame s port ip sport dport cls payload).held = s.held := rfl
@[simp] theorem sendFrame_mem (s : State) (port : Nat) (ip : List Byte) (sport dport cls : Nat) (payload : List Byte) : (sendFrame s port ip sport dport cls payload).mem = s.mem := rfl
@[simp] theorem sendFrame_topcoat (s : State) (port : Nat) (ip : List Byte) (sport dport cls : Nat) (payload : List Byte) : (sendFrame s port ip sport dport cls payload).topcoat = s.topcoat := rfl
@[simp] theorem sendFrame_blocks (s : State) (port : Nat) (ip : List Byte) (sport dport cls : Nat) (payload : List Byte) : (sendFrame s port ip sport dport cls payload).blocks = s.blocks := rfl
@[simp] theorem sendFrame_hubBlock (s : State) (port : Nat) (ip : List Byte) (sport dport cls : Nat) (payload : List Byte) : (sendFrame s port ip sport dport cls payload).hubBlock = s.hubBlock := rfl
@[simp] theorem sendFrame_lath (s : State) (port : Nat) (ip : List Byte) (sport dport cls : Nat) (payload : List Byte) : (sendFrame s port ip sport dport cls payload).lath = s.lath := rfl
@[simp] theorem sendFrame_coll (s : State) (port : Nat) (ip : List Byte) (sport dport cls : Nat) (payload : List Byte) : (sendFrame s port ip sport dport cls payload).coll = s.coll := rfl
@[simp] theorem sendFrame_snag (s : State) (port : Nat) (ip : List Byte) (sport dport cls : Nat) (payload : List Byte) : (sendFrame s port ip sport dport cls payload).snag = s.snag := rfl
@[simp] theorem sendFrame_time (s : State) (port : Nat) (ip : List Byte) (sport dport cls : Nat) (payload : List Byte) : (sendFrame s port ip sport dport cls payload).time = s.time := rfl
@[simp] theorem sendFrame_power (s : State) (port : Nat) (ip : List Byte) (sport dport cls : Nat) (payload : List Byte) : (sendFrame s port ip sport dport cls payload).power = s.power := rfl
@[simp] theorem sendFrame_boot (s : State) (port : Nat) (ip : List Byte) (sport dport cls : Nat) (payload : List Byte) : (sendFrame s port ip sport dport cls payload).boot = s.boot := rfl
@[simp] theorem sendFrame_plumb (s : State) (port : Nat) (ip : List Byte) (sport dport cls : Nat) (payload : List Byte) : (sendFrame s port ip sport dport cls payload).plumb = s.plumb := rfl
@[simp] theorem sendFrame_settings (s : State) (port : Nat) (ip : List Byte) (sport dport cls : Nat) (payload : List Byte) : (sendFrame s port ip sport dport cls payload).settings = s.settings := rfl
@[simp] theorem sendFrame_free (s : State) (port : Nat) (ip : List Byte) (sport dport cls : Nat) (payload : List Byte) : (sendFrame s port ip sport dport cls payload).free = s.free := rfl

/-! What the updates leave to read. -/

theorem csrGet_put (s : State) (a b v : Nat) : csrGet (csrPut s a v) b = if b = a then v % 2 ^ 32 else csrGet s b := by
  simp only [csrGet, csrPut, stGet_set]
  split <;> simp

@[simp] theorem csrGet_put_self (s : State) (a v : Nat) : csrGet (csrPut s a v) a = v % 2 ^ 32 := by simp [csrGet_put]

theorem csrGet_put_other (s : State) (a b v : Nat) (h : b ≠ a) : csrGet (csrPut s a v) b = csrGet s b := by simp [csrGet_put, h]

@[simp] theorem memStore_bytes (s : State) (a : Nat) (bs : List Byte) :
    (memStore s a bs).mem.bytes = stSetMany 0 s.mem.bytes a bs := rfl

@[simp] theorem memStore_errs (s : State) (a : Nat) (bs : List Byte) : (memStore s a bs).mem.errs = s.mem.errs := rfl

@[simp] theorem memStore_tierIdx (s : State) (a : Nat) (bs : List Byte) : (memStore s a bs).mem.tierIdx = s.mem.tierIdx := rfl

theorem memByte_store (s : State) (a : Nat) (bs : List Byte) (x : Nat) :
    memByte (memStore s a bs) x = if a ≤ x ∧ x < a + bs.length then (bs[x - a]?).getD 0 else memByte s x := by
  simp only [memByte, memStore_bytes, stGet_setMany]

theorem memBytes_store (s : State) (a : Nat) (bs : List Byte) : memBytes (memStore s a bs) a bs.length = bs :=
  stGetMany_setMany 0 s.mem.bytes a bs

theorem queueAt_put (s : State) (q p : Nat) (x : Queue) :
    queueAt (queuePut s q x) p = if p = q ∧ q < s.queues.length then x else queueAt s p := by
  unfold queueAt queuePut nthD
  by_cases h : p = q
  · subst h
    by_cases hq : p < s.queues.length <;> simp [hq]
  · simp [h, Ne.symm h]

@[simp] theorem tileGet_put (s : State) (pe t : Nat) (x : Tile) : tileGet (tilePut s pe t x) pe t = x := by
  simp [tileGet, tilePut]

/-! Bit fields. -/

/-- A field put into a word: its own bits are the value's, and every other bit stays. -/
theorem putField_testBit (n hi lo v i : Nat) (h : lo ≤ hi) :
    (putField n hi lo v).testBit i = if i < lo then n.testBit i else if i ≤ hi then v.testBit (i - lo) else n.testBit i := by
  have e : putField n hi lo v = 2 ^ lo * (2 ^ (hi + 1 - lo) * (n >>> (hi + 1)) + v % 2 ^ (hi + 1 - lo)) + n % 2 ^ lo := by
    unfold putField; simp only [Nat.shiftLeft_eq]
    rw [Nat.mul_add, ← Nat.mul_assoc, ← Nat.pow_add, show lo + (hi + 1 - lo) = hi + 1 by omega]
    ring
  rw [e, Nat.testBit_two_pow_mul_add _ (Nat.mod_lt _ (by positivity))]
  split
  · rename_i hl; simp [Nat.testBit_mod_two_pow, hl]
  · rw [Nat.testBit_two_pow_mul_add _ (Nat.mod_lt _ (by positivity))]
    split
    · rename_i h1 h2; rw [if_pos (by omega)]; simp [Nat.testBit_mod_two_pow]; omega
    · rename_i h1 h2; rw [if_neg (by omega), Nat.testBit_shiftRight]; congr 1; omega

/-- A field's bits are the word's, moved down. -/
theorem fieldOf_testBit (n hi lo i : Nat) : (fieldOf n hi lo).testBit i = (decide (i < hi + 1 - lo) && n.testBit (i + lo)) := by
  simp [fieldOf, Nat.testBit_mod_two_pow, Nat.testBit_shiftRight, Nat.add_comm]

end Sys2Proof.Machine
end

