-- ==== Sys2Proof/Laws/Ops.lean ====
section
/-! SUPPORT. What the shared operations can do: checked memory accesses, error records, and the
beginning and completion of host commands. -/

namespace Sys2Proof.Machine

theorem SameUnits.refl (s : State) : SameUnits s s := by simp [SameUnits]

theorem SameUnits.trans {s t u : State} (h : SameUnits s t) (k : SameUnits t u) : SameUnits s u := by
  unfold SameUnits at *
  obtain ⟨a1, a2, a3, a4, a5, a6, a7, a8, a9, a10, a11, a12, a13, a14, a15, a16, a17⟩ := h
  obtain ⟨b1, b2, b3, b4, b5, b6, b7, b8, b9, b10, b11, b12, b13, b14, b15, b16, b17⟩ := k
  refine ⟨b1.trans a1, b2.trans a2, b3.trans a3, b4.trans a4, b5.trans a5, b6.trans a6, b7.trans a7, b8.trans a8,
    b9.trans a9, b10.trans a10, b11.trans a11, b12.trans a12, b13.trans a13, ?_, b15.trans a15, b16.trans a16, b17.trans a17⟩
  rw [b14, a14]

/-- A change of what `SameUnits` leaves free. -/
theorem SameUnits.upd {s t : State} (h : SameUnits s t) (c : Store Word) (qs : List Queue) (fl : List Flight) (st : StepSt)
    (m : MemSt) (n : NetSt) (g : SnagSt) (f : Store Byte) :
    SameUnits s { t with csr := c, queues := qs, flights := fl, step := st, mem := m, net := n, snag := g
                         boot := { t.boot with flash := f } } := by
  unfold SameUnits at *
  obtain ⟨a1, a2, a3, a4, a5, a6, a7, a8, a9, a10, a11, a12, a13, a14, a15, a16, a17⟩ := h
  refine ⟨a1, a2, a3, a4, a5, a6, a7, a8, a9, a10, a11, a12, a13, ?_, a15, a16, a17⟩
  show { t.boot with flash := f } = _
  rw [a14]

theorem SameUnits.foldl {α : Type} (f : State → α → State) (h : ∀ s a, SameUnits s (f s a)) (l : List α) (s : State) :
    SameUnits s (l.foldl f s) := by
  induction l generalizing s with
  | nil => exact .refl s
  | cons a r ih => exact (h s a).trans (ih _)

/-- The two states differ at most in the books of checked memory accesses: memory, CSRs, and the Snag
list with its flash. -/
def ErrOnly (s t : State) : Prop :=
  SameUnits s t ∧ t.queues = s.queues ∧ t.flights = s.flights ∧ t.step = s.step ∧ t.net = s.net

theorem ErrOnly.refl (s : State) : ErrOnly s s := ⟨.refl s, rfl, rfl, rfl, rfl⟩

theorem ErrOnly.trans {s t u : State} (h : ErrOnly s t) (k : ErrOnly t u) : ErrOnly s u :=
  ⟨h.1.trans k.1, k.2.1.trans h.2.1, k.2.2.1.trans h.2.2.1, k.2.2.2.1.trans h.2.2.2.1, k.2.2.2.2.trans h.2.2.2.2⟩

/-- A change of books alone. -/
theorem ErrOnly.books (s : State) (c : Store Word) (m : MemSt) (g : SnagSt) (f : Store Byte) :
    ErrOnly s { s with csr := c, mem := m, snag := g, boot := { s.boot with flash := f } } := by
  simp [ErrOnly, SameUnits]

theorem ErrOnly.foldl {α : Type} (f : State → α → State) (h : ∀ s a, ErrOnly s (f s a)) (l : List α) (s : State) :
    ErrOnly s (l.foldl f s) := by
  induction l generalizing s with
  | nil => exact .refl s
  | cons a r ih => exact (h s a).trans (ih _)

theorem csrPut_books (s : State) (a v : Nat) : ErrOnly s (csrPut s a v) := ErrOnly.books s _ s.mem s.snag s.boot.flash

theorem memStore_books (s : State) (a : Nat) (bs : List Byte) : ErrOnly s (memStore s a bs) :=
  ErrOnly.books s s.csr _ s.snag s.boot.flash

theorem setErrs_books (s : State) (k : Nat) (e : List (Nat × Nat)) : ErrOnly s (setErrs s k e) :=
  ErrOnly.books s s.csr _ s.snag s.boot.flash

theorem snag_books (s : State) (g : SnagSt) : ErrOnly s { s with snag := g } := ErrOnly.books s s.csr s.mem g s.boot.flash

theorem flashWrite_books (s : State) (a : Nat) (bs : List Byte) : ErrOnly s (flashWrite s a bs) :=
  ErrOnly.books s s.csr s.mem s.snag _

theorem csrSetField_books (s : State) (a hi lo v : Nat) : ErrOnly s (csrSetField s a hi lo v) := csrPut_books ..

theorem csrBump_books (s : State) (a hi lo n : Nat) : ErrOnly s (csrBump s a hi lo n) := csrPut_books ..

theorem commitCopy_books (s : State) (base : Nat) : ErrOnly s (commitCopy s base) :=
  ((ErrOnly.foldl _ (fun _ _ => flashWrite_books ..) _ s).trans (flashWrite_books ..)).trans (flashWrite_books ..)

theorem commitSnag_books (s : State) : ErrOnly s (commitSnag s) :=
  (((commitCopy_books s _).trans (commitCopy_books ..)).trans (snag_books ..)).trans (csrSetField_books ..)

theorem snagPush_books (s : State) (bs : List Byte) : ErrOnly s (snagPush s bs) :=
  (snag_books ..).trans (csrSetField_books ..)

theorem snagRecord_books (s : State) (r : ErrRec) : ErrOnly s (snagRecord s r) := by
  unfold snagRecord
  split
  · exact (snagPush_books ..).trans (commitSnag_books _)
  · exact snagPush_books ..

theorem retireLater_books (s : State) (unit : Nat) : ErrOnly s (retireLater s unit) := by
  unfold retireLater
  split
  · exact .refl s
  · exact snag_books ..

theorem markPort_books (s : State) (unit : Nat) : ErrOnly s (markPort s unit) := by
  unfold markPort
  split
  · exact .refl s
  · exact csrSetField_books ..

theorem condemn_books (s : State) (unit : Nat) : ErrOnly s (condemn s unit) := by
  unfold condemn
  split
  · exact markPort_books ..
  · exact retireLater_books ..

theorem noteBad_books (s : State) (ks : List Nat) : ErrOnly s (noteBad s ks) := ErrOnly.books s s.csr _ s.snag s.boot.flash

theorem reportEvent_books (s : State) (r : ErrRec) : ErrOnly s (reportEvent s r) := by
  unfold reportEvent
  dsimp only
  split
  · exact ((snag_books s _).trans (snagRecord_books ..)).trans (condemn_books ..)
  · exact (snag_books s _).trans (snagRecord_books ..)

theorem countCorrected_books (s : State) (k n : Nat) : ErrOnly s (countCorrected s k n) := by
  unfold countCorrected
  split
  · exact (csrBump_books ..).trans (csrBump_books ..)
  · exact csrBump_books ..
  · exact .refl s

theorem countPoisoned_books (s : State) (k : Nat) : ErrOnly s (countPoisoned s k) := by
  unfold countPoisoned
  split
  · exact csrBump_books ..
  · exact csrBump_books ..
  · exact .refl s

theorem symbolThreshold_books (s : State) (unit pos : Nat) : ErrOnly s (symbolThreshold s unit pos) := by
  unfold symbolThreshold noteCorr
  dsimp only
  split
  · exact ((snag_books s _).trans (reportEvent_books ..)).trans (retireLater_books ..)
  · exact snag_books ..

theorem rowThreshold_books (s : State) (unit row : Nat) (syn : List Byte) : ErrOnly s (rowThreshold s unit row syn) := by
  unfold rowThreshold noteCorr
  dsimp only
  split
  · exact ((snag_books s _).trans (snag_books ..)).trans (snagRecord_books ..)
  · exact snag_books ..

theorem overlayErrs_books (s : State) (k : Nat) (errs : List (Nat × Nat)) : ErrOnly s (overlayErrs s k errs) := by
  refine ErrOnly.foldl _ (fun t e => ?_) _ s
  dsimp only
  split
  · exact memStore_books ..
  · exact .refl _

theorem idxClear_books (s : State) (k : Nat) : ErrOnly s (idxClear s k) := by
  unfold idxClear
  split
  · exact .refl s
  · exact ErrOnly.books s s.csr _ s.snag s.boot.flash

theorem meetSymbols_books (wb : Bool) (s : State) (k : Nat) : ErrOnly s (meetSymbols wb s k) := by
  unfold meetSymbols
  dsimp only
  split
  · split
    · exact .refl s
    · exact (setErrs_books ..).trans (overlayErrs_books ..)
  · have h (t : State) (u : Nat) (fix : List (Nat × Nat)) (h : ErrOnly s t) :
        ErrOnly s (fix.foldl (fun t f => symbolThreshold t u f.1) t) :=
      h.trans (ErrOnly.foldl _ (fun _ _ => symbolThreshold_books ..) _ t)
    split
    · exact (((h _ _ _ (((countCorrected_books ..).trans (snag_books ..)).trans (snagRecord_books ..))).trans
        (rowThreshold_books ..)).trans (setErrs_books ..)).trans (overlayErrs_books ..)
    · exact (h _ _ _ (((countCorrected_books ..).trans (snag_books ..)).trans (snagRecord_books ..))).trans
        (rowThreshold_books ..)
  · exact (countPoisoned_books ..).trans (reportEvent_books ..)

theorem meetIndex_books (wb : Bool) (s : State) (k : Nat) : ErrOnly s (meetIndex wb s k) := by
  unfold meetIndex
  dsimp only
  split
  · exact .refl s
  · split
    · exact ((countCorrected_books ..).trans (snagRecord_books ..)).trans (idxClear_books ..)
    · exact (countCorrected_books ..).trans (snagRecord_books ..)
  · exact (countPoisoned_books ..).trans (reportEvent_books ..)

theorem meetSector_books (wb : Bool) (s : State) (k : Nat) : ErrOnly s (meetSector wb s k) := by
  unfold meetSector
  split
  · exact meetIndex_books ..
  · exact (meetSymbols_books ..).trans (meetIndex_books ..)

/-- A checked read changes the books of errors alone. -/
theorem touchMem_books (s : State) (a n : Nat) : ErrOnly s (touchMem s a n).1 := by
  unfold touchMem
  dsimp only
  split
  · exact .refl s
  · have h := ErrOnly.foldl (fun t k => meetSector (!writeWaits s (64 * k)) t k) (fun _ _ => meetSector_books ..) (badSectors s a n) s
    split
    · exact h
    · exact h.trans (noteBad_books ..)

theorem readMem_books (s : State) (a n : Nat) : ErrOnly s (readMem s a n).1 := touchMem_books ..

/-- A checked write changes memory and the books of errors alone. -/
theorem writeMem_books (s : State) (a : Nat) (bs : List Byte) : ErrOnly s (writeMem s a bs).1 := by
  unfold writeMem
  dsimp only
  split
  · exact memStore_books ..
  · have h (l : List Nat) (m : List Nat) (k : List (Nat × List Byte)) :=
      (((ErrOnly.foldl _ (fun t k => meetSector_books true t k) l s).trans
        (ErrOnly.foldl (fun t k => idxClear (setErrs t k []) k) (fun _ _ => (setErrs_books ..).trans (idxClear_books ..)) m _)).trans
        (memStore_books _ a bs)).trans
        (ErrOnly.foldl (fun t (p : Nat × List Byte) => memStore t (p.1 * 64) p.2) (fun _ _ => memStore_books ..) k _)
    split
    · exact h _ _ _
    · exact (h _ _ _).trans (noteBad_books ..)

/-! Memory without errors. -/

theorem badSectors_clean {s : State} (h : CleanMem s) (a n : Nat) : badSectors s a n = [] := by
  unfold badSectors
  split <;> simp [h.1, h.2]

theorem readMem_clean {s : State} (h : CleanMem s) (a n : Nat) : readMem s a n = (s, some (memBytes s a n)) := by
  simp [readMem, touchMem, badSectors_clean h]

theorem writeMem_clean {s : State} (h : CleanMem s) (a : Nat) (bs : List Byte) : writeMem s a bs = (memStore s a bs, true) := by
  simp [writeMem, badSectors_clean h]

/-! Host commands. -/

theorem SameUnits.write {s t : State} (h : SameUnits s t) (a : Nat) (bs : List Byte) : SameUnits s (writeMem t a bs).1 :=
  h.trans (writeMem_books t a bs).1

theorem SameUnits.read {s t : State} (h : SameUnits s t) (a n : Nat) : SameUnits s (readMem t a n).1 :=
  h.trans (readMem_books t a n).1

theorem queuePut_units {s t : State} (h : SameUnits s t) (q : Nat) (x : Queue) : SameUnits s (queuePut t q x) :=
  h.upd t.csr _ t.flights t.step t.mem t.net t.snag t.boot.flash

theorem csrPut_units {s t : State} (h : SameUnits s t) (a v : Nat) : SameUnits s (csrPut t a v) :=
  h.upd _ t.queues t.flights t.step t.mem t.net t.snag t.boot.flash

theorem step_units {s t : State} (h : SameUnits s t) (x : StepSt) : SameUnits s { t with step := x } :=
  h.upd t.csr t.queues t.flights x t.mem t.net t.snag t.boot.flash

theorem sendFrame_units {s t : State} (h : SameUnits s t) (port : Nat) (ip : List Byte) (sport dport cls : Nat) (b : List Byte) :
    SameUnits s (sendFrame t port ip sport dport cls b) :=
  h.upd t.csr t.queues t.flights t.step t.mem _ t.snag t.boot.flash

theorem ringWrite_units {s t : State} (h : SameUnits s t) (q : Nat) (r : Bool) (e : List Byte) :
    SameUnits s (ringWrite t q r e) := by
  unfold ringWrite
  dsimp only
  split
  · exact queuePut_units h ..
  · split
    · exact csrPut_units (h.write ..) ..
    · exact queuePut_units ((h.write ..).write ..) ..

theorem cmdReply_units {s t : State} (h : SameUnits s t) (o : Origin) (b : Bool) (e : List Byte) :
    SameUnits s (cmdReply t o b e) := by
  unfold cmdReply sendAnswer
  dsimp only
  repeat' split
  all_goals exact h

theorem noteOp_units {s t : State} (h : SameUnits s t) (c : Cmd) (st : Nat) : SameUnits s (noteOp t c st) := by
  unfold noteOp
  dsimp only
  repeat' split
  all_goals exact step_units h _

theorem report_units {s t : State} (h : SameUnits s t) (c : Cmd) (st fl : Nat) (r : List Byte) :
    SameUnits s (report t c st fl r) := by
  unfold report
  dsimp only
  repeat' split
  · exact noteOp_units h ..
  · exact csrPut_units (noteOp_units (step_units h _) ..) ..
  · exact noteOp_units (step_units h _) ..
  · exact cmdReply_units (noteOp_units (ringWrite_units (queuePut_units h ..) ..) ..) ..

theorem complete_units {s t : State} (h : SameUnits s t) (c : Cmd) (st fl : Nat) (r : List Byte) :
    SameUnits s (complete t c st fl r) := by
  unfold complete
  dsimp only
  have h2 := report_units h c st fl r
  have h3 := h2.upd (report t c st fl r).csr (report t c st fl r).queues
    ((report t c st fl r).flights.filter (fun f => !(f.cmd.queue == c.queue && f.cmd.qseq == c.qseq)))
    (report t c st fl r).step (report t c st fl r).mem (report t c st fl r).net (report t c st fl r).snag (report t c st fl r).boot.flash
  split
  · exact h3
  · exact queuePut_units h3 ..

theorem logEntry_units {s t : State} (h : SameUnits s t) (q : Nat) (e : List Byte) : SameUnits s (logEntry t q e) := by
  unfold logEntry
  dsimp only
  split
  · exact (step_units h _).write ..
  · exact csrPut_units (step_units h _) ..

/-- Beginning a command changes the queues' own books, the step's, the replay log in memory and error
counts alone. -/
theorem markBegun_units {s t : State} (h : SameUnits s t) (q qs : Nat) : SameUnits s (markBegun t q qs) := by
  unfold markBegun
  dsimp only
  repeat' split
  all_goals first
    | exact h
    | exact logEntry_units (queuePut_units h ..) ..

/-- A host command that begins with every common check passed runs its own meaning. -/
theorem hostRow_begins {s : State} {q qseq opcode : Nat} {c : Cmd} {sel : Cmd → Bool} {body : Cmd → State → Option State}
    (h : Begins s q qseq opcode c) (hs : sel c = true) : hostRow s q qseq sel body = (body c (markBegun s q qseq)).getD s := by
  obtain ⟨h1, h2, h3, h4, h5⟩ := h
  simp [hostRow, h1, hs, h3, h4, h5]

/-- The same for a command that may wait at its queue's head. -/
theorem waitRow_begins {s : State} {q qseq opcode : Nat} {c : Cmd} {sel : Cmd → Bool} {wait : Cmd → State → Option State}
    {body : Cmd → State → State} (h : Begins s q qseq opcode c) (hs : sel c = true) :
    waitRow s q qseq sel wait body = match wait c s with
      | some t => t
      | none => body c (markBegun s q qseq) := by
  obtain ⟨h1, h2, h3, h4, h5⟩ := h
  simp only [waitRow, h1, hs, h3, h5]
  rfl

/-- A core that stands at a stage has the stage's context. -/
theorem stageCtx_at {s : State} {op core : Nat} {x : StCtx} (h : AtStage s op core x) (sel : StageRec → Bool) :
    stageCtx op core sel s = if sel x.rcd then some x else none := by
  obtain ⟨h1, h2, h3, h4, h5, h6, h7, h8, hw, h9, h10, h11, h12⟩ := h
  unfold stageCtx
  rw [h1]; dsimp only; rw [← h2, h3]; dsimp only; rw [h4]; dsimp only
  have : ¬ (4 ≤ shedLevel s) := by omega
  rw [h5, h6, h8, hw]
  obtain ⟨xr, xh, xc, xp, xn, xi, xrcd, xio⟩ := x
  dsimp only at *
  rw [h12, h9, h10, h11]
  cases sel xrcd <;> simp [this]

/-- A stage row at a core that stands at a stage, with no error that meets its data, works it where it is the row's, and does
nothing elsewhere. -/
theorem stageRow_at {s : State} {op core : Nat} {x : StCtx} (h : AtStage s op core x) {ev : StageEvents} (hu : ev.upsets = [])
    (sel : StageRec → Bool) (f : StCtx → State → State) :
    stageRow op core ev sel f s = if sel x.rcd then f x s else s := by
  unfold stageRow
  rw [stageCtx_at h, hu]
  cases hs : sel x.rcd <;> simp [StCtx.upsets, stageCtx_at h, hs]

/-- A pass whose two results agree is added as it stands. -/
theorem checked_at {s : State} {op core : Nat} {x : StCtx} (h : AtStage s op core x) (sub : Nat) (f : StCtx → State → State) :
    x.checked s sub .agree f = f x s := by
  have hc : x.core.core = core := by
    have := List.find?_some h.2.2.1; simpa using this
  have hp : x.io.pc = physCore s core := by rw [h.2.2.2.2.2.2.2.2.2.2.2.2]
  obtain ⟨xr, xh, xc, xp, xn, xi, xrcd, xio⟩ := x
  simp only [StCtx.checked, StCtx.spot] at *
  simp [hc, ← hp]

end Sys2Proof.Machine
end

