-- ==== Sys2Proof/WellFormed.lean ====
section
/-! DEFINITION. Which commands are well formed: every operand within the range the spec gives
the thing it names. A command outside it names nothing, and its meaning changes nothing. -/

namespace Sys2Proof

/-- A command queue 0–7 and a 32-bit queue sequence number (R321, R324). -/
def wfHost (q qseq : Nat) : Bool := decide (q < 8) && decide (qseq < 2 ^ 32)

/-- A packet: port P0–P5 or SP, 6-byte MAC, 16- or 4-byte addresses, 16-bit UDP ports (R245, R248). -/
def Packet.wf (p : Packet) : Bool :=
  decide (p.port < 7) && p.mac.length == 6 && (p.src.length == 16 || p.src.length == 4)
    && p.dst.length == p.src.length && decide (p.sport < 65536) && decide (p.dport < 65536)

/-- An operation ID of 18 bits and a logical core (R22, R325). -/
def wfCore (op core : Nat) : Bool := decide (op < 2 ^ 18) && decide (core < 256)

/-- A Stencil block, 0–31 the clusters' and 32 the hub's, and a channel of it (R221). -/
def wfChan (block chan : Nat) : Bool := decide (block < 32) && decide (chan < 16) || block == 32 && decide (chan < 32)

/-- An array fault at one of a core's four engines (R16). -/
def ArrayFault.wf (f : ArrayFault) : Bool := decide (f.engine < 4) && decide (f.kind < 256)

/-- What strikes a stage: faults at the core's own engines, byte lanes and sub-units of the widths R27 and
R28 give them. -/
def StageEvents.wf (e : StageEvents) : Bool :=
  e.arrays.all ArrayFault.wf && e.upsets.all (fun u =>
    match u with
    | .core _ syn _ => decide (syn < 256)
    | .cluster _ syn _ => decide (syn < 256)
    | .engine eng sub _ syn => decide (eng < 4) && decide (sub < 4096) && decide (syn < 256)
    | .path sub _ => decide (sub < 4096))

/-- Whether a command is well formed. -/
def Instr.wf : Instr → Bool
  | .identify q qseq => wfHost q qseq
  | .readCsr q qseq => wfHost q qseq
  | .writeCsr q qseq => wfHost q qseq
  | .queueSetup q qseq => wfHost q qseq
  | .queueSetupQp q qseq => wfHost q qseq
  | .jobOpen q qseq => wfHost q qseq
  | .jobClose q qseq => wfHost q qseq
  | .regionMap q qseq => wfHost q qseq
  | .fill q qseq => wfHost q qseq
  | .copy q qseq => wfHost q qseq
  | .windowMap q qseq => wfHost q qseq
  | .stencilLoad q qseq => wfHost q qseq
  | .streamStart q qseq => wfHost q qseq
  | .streamStop q qseq => wfHost q qseq
  | .streamResume q qseq => wfHost q qseq
  | .run q qseq => wfHost q qseq
  | .runLevel q qseq => wfHost q qseq
  | .stepBegin q qseq => wfHost q qseq
  | .stepSeam q qseq => wfHost q qseq
  | .stepCommit q qseq => wfHost q qseq
  | .stepSkip q qseq => wfHost q qseq
  | .fenceReached => true
  | .commitVote => true
  | .topcoatLoad q qseq => wfHost q qseq
  | .update q qseq => wfHost q qseq
  | .updateTakesTensor op _ => decide (op < 2 ^ 18)
  | .updateComplete op => decide (op < 2 ^ 18)
  | .topcoatAdd stack => decide (stack < 8)
  | .topcoatSub stack => decide (stack < 8)
  | .topcoatMul stack => decide (stack < 8)
  | .topcoatFma stack => decide (stack < 8)
  | .topcoatDiv stack => decide (stack < 8)
  | .topcoatSqrt stack => decide (stack < 8)
  | .topcoatRsqrt stack => decide (stack < 8)
  | .topcoatMax stack => decide (stack < 8)
  | .topcoatMin stack => decide (stack < 8)
  | .topcoatAbs stack => decide (stack < 8)
  | .topcoatNeg stack => decide (stack < 8)
  | .topcoatSign stack => decide (stack < 8)
  | .topcoatClamp stack => decide (stack < 8)
  | .topcoatLdk stack => decide (stack < 8)
  | .topcoatMulk stack => decide (stack < 8)
  | .topcoatAddk stack => decide (stack < 8)
  | .topcoatFmak stack => decide (stack < 8)
  | .topcoatRowacc stack => decide (stack < 8)
  | .topcoatColacc stack => decide (stack < 8)
  | .topcoatLdrow stack => decide (stack < 8)
  | .topcoatLdcol stack => decide (stack < 8)
  | .topcoatLdrsum stack => decide (stack < 8)
  | .topcoatPhase stack => decide (stack < 8)
  | .topcoatEnd stack => decide (stack < 8)
  | .reduceScatter q qseq => wfHost q qseq
  | .allGather q qseq => wfHost q qseq
  | .allReduce q qseq => wfHost q qseq
  | .broadcast q qseq => wfHost q qseq
  | .allToAll q qseq => wfHost q qseq
  | .permute q qseq => wfHost q qseq
  | .permuteVote => true
  | .mapSet q qseq => wfHost q qseq
  | .mapSetRemap q qseq => wfHost q qseq
  | .acquire q qseq => wfHost q qseq
  | .reparent q qseq => wfHost q qseq
  | .root q qseq => wfHost q qseq
  | .launchAt q qseq => wfHost q qseq
  | .plumbRead q qseq => wfHost q qseq
  | .patchTest q qseq => wfHost q qseq
  | .snagRead q qseq => wfHost q qseq
  | .retire q qseq => wfHost q qseq
  | .replay q qseq => wfHost q qseq
  | .takeover q qseq => wfHost q qseq
  | .mirrorCfg q qseq => wfHost q qseq
  | .telSample q qseq => wfHost q qseq
  | .clockSelect q qseq => wfHost q qseq
  | .gate q qseq => wfHost q qseq
  | .clkoutCfg q qseq => wfHost q qseq
  | .powerCfg q qseq => wfHost q qseq
  | .margin q qseq => wfHost q qseq
  | .attest q qseq => wfHost q qseq
  | .identityRead q qseq => wfHost q qseq
  | .imageStageBegin q qseq => wfHost q qseq
  | .imageStageData q qseq => wfHost q qseq
  | .imageStageFinish q qseq => wfHost q qseq
  | .imageStageAbort q qseq => wfHost q qseq
  | .cmd p => p.wf
  | .send p => p.wf
  | .put p => p.wf
  | .get p => p.wf
  | .acc p => p.wf
  | .getReply p => p.wf
  | .ack p => p.wf
  | .nack p => p.wf
  | .syncRequest p t2 => p.wf && decide (0 ≤ t2)
  | .syncResponse p t4 => p.wf && decide (0 ≤ t4)
  | .rdmaWrite p => p.wf
  | .rdmaReadRequest p => p.wf
  | .arpRequest port frame => decide (port < 7) && decide (14 ≤ frame.length)
  | .neighbourSolicitation port frame => decide (port < 7) && decide (14 ≤ frame.length)
  | .icmpEchoRequest port frame => decide (port < 7) && decide (14 ≤ frame.length)
  | .pauseFrame port frame => decide (port < 7) && decide (14 ≤ frame.length)
  | .portUp port lanes => decide (port < 7) && decide (lanes < 256)
  | .portDown port => decide (port < 7)
  | .packetRetry op idx => decide (op < 2 ^ 18) && decide (idx < 256)
  | .operationTimeout op => decide (op < 2 ^ 18)
  | .channelEviction src => decide (src < 65536)
  | .ready p => p.wf
  | .go p => p.wf
  | .done p => p.wf
  | .collectiveData d => d.packet.wf && decide (d.agent ≤ 2)
  | .collectiveTimeout op => decide (op < 2 ^ 18)
  | .lathCellArrival plane die node _ => decide (plane < 72) && decide (die < 5) && decide (node < 13)
  | .addAssemblyTimeout node src _ => decide (node < 80) && decide (src < 1024)
  | .cellAck block => decide (block < 33)
  | .cellReply block => decide (block < 33)
  | .cellNack block => decide (block < 33)
  | .lathParcelRetry block win => decide (block < 33) && decide (win < 512)
  | .allStop block => decide (block < 33)
  | .mergeHoldExpiry block win => decide (block < 33) && decide (win < 512)
  | .sectorGrant stack pc => decide (stack < 8) && decide (pc < 64)
  | .capacityAccess ctl => decide (ctl < 8)
  | .refresh stack pc bank => decide (stack < 8) && decide (pc < 64) && decide (bank < 256)
  | .patrolScrub stack pc flips => (decide (stack < 8) && decide (pc < 64) || stack == 8 && decide (pc < 8))
      && flips.all (fun f => decide (f.1 < 36) && decide (f.2 < 2 ^ 16) || decide (f.1 < 38) && decide (f.2 < 2 ^ 32))
  | .pseudoChannelRetirement stack pc => decide (stack < 8) && decide (pc < 64)
  | .hawkMigration mb _ _ => decide (mb < 16)
  | .baseOp block chan => wfChan block chan
  | .stride block chan => wfChan block chan
  | .loopOp block chan => wfChan block chan
  | .endl block chan => wfChan block chan
  | .move block chan => wfChan block chan
  | .scatterAdd block chan => wfChan block chan
  | .waitp block chan => wfChan block chan
  | .waitt block chan => wfChan block chan
  | .waitc block chan => wfChan block chan
  | .signal block chan => wfChan block chan
  | .sett block chan => wfChan block chan
  | .peer block chan => wfChan block chan
  | .endChan block chan => wfChan block chan
  | .waitpDue block chan => wfChan block chan
  | .waitSatisfied block chan => wfChan block chan
  | .waitTimeout block chan => wfChan block chan
  | .loadStage op work => wfCore op work.core && work.ev.wf
  | .quantise op core ev => wfCore op core && ev.wf
  | .multiply op core ev => wfCore op core && ev.wf
  | .screed op core ev writes => wfCore op core && ev.wf && writes.all ArrayFault.wf
  | .returnStage op work => wfCore op work.core && work.ev.wf
  | .storeStage op work => wfCore op work.core && work.ev.wf
  | .stash op work => wfCore op work.core && work.ev.wf
  | .unstash op work => wfCore op work.core && work.ev.wf
  | .vecCopy op work => wfCore op work.core && work.ev.wf
  | .vecAdd op work => wfCore op work.core && work.ev.wf
  | .vecSub op work => wfCore op work.core && work.ev.wf
  | .vecMul op work => wfCore op work.core && work.ev.wf
  | .act op core ev => wfCore op core && ev.wf
  | .actBwd op work => wfCore op work.core && work.ev.wf
  | .smStats op work => wfCore op work.core && work.ev.wf
  | .smNorm op work => wfCore op work.core && work.ev.wf
  | .smBwdSum op work => wfCore op work.core && work.ev.wf
  | .smBwd op work => wfCore op work.core && work.ev.wf
  | .lnStats op work => wfCore op work.core && work.ev.wf
  | .rmsStats op work => wfCore op work.core && work.ev.wf
  | .normApply op work => wfCore op work.core && work.ev.wf
  | .normBwdSum op work => wfCore op work.core && work.ev.wf
  | .normBwd op work => wfCore op work.core && work.ev.wf
  | .topk op work => wfCore op work.core && work.ev.wf
  | .segsum op work => wfCore op work.core && work.ev.wf
  | .takeTiles core => decide (core < 256)
  | .tileConflict q qseq => wfHost q qseq
  | .runComplete op => decide (op < 2 ^ 18)
  | .passMismatchDecision eng _ _ => decide (eng < 1152)
  | .arrayEventDecision eng _ => decide (eng < 1152)
  | .patchTestDue unit => decide (unit < 2 ^ 32)
  | .patchTestComplete unit result last => decide (unit < 2 ^ 32) && decide (result < 256) && decide (last.kernel < 256)
  | .mirrorComplete => true
  | .snagFlashCommit _ => true
  | .sendSyncRequest => true
  | .childEntryExpiry dev => decide (dev < 65536)
  | .holdoverEntry => true
  | .unlockedEntry => true
  | .launch q qseq => wfHost q qseq
  | .launchAtDue op => decide (op < 2 ^ 18)
  | .windowStart w => decide (w < 4)
  | .windowEnd w => decide (w < 4)
  | .plumbAlignedPoint => true
  | .sagSample mv => decide (mv < 65536)
  | .s5QuiesceEnd => true
  | .droopN => true
  | .shedReturn => true
  | .railOutOfWindow rail mv _ => decide (rail < 16) && decide (mv < 65536)
  | .regulatorPoll _ => true
  | .avsSetpointMove want => decide (want < 65536)
  | .powerCap watts => decide (watts < 65536)
  | .oscLoss => true
  | .thermalSample t => t.dieT.length == 5 && t.stackT.length == 8 && t.caseT.length == 8
  | .thermalStepDown die => decide (die < 4)
  | .thermalStepUp die => decide (die < 5)
  | .powerGood => true
  | .reset _ => true
  | .imageVerified => true
  | .phaseLimit => true
  | .release rep => rep.badCores.all (fun c => decide (c < 288)) && rep.badUnits.all (fun u => decide (u < 2 ^ 32))
  | .smbusRead code => decide (code < 256)
  | .smbusWrite code _ => decide (code < 256)
  | .tapInstruction ir => decide (ir < 2 ^ 32)
  | .lockstepDivergence _ => true
  | .droopComparator die => decide (die < 4)
  | .droopNDeasserted => true
  | .fuseLoadEnd _ => true
  | .fixedRailInWindow rail => decide (rail < 16)
  | .atomicOperation p => p.wf

end Sys2Proof
end

