-- ==== Sys2Proof/Tests/Slice0.lean ====
section
/-! SUPPORT. Tests: an ill-formed command for each check of WellFormed, and for each statement a
concrete state and operands that meet its hypotheses, clause by clause. -/

set_option Elab.async false

namespace Sys2Proof.Tests
open Sys2Proof Sys2Proof.Machine

/-! States to test on: a released device, a host command placed in it. -/

/-- Registers put one after another. -/
def regs (s : State) (l : List (Nat × Nat)) : State := l.foldl (fun s p => csrPut s p.1 p.2) s

/-- A device as after release, its registers all 0 but those that tests name. -/
def up : State :=
  regs { State.reset with
    csr := []
    boot := { boot0 with pwrgd := true, resetN := true, loaded := true, ready := true } } [(rBootStatus, 8 * 2 ^ 28 + 0x8000), (rMemParamBase, 0x200)]

/-- An origin no answer goes to. -/
def nobody : Origin := { port := 0, mac := [], ip := [], sport := 0, dev := 0, chan := 0, seq := 0, qpn := 0, opid := 0 }

/-- A queue entry of an opcode with operation ID 5 of job `job`, flags 2 (NO_REPLY) and a body. -/
def entry (opcode job qseq : Nat) (body : List Byte) : List Byte :=
  sliceB (leBytes 2 opcode ++ [2, byteOf (ceilDiv body.length 16)] ++ leBytes 4 qseq ++ leBytes 4 5 ++ leBytes 2 0 ++ leBytes 2 job
    ++ List.replicate 16 0 ++ body) 0 512

/-- A command placed as the next of queue 0. -/
def host (s : State) (opcode : Nat) (body : List Byte) : State := placeEntry s 0 (entry opcode (if jobOpen? s then jobId s else 0) 0 body) nobody

/-- The command placed there. -/
def cmd0 (s : State) : Cmd :=
  cmdOf 0 ((queueAt s 0).slots.headD { qseq := 0, begun := false, entry := [], origin := nobody, arrived := 0, launched := false, late := false, timely := false })

/-- With a job open. -/
def job (s : State) : State := csrPut s rHubJob (2 ^ 31 + 0x00070001)

/-! The block, memory and registers, placing and completing. -/

theorem test_idle_runs : up.pending = [] ∧ up.boot.pwrgd = true ∧ up.boot.resetN = true := by decide +kernel
theorem test_inv_holds : BlockInv up := by unfold BlockInv; decide +kernel
theorem test_inv_step : BlockInv (host up 0x0101 [])
    ∧ (match step { host up 0x0101 [] with pending := [.identify 0 0] } with | .next t => t.pending.length | _ => 9) = 0 := by
  unfold BlockInv; decide +kernel
theorem test_field_ends : csrField (csrSetField up 8 31 0 (2 ^ 32 + 5)) 8 31 0 = 5 ∧ csrField (csrSetField (csrPut up 8 0xFF) 8 4 4 0) 8 3 0 = 15 := by
  decide +kernel
theorem test_clean : CleanMem up := by unfold CleanMem; decide +kernel

/-- Memory whose first sector carries three wrong symbols, which the code cannot correct. -/
def bad : State := { up with mem := { up.mem with errs := [(0, [(0, 1), (1, 2), (2, 3)])] } }

theorem test_partial_write_poisoned :
    0 ∈ badSectors bad 63 2 ∧ poisoned bad 0 = true ∧ coversSector 63 2 0 = false ∧ coversSector 0 64 0 = true := by decide +kernel
theorem test_read_poisoned : 0 ∈ badSectors bad 0 1 ∧ poisoned bad 0 = true := by decide +kernel

theorem test_place_first : inSafe up = false ∧ 0 < up.queues.length ∧ (queueAt up 0).inHub = true
    ∧ qdist (queueAt up 0) (leAt (entry 0x0101 0 0 []) 4 4) < (queueAt up 0).depth ∧ slotOf (queueAt up 0) (leAt (entry 0x0101 0 0 []) 4 4) = none := by
  decide +kernel
theorem test_place_last : 63 = leAt (entry 0x0101 0 63 []) 4 4 ∧ qdist (queueAt up 7) 63 < (queueAt up 7).depth := by decide +kernel
theorem test_place_again : (slotOf (queueAt (host up 0x0101 []) 0) 0).isSome = true ∧ (queueAt (host up 0x0101 []) 0).inHub = true
    ∧ qdist (queueAt (host up 0x0101 []) 0) 0 < (if inSafe (host up 0x0101 []) then 1 else (queueAt (host up 0x0101 []) 0).depth) := by decide +kernel
theorem test_finish_place : (cmd0 (host up 0x0101 [])).queue < up.queues.length ∧ up.step.silent.contains (0, 0) = false := by decide +kernel

/-- A queue whose rings lie in memory. -/
def ringQ : State := { up with queues := queue0 :: { queue0 with inHub := false, depthLog2 := 4, ring := 0, cq := 0x4000 } :: up.queues.drop 2 }

theorem test_frame_memory : CleanMem ringQ ∧ (queueAt ringQ 1).inHub = false ∧ (queueAt ringQ 1).cq + 64 + 32 * ((queueAt ringQ 1).tail % ((queueAt ringQ 1).depth + 64)) + 32 ≤ 0x4060 := by
  unfold CleanMem; decide +kernel

theorem test_refused_job : readyCmd (host up 0x0202 []) 0 0 = some (cmd0 (host up 0x0202 [])) ∧ earlySkip (host up 0x0202 []) 0 0 = false
    ∧ inSafe (host up 0x0202 []) = false ∧ admission (host up 0x0202 []) (cmd0 (host up 0x0202 [])) = some stNotReady := by decide +kernel

/-- A STEP_SKIP with EARLY that covers queue 0. -/
def early (s : State) : State :=
  { s with step := { s.step with fence := some { cmd := cmd0 (host up 0x0504 []), seqs := List.replicate 8 9, mask := 1, carry := 0, skip := true, reason := 0, early := true } } }

theorem test_early : readyCmd (early (host (job up) 0x0201 [])) 0 0 = some (cmd0 (host (job up) 0x0201 [])) ∧ earlySkip (early (host (job up) 0x0201 [])) 0 0 = true
    ∧ earlySkip (early (host (job up) 0x0202 [])) 0 0 = true ∧ earlySkip (early (host (job up) 0x0203 [])) 0 0 = true
    ∧ earlySkip (early (host (job up) 0x0401 [])) 0 0 = true ∧ earlySkip (early (host (job up) 0x0602 [])) 0 0 = true
    ∧ [0x0202, 0x0203, 0x0401, 0x0602].all (fun op => readyCmd (early (host (job up) op [])) 0 0 == some (cmd0 (host (job up) op []))) = true
    ∧ (cmd0 (host (job up) 0x0602 [])).opcode = 0x0602 := by decide +kernel

/-! Commands to the device, its queues, its job and its memory. -/

def le (n v : Nat) : List Byte := leBytes n v

/-- The conditions all statements about a host command share. -/
def ok (s : State) (op : Nat) : Bool :=
  readyCmd s 0 0 == some (cmd0 s) && (cmd0 s).opcode == op && !earlySkip s 0 0 && !inSafe s && admission s (cmd0 s) == none

theorem ok_begins {s : State} {op : Nat} (h : ok s op = true) : Begins s 0 0 op (cmd0 s) := by
  simp only [ok, Bool.and_eq_true, beq_iff_eq, Bool.not_eq_true'] at h
  exact ⟨h.1.1.1.1, h.1.1.1.2, h.1.1.2, h.1.2, h.2⟩

def readBody (a n : Nat) : List Byte := le 4 a ++ le 2 n ++ le 2 0 ++ le 8 0x1000

theorem test_identify : ok (host up 0x0101 []) 0x0101 = true := by decide +kernel
theorem test_readCsr : [(0x3100, 1), (0xB000, 2), (0xA008, 3), (0x9100, 1)].all (fun p =>
    let s := host up 0x0102 (readBody p.1 p.2)
    ok s 0x0102 && zeroAt (cmd0 s).body 6 2 && leAt (cmd0 s).body 4 2 == p.2 && (List.range p.2).all (fun i => (regAt (p.1 + 4 * i)).isSome)
      && rangeOk (markBegun s 0 0) 0x1000 (4 * p.2) && addrField (cmd0 s).body 8 == some 0x1000) = true := by decide +kernel
theorem test_writeCsr : [(0x3100, 2000), (0x9000, 0x714), (0x8000, 0x308)].all (fun p =>
    let s := host (regs up [(0x9004, 1000), (0x8004, 1000)]) 0x0103 (le 4 p.1 ++ le 4 p.2)
    ok s 0x0103 && (match regAt p.1 with
      | some f => writable f && (csrWriteCheck (markBegun s 0 0) p.1 (writeWord f (csrGet (markBegun s 0 0) p.1) p.2) == none)
      | none => false)) = true := by decide +kernel
theorem test_writeCsr_refused : ok (host up 0x0103 (le 4 0x100 ++ le 4 1)) 0x0103 = true ∧ ((regAt 0x100).any (fun f => !writable f)) = true
    ∧ ok (host up 0x0103 (le 4 0xFF00 ++ le 4 1)) 0x0103 = true ∧ regAt 0xFF00 = none := by decide +kernel
theorem test_w1c_field : (regFams.any (fun f => f.fields.any (fun x => x.acc == .w1c && x.hi == 31 || x.acc == .rw && x.lo == 0))) = true := by decide +kernel

def queueBody (q d ring cq : Nat) : List Byte := le 1 1 ++ le 1 q ++ le 1 d ++ le 5 0 ++ le 8 ring ++ le 8 cq ++ le 24 0

theorem test_queueSetup : [(1, 4), (7, 10)].all (fun p =>
    let s := host up 0x0104 (queueBody p.1 p.2 0x10000 0x100000)
    ok s 0x0104 && leAt (cmd0 s).body 0 1 == 1 && (queueSetupCheck (markBegun s 0 0) (cmd0 s) == none) && (markBegun s 0 0).queues.length == 8) = true := by
  decide +kernel

def qpBody (en qpn : Nat) : List Byte := le 1 2 ++ le 1 0 ++ le 1 3 ++ le 1 en ++ le 4 qpn ++ le 40 0

theorem test_queueSetupQp : [(0, 0x100), (1, 0x1FF)].all (fun p =>
    let s := host up 0x0104 (qpBody p.1 p.2)
    ok s 0x0104 && leAt (cmd0 s).body 0 1 == 2 && (queueSetupQpCheck (cmd0 s) == none)) = true := by decide +kernel

/-- A parameter-table entry of weights, 1 row of 128, no plane placed. -/
def tensorEntry : List Byte := le 1 1 ++ le 3 0 ++ le 4 1 ++ le 4 128 ++ le 52 0
def openBody : List Byte := le 2 1 ++ le 1 7 ++ le 5 0 ++ le 8 (2 ^ 40) ++ le 8 0x1000 ++ le 2 1 ++ le 2 0 ++ le 4 1 ++ le 8 0x2000 ++ le 24 0

/-- Memory that holds bytes at an address. -/
def mem (s : State) (a : Nat) (bs : List Byte) : State := { s with mem := { s.mem with bytes := stSetMany 0 s.mem.bytes a bs } }

def openS : State := host (regs (mem up 0x1000 tensorEntry) [(rHubGrade, 0x2000)]) 0x0105 openBody
theorem test_jobOpen : ok openS 0x0105 = true ∧ jobOpenCheck (markBegun openS 0 0) (cmd0 openS) = none := by decide +kernel
theorem test_jobOpen_table : (readTable (markBegun openS 0 0) (leAt (cmd0 openS).body 16 8) (leAt (cmd0 openS).body 24 2)).2.isSome = true := by decide +kernel

def closeS : State := host (job up) 0x0106 (le 2 1 ++ le 14 0)
theorem test_jobClose : ok closeS 0x0106 = true ∧ leAt (cmd0 closeS).body 0 2 = jobId (markBegun closeS 0 0) ∧ zeroAt (cmd0 closeS).body 2 14 = true
    ∧ betweenSteps (markBegun closeS 0 0) = true ∧ jobBusy (markBegun closeS 0 0) = false ∧ (markBegun closeS 0 0).coll.permute = none
    ∧ movedGranules (markBegun closeS 0 0) ((List.range 64).foldl (fun t n => setPreg t n 0 0 0 0) (markBegun closeS 0 0)) = [] := by decide +kernel

/-- REGION_MAP over a list of one entry. -/
def mapS (kind arg base len : Nat) : State :=
  host (mem (job up) 0x1000 (le 1 kind ++ le 1 arg ++ le 6 0 ++ le 8 base ++ le 16 len)) 0x0201 (le 8 0x1000 ++ le 2 1 ++ le 6 0)

def mapped (s : State) : Except Nat State :=
  applyRegions [sliceB ((readMem (markBegun s 0 0) 0x1000 32).2.getD []) 0 32] (readMem (markBegun s 0 0) 0x1000 32).1

theorem test_regionMap : ok (mapS 5 0 0x2000 0x1000) 0x0201 = true ∧ betweenSteps (markBegun (mapS 5 0 0x2000 0x1000) 0 0) = true
    ∧ rangeOk (markBegun (mapS 5 0 0x2000 0x1000) 0 0) 0x1000 32 = true ∧ (readMem (markBegun (mapS 5 0 0x2000 0x1000) 0 0) 0x1000 32).2.isSome = true := by
  decide +kernel
theorem test_regionMap_ends : (match mapped (mapS 5 0 0x20000000000 0x1000) with
      | .ok t => regionsOk t && (movedGranules (readMem (markBegun (mapS 5 0 0x20000000000 0x1000) 0 0) 0x1000 32).1 t).isEmpty | _ => false) = true
    ∧ (match mapped (mapS 5 0 0x2000 0x1000) with | .ok t => !regionsOk t | _ => false) = true
    ∧ (match mapped (mapS 3 16 0x2000 0x1000) with | .error e => e == stBadParam | _ => false) = true := by decide +kernel

def windowS (replace len : Nat) : State :=
  host (mem (job up) 0x1000 (le 8 0x08000000000 ++ le 8 len ++ le 2 1 ++ le 1 3 ++ le 13 0)) 0x0204 (le 8 0x1000 ++ le 1 1 ++ le 1 replace ++ le 6 0)

theorem test_windowMap : [0, 1].all (fun r => ok (windowS r (2 ^ 21)) 0x0204 && rangeOk (markBegun (windowS r (2 ^ 21)) 0 0) 0x1000 32
    && (readMem (markBegun (windowS r (2 ^ 21)) 0 0) 0x1000 32).2.isSome) = true := by decide +kernel

theorem test_windowMap_ends : [2 ^ 21, 2 ^ 39].all (fun n => windowEntryOk (le 8 0x08000000000 ++ le 8 n ++ le 2 1 ++ le 1 3 ++ le 13 0)
      && windowsOk (applyWindow [] (le 8 0x08000000000 ++ le 8 n ++ le 2 1 ++ le 1 3 ++ le 13 0))) = true
    ∧ windowsOk (applyWindow [] (le 8 0x08000000000 ++ le 8 (2 ^ 39 + 2 ^ 21) ++ le 2 1 ++ le 1 3 ++ le 13 0)) = false := by decide +kernel

def fillS (a n : Nat) : State := host (job up) 0x0202 (le 8 a ++ le 8 n ++ le 32 0x0102)
theorem test_fill : [(0, 0), (2 ^ 38, 64)].all (fun p => ok (fillS p.1 p.2) 0x0202 && rangeOk (markBegun (fillS p.1 p.2) 0 0) p.1 p.2
    && !lowerWaits (markBegun (fillS p.1 p.2) 0 0) 2 && (markBegun (fillS p.1 p.2) 0 0).mem.errs.isEmpty) = true := by decide +kernel

def copyS (s : State) (a b n : Nat) : State := host (job s) 0x0203 (le 8 a ++ le 8 b ++ le 8 n ++ le 8 0)
/-- With a message of class 0 waiting at pseudo-channel 0 of stack 0. -/
def waits : State := { up with mem := { up.mem with queues := [(0, [{ cls := 0, src := 0, kind := 1, addr := 0, data := [], ctx := [] }])] } }
theorem test_copy : ok (copyS up 0 0x1000 64) 0x0203 = true ∧ rangeOk (markBegun (copyS up 0 0x1000 64) 0 0) 0 64 = true
    ∧ rangeOk (markBegun (copyS up 0 0x1000 64) 0 0) 0x1000 64 = true ∧ zeroAt (cmd0 (copyS up 0 0x1000 64)).body 25 7 = true
    ∧ lowerWaits (markBegun (copyS up 0 0x1000 64) 0 0) 2 = false ∧ (markBegun (copyS up 0 0x1000 64) 0 0).mem.errs = []
    ∧ lowerWaits (markBegun (copyS waits 0 0x1000 64) 0 0) 2 = true := by decide +kernel
theorem test_copy_poisoned : ok (copyS bad 0 0x1000 64) 0x0203 = true ∧ (readMem (markBegun (copyS bad 0 0x1000 64) 0 0) 0 64).2 = none := by decide +kernel

def marginS (s : State) (mode : Nat) : State := host s 0x0B05 (le 1 mode ++ le 1 7 ++ le 1 63 ++ le 5 0 ++ le 8 0x1000)
theorem test_margin : ok (marginS (job up) 2) 0x0B05 = true ∧ jobOpen? (markBegun (marginS (job up) 2) 0 0) = true
    ∧ ok (marginS (regs up [(rPwrStatus, 2 ^ 29)]) 1) 0x0B05 = true ∧ shedLevel (markBegun (marginS (regs up [(rPwrStatus, 2 ^ 29)]) 1) 0 0) = 1
    ∧ ok (marginS up 1) 0x0B05 = true ∧ shedLevel (markBegun (marginS up 1) 0 0) = 0 ∧ caseHot (markBegun (marginS up 1) 0 0) 7 = false ∧ rangeOk (markBegun (marginS up 1) 0 0) 0x1000 144 = true
    ∧ (markBegun (marginS up 1) 0 0).mem.errs = [] := by decide +kernel

def telS (dst : Nat) : State := host (regs (job up) ((List.range 4).map (fun i => (rHubClusterMap + 4 * i, 0xFFFFFFFF)))) 0x0A01 (le 8 dst ++ le 8 0)
theorem test_telSample : ok (telS 0x1000) 0x0A01 = true ∧ ok (telS (2 ^ 41 - 64)) 0x0A01 = true ∧ zeroAt (cmd0 (telS 0x1000)).body 8 8 = true := by decide +kernel
theorem test_telSample_range : rangeOk (markBegun (telS 0x1000) 0 0) 0x1000 (telRecord (markBegun (telS 0x1000) 0 0) 0 0).2.length = true
    ∧ rangeOk (markBegun (telS (2 ^ 40)) 0 0) (2 ^ 40) 64 = false := by decide +kernel

/-! The step, its seam, and the collectives. -/

/-- A device with ID 1 in a 2 × 1 × 1 torus, its job open and its step in a state. -/
def member (st : Nat) : State :=
  let s := regs (job up) [(rColId, 2 ^ 30 + 1), (rColShapeLo, 1), (rHubStepState, st), (rColTimeout, 20000), (rScrOpTimeout, 1000)]
  { s with coll := { s.coll with map := [1, 2], spares := [3], base := 2 ^ 30, len := 2 ^ 21 } }

def beginBody (step attempt level mbs : Nat) : List Byte := le 8 step ++ le 2 attempt ++ le 1 level ++ le 1 mbs ++ le 4 0
theorem test_stepBegin : [(0, 1), (1, 16)].all (fun p => ok (host (member sIdle) 0x0501 (beginBody 0 0 p.1 p.2)) 0x0501
    && stepBeginCheck (markBegun (host (member sIdle) 0x0501 (beginBody 0 0 p.1 p.2)) 0 0) (cmd0 (host (member sIdle) 0x0501 (beginBody 0 0 p.1 p.2))) == none) = true := by
  decide +kernel
theorem test_stepBegin_state : [sOpen, sDeciding, sCommitted, sSkipped].all (fun st => ok (host (member st) 0x0501 (beginBody 0 0 0 1)) 0x0501
    && stepPhase (markBegun (host (member st) 0x0501 (beginBody 0 0 0 1)) 0 0) != sIdle) = true := by decide +kernel

def fenceS (op : Nat) : State := host (member sOpen) op (le 32 0 ++ le 1 2 ++ le 15 0)
theorem test_fence : [0x0503, 0x0504].all (fun op => ok (fenceS op) op && stepPhase (markBegun (fenceS op) 0 0) == sOpen && placed? (markBegun (fenceS op) 0 0)
    && (markBegun (fenceS op) 0 0).step.fence.isNone && fenceBodyOk (cmd0 (fenceS op)) && !(fenceOfCmd (cmd0 (fenceS op))).early) = true := by decide +kernel

/-- A fence that holds, its mask empty. -/
def theFence (skip : Bool) (carry : Nat) : Fence :=
  { cmd := cmd0 (fenceS 0x0503), seqs := List.replicate 8 0, mask := 0, carry := carry, skip := skip, reason := 0, early := false }
def frame1 : Frame := { layer := 3, slot := 0, start := 0, length := 2 }
def hawk1 : Hawk := { frames := [frame1], carried := false, atSeam := [frame1], migrated := [] }
def fenced (st : Nat) (skip : Bool) (carry : Nat) (hawk : Store Hawk) : State :=
  { member st with hawk := hawk, step := { (member st).step with fence := some (theFence skip carry) } }

theorem test_fenceReached : [(fenced sOpen false 1 [(0, hawk1)], false), (fenced sOpen true 0 [(0, hawk1)], true), (fenced sOpen false 0 [], false)].all (fun p =>
    stepPhase p.1 == sOpen && fencePassed p.1 (theFence p.2 0) && (stepFlights p.1).isEmpty && p.1.step.fenceOps.isNone && p.1.step.fence.isSome) = true
    ∧ strandedHawk (fenced sOpen false 1 [(0, hawk1)]) 1 = false ∧ strandedHawk (fenced sOpen false 0 [(15, hawk1)]) 0 = true
    ∧ fencePassed (fenced sOpen false 0 [(15, hawk1)]) (theFence false 0) = true := by decide +kernel

def voted (w : List Byte) : State :=
  { fenced sDeciding false 1 [] with step := { (fenced sDeciding false 1 []).step with vote := some w, voteDone := true } }
def word (bits steps : Nat) : List Byte := le 4 bits ++ le 8 steps ++ le 8 (2 ^ 64 - 1 - steps) ++ le 12 0
theorem test_vote : stepPhase (voted (word 0 0)) = sDeciding ∧ voteOutcome (word 0 0) = 1 ∧ voteOutcome (word 0 (2 ^ 64 - 1)) = 1 ∧ voteOutcome (word 1 0) = 2
    ∧ voteOutcome (word 3 0) = 3 ∧ voteOutcome (le 4 0 ++ le 8 1 ++ le 8 (2 ^ 64 - 1) ++ le 12 0) = 4 := by decide +kernel

/-- A valid recipe entry: CANON, threshold 1. -/
def recipe1 : List Byte := le 8 0 ++ le 4 0x3F800000 ++ le 20 0
def seamS (st : Nat) : State := host (mem (member st) 0x1000 (le 1 7 ++ le 31 0 ++ recipe1)) 0x0502 (le 2 1 ++ le 1 0 ++ le 5 0 ++ le 8 0x1000 ++ le 16 0)
theorem test_seam : [sCommitted, sSkipped].all (fun st => ok (seamS st) 0x0502 && stepPhase (markBegun (seamS st) 0 0) == st
    && seamBodyOk (markBegun (seamS st) 0 0) (cmd0 (seamS st)).body
    && (readMem (markBegun (seamS st) 0 0) 0x1000 64).2.any (fun rb => noRepeats ((seamRecords rb).map (·.1)) && (chunksOf 64 rb.length rb).all seamRecordOk)
    && !permuteDue (loadSeam (seamHawk (fly (readMem (markBegun (seamS st) 0 0) 0x1000 64).1 (cmd0 (seamS st)))) [] [])) = true := by decide +kernel
/-- The seam's state after its retirements and tests. -/
def seamed (s : State) : State :=
  seamTests (seamRetires (loadSeam (seamHawk (fly (readMem (markBegun s 0 0) 0x1000 64).1 (cmd0 s)))
    (seamRecords ((readMem (markBegun s 0 0) 0x1000 64).2.getD [])) []))
def seamTesting (s : State) : State := { s with snag := { s.snag with testing := [(unitCore 0 0xFFF, 1)] } }
theorem test_seam_palettes : (match readPalettes (leAt (cmd0 (seamS sCommitted)).body 16 8) (maskedSlots (leAt (cmd0 (seamS sCommitted)).body 2 1)) (markBegun (seamS sCommitted) 0 0) with
    | (_, some pals) => pals.all (fun x => x.2.all levelValid)
    | _ => false) = true := by decide +kernel
theorem test_seam_ends : seamWaits (seamed (seamS sCommitted)) = false
    ∧ digestCase (seamed (seamS sCommitted)) (csrField (seamed (seamS sCommitted)) rHubStepState 11 8) = 0
    ∧ seamWaits (seamed (seamTesting (seamS sCommitted))) = true := by decide +kernel
theorem test_seam_refused : [sIdle, sOpen, sDeciding].all (fun st => ok (seamS st) 0x0502 && stepPhase (markBegun (seamS st) 0 0) == st) = true := by decide +kernel

def permuteBody : List Byte := le 2 1 ++ le 2 2 ++ le 2 1 ++ le 2 1 ++ le 8 0x1000 ++ le 8 0x2000 ++ le 8 0 ++ le 8 0x3000 ++ le 24 0
def permuteS : State := host (mem (member sIdle) 0x1000 (le 2 2 ++ le 2 1)) 0x0706 permuteBody
def held (failed : Bool) (stage : Nat) (seam : Option Cmd) : Permute :=
  { cmd := cmd0 permuteS, stage := stage, ready := [], done := [], sent := [], closed := [], failed := failed, lastAt := 0, seam := seam }
def permuting (failed : Bool) (seam : Option Cmd) : State :=
  let s := mem (member sCommitted) 0x1000 (le 2 2 ++ le 2 1)
  { s with coll := { s.coll with permute := some (held failed 3 seam) } }
theorem test_permuteVote : (permuting true none).coll.permute = some (held true 3 none) ∧ (permuting false (some (cmd0 permuteS))).coll.permute = some (held false 3 (some (cmd0 permuteS)))
    ∧ (permuteTables (csrSetField { permuting false none with coll := { (permuting false none).coll with permute := none } } rColEpoch 16 16 0) permuteBody).2 = some ([2, 1], []) := by
  decide +kernel

def collBody (ax red wire count : Nat) : List Byte :=
  le 1 ax ++ le 1 red ++ le 1 wire ++ le 1 0 ++ le 4 count ++ le 8 0x10000 ++ le 8 0x20000 ++ le 8 0 ++ le 4 0x80 ++ le 4 64 ++ le 8 0x30000 ++ le 16 0
def collS (op : Nat) : State :=
  host (member sOpen) op (collBody 1 (if op = 0x0701 ∨ op = 0x0703 then 1 else 0) (if op = 0x0701 ∨ op = 0x0703 then 0x0B else 0) 64)
theorem test_collectives : [0x0701, 0x0702, 0x0703, 0x0704, 0x0705].all (fun op => ok (collS op) op && collCheck (collS op) (cmd0 (collS op)) == none
    && collCheck (markBegun (collS op) 0 0) (cmd0 (collS op)) == none && freeChannel (markBegun (collS op) 0 0) == some 0x20 && decide (shedLevel (collS op) < 4)) = true := by
  decide +kernel
/-- A collective launched on its tick at shed level S4. -/
def collLaunched : State :=
  let b := collBody 1 0 0 64
  let s := placeEntry (member sOpen) 0 (sliceB (leBytes 2 0x0702 ++ [3, byteOf (ceilDiv b.length 16)] ++ le 4 0 ++ le 4 5 ++ le 2 0 ++ le 2 (jobId (member sOpen)) ++ le 16 0 ++ b) 0 512) nobody
  csrPut { s with queues := s.queues.map (fun x => { x with slots := x.slots.map (fun sl => { sl with launched := true }) }) } rPwrStatus (4 * 2 ^ 29)
theorem test_collective_waits : collCheck collLaunched (cmd0 collLaunched) = none ∧ shedLevel collLaunched = 4
    ∧ ok collLaunched 0x0702 = true := by decide +kernel
theorem test_collective_refused : ok (host (member sOpen) 0x0702 (collBody 0 0 0 64)) 0x0702 = true
    ∧ collCheck (markBegun (host (member sOpen) 0x0702 (collBody 0 0 0 64)) 0 0) (cmd0 (host (member sOpen) 0x0702 (collBody 0 0 0 64))) = some stBadParam := by decide +kernel

/-- A Scrim packet that has come to port 0, and a device that takes it. -/
def head0 : ScHdr := { op := 1, flags := 0, src := 2, dst := 0x8000, chan := 0x20, seq := 0, opid := 9, addr := 0, len := 32, pkt := 0, npkt := 1, reason := 0, queue := 0 }
def packet (h : ScHdr) (data : List Byte) : Packet :=
  { port := 0, mac := List.replicate 6 0, src := List.replicate 16 2, dst := List.replicate 16 1, plain := true, sport := 7, dport := 4000
    sum := udpSum (List.replicate 16 2) (List.replicate 16 1) 7 4000 (scrimPacket h data), ce := false, payload := scrimPacket h data
    link := { corr := 0, uncorr := 0, fcs := 0, ber := false } }
def linked (s : State) : State :=
  let s := regs s [(rScrPortStatus, 2 ^ 31), (rScrUdp, 4000 * 2 ^ 16 + 0x100 * 16)]
  { s with net := { s.net with ip6 := List.replicate 16 1 } }

def record (kind : Nat) (data : List Byte) : Packet := packet { head0 with addr := 2 ^ 30 + 0x100000 } (le 1 kind ++ data)
def recRow (k : Nat) (data : List Byte) : Bool :=
  match acceptScrim (linked (member sOpen)) (record k data) 1 with
  | (t, some (h, d)) => released t && isCollChan h && packetKind t h d == k
  | _ => false
theorem test_records : recRow 1 (le 31 0) = true ∧ recRow 2 (le 31 0) = true ∧ recRow 3 (le 31 0) = true ∧ recRow 0 (le 63 0) = true := by decide +kernel
theorem test_record_kept : 0 ≤ epochDiff 0 (epochOf (member sOpen)) ∧ epochDiff 0 (epochOf (regs (member sOpen) [(rColEpoch, 1)])) < 0 ∧ (member sOpen).coll.running = []
    ∧ isMoveRec (member sOpen) { addr := 2 ^ 30 + 0x100000, src := 2, body := le 32 1 } = false := by decide +kernel

def running : State :=
  let s := markBegun (collS 0x0702) 0 0
  { s with coll := { s.coll with running := [collOfCmd s (cmd0 (collS 0x0702)) 0x20] } }
theorem test_collectiveTimeout : (collOf { running with plumb := 20000000 } 5).any (fun c => decide (c.lastAt + collWindow running ≤ 20000000)) = true
    ∧ (collOf running 5).any (fun c => decide (19999999 < c.lastAt + collWindow running)) = true := by decide +kernel

def mapBody (flags spare : Nat) : List Byte :=
  le 2 1 ++ le 2 2 ++ le 2 1 ++ le 2 1 ++ le 2 0 ++ le 1 flags ++ le 1 0 ++ le 2 spare ++ le 2 0 ++ le 8 0x1000 ++ le 8 0 ++ le 8 0x2000 ++ le 8 (2 ^ 30) ++ le 4 1 ++ le 12 0
def mapS0 : State := host (mem up 0x1000 (le 2 1 ++ le 2 2)) 0x0707 (mapBody 1 0)
theorem test_mapSet : ok mapS0 0x0707 = true ∧ isRemap (cmd0 mapS0) = false ∧ mapSetCheck (markBegun mapS0 0 0) (cmd0 mapS0).body = none
    ∧ (readMapping (markBegun mapS0 0 0) (cmd0 mapS0).body).2 = some ([1, 2], [], none) ∧ idsOk (msSelf (cmd0 mapS0).body) [1, 2] [] = true
    ∧ peersOk none [1, 2] = true := by decide +kernel
def remapS : State := host (mem (member sIdle) 0x1000 (le 2 1 ++ le 2 3)) 0x0707 (mapBody 4 0)
theorem test_remap : ok remapS 0x0707 = true ∧ csrField (markBegun remapS 0 0) rColId 30 30 = 1 ∧ peersOk none [1, 3] = true ∧ isRemap (cmd0 remapS) = true ∧ msBodyOk (markBegun remapS 0 0) (cmd0 remapS).body = true
    ∧ remapKeeps (markBegun remapS 0 0) (cmd0 remapS).body = true ∧ (readMapping (markBegun remapS 0 0) (cmd0 remapS).body).2 = some ([1, 3], [], none)
    ∧ remapLists (markBegun remapS 0 0) [1, 3] [] = true ∧ idsOk 1 [1, 3] [] = true := by decide +kernel
theorem test_permute : ok permuteS 0x0706 = true ∧ (markBegun permuteS 0 0).coll.permute = none ∧ epochDiff (cmd0 permuteS).epoch (epochOf (markBegun permuteS 0 0)) = 0 ∧ placed? (markBegun permuteS 0 0) = true
    ∧ permuteBodyOk (markBegun permuteS 0 0) (cmd0 permuteS).body = true ∧ (permuteTables (markBegun permuteS 0 0) (cmd0 permuteS).body).2 = some ([2, 1], []) := by
  decide +kernel

theorem test_hawk : stepPhase (fenced sCommitted false 1 [(0, hawk1)]) = sCommitted ∧ bitOf 1 0 = true ∧ bitOf 1 15 = false
    ∧ (hawkOf (fenced sOpen false 1 [(0, hawk1)]) 0).frames ≠ [] := by decide +kernel

/-! RUN, its tiles and its stages. -/

/-- A descriptor of one row of `n` elements: format byte, T, space, code and exponent planes. -/
def desc (fmt t space n code exp : Nat) : List Byte :=
  le 1 fmt ++ le 1 t ++ le 1 space ++ le 1 2 ++ le 4 n ++ le 4 1 ++ le 4 1 ++ le 4 1 ++ le 4 0 ++ le 2 128 ++ le 2 0xFFFF ++ le 4 0 ++ le 8 code ++ le 8 exp ++ le 16 0
def stage (kind a d x : Nat) (ctrl : List Byte) : List Byte := le 1 kind ++ le 1 0 ++ le 2 a ++ le 2 d ++ le 2 x ++ sliceB ctrl 0 32
def runBody (stages : List (List Byte)) : List Byte :=
  le 4 1 ++ le 1 1 ++ le 1 stages.length ++ le 1 0 ++ le 1 7 ++ le 2 0 ++ le 1 1 ++ le 1 0 ++ le 2 0xFFFF ++ le 2 0 ++ le 2 0xFFFF ++ le 2 0 ++ le 12 0 ++ stages.flatten

/-- Descriptors 0 to 7 of the job. -/
def table : List Byte :=
  desc 0x12 0 0 32 0x10000 0 ++ desc 0x12 0 1 32 0 0 ++ desc 0x0A 0 1 32 0x1000 0x1800 ++ desc 0x04 127 1 32 0x2000 0 ++ desc 0x04 127 1 32 0x2800 0
    ++ desc 0x12 0 1 32 0x3000 0 ++ desc 0x12 0 1 32 0x4000 0 ++ desc 0x12 0 2 32 0x1000 0

/-- An open step of a job whose recipe 7 is loaded and whose descriptors stand at 0x8000. -/
def arena : State :=
  let s := csrPut (member sOpen) rScdTileHold 2000
  { s with mem := { s.mem with bytes := (table.zipIdx.map (fun p => (0x8000 + p.2, p.1))).filter (fun p => p.2 != 0) }
           job := { s.job with dtabAddr := 0x8000, dtabCount := 8, hawkHbm := [(0, { base := 0x100000, len := 0x8000 })] }
           chip := { s.chip with recipes := [(7, recipe1)] } }

def loadSt : List Byte := stage 1 0 1 0xFFFF (le 1 0xFF ++ le 31 0)
def quantSt : List Byte := stage 2 1 2 0xFFFF (le 1 0 ++ le 1 0x0A ++ le 1 0 ++ le 1 8 ++ le 28 0)
def mulSt (keep : Nat) : List Byte := stage 3 3 0xFFFF 4 (le 1 (64 * keep) ++ le 1 4 ++ le 1 4 ++ le 1 127 ++ le 1 127 ++ le 27 0)
def screedSt : List Byte := stage 4 0xFFFF 5 0xFFFF (le 1 0 ++ le 1 0x12 ++ le 30 0)
def returnSt : List Byte := stage 5 5 6 0xFFFF (le 1 0 ++ le 1 0x12 ++ le 1 0 ++ le 1 4 ++ le 28 0)
def storeSt : List Byte := stage 7 1 0 0xFFFF (le 1 0xFF ++ le 31 0)
def stashSt : List Byte := stage 8 1 7 0xFFFF (le 2 3 ++ le 1 0 ++ le 1 0 ++ le 4 2 ++ le 24 0)
def unstashSt : List Byte := stage 9 7 1 0xFFFF (le 2 3 ++ le 1 0 ++ le 1 0 ++ le 4 2 ++ le 24 0)
def vecFlags : Nat := 6
def vecSt (f sub : Nat) (k : Nat := 0) : List Byte :=
  stage 6 0 1 2 (le 1 f ++ le 1 sub ++ le 1 0x12 ++ le 1 0x12 ++ le 1 (vecFlags) ++ le 1 k ++ le 2 0 ++ le 4 3 ++ le 4 0 ++ le 4 0x100000 ++ le 4 0x110000 ++ le 4 0x120000 ++ le 4 0)

def runS (stages : List (List Byte)) : State := host arena 0x0401 (runBody stages)

/-- A state with the RUN of `stages` at its stage `k` in its one core, tile 0 its own. -/
def at' (stages : List (List Byte)) (k : Nat) : State :=
  let c : Cmd := { queue := 0, qseq := 0, opcode := 0x0401, flags := 2, op := 5, epoch := 0, job := 1, launch := 0, resv := false, body := runBody stages, origin := nobody, late := false, arrived := 0 }
  { arena with
    runs := [{ cmd := c, level := false, recipe := recipe1, copies := [], cores := [{ coreRun0 0 with next := k }], frames := [] }]
    chip := { arena.chip with tiles := (List.range 4).map (fun e => (8 * e, { freeTile with owned := true, owner := 5 })) } }

/-- The same over a table of its own. -/
def over' (tbl : List Byte) (s : State) : State :=
  { s with mem := { s.mem with bytes := (tbl.zipIdx.map (fun p => (0x8000 + p.2, p.1))).filter (fun p => p.2 != 0) } }

/-- What the core of that state stands at. -/
def ctx (s : State) : StCtx :=
  let r := (runOf s 5).getD { cmd := cmd0 up, level := false, recipe := [], copies := [], cores := [], frames := [] }
  let c := r.cores.headD { core := 0, next := 0, status := 0, stopped := false, engPos := [], rowPos := 0, origin := false, slabs := [], counts := runCounts0 }
  let h := runHead r.cmd.body
  { run := r, head := h, core := c, pos := h.cores.idxOf 0, n := h.cores.length, i := c.next, rcd := nthD h.stages c.next (stageRec [])
    io := { pc := physCore s 0, mb := h.mb, frame := ((r.frames.filter (fun p => decide (p.1 ≤ c.next))).getLast?).map (·.2) } }

def chain : List (List Byte) := [loadSt, quantSt, mulSt 0, screedSt, returnSt, storeSt, stashSt, unstashSt]

theorem test_run_waits : ok (csrPut (runS [loadSt]) rHubStepState sIdle) 0x0401 = true ∧ stepPhase (csrPut (runS [loadSt]) rHubStepState sIdle) ≠ sOpen := by
  decide +kernel
theorem test_run_takes : ok (runS [mulSt 0]) 0x0401 = true ∧ stepPhase (runS [mulSt 0]) = sOpen ∧ isHeld (runS [mulSt 0]) 0 0 = false
    ∧ runCheck (runS [mulSt 0]) (runLevelled (runS [mulSt 0]) (cmd0 (runS [mulSt 0]))) (runHead (cmd0 (runS [mulSt 0])).body) = true
    ∧ runCheck (markBegun (runS [mulSt 0]) 0 0) (runLevelled (markBegun (runS [mulSt 0]) 0 0) (cmd0 (runS [mulSt 0]))) (runHead (cmd0 (runS [mulSt 0])).body) = true
    ∧ tilesState (runS [mulSt 0]) (runHead (cmd0 (runS [mulSt 0])).body) = 0 ∧ earlierReady (runS [mulSt 0]) (runHead (cmd0 (runS [mulSt 0])).body) = false
    ∧ tilesState (markBegun (runS [mulSt 0]) 0 0) (runHead (cmd0 (runS [mulSt 0])).body) = 0 := by decide +kernel
theorem test_run_recipe : recipeOf (markBegun (runS [mulSt 0]) 0 0) (runHead (cmd0 (runS [mulSt 0])).body).recipe = some recipe1
    ∧ (match resolveCopies (markBegun (runS [mulSt 0]) 0 0) (runHead (cmd0 (runS [mulSt 0])).body).copies with
      | .ok c => takeCheck (markBegun (runS [mulSt 0]) 0 0) (runHead (cmd0 (runS [mulSt 0])).body) c (Recipe.ofBytes recipe1)
      | .error _ => false) = true := by decide +kernel

/-- Whether descriptors read in a state, and what the RUN's checks then say. -/
def takesNow (s : State) (c : Cmd) : Bool :=
  let d := readDescs s (runHead c.body)
  d.2 && runCheck d.1 (runLevelled d.1 c) (runHead c.body) && tilesState d.1 (runHead c.body) == 0
    && (match recipeOf d.1 (runHead c.body).recipe, resolveCopies d.1 (runHead c.body).copies with
      | some rb, .ok k => takeCheck d.1 (runHead c.body) k (Recipe.ofBytes rb)
      | _, _ => false)
theorem test_run_taken : takesNow (markBegun (runS [mulSt 0]) 0 0) (cmd0 (runS [mulSt 0])) = true
    ∧ takesNow (markBegun (host arena 0x0402 (runBody [mulSt 0])) 0 0) (cmd0 (host arena 0x0402 (runBody [mulSt 0]))) = true
    ∧ queueAhead (runS [mulSt 0]) (cmd0 (runS [mulSt 0])) (runHead (cmd0 (runS [mulSt 0])).body) = false := by decide +kernel
/-- A RUN with a poisoned descriptor. -/
def poisonedRun (stages : List (List Byte)) : State :=
  let s := runS stages
  { s with mem := { s.mem with errs := (List.range 8).map (fun k => (0x200 + k, [(0, 1), (1, 2), (2, 3)])) } }
theorem test_run_poisoned : [[mulSt 0], [stage 10 0 0 0 []]].all (fun l => ok (poisonedRun l) 0x0401
      && !(readDescs (markBegun (poisonedRun l) 0 0) (runHead (cmd0 (poisonedRun l)).body)).2) = true
    ∧ runCheck (poisonedRun [mulSt 0]) false (runHead (cmd0 (poisonedRun [mulSt 0])).body) = true
    ∧ runCheck (poisonedRun [stage 10 0 0 0 []]) false (runHead (cmd0 (poisonedRun [stage 10 0 0 0 []])).body) = false
    ∧ (readDescs (markBegun (runS [stage 10 0 0 0 []]) 0 0) (runHead (cmd0 (runS [stage 10 0 0 0 []])).body)).2 = true := by decide +kernel
/-- A RUN in queue 1 while one in queue 0 asks for the same core. -/
def behind : State :=
  let s := runS [mulSt 0]
  placeEntry s 1 (sliceB (le 2 0x0401 ++ [2, byteOf (ceilDiv (runBody [mulSt 0]).length 16)] ++ le 4 0 ++ le 4 6 ++ le 2 0 ++ le 2 (jobId s) ++ le 16 0 ++ runBody [mulSt 0]) 0 512) nobody
theorem test_run_behind : (readyCmd behind 1 0).any (fun c => c.opcode == 0x0401 && !earlySkip behind 1 0 && (admission behind c).isNone
    && queueAhead behind c (runHead c.body)) = true := by decide +kernel

/-- The same with tile 0 of a core's engine owned by another command. -/
def busy (s : State) : State := tilePut s 0 0 { tileGet s 0 0 with owned := true, owner := 77 }
theorem test_run_held : ok (busy (runS [mulSt 0])) 0x0401 = true ∧ tilesState (busy (runS [mulSt 0])) (runHead (cmd0 (runS [mulSt 0])).body) = 1
    ∧ runCheck (busy (runS [mulSt 0])) false (runHead (cmd0 (runS [mulSt 0])).body) = true ∧ runLevelled (busy (runS [mulSt 0])) (cmd0 (runS [mulSt 0])) = false := by
  decide +kernel
theorem test_run_refused : ok (runS [stage 10 0 0 0 []]) 0x0401 = true
    ∧ runCheck (runS [stage 10 0 0 0 []]) false (runHead (cmd0 (runS [stage 10 0 0 0 []])).body) = false
    ∧ runCheck (markBegun (runS [stage 10 0 0 0 []]) 0 0) false (runHead (cmd0 (runS [stage 10 0 0 0 []])).body) = false := by decide +kernel
theorem test_run_level : ok (host arena 0x0402 (runBody [loadSt])) 0x0402 = true := by decide +kernel

/-- A RUN held for its tiles since tick 0. -/
def waiting (s : State) (plumb : Nat) : State :=
  { s with plumb := plumb, held := [{ q := 0, qseq := 0, used := 0, since := some 0, limit := 2000000, order := 0 }] }
theorem test_takeTiles : (nextHeld (waiting (runS [mulSt 0]) 1999999) 0).isSome = true ∧ holdUsed (waiting (runS [mulSt 0]) 1999999) { q := 0, qseq := 0, used := 0, since := some 0, limit := 2000000, order := 0 } = 1999999
    ∧ (readyCmd (waiting (runS [mulSt 0]) 1999999) 0 0).isSome = true ∧ earlySkip (waiting (runS [mulSt 0]) 1999999) 0 0 = false
    ∧ takesNow (markBegun (unhold (waiting (runS [mulSt 0]) 1999999) 0 0) 0 0) (cmd0 (runS [mulSt 0])) = true := by decide +kernel
theorem test_tileConflict : (heldCmd (waiting (busy (runS [mulSt 0])) 2000000) { q := 0, qseq := 0, used := 0, since := some 0, limit := 2000000, order := 0 }).isSome = true
    ∧ holdUsed (waiting (busy (runS [mulSt 0])) 2000000) { q := 0, qseq := 0, used := 0, since := some 0, limit := 2000000, order := 0 } = 2000000 := by decide +kernel
theorem test_runComplete : (runOf (at' chain 8) 5).any (fun r => r.cores.all (·.ended (runHead r.cmd.body).nstage)) = true
    ∧ (runOf (at' chain 7) 5).any (fun r => !r.cores.all (·.ended (runHead r.cmd.body).nstage)) = true := by decide +kernel

theorem test_at_stages : [kLoad, kQuantise, kMultiply, kScreed, kReturn, kStore, kStash, kUnstash].zipIdx.all (fun p =>
    isKind p.1 (ctx (at' chain p.2)).rcd && (ctx (at' chain p.2)).i == p.2 && (runOf (at' chain p.2) 5).isSome) = true := by decide +kernel
theorem test_atStage_load : AtStage (at' chain 0) 5 0 (ctx (at' chain 0)) := by unfold AtStage; decide +kernel
theorem test_atStage_mul : AtStage (at' chain 2) 5 0 (ctx (at' chain 2)) := by unfold AtStage; decide +kernel
theorem test_atStage_last : AtStage (at' chain 7) 5 0 (ctx (at' chain 7)) := by unfold AtStage; decide +kernel

theorem test_load : ((ctx (at' chain 0)).desc (at' chain 0) 0).any (fun a => !a.fmt.blocked && a.side == 0 && a.fbl == 0 && a.space == 0) = true
    ∧ ((ctx (at' chain 0)).desc (at' chain 0) 1).any (fun d => d.space == 1) = true ∧ ((ctx (at' chain 0)).move (at' chain 0)).2.1 = true
    ∧ (ctx (at' chain 0)).prefetched (at' chain 0) = false := by decide +kernel
theorem test_load_poisoned : ((ctx (at' chain 0)).move { at' chain 0 with mem := { (at' chain 0).mem with errs := [(0x400, [(0, 1), (1, 2), (2, 3)])] } }).2.1 = false := by
  decide +kernel
theorem test_store : ((ctx (at' chain 5)).desc (at' chain 5) 1).any (fun a => !a.fmt.blocked && a.side == 0 && a.fbl == 0 && a.space == 1) = true
    ∧ ((ctx (at' chain 5)).desc (at' chain 5) 0).any (fun d => d.space == 0) = true ∧ ((ctx (at' chain 5)).move (at' chain 5)).2.1 = true := by decide +kernel
theorem test_stash_full : (ctx (at' chain 6)).ownFrame = none
    ∧ hawkSize { at' chain 6 with job := { (at' chain 6).job with hawkHbm := [] } } (ctx (at' chain 6)).head.mb
      < (hawkTop (hawkOf (at' chain 6) (ctx (at' chain 6)).head.mb) + leAt (ctx (at' chain 6)).rcd.ctrl 4 4) * 4096 := by decide +kernel
theorem test_stash : ((ctx (at' chain 6)).reserve (at' chain 6)).any (fun r => (r.2.move r.1).2.1) = true ∧ (ctx (at' chain 6)).ownFrame = none := by decide +kernel

def stacked (layer : Nat) : State := { at' chain 7 with hawk := [(0, { hawk1 with frames := [{ frame1 with layer := layer }] })] }
theorem test_unstash : ((ctx (stacked 3)).topFrame (stacked 3)).any (fun r => (r.2.move r.1).2.1) = true
    ∧ (ctx (stacked 4)).ownFrame = none ∧ (hawkOf (stacked 4) 0).frames = [{ frame1 with layer := 4 }]
    ∧ leAt (ctx (stacked 4)).rcd.ctrl 0 2 = 3 := by decide +kernel
theorem test_pop : (hawkOf (stacked 3) (ctx (stacked 3)).head.mb).frames = frame1 :: []
    ∧ ((ctx (stacked 3)).topFrame (stacked 3)).any (fun r => r.2.io.frame == some frame1) = true
    ∧ (runOf (at' chain 8) 5).any (fun r => r.cores.all (fun k => decide (7 < k.next))) = true := by decide +kernel

/-- What a quantise stage has before it: whether its output writes whole. -/
def quantRuns (s : State) : Option Bool :=
  let x := ctx s
  match FloatCtl.ofBytes x.rcd.ctrl, x.desc s x.rcd.dIn, x.desc s x.rcd.dOut with
  | some c, some a, some d => (match readVals s x.io a with
      | (r, some rows) => some (writeQuant r x.io d (quantOut r x.io.pc (quantSet x.run.level d c (Recipe.ofBytes x.run.recipe)) d
          (rows.map (prepRow (if c.rotEn then (Recipe.ofBytes x.run.recipe).rot else 1)
            (if c.scaleEn then some (coreScales r x.io.pc c.scale a.width) else none))))).2
      | _ => none)
  | _, _, _ => none
/-- Memory with poisoned sectors from `0x10000` on. -/
def spoiled (s : State) : State := { s with mem := { s.mem with errs := [(0x400, [(0, 1), (1, 2), (2, 3)])] } }
/-- A quantise stage that writes its codes to memory. -/
def quantOutS : State := spoiled (over' (desc 0x12 0 1 32 0x4000 0 ++ desc 0x0A 0 0 32 0x10000 0x20000)
  (at' [stage 2 0 1 0xFFFF (le 1 0 ++ le 1 0x0A ++ le 1 0 ++ le 1 8 ++ le 28 0)] 0))
theorem test_quantise : quantRuns (at' chain 1) = some true ∧ quantRuns quantOutS = some false
    ∧ isKind kQuantise (ctx quantOutS).rcd = true := by decide +kernel
theorem test_quantise_at : AtStage quantOutS 5 0 (ctx quantOutS) := by unfold AtStage; decide +kernel
theorem test_quantise_poisoned : (match (ctx (at' [stage 2 0 2 0xFFFF (le 1 0 ++ le 1 0x0A ++ le 1 0 ++ le 1 8 ++ le 28 0)] 0)).desc arena 0 with
    | some a => (readVals { arena with mem := { arena.mem with errs := [(0x400, [(0, 1), (1, 2), (2, 3)])] } } (ctx (at' chain 1)).io a).2.isNone
    | none => false) = true := by decide +kernel

/-- Whether an engine of a MULTIPLY stops; none where an operand does not read. -/
def mulStops (s : State) (faults : List ArrayFault) : Option Bool :=
  let x := ctx s
  match TileCtl.ofBytes x.rcd.ctrl, x.desc s x.rcd.dIn, x.desc s x.rcd.dAux with
  | some c, some a, some b => (match feedOperand s x a c.mask c.statFloor with
    | (t, some st) => (match feedOperand t x b c.mask c.strmFloor with
      | (u, some sm) =>
        let w := if x.core.engPos.all (· == 0) then [0, 1, 2, 3].foldl (fun s e => fillBanks s (x.io.pc * 4 + e) (streamBytes x b u)) u else u
        (match enginesWork x c c.mask st.mat sm.mat (if st.mat.kind = .p4 then paletteDescs u a.pal else []) a.colBase a.colStep
          (stageBlocks c.trans st.mat a.width) faults [0, 1, 2, 3] w with
        | (_, some ps) => some (ps.any (·.1))
        | _ => none)
      | _ => none)
    | _ => none)
  | _, _, _ => none
def mulAt : State := over' (desc 0x04 127 1 32 0x2000 0 ++ desc 0x04 127 1 32 0x2800 0)
  (at' [stage 3 0 0xFFFF 1 (le 1 0 ++ le 1 4 ++ le 1 4 ++ le 1 127 ++ le 1 127 ++ le 27 0)] 0)
theorem test_multiply : mulStops mulAt [] = some false ∧ mulStops mulAt [{ engine := 0, pos := 0, column := 0, delta := 1, kind := 0, word := 0, syn := 0 }] = some true
    ∧ (ctx mulAt).run.level = false := by decide +kernel
/-- A MULTIPLY whose stationary operand lies in a poisoned sector of memory. -/
def mulPoisoned : State := spoiled (over' (desc 0x04 127 0 32 0x10000 0 ++ desc 0x04 127 1 32 0x2800 0)
  (at' [stage 3 0 0xFFFF 1 (le 1 0 ++ le 1 4 ++ le 1 4 ++ le 1 127 ++ le 1 127 ++ le 27 0)] 0))
theorem test_multiply_poisoned : (match TileCtl.ofBytes (ctx mulPoisoned).rcd.ctrl, (ctx mulPoisoned).desc mulPoisoned 0, (ctx mulPoisoned).desc mulPoisoned 1 with
    | some c, some a, some _ => (feedOperand mulPoisoned (ctx mulPoisoned) a c.mask c.statFloor).2.isNone
    | _, _, _ => false) = true := by decide +kernel
theorem test_openTile : (TileCtl.ofBytes (sliceB (mulSt 0) 8 32)).any (fun c => c.opn == 0) = true := by decide +kernel

def drains (s : State) (f : List ArrayFault) (n : Nat) : Nat :=
  let x := ctx s
  match lastMultiply x.head.stages x.i, ScreedCtl.ofBytes x.rcd.ctrl, x.desc s x.rcd.dOut with
  | some m, some c, some d =>
    let j : ScreedJob := { ctl := c, tile := m, out := d, rc := Recipe.ofBytes x.run.recipe }
    (drainFrom x j f (min n (j.places - x.core.rowPos)) x.core.rowPos s).2
  | _, _, _ => 9
/-- Whether a RETURN's output and scale gradients write whole. -/
def returns (s : State) : Option Bool :=
  let x := ctx s
  match FloatCtl.ofBytes x.rcd.ctrl, x.desc s x.rcd.dIn, x.desc s x.rcd.dOut with
  | some c, some a, some d => (match readVals s x.io a with
    | (r, some rows) =>
      let n := if c.rotEn then (Recipe.ofBytes x.run.recipe).rot else 1
      let scale := if c.scaleEn then some (coreScales r x.io.pc c.scale a.width) else none
      let out := rows.map (returnRow c.ret n scale)
      let w := writeFloats r x.io d f32 out
      let g := if c.sgradEn then sgradPart x w.1 n c (scale.getD (List.replicate a.width fvOne)) a.width out else (w.1, true)
      some (w.2 && g.2)
    | _ => none)
  | _, _, _ => none
/-- A return stage that writes to memory. -/
def returnOutS : State := spoiled (over' (desc 0x12 0 1 4 0x4000 0 ++ desc 0x12 0 0 4 0x10000 0)
  (at' [stage 5 0 1 0xFFFF (le 1 0 ++ le 1 0x12 ++ le 1 0 ++ le 1 4 ++ le 28 0)] 0))
theorem test_return : returns (at' chain 4) = some true ∧ returns returnOutS = some false ∧ isKind kReturn (ctx returnOutS).rcd = true := by decide +kernel

/-- What a vector stage has before it. -/
def vecRuns (f : VecIn → VecRow) (s : State) : Bool :=
  let x := ctx s
  match VecCtl.ofBytes x.rcd.ctrl, x.desc s x.rcd.dIn with
  | some c, some a => (match readVals s x.io a with
    | (t, some xs) => (match (match x.desc s x.rcd.dAux with
          | some b => if vecNeedsAux c.func then readVals t x.io b else (t, some [])
          | none => (t, some [])) with
      | (u, some ys) =>
        let w := (xs.mapIdx (fun k r => (k, r, nthD ys k []))).foldl (vecRowStep f x c (if c.func = 0x38 then x.desc s x.rcd.dOut else none)) (u, { rows := [], causes := [], more := [] }, true)
        w.2.2 && (match x.desc s x.rcd.dOut with
          | some d => if c.func = 0x38 ∨ !vecWritesOut c.func then (putNoOut w.1 x c a.width w.2.1).2
            else (match d.fmt.float? with
              | some ft => (putFloatOut w.1 x c d ft w.2.1).2
              | none => (putBlockOut w.1 x c d w.2.1).2)
          | none => (putNoOut w.1 x c a.width w.2.1).2)
      | _ => false)
    | _ => false)
  | _, _ => false

/-- A vector stage over rows of four elements. -/
def vecAt (f k : Nat) : State :=
  over' (desc 0x12 0 1 4 0x5000 0 ++ desc 0x12 0 1 4 0x6000 0 ++ desc 0x12 0 1 4 0x7000 0) (at' [vecSt f 0 k] 0)
theorem test_vec_plain : [(0x00, vfCopy), (0x01, vfAdd), (0x02, vfSub), (0x03, vfMul)].all (fun f => vecRuns f.2 (vecAt f.1 0) && isVec f.1 (ctx (vecAt f.1 0)).rcd) = true := by decide +kernel
theorem test_vec_act : [(0x10, vfAct), (0x11, vfActBwd)].all (fun f => vecRuns f.2 (vecAt f.1 0) && isVec f.1 (ctx (vecAt f.1 0)).rcd) = true := by decide +kernel
theorem test_vec_softmax : [(0x20, vfSmStats), (0x21, vfSmNorm), (0x22, vfSmBwdSum), (0x23, vfSmBwd)].all (fun f => vecRuns f.2 (vecAt f.1 0) && isVec f.1 (ctx (vecAt f.1 0)).rcd) = true := by
  decide +kernel
theorem test_vec_norm : [(0x28, vfLnStats), (0x29, vfNormApply), (0x2A, vfNormBwdSum), (0x2B, vfNormBwd), (0x2C, vfRmsStats)].all (fun f =>
    vecRuns f.2 (vecAt f.1 0) && isVec f.1 (ctx (vecAt f.1 0)).rcd) = true := by decide +kernel
theorem test_vec_lists : [(0x30, vfTopk, 2), (0x38, vfSegsum, 0)].all (fun f => vecRuns f.2.1 (vecAt f.1 f.2.2) && isVec f.1 (ctx (vecAt f.1 f.2.2)).rcd) = true := by
  decide +kernel
theorem test_vec_at : AtStage (vecAt 0x30 2) 5 0 (ctx (vecAt 0x30 2)) ∧ isVec 0x38 (ctx (vecAt 0x30 2)).rcd = false := by unfold AtStage; decide +kernel
/-- A vector stage whose operand lies in a poisoned sector of memory. -/
def vecPoisoned : State :=
  spoiled (over' (desc 0x12 0 0 4 0x10000 0 ++ desc 0x12 0 1 4 0x6000 0 ++ desc 0x12 0 1 4 0x7000 0) (at' [vecSt 0x10 0] 0))
theorem test_vec_poisoned : ((ctx vecPoisoned).desc vecPoisoned 0).any (fun a => (readVals vecPoisoned (ctx vecPoisoned).io a).2.isNone) = true
    ∧ isVec 0x10 (ctx vecPoisoned).rcd = true ∧ (VecCtl.ofBytes (ctx vecPoisoned).rcd.ctrl).isSome = true := by decide +kernel
theorem test_masked_row : rsF32 (le 4 0xFF800000 ++ le 60 0) 0 = .inf true := by decide +kernel
theorem test_screed : drains (at' [mulSt 0, screedSt] 1) [] 4096 = 0 := by decide +kernel
theorem test_screed_fault : drains (at' [mulSt 0, screedSt] 1) [{ engine := 0, pos := 0, column := 0, delta := 1, kind := 3, word := 0, syn := 0 }] 4096 = 1 := by decide +kernel

/-! Streams, their words and waits, and the Lath. -/

/-- A STENCIL instruction word: operation, and the rest of its fields as a number. -/
def stWord (op rest : Nat) : Nat := op * 2 ^ 56 + rest
def image (ws : List Nat) : List Byte := le 1 ws.length ++ le 15 0 ++ (ws.map (le 8)).flatten
def loadS (b ch : Nat) : State := host (job up) 0x0301 (le 1 b ++ le 1 ch ++ le 14 0 ++ image [stWord opSignal 0, stWord opStEnd 0])
theorem test_stencilLoad : [(0, 15), (32, 31)].all (fun p => ok (loadS p.1 p.2) 0x0301 && blockNo (markBegun (loadS p.1 p.2) 0 0) p.1 == some p.1
    && (blockGet (markBegun (loadS p.1 p.2) 0 0) p.1).chans.length == blockChans p.1 && imageOk ((cmd0 (loadS p.1 p.2)).body.drop 16) (decide (p.1 = 32))
    && zeroAt (cmd0 (loadS p.1 p.2)).body 2 14 && decide ((chanGet (markBegun (loadS p.1 p.2) 0 0) p.1 p.2).state ≤ chLoaded)
    && !blockGated (markBegun (loadS p.1 p.2) 0 0) p.1) = true := by decide +kernel

/-- A channel of block 0 as it stands before a word. -/
def atOp (ws : List Nat) (pc : Nat) : Chan := { chan0 with state := chRunning, image := image ws, pc := pc, anchor := 100 }
def with0 (s : State) (x : Chan) : State := chanPut s 0 0 x
def streamS (op mask : Nat) (state : Nat) : State := with0 (host (job up) op (le 1 0 ++ le 3 0 ++ le 4 mask ++ le 8 0)) { atOp [stWord opStEnd 0] 0 with state := state }
theorem test_streamStart : ok (streamS 0x0302 1 chLoaded) 0x0302 = true ∧ blockGated (markBegun (streamS 0x0302 1 chLoaded) 0 0) 0 = false ∧ maskChans 1 = [0] ∧ maskChans (2 ^ 31) = [31]
    ∧ (chanGet (markBegun (streamS 0x0302 1 chLoaded) 0 0) 0 0).state = chLoaded
    ∧ blockNo (markBegun (streamS 0x0302 1 chLoaded) 0 0) 0 = some 0 ∧ (blockGet (markBegun (streamS 0x0302 1 chLoaded) 0 0) 0).chans.length = blockChans 0 := by decide +kernel
theorem test_streamStop : ok (streamS 0x0303 0xFFFF chRunning) 0x0303 = true ∧ leAt (cmd0 (streamS 0x0303 0xFFFF chRunning)).body 4 4 < 2 ^ blockChans 0
    ∧ zeroAt (cmd0 (streamS 0x0303 0xFFFF chRunning)).body 1 3 = true ∧ (chanGet (markBegun (streamS 0x0303 0xFFFF chRunning) 0 0) 0 0).state = chRunning
    ∧ blockNo (markBegun (streamS 0x0303 0xFFFF chRunning) 0 0) 0 = some 0 := by decide +kernel
theorem test_streamResume : ok (streamS 0x0304 0 chHalted) 0x0304 = true ∧ (chanGet (markBegun (streamS 0x0304 0 chHalted) 0 0) 0 0).state = chHalted
    ∧ blockNo (markBegun (streamS 0x0304 0 chHalted) 0 0) 0 = some 0 ∧ (blockGet (markBegun (streamS 0x0304 0 chHalted) 0 0) 0).chans.length = blockChans 0 := by decide +kernel

/-- Channel 0 of block 0 at a word. -/
def atW (w : Nat) : State := { with0 up (atOp [w, stWord opStEnd 0] 0) with plumb := 150 }
theorem test_atWord : [opBase, opStride, opLoop, opEndl, opMove, opAdd, opWaitp, opWaitt, opWaitc, opSignal, opSett, opPeer, opStEnd].all (fun op =>
    decide (0 < blockChans 0) && (chanGet (atW (stWord op 0)) 0 0).state == chRunning && imageWord (chanGet (atW (stWord op 0)) 0 0).image 0 == stWord op 0
      && stOp (stWord op 0) == op && !(chanGet (atW (stWord op 0)) 0 0).stopping && !(blockGet (atW (stWord op 0)) 0).stops
      && decide (shedLevel (atW (stWord op 0)) < 4) && released (atW (stWord op 0)) == true) = true := by decide +kernel
theorem test_atWord_signal : AtWord (atW (stWord opSignal 0)) 0 0 opSignal (atOp [stWord opSignal 0, stWord opStEnd 0] 0) (stWord opSignal 0) := by
  unfold AtWord; decide +kernel
theorem test_atWord_wait : AtWord (atW (stWord opWaitp 50)) 0 0 opWaitp (atOp [stWord opWaitp 50, stWord opStEnd 0] 0) (stWord opWaitp 50)
    ∧ 100 + fieldOf (stWord opWaitp 50) 47 0 ≤ (atW 0).plumb ∧ (atW 0).plumb < 100 + fieldOf (stWord opWaitp 51) 47 0 := by
  unfold AtWord; decide +kernel
theorem test_thresholds : fieldOf (stWord opWaitt 0) 31 0 ≤ tallyGet (atW 0) 0 0 ∧ tallyGet (atW 0) 0 0 < fieldOf (stWord opWaitt 1) 31 0
    ∧ fieldOf (stWord opWaitc 0) 31 0 ≤ (chanGet (atW 0) 0 0).signal ∧ (chanGet (atW 0) 0 0).signal < fieldOf (stWord opWaitc 1) 31 0 := by decide +kernel
/-- At ENDL of a loop that runs its body COUNT + 1 times. -/
def looping (count i : Nat) : Chan := { atOp [stWord opLoop count, stWord opEndl 0, stWord opStEnd 0] 1 with loops := [(0, 1)], counters := [i, 0, 0, 0, 0, 0] }
theorem test_endl : AtWord (with0 up (looping 1 0)) 0 0 opEndl (looping 1 0) (stWord opEndl 0) ∧ (looping 1 0).loops.getLast? = some (0, 1)
    ∧ nthD (looping 1 0).counters 0 0 + 1 ≤ fieldOf (imageWord (looping 1 0).image 0) 23 0
    ∧ AtWord (with0 up (looping 1 1)) 0 0 opEndl (looping 1 1) (stWord opEndl 0)
    ∧ fieldOf (imageWord (looping 1 1).image 0) 23 0 < nthD (looping 1 1).counters 0 0 + 1 := by unfold AtWord; decide +kernel

/-- A MOVE of a class from the block's own buffer into memory, 32 bytes; `sp` the target's space. -/
def moving (op cls addr issued : Nat) : Chan :=
  { atOp [stWord op (cls * 2 ^ 53 + 2 ^ 32 * boolNat (op == opAdd) + 32), stWord opStEnd 0] 0 with spaces := [2, 0, 0, 0], bases := [0, addr, 0, 0], issued := issued }
/-- A parcel of channel 0 of block 0, its answers on their way. -/
def parcel (kind : Nat) : Parcel :=
  { tag := 5, kind := kind, dest := 8, cls := 1, tally := 0xFF, chans := 1, marks := [], addr := 0, src := 0, len := 64, data := [], attempts := 0
    retries := 1, interval := 1000, sentAt := some 0, peer := false, onward := none }
/-- Where a MOVE's issue leaves its channel: the bytes issued, the parcels its window counts, and whether its block stops. -/
def issuing0 (x : Chan) (w : Nat) : Option (Nat × Nat × Nat × Bool) :=
  match moveOf (with0 up x) 0 x w with
  | (r, .ok m) =>
    let k : ChanMark := { id := x.moves, pc := x.pc, counters := x.counters, bases := x.bases, spaces := x.spaces, strides := x.strides, loops := x.loops
                          signal := x.signal, anchor := x.anchor, peer := x.peer }
    let t := issuePieces 0 0 x.moves m 16 (chanPut r 0 0 (if x.issued = 0 then { x with marks := x.marks ++ [k] } else x))
    some (m.len, (chanGet t 0 0).issued, windowUsed t 0 0, (blockGet t 0).stops)
  | _ => none
theorem test_move_ends : [(opMove, 0, 0x1000, 0), (opMove, 3, 0x1000, 32), (opAdd, 5, 0x1000, 0)].all (fun p =>
    let x := moving p.1 p.2.1 p.2.2.1 p.2.2.2
    (issuing0 x (imageWord x.image 0)).any (fun r => decide (r.1 ≤ r.2.1))) = true := by decide +kernel
/-- A channel whose window is full, and one that has more to move than its staging buffer holds. -/
def fullWindow : Chan := { moving opMove 0 0x1000 0 with window := List.replicate 16 (parcel 1) }
def longMove : Chan := { moving opMove 0 0 0 with spaces := [2, 17, 0, 0] }
theorem test_move_waits : issuing0 fullWindow (stWord opMove 32) = some (32, 0, 16, false)
    ∧ (issuing0 longMove (stWord opMove 8192)).any (fun r => decide (r.2.1 < r.1 ∧ r.2.2.1 < 16) && !r.2.2.2) = true := by decide +kernel
theorem test_move_done : [0].contains (moving opMove 0 0x1000 0).moves = true
    ∧ AtWord (with0 up { moving opMove 0 0x1000 0 with doneIds := [0] }) 0 0 opMove { moving opMove 0 0x1000 0 with doneIds := [0] } (stWord opMove 32) := by
  unfold AtWord; decide +kernel
theorem test_move_at : AtWord (with0 up (moving opMove 0 0x1000 0)) 0 0 opMove (moving opMove 0 0x1000 0) (stWord opMove 32)
    ∧ AtWord (with0 up (moving opAdd 0 0x1000 0)) 0 0 opAdd (moving opAdd 0 0x1000 0) (stWord opAdd (2 ^ 32 + 32)) := by unfold AtWord; decide +kernel
theorem test_move_fault : (match moveOf (with0 up (moving opMove 0 0x1004 0)) 0 (moving opMove 0 0x1004 0) (stWord opMove 32) with | (_, .error a) => a == 0x1004 | _ => false) = true := by
  decide +kernel
theorem test_move_held : shedLevel (regs up [(rPwrStatus, 2 * 2 ^ 29)]) = 2 ∧ 4 ≤ fieldOf (stWord opMove (4 * 2 ^ 53 + 32)) 55 53
    ∧ AtWord (with0 (regs up [(rPwrStatus, 2 * 2 ^ 29)]) (moving opMove 4 0x1000 0)) 0 0 opMove (moving opMove 4 0x1000 0) (stWord opMove (4 * 2 ^ 53 + 32)) := by
  unfold AtWord; decide +kernel

/-- A channel that waits. -/
def waitingOn (kind thr plumb : Nat) : State :=
  { with0 up { atOp [stWord opStEnd 0] 0 with state := chWaiting, wait := kind, waitFor := thr, waitLen := 1000, entry := 100 } with plumb := plumb }
theorem test_waits : [(1, [1]), (2, [2, 3]), (3, [2, 3])].all (fun p => (waitingAt (waitingOn p.1 150 150) 0 0 p.2).isSome) = true
    ∧ waitValue (waitingOn 3 0 100) 0 3 0 = 0 ∧ waitValue (waitingOn 2 1 100) 0 2 0 < 1 := by decide +kernel

def answer (kind tag seq : Nat) : Cell := sealCell { mkCell up 0 1 kind 0 0 tag seq 1 0xFF 0 [] with phase := true }
def owning (p : Parcel) (c : Cell) : State :=
  let s := with0 up { atOp [stWord opStEnd 0] 0 with window := [p] }
  { s with lath := { s.lath with inbox := [(0, [c])] } }
theorem test_cellAck : (takeInbox (owning (parcel 1) (answer 5 5 0)) 0 5).any (fun r => parcelFor r.2 0 r.1 == some (parcel 1)) = true
    ∧ (takeInbox (owning (parcel 1) (answer 5 6 0)) 0 5).any (fun r => parcelFor r.2 0 r.1 == none) = true := by decide +kernel
theorem test_cellNack : (takeInbox (owning (parcel 1) (answer 6 5 0)) 0 6).any (fun r => parcelFor r.2 0 r.1 == some (parcel 1)) = true := by decide +kernel
theorem test_cellReply : (takeInbox (owning (parcel 2) (answer 3 5 1)) 0 3).any (fun r => parcelFor r.2 0 r.1 == some (parcel 2) && r.1.seq == 1 && r.1.ncell == 1
      && slotGet r.2 (slotKey (blockNode 0).1 (blockNode 0).2 r.1.src r.1.tag) == slot0) = true
    ∧ (takeInbox (owning (parcel 2) (answer 3 6 1)) 0 3).any (fun r => parcelFor r.2 0 r.1 == none) = true ∧ (parcel 2).onward = none
    ∧ (0 + 4096 - 5) % 4096 ≠ 0 ∧ 2047 < (0 + 4096 - 5) % 4096 ∧ 16 ≤ (20 + 4096 - 4) % 4096 ∧ bitOf 2 1 = true := by decide +kernel
theorem test_parcelRetry : (chanGet (owning (parcel 1) (answer 5 5 0)) 0 (5 / 16)).window.find? (fun p => p.tag % 16 == 5 && !p.peer) = some (parcel 1)
    ∧ (parcel 1).attempts < (parcel 1).retries ∧ windowOpen up (ownerSrc up 0 0) 5 = false := by decide +kernel
/-- The same with a parcel held by the merge stage, and with errors that have settled. -/
def holding (since plumb : Nat) : State := { blockPut up 0 { blockGet up 0 with held := some (0, since, parcel 1) } with plumb := plumb }
theorem test_mergeHold : (blockGet (holding 0 5) 0).held = some (15 / 16, 0, parcel 1) ∧ released (holding 0 5) = true := by decide +kernel
def settled : State :=
  let s := with0 up (atOp [stWord opMove 32, stWord opStEnd 0] 0)
  blockPut s 0 { blockGet s 0 with stops := true, errs := [{ page := true, addr := 0x1000, reason := 4, chans := 1, marks := [], tag := 5, tries := 1 }] }
theorem test_allStop : (blockGet settled 0).stops = true ∧ (blockGet settled 0).held = none ∧ (blockGet settled 0).chans.all (fun x => x.window.isEmpty) = true
    ∧ (blockGet settled 0).chans.length = blockChans 0 ∧ (blockGet settled 0).errs.head?.isSome = true ∧ (blockGet settled 0).errs.all (·.page) = true
    ∧ (chanGet settled 0 0).state = chRunning := by decide +kernel

/-- A cell that has come to a node on the ring of plane 71, sound or not. -/
def homeCell (dest : Nat) : Cell := sealCell { answer 3 5 0 with dest := dest, inter := dest }
def arriving (die node : Nat) (c : Cell) : State := { up with lath := { up.lath with rings := [(ringKey 71 die node, [c])] } }
theorem test_arrival : [(0, 10, 10), (4, 3, 67), (0, 8, 8)].all (fun p =>
    let c := homeCell p.2.2
    let s := arriving p.1 p.2.1 c
    let s1 := { s with lath := { s.lath with rings := [] } }
    let s0 := lathCount s1 p.1 0 0
    (ringOf p.1).contains p.2.1 && stGet [] s.lath.rings (ringKey 71 p.1 p.2.1) == [c] && cellSound c && (preferred s0 p.1 p.2.1 (reachInter s1 p.1 p.2.1 c)).isNone
      && canEject s0 p.1 p.2.1 (reachInter s1 p.1 p.2.1 c) && (grant s0 (0x10000 + 2 * ringKey 71 p.1 p.2.1) 3 [(c.way, c.cls)]).any (fun g => g.1 == c.way)
      && decide (c.way < 3) && released s) = true := by decide +kernel
theorem test_arrival_bad : cellSound { homeCell 10 with crc := (homeCell 10).crc ^^^ 1 } = false := by decide +kernel
def gathering (plumb : Nat) : State :=
  { regs up [(rLthRetry, 0x308)] with plumb := plumb, lath := { up.lath with assembly := [(8, [{ src := 3, win := 5, cells := [], since := 0, limit := 32000 }])] } }
theorem test_assembly : (assemblyAt (gathering 32000) 8).find? (fun a => a.src == 3 && a.win == 5) = some { src := 3, win := 5, cells := [], since := 0, limit := 32000 } := by decide +kernel

/-! Memory's rows and Topcoat. -/

def request (kind : Nat) : MemReq := { cls := 1, src := 0, kind := kind, addr := 0, data := [], ctx := [0, 8, 0, 5, 32, 0, 1, 0, 0xFF] }
def queued (k : Nat) : State := { up with mem := { up.mem with queues := [(k, [request 2])], tierQ := [(7, [request 2])] } }
theorem test_grant : (grant up 5 7 [(6, 1), (2, 1), (3, 4)]).any (fun g => g.1 == 2) = true ∧ (grant { up with mem := { up.mem with ptrs := [(41, 3)] } } 5 7 [(6, 1), (2, 1)]).any (fun g => g.1 == 6) = true := by
  decide +kernel
theorem test_sectorGrant : [(0, 0), (7, 63)].all (fun p => (grantReq (queued (p.1 * 64 + p.2)) (p.1 * 64 + p.2) 7 (fun r => if r.kind = 4 then 5 else if r.src < 4 then r.src else p.1 / 2)
    (fun r => decide (r.cls < 4) || !caseHot (queued (p.1 * 64 + p.2)) p.1) (stGet [] (queued (p.1 * 64 + p.2)).mem.queues (p.1 * 64 + p.2))).isSome) = true := by decide +kernel
theorem test_capacityAccess : (grantReq (queued 0) 607 4 (fun _ => 0) (fun _ => true) (stGet [] (queued 0).mem.tierQ 7)).isSome = true := by decide +kernel
theorem test_memory_open : released up = true ∧ CleanMem up ∧ starting { regs up [(rBootStatus, 6 * 2 ^ 28)] with boot := { up.boot with ready := false } } = true := by unfold CleanMem; decide +kernel
def condemned : State := { up with snag := { up.snag with retires := [unitMem 7 63 0] } }
theorem test_retirePc : unitMem 7 63 0 ∈ condemned.snag.retires ∧ stackQuiet condemned 7 = true ∧ stepPhase condemned ≠ sOpen ∧ stepPhase condemned ≠ sDeciding := by
  decide +kernel
/-- Hawk stack 15 whose first unit is an overflow unit with a frame in it. -/
def overflowing : State :=
  { up with job := { up.job with hawkHbm := [(15, { base := 0, len := 0 })], hawkOvf := [(15, { base := 0x20000000000, len := 0x4000 })] }
            hawk := [(15, hawk1)] }
theorem test_migration : (rangeOf overflowing.job.hawkHbm 15).len ≤ 0 * 4096 ∧ inInterleaved overflowing 0x1000 4096 = true ∧ shedLevel overflowing < 2
    ∧ stGet 0 (hawkOf overflowing 15).migrated 0 = 0 ∧ frame1 ∈ (hawkOf overflowing 15).frames ∧ frame1.start ≤ 0 ∧ 0 < frame1.start + frame1.length ∧ lowerWaits overflowing 4 = false
    ∧ caseHolds overflowing (hawkAddr overflowing 15 (0 * 4096)) 4096 = false ∧ caseHolds overflowing 0x1000 4096 = false
    ∧ CleanMem overflowing := by unfold CleanMem; decide +kernel

/-- A program of slot 4: factored, its words up to END. -/
def prog (words : List Nat) (flags : Nat) : List Byte := le 1 4 ++ le 1 words.length ++ le 1 flags ++ le 13 0 ++ (words.map (le 4)).flatten
def loadTop (s : State) : State := host (job s) 0x0601 (prog [topWord 0x01 4 0 1 0 0, topWord opEnd 0 0 0 0 0] 2)
theorem test_topcoatLoad : ok (loadTop up) 0x0601 = true ∧ stepPhase (markBegun (loadTop up) 0 0) = sIdle ∧ progValid (progOfBytes (cmd0 (loadTop up)).body) = true
    ∧ leAt (cmd0 (loadTop up)).body 1 1 = 2 ∧ 16 + 4 * 2 ≤ (cmd0 (loadTop up)).body.length ∧ leAt (cmd0 (loadTop up)).body 2 1 ≤ 31
    ∧ zeroAt (cmd0 (loadTop up)).body 4 12 = true := by decide +kernel
theorem test_topcoatLoad_late : ok (loadTop (regs up [(rHubStepState, sOpen)])) 0x0601 = true ∧ stepPhase (markBegun (loadTop (regs up [(rHubStepState, sOpen)])) 0 0) ≠ sIdle := by
  decide +kernel

/-- A weight tensor of one row of 128 in parameter region 0. -/
def weights : Tensor :=
  { kind := 1, rows := 1, k := 128, start := 0, planes := [0, 0, 0, 0, 0xFF, 0xFF, 0xFF, 0xFF, 0xFF, 0xFF, 0xFF, 0xFF, 0, 1, 0xFF, 0xFF], cur := 0, version := 3, prevOk := true, pending := false
    rec0 := [], rec1 := [], sc0 := 0, sc1 := 0 }
def shop (st : Nat) : State :=
  let s := regs (member st) [(rMemParamBase, 0x100), (rMemPregionLo, 2 ^ 31 + 8 * 2 ^ 16 + 0x8000), (rMemPregionHi, 1),
    (rMemPregionLo + 8, 2 ^ 31 + 2 * 2 ^ 16 + 0x8001), (rMemPregionHi + 8, 1)]
  { s with job := { s.job with tensors := [weights] }, chip := { s.chip with recipes := [(0, recipe1)] }, topcoat := { s.topcoat with programs := [(4, prog [topWord opEnd 0 0 0 0 0] 0)] } }
def updBody (tensor wait : Nat) : List Byte := le 2 tensor ++ le 1 4 ++ le 1 0 ++ le 4 0 ++ le 2 0 ++ le 2 0 ++ le 4 0 ++ le 8 0 ++ le 8 0 ++ le 4 wait ++ le 140 0
def updS (st wait : Nat) : State := host (shop st) 0x0602 (updBody 0 wait)
theorem test_update : ok (updS sOpen 0) 0x0602 = true ∧ updBodyOk (updS sOpen 0) (cmd0 (updS sOpen 0)) = true ∧ updNamesOk (updS sOpen 0) (cmd0 (updS sOpen 0)) = true
    ∧ (updS sOpen 0).topcoat.waiting.contains (0, 0) = false ∧ stepPhase (updS sOpen 0) = sOpen ∧ ok (updS sIdle 0) 0x0602 = true ∧ stepPhase (updS sIdle 0) ≠ sOpen := by
  decide +kernel
/-- The tensor's UPDATE named already, and a body that names no tensor. -/
def namedS : State :=
  let s := host (shop sOpen) 0x0602 (updBody 1 0)
  { s with topcoat := { s.topcoat with named := [{ tensor := 1, op := 9, scale := false, reads := none, status := none }] } }
theorem test_update_refused : ok namedS 0x0602 = true ∧ updBodyOk namedS (cmd0 namedS) = false ∧ updNamesOk namedS (cmd0 namedS) = false
    ∧ updNamesOk (markBegun namedS 0 0) (cmd0 namedS) = false := by decide +kernel

def taken (wait : Nat) (ops : List StepOp) : State :=
  { updS sOpen wait with topcoat := { (updS sOpen wait).topcoat with waiting := [(0, 0)] }, step := { (updS sOpen wait).step with ops := ops } }
theorem test_takes : (waitingUpdate (taken 0 []) 5).isSome = true ∧ tensorAt (taken 0 []) 0 = some weights ∧ shedLevel (taken 0 []) < 4
    ∧ waitOpEnd (taken 0 []) (cmd0 (updS sOpen 0)) = .over ∧ waitScaleEnd (taken 0 []) (cmd0 (updS sOpen 0)) = .over ∧ (cmd0 (updS sOpen 0)).uRows = false
    ∧ (taken 0 []).runs.any (fun x => x.copies.any (fun k => k.1 == 0 && k.2.2)) = false ∧ (taken 0 []).topcoat.running = none := by decide +kernel
theorem test_takes_waits : waitOpEnd (taken 77 [{ op := 77, status := none }]) (cmd0 (updS sOpen 77)) = .waits
    ∧ waitOpEnd (taken 77 [{ op := 77, status := some stBadParam }]) (cmd0 (updS sOpen 77)) = .ends stFault := by decide +kernel
/-- An UPDATE of the rows 0 and `x` of its list at 0x5000, waiting. -/
def rowsTaken (x : Nat) : State :=
  let body := le 2 0 ++ le 1 4 ++ le 1 0 ++ le 1 2 ++ le 3 0 ++ le 2 0 ++ le 2 0 ++ le 4 2 ++ le 8 0x5000 ++ le 8 0 ++ le 4 0 ++ le 140 0
  let s := host (mem { shop sOpen with job := { (shop sOpen).job with tensors := [{ weights with rows := 4 }] } } 0x5000 (le 4 1 ++ le 4 x)) 0x0602 body
  { s with topcoat := { s.topcoat with waiting := [(0, 0)] } }
theorem test_takes_rows : (waitingUpdate (rowsTaken 2) 5).any (fun c => c.uRows && (readRows (claimTensor (rowsTaken 2) c { weights with rows := 4 }) c { weights with rows := 4 }).2 == some (some [1, 2])) = true
    ∧ (waitingUpdate (rowsTaken 1) 5).any (fun c => (readRows (claimTensor (rowsTaken 1) c { weights with rows := 4 }) c { weights with rows := 4 }).2 == some none) = true
    ∧ (waitingUpdate { rowsTaken 2 with mem := { (rowsTaken 2).mem with errs := [(0x140, [(0, 1), (1, 2), (2, 3)])] } } 5).any (fun c =>
        (readRows (claimTensor { rowsTaken 2 with mem := { (rowsTaken 2).mem with errs := [(0x140, [(0, 1), (1, 2), (2, 3)])] } } c { weights with rows := 4 }) c { weights with rows := 4 }).2 == none) = true := by
  decide +kernel
theorem test_takes_scale : waitScaleEnd (taken 0 []) { cmd0 (updS sOpen 0) with body := le 4 0 ++ le 1 0x28 ++ le 3 0 ++ le 2 1 ++ le 30 0 } = .waits := by decide +kernel
/-- With a RUN that reads the version before. -/
def readers : State := { taken 0 [] with runs := [{ cmd := cmd0 (updS sOpen 0), level := false, recipe := [], copies := [(0, 1, true)], cores := [], frames := [] }] }
theorem test_takes_readers : readers.runs.any (fun x => x.copies.any (fun k => k.1 == 0 && k.2.2)) = true ∧ (waitingUpdate readers 5).isSome = true := by decide +kernel

/-- An UPDATE under way: stack 7 at parameter `param` before the word `w` of its program. -/
def updating (words : List Nat) (flags param : Nat) (phase2 busy : Bool) : State :=
  let s := shop sOpen
  let u : UpdateRun := { cmd := cmd0 (updS sOpen 0), rows := none, phase2 := phase2, norm := norm0 0, rowSum := [], colSum := [], rsum := 0x3F800000
                         notFin := false, scaleSat := false, winSat := false, failed := [] }
  { s with topcoat := { s.topcoat with
      programs := [(4, prog words flags)], running := some u
      tops := List.replicate 7 topStack0 ++ [{ topStack0 with busy := busy, groups := [0], param := param, regs := 0x3F800000 :: 0x40000000 :: List.replicate 14 0 }] } }
def topCtx (s : State) : TopCtx :=
  { u := s.topcoat.running.getD { cmd := cmd0 up, rows := none, phase2 := false, norm := norm0 0, rowSum := [], colSum := [], rsum := 0, notFin := false
                                  scaleSat := false, winSat := false, failed := [] }
    t := weights, p := progOfBytes (stGet [] s.topcoat.programs 4), st := 7, x := nthD s.topcoat.tops 7 topStack0
    word := nthD (progOfBytes (stGet [] s.topcoat.programs 4)).words 0 0 }
theorem test_atTop : AtTopWord (updating [topWord 0x05 4 0 1 0 0, topWord opEnd 0 0 0 0 0] 0 0 false true) 7 0x05
    (topCtx (updating [topWord 0x05 4 0 1 0 0, topWord opEnd 0 0 0 0 0] 0 0 false true)) := by unfold AtTopWord; decide +kernel
theorem test_atTop_factor : [0x20, 0x21, 0x22, 0x23, 0x24].all (fun op => (topCtx (updating [topWord op 4 0 0 0 0, topWord opPhase 0 0 0 0 0, topWord opEnd 0 0 0 0 0] 0x10 0 true true)).u.phase2
    && wordOp (topWord op 4 0 0 0 0) == op) = true
    ∧ AtTopWord (updating [topWord 0x22 4 0 0 0 0, topWord opPhase 0 0 0 0 0, topWord opEnd 0 0 0 0 0] 0x10 0 false true) 7 0x22
        (topCtx (updating [topWord 0x22 4 0 0 0 0, topWord opPhase 0 0 0 0 0, topWord opEnd 0 0 0 0 0] 0x10 0 false true)) := by unfold AtTopWord; decide +kernel
theorem test_phase : [0, 127].all (fun k => ((topCtx (updating [topWord opPhase 0 0 0 0 0, topWord opEnd 0 0 0 0 0] 0x10 k false true)).next
    (updating [topWord opPhase 0 0 0 0 0, topWord opEnd 0 0 0 0 0] 0x10 k false true) (fun s => (s, true))).2) = true := by decide +kernel
def ending : State := updating [topWord opEnd 0 0 0 0 0] 0 0 false true
theorem test_end : AtTopWord ending 7 opEnd (topCtx ending) ∧ ((topCtx ending).writeBack ending).2 = true
    ∧ ((topCtx ending).next ((topCtx ending).writeBack ending).1 (fun s => endGroup s 7 (topCtx ending).u.cmd weights (topCtx ending).p 0 true)).2 = true := by
  unfold AtTopWord; decide +kernel
theorem test_end_poisoned : ((topCtx ending).writeBack { ending with mem := { ending.mem with
    errs := [((planeAddr ending weights (plLo 1)).getD 0 / 64, [(0, 1), (1, 2), (2, 3)])] } }).2 = false := by decide +kernel
theorem test_updateComplete : (updating [topWord opEnd 0 0 0 0 0] 0 0 false true).topcoat.tops.any (·.busy) = true
    ∧ (updating [topWord opEnd 0 0 0 0 0] 0 0 false false).topcoat.tops.any (·.busy) = false ∧ (topCtx ending).u.cmd.op = 5 := by decide +kernel

/-! Time: plumb, launches, windows and ports. -/

/-- A device whose port 0 is up, with peers 1 to 3 in its table, in a plumb state at a depth under parent 3. -/
def inSync (st depth : Nat) : State :=
  let s := regs (linked up) [(rPlbStatus, st * 2 ^ 28 + depth * 2 ^ 22 + 3), (rColId, 2 ^ 30 + 1)]
  { s with plumb := 1000, net := { s.net with peers := [(2, le 16 2 ++ le 1 0x3F ++ le 1 1), (3, le 16 3 ++ le 1 0x3F ++ le 1 1)] }, time := { s.time with rootId := 3 } }

def cfgS (s : State) (mode src parent depth : Nat) : State := host s 0x0801 (le 1 mode ++ le 1 src ++ le 2 0 ++ le 2 parent ++ le 1 depth ++ le 9 0)
theorem test_syncCfg : [(plFree, 1, 1), (plFree, 1, 2), (plLocked, 2, 1), (plHoldover, 2, 1), (plFree, 3, 0)].all (fun p =>
    let s := cfgS (inSync p.1 1) p.2.1 0 3 p.2.2
    ok s 0x0801 && leAt (cmd0 s).body 0 1 == p.2.1 && syncCfgCheck (markBegun s 0 0) (cmd0 s).body == none) = true := by decide +kernel
theorem test_syncCfg_refused : ok (cfgS (inSync plFree 1) 1 0 3 3) 0x0801 = true
    ∧ syncCfgCheck (markBegun (cfgS (inSync plFree 1) 1 0 3 3) 0 0) (cmd0 (cfgS (inSync plFree 1) 1 0 3 3)).body = some stBadParam := by decide +kernel
theorem test_plumbRead : ok (host up 0x0803 []) 0x0803 = true := by decide +kernel

/-- A command launched at a count. -/
def launchS (at' plumb : Nat) : State :=
  placeEntry { up with plumb := plumb } 0 (sliceB (leBytes 2 0x0101 ++ [3, 0] ++ le 4 0 ++ le 4 5 ++ le 2 0 ++ le 2 0 ++ le 8 at' ++ le 8 0) 0 512) nobody
theorem test_launch : [(100, 99), (100, 100), (100, 101)].all (fun p => (slotOf (queueAt (launchS p.1 p.2) 0) 0).any (fun sl => !sl.begun && !sl.launched && (cmdOf 0 sl).launched
    && mayBegin (launchS p.1 p.2) (cmdOf 0 sl) && decide ((cmdOf 0 sl).launch ≤ (cmdOf 0 sl).arrived + 2 ^ 36) && (cmdOf 0 sl).launch == 100)
    && released (launchS p.1 p.2) && !launchHeld (launchS p.1 p.2) 0 && (launchS p.1 p.2).queues.length == 8) = true := by decide +kernel
def launchAtS (t mask plumb : Nat) : State := host { up with plumb := plumb } 0x0802 (le 8 t ++ le 1 mask ++ le 7 0)
theorem test_launchAt : [(100, 0xFF, 100), (100, 0x81, 99)].all (fun p => ok (launchAtS p.1 p.2.1 p.2.2) 0x0802 && zeroAt (cmd0 (launchAtS p.1 p.2.1 p.2.2)).body 9 7
    && decide (leAt (cmd0 (launchAtS p.1 p.2.1 p.2.2)).body 0 8 ≤ (cmd0 (launchAtS p.1 p.2.1 p.2.2)).arrived + 2 ^ 36)
    && (markBegun (launchAtS p.1 p.2.1 p.2.2) 0 0).queues.length == 8) = true ∧ bitOf 0x81 7 = true ∧ bitOf 0x81 6 = false := by decide +kernel
def heldAt (plumb : Nat) : State :=
  let s := launchAtS 100 1 99
  { s with plumb := plumb, flights := [{ cmd := cmd0 s, started := 99 }], queues := s.queues.map (fun x => { x with launchHold := some (100, 5) }) }
theorem test_launchAtDue : ((heldAt 100).flights.find? (fun f => f.cmd.op == 5 && f.cmd.opcode == 0x0802)).any (fun f => leAt f.cmd.body 0 8 == 100) = true
    ∧ (queueAt (heldAt 100) 7).launchHold = some (100, 5) ∧ 7 < (heldAt 100).queues.length := by decide +kernel

def syncPkt (src kind flags x root depth : Nat) : Packet := packet { head0 with op := 7, src := src, chan := 0, len := 64 } (syncBytes kind flags x root depth 5000 6000 7000)
theorem test_syncRequest : (match acceptScrim (inSync plLocked 1) (syncPkt 2 1 0 9 3 2) 0x7 with
    | (t, some (h, b)) => b.length == 64 && beAt b 0 1 == 1 && shedLevel t != 5 && plbState t != plFree && beAt b 4 2 % 4096 == rootOf t && beAt b 6 1 == plbDepth t + 1
        && decide (beAt b 6 1 ≤ 2) && decide (h.src < 0x1000) && peerValid t h.src && t.time.children.isEmpty
    | _ => false) = true := by decide +kernel
def asking : State := { inSync plLocked 1 with time := { (inSync plLocked 1).time with request := some (9, 1000) } }
theorem test_syncResponse : [0, 1].all (fun f => match acceptScrim asking (syncPkt 3 2 f 9 3 0) 0x7 with
    | (t, some (h, b)) => b.length == 64 && beAt b 0 1 == 2 && decide (2 ≤ plbState t) && h.src == plbParent t && beAt b 4 2 % 4096 == t.time.rootId
        && beAt b 6 1 + 1 == plbDepth t && t.time.request == some (9, 1000) && beAt b 2 2 == 9 && beAt b 1 1 % 2 == f && plbState t != plUnlocked && decide (t.plumb ≤ 1000 + 100000)
    | _ => false) = true := by decide +kernel
theorem test_sendSync_shed : shedLevel (inSync plAcquiring 1) ≠ 5 := by decide +kernel
theorem test_sendSync : 2 ≤ plbState (inSync plAcquiring 1) ∧ released (inSync plAcquiring 1) = true ∧ ownId (inSync plAcquiring 1) = 1
    ∧ (inSync plAcquiring 1).plumb % 100000 = ownId (inSync plAcquiring 1) % 64 * 1000 ∧ (inSync plAcquiring 1).time.request = none
    ∧ pickPort (usablePorts (inSync plAcquiring 1) (leAt (peerEntry (inSync plAcquiring 1) 3) 16 1)) 0 = some 0 := by decide +kernel
theorem test_children : [0, 1].all (fun d => ([{ dev := 7, lastAt := 0 }] : List Child).any (fun c => c.dev == 7 && (decide (c.lastAt + 10 ^ 7 ≤ 10 ^ 7 - d) == (d == 0)))) = true := by decide +kernel
theorem test_holdover : plbState (inSync plLocked 1) = plLocked ∧ 0 + 10 ^ 6 ≤ { inSync plLocked 1 with plumb := 10 ^ 6 }.plumb ∧ plbState (inSync plHoldover 1) = plHoldover
    ∧ (inSync plHoldover 1).time.holdover + 10 ^ 10 ≤ { inSync plHoldover 1 with plumb := 10 ^ 10 }.plumb := by decide +kernel

/-- Window 3 open every 2 ^ 4 ticks at phase 5 for 256 ticks; a port that is configured. -/
def windowed : State := { regs up [(rPlbWinCtrl + 24, 2 ^ 31 + 4 * 2 ^ 24 + 1), (rPlbWinPhase + 24, 5)] with plumb := 21 }
theorem test_windowStart : bitOf (csrGet windowed (rPlbWinCtrl + 8 * 3)) 31 = true ∧ fieldOf (csrGet windowed (rPlbWinCtrl + 8 * 3)) 23 0 ≠ 0
    ∧ windowed.plumb % 2 ^ fieldOf (csrGet windowed (rPlbWinCtrl + 8 * 3)) 28 24 = csrGet windowed (rPlbWinPhase + 8 * 3)
    ∧ winStarts windowed 3 = true ∧ winStarts windowed 2 = false ∧ shedDue windowed = false ∧ launchAhead windowed 8 = false ∧ winEndDue windowed = false := by decide +kernel
def portReady : State := { up with net := { up.net with ports := List.replicate 7 { port0 with present := true } } }
theorem test_portUp : [0, 6].all (fun p => (nthD portReady.net.ports p port0).present && !portReady.power.gatesOff.contains (unitPort p)) = true ∧ released portReady = true
    ∧ 15 % 16 &&& portLanes 0 = portLanes 0 ∧ 1 % 16 &&& portLanes 6 = portLanes 6 ∧ 7 % 16 &&& portLanes 0 ≠ portLanes 0
    ∧ csrField portReady rScrPortStatus 30 30 = 0 ∧ csrField portReady rScrPortStatus 31 31 = 0 := by decide +kernel
theorem test_portDown : csrField (linked up) (rScrPortStatus + 0x10 * 0) 31 31 = 1 ∧ released (linked up) = true ∧ inSafe (linked up) = false
    ∧ inSafe (regs (linked up) [(rBootStatus, 0xE * 2 ^ 28)]) = true ∧ csrField (regs (linked up) [(rBootStatus, 0xE * 2 ^ 28)]) rPlbStatus 27 27 = 0 := by decide +kernel
theorem test_portDown_source : csrField (regs (linked up) [(rPlbStatus, 2 ^ 27)]) rPlbStatus 27 27 = 1 ∧ csrField (regs (linked up) [(rPlbStatus, 2 ^ 27)]) rPlbStatus 26 24 = 0
    ∧ csrField (regs (linked up) [(rPlbStatus, 2 ^ 27)]) rScrPortStatus 31 31 = 1 := by decide +kernel

/-! Reliability and power. -/

def testS (unit now : Nat) : State := host (job up) 0x0901 (le 4 unit ++ le 1 now ++ le 11 0)
theorem test_patchTest : [(unitCore 0 0xFFF, 0), (unitCore 287 0xFFF, 1), (unitCluster 31 0xFFF, 1), (unitMem 7 0xFF 0x600, 1), (unitColl, 0)].all (fun p =>
    ok (testS p.1 p.2) 0x0901 && testable (markBegun (testS p.1 p.2) 0 0) p.1 && leAt (cmd0 (testS p.1 p.2)).body 0 4 == p.1
      && leAt (cmd0 (testS p.1 p.2)).body 4 1 == p.2 && zeroAt (cmd0 (testS p.1 p.2)).body 5 3) = true := by decide +kernel
theorem test_patchDue : released (regs up [(rSngPatchCfg, 1)]) = true ∧ testable (regs up [(rSngPatchCfg, 1)]) (unitCore 0 0xFFF) = true
    ∧ stGet 0 (regs up [(rSngPatchCfg, 1)]).snag.lastPass (unitCore 0 0xFFF) + csrField (regs up [(rSngPatchCfg, 1)]) rSngPatchCfg 15 0 * 60 * 10 ^ 9 = 60 * 10 ^ 9 := by decide +kernel
def inTest (mode : Nat) : State :=
  { up with snag := { up.snag with testing := [(unitCore 0 0xFFF, mode)], testCmds := [(unitCore 0 0xFFF, cmd0 (testS (unitCore 0 0xFFF) 1))] } }
theorem test_patchEnd : [0, 1].all (fun m => (inTest m).snag.testing.find? (fun t => t.1 == unitCore 0 0xFFF) == some (unitCore 0 0xFFF, m)) = true
    ∧ thirdEvent (snagEvent { (inTest 0).snag with testing := [] } (unitCore 0 0xFFF)) (unitCore 0 0xFFF) = false ∧ isCoreUnit (unitCore 0 0xFFF) = true
    ∧ (inTest 0).snag.seamHold = none
    ∧ (patchTestEnd (unitCore 0 0xFFF) 0 0 0 { inTest 1 with snag := { (inTest 1).snag with seamHold := some (cmd0 closeS) } }).snag.seamHold = some (cmd0 closeS) := by decide +kernel

def snagS (from' n dest : Nat) : State := host up 0x0902 (le 1 1 ++ le 3 0 ++ le 4 from' ++ le 4 n ++ le 4 0 ++ le 8 dest ++ le 8 0)
theorem test_snagRead : [(0, 1), (16383, 16384)].all (fun p => ok (snagS p.1 p.2 0x1000) 0x0902 && leAt (cmd0 (snagS p.1 p.2 0x1000)).body 8 4 == p.2
    && zeroAt (cmd0 (snagS p.1 p.2 0x1000)).body 1 3 && zeroAt (cmd0 (snagS p.1 p.2 0x1000)).body 12 4 && leAt (cmd0 (snagS p.1 p.2 0x1000)).body 16 8 == 0x1000
    && cmdRangeOk (markBegun (snagS p.1 p.2 0x1000) 0 0) 0x1000 (64 * p.2) && (markBegun (snagS p.1 p.2 0x1000) 0 0).mem.errs.isEmpty) = true := by decide +kernel
def retireS (unit : Nat) : State := host (job up) 0x0903 (le 4 unit ++ le 12 0)
theorem test_retire : [unitEngine 0 0x020, unitCore 0 0xFFF, unitCluster 0 0xFFF, unitMem 0 0 0, unitPort 3].all (fun u => ok (retireS u) 0x0903
    && [1, 2, 3, 6, 7].contains (fieldOf (leAt (cmd0 (retireS u)).body 0 4) 31 28) && zeroAt (cmd0 (retireS u)).body 4 4) = true := by decide +kernel
theorem test_commit : { up.snag with pending := [0] }.pending ≠ [] ∧ up.snag.retryAt ≤ up.plumb ∧ flashOpen up = true := by decide +kernel

/-- An engine that holds an event of a kind, its core stopped. -/
def hold0 (kind : Nat) : PassHold :=
  { kind := kind, block := 0, num := 0, vec := 0, tile := 0, word := 0, syn := 0, sums := [7], marks := [false], window := 0, unchecked := false }
def eventful (kind : Nat) : State :=
  let s := at' [mulSt 0] 0
  { s with runs := s.runs.map (fun r => { r with cores := r.cores.map (fun k => { k with stopped := true }) }), chip := { s.chip with passHold := [(0, some (hold0 kind))] } }
theorem test_events : [0, 1, 2, 3, 4, 5].all (fun k => (stoppedOn (eventful k) 0).any (fun r => r.2 == 0) && holdGet (eventful k) 0 == some (hold0 k)) = true := by
  decide +kernel
theorem test_reruns : (⟨true, [7]⟩ : ReRun) ≠ ⟨true, [8]⟩ ∧ (⟨false, [7]⟩ : ReRun) ≠ ⟨true, [7]⟩ ∧ (⟨true, [8]⟩ : ReRun).sums ≠ (⟨true, [9]⟩ : ReRun).sums ∧ [8] ≠ (hold0 0).sums := by
  decide
theorem test_rowSums : res255 ([(255 : Int)].foldl (· + ·) 0) = nthD (tileGet (eventful 1) 0 0).rowres 0 0 ∧ res255 ([(7 : Int)].foldl (· + ·) 0) ≠ nthD (tileGet (eventful 1) 0 0).rowres 0 0 := by
  decide +kernel

/-- A member of a 1 × 1 × 2 torus with room for a mirror, its buddy within reach. -/
def mirrored (st : Nat) : State :=
  let s := regs (linked (member st)) [(rColShapeLo, 0), (rColShapeHi, 1), (rSngMirror, 2 ^ 31 + 2 ^ 28)]
  { s with job := { s.job with mirror := { base := 0x100000, len := 0x4000 } }, net := { s.net with peers := [(2, le 16 2 ++ le 1 0x3F ++ le 1 1)] } }
def mirrorCfgS (st en n flags : Nat) : State := host (mirrored st) 0x0906 (le 1 en ++ le 1 n ++ le 1 flags ++ le 13 0)
theorem test_mirrorCfg : [(0, 1, 0), (1, 255, 3)].all (fun p => let s := mirrorCfgS sIdle p.1 p.2.1 p.2.2
    ok s 0x0906 && betweenSteps (markBegun s 0 0) && zeroAt (cmd0 s).body 3 5 && axisSize (markBegun s 0 0) 2 == 2 && mirrorFits (markBegun s 0 0) (leAt (cmd0 s).body 2 1)) = true
    ∧ ok (mirrorCfgS sOpen 1 1 0) 0x0906 = true ∧ betweenSteps (markBegun (mirrorCfgS sOpen 1 1 0) 0 0) = false := by decide +kernel
def acked : State := { mirrored sIdle with snag := { (mirrored sIdle).snag with mirrorAcks := 1, mirrorHdr := mirrorHeader (mirrored sIdle) 0 1 0 0 } }
theorem test_mirrorComplete : buddyOf acked = some 2 ∧ acked.snag.mirrorAcks = 1 ∧ acked.snag.push = [] ∧ opOpen acked (fun o => o == .mirror || o == .ledger) = false ∧ shedLevel acked < 2 ∧ csrField acked rSngMirror 28 28 = 1
    ∧ (issueOp { acked with snag := { acked.snag with mirrorAcks := 2 } } .mirror 0 1 2 0x60 (bgClass acked 0) (halfBase acked acked.snag.mirrorHalf)
        (sliceB acked.snag.mirrorHdr 0 10 ++ [2] ++ sliceB acked.snag.mirrorHdr 11 13 ++ leBytes 8 acked.plumb) 0).2 = none := by decide +kernel
def replayS (m src : Nat) : State := host (mirrored sOpen) 0x0904 (le 8 m ++ le 1 src ++ le 7 0 ++ (List.replicate 8 (le 4 9)).flatten)
theorem test_replay : ok (replayS 0 1) 0x0904 = true ∧ stepsOf (markBegun (replayS 0 1) 0 0) = 0 ∧ ok (replayS 1 1) 0x0904 = true ∧ stepsOf (markBegun (replayS 1 1) 0 0) ≠ 1
    ∧ zeroAt (cmd0 (replayS 0 2)).body 9 7 = true ∧ leAt (cmd0 (replayS 0 2)).body 8 1 = 2 := by decide +kernel
theorem test_replay_mirror : ok (replayS 0 2) 0x0904 = true ∧ buddyOf (markBegun (replayS 0 2) 0 0) = some 2 ∧ (markBegun (replayS 0 2) 0 0).job.mirror.len ≠ 0
    ∧ (markBegun (replayS 0 2) 0 0).snag.pull = none ∧ leAt (cmd0 (replayS 0 2)).body (16 + 28) 4 = 9 := by decide +kernel
def takeoverS : State := host (mirrored sIdle) 0x0905 (le 8 0 ++ le 1 2 ++ le 1 0 ++ le 2 1 ++ le 2 2 ++ le 2 0 ++ (List.replicate 8 (le 4 0)).flatten)
theorem test_takeover : ok takeoverS 0x0905 = true ∧ leAt (cmd0 takeoverS).body 8 1 = 2 ∧ zeroAt (cmd0 takeoverS).body 9 1 = true ∧ leAt (cmd0 takeoverS).body 12 2 = 2
    ∧ leAt (cmd0 takeoverS).body 10 2 = 1 ∧ zeroAt (cmd0 takeoverS).body 14 2 = true ∧ placed? (markBegun takeoverS 0 0) = true ∧ stepsOf (markBegun takeoverS 0 0) = 0
    ∧ (markBegun takeoverS 0 0).snag.pull = none := by decide +kernel

/-- A device watched at a setpoint of 800 mV and a level, its last sample beyond level `last`. -/
def sagging (level : Nat) (last : Int) : State :=
  { regs up [(rPwrStatus, level * 2 ^ 29 + 800)] with power := { up.power with lastSag := last, holdAt := some 0 }, plumb := 10 ^ 6 }
theorem test_sag : watched (sagging 0 5) = true ∧ sagSetpoint (sagging 0 5) = 800 ∧ sagLevel (sagging 0 5) 776 = 0 ∧ sagLevel (sagging 0 5) 775 = 1
    ∧ sagLevel (sagging 0 5) 727 = 4 ∧ sagLevel (sagging 0 5) 703 = 5 ∧ levelOfPower (sagging 4 5) = 4 ∧ min (sagLevel (sagging 0 5) 703) (sagging 0 5).power.lastSag.toNat = 5
    ∧ min (sagLevel (sagging 0 2) 700) (sagging 0 2).power.lastSag.toNat = 2 := by decide +kernel
theorem test_shedReturn : [1, 2, 3, 4].all (fun n => levelOfPower (sagging n 0) == n && (sagging n 0).power.holdAt == some 0 && (sagging n 0).power.pendLeave == none) = true
    ∧ 0 + 10 ^ 6 ≤ (sagging 1 0).plumb := by decide +kernel
theorem test_aligned : (4096 : Nat) % 4096 = 0 ∧ { (sagging 1 0).power with pendLeave := some 1 }.pendLeave = some 1 ∧ 1 ≤ 10 ^ 6 % 4096 := by decide +kernel
theorem test_quiesce : (enterS5 (sagging 4 5) (unitPackage 0) 1 0 700).power.s5At = some (10 ^ 6) ∧ levelOfPower (sagging 4 5) < 5 := by decide +kernel

theorem test_rails : watched up = true ∧ 95 * 1050 ≤ 100 * 998 ∧ 100 * 997 < 95 * 1050 ∧ 100 * 944 < 90 * 1050 ∧ 90 * 1050 ≤ 100 * 945 ∧ 105 * 1800 < 100 * 1891 := by decide +kernel
theorem test_regulator : watched up = true ∧ up.power.polls ≠ 2 ∧ { up.power with polls := 2 }.polls = 2 := by decide +kernel
theorem test_avs : [600, 850].all (fun w => released (sagging 0 0) && csrField (sagging 0 0) rPwrStatus 26 26 == 0 && levelOfPower (sagging 0 0) == 0
    && csrField (sagging 0 0) rPwrStatus 27 27 == 0 && !thermalStep (sagging 0 0) && w % 5 == 0 && w != setpoint (sagging 0 0)) = true
    ∧ (sagging 0 0).power.movedAt + 10 ^ 6 ≤ (sagging 0 0).plumb ∧ (sagging 0 0).plumb < { (sagging 0 0).power with movedAt := 1 }.movedAt + 10 ^ 6 := by decide +kernel
def capped : State := { regs up [(rPwrPkg, 1000 * 2 ^ 16), (rClkArray, 2 ^ 28)] with power := { up.power with capBelow := some 0 }, plumb := 10 ^ 7 }
theorem test_cap : released capped = true ∧ csrField capped rPwrPkg 31 16 = 1000 ∧ csrField capped rClkArray 28 28 = 1 ∧ 100 * 949 < 95 * 1000
    ∧ csrField (regs up [(rPwrPkg, 1000 * 2 ^ 16)]) rClkArray 28 28 = 0 ∧ up.power.capBelow = none := by decide +kernel
def powerS (mode sp cap : Nat) : State := host up 0x0B04 (le 1 mode ++ le 1 0 ++ le 2 sp ++ le 2 cap ++ le 10 0)
theorem test_powerCfg : [(1, 0, 0), (2, 600, 800), (2, 850, 1900)].all (fun p => ok (powerS p.1 p.2.1 p.2.2) 0x0B04 && betweenSteps (markBegun (powerS p.1 p.2.1 p.2.2) 0 0)
    && zeroAt (cmd0 (powerS p.1 p.2.1 p.2.2)).body 1 1 && zeroAt (cmd0 (powerS p.1 p.2.1 p.2.2)).body 6 10
    && leAt (cmd0 (powerS p.1 p.2.1 p.2.2)).body 4 2 == p.2.2 && leAt (cmd0 (powerS p.1 p.2.1 p.2.2)).body 2 2 == p.2.1
    && csrField (markBegun (powerS p.1 p.2.1 p.2.2) 0 0) rPwrStatus 27 27 == 0) = true := by decide +kernel

/-! Clocks, heat, start-up and security. -/

def selectS (s : State) (d src z : Nat) : State := host s 0x0B01 (le 1 d ++ le 1 src ++ le 6 z ++ le 8 0)
def clocked : State := regs up [(rClkStatus, 2 ^ 31 + 0x40)]
theorem test_clockSelect : [(clocked, 6, 1), (clocked, 0, 0)].all (fun p => ok (selectS p.1 p.2.1 p.2.2 0) 0x0B01 && zeroAt (cmd0 (selectS p.1 p.2.1 p.2.2 0)).body 2 6
    && !jobOpen? (markBegun (selectS p.1 p.2.1 p.2.2 0) 0 0) && leAt (cmd0 (selectS p.1 p.2.1 p.2.2 0)).body 0 1 == p.2.1) = true
    ∧ bitOf (csrGet (markBegun (selectS clocked 6 1 0) 0 0) rClkStatus) 6 = true ∧ bitOf (csrGet (markBegun (selectS clocked 5 1 0) 0 0) rClkStatus) 5 = false
    ∧ oscOk (markBegun (selectS clocked 0 0 0) 0 0) = true ∧ ok (selectS (job clocked) 0 0 0) 0x0B01 = true ∧ jobOpen? (markBegun (selectS (job clocked) 0 0 0) 0 0) = true := by decide +kernel
theorem test_clockSelect_bad : [(7, 0, 0), (0, 2, 0), (0, 0, 1)].all (fun p => ok (selectS up p.1 p.2.1 p.2.2) 0x0B01) = true ∧ zeroAt (cmd0 (selectS up 0 0 1)).body 2 6 = false := by decide +kernel
def gateS (off : List Nat) (unit on : Nat) : State := host { up with power := { up.power with gatesOff := off } } 0x0B02 (le 4 unit ++ le 1 on ++ le 3 0 ++ le 8 0)
theorem test_gate : [([], unitEngine 0 0xFFF, 0), ([], unitPort 6, 0), ([unitEngine 1151 0xFFF], unitEngine 1151 0xFFF, 1), ([], unitCore 0 0xFFF, 0), ([unitCore 0 0xFFF], unitEngine 0 0xFFF, 1)].all (fun p =>
    ok (gateS p.1 p.2.1 p.2.2) 0x0B02 && (gateParent (markBegun (gateS p.1 p.2.1 p.2.2) 0 0) (leAt (cmd0 (gateS p.1 p.2.1 p.2.2)).body 0 4)).isSome && zeroAt (cmd0 (gateS p.1 p.2.1 p.2.2)).body 5 3
      && !jobOpen? (markBegun (gateS p.1 p.2.1 p.2.2) 0 0)) = true
    ∧ (gateChildren up (unitCore 0 0xFFF)).length = 4 ∧ gateParent up (unitEngine 0 0xFFF) = some (some (unitCore 0 0xFFF)) ∧ gateChildren up (unitPort 6) = [] := by decide +kernel
def clkoutS (s : State) (en src div : Nat) : State := host s 0x0B03 (le 1 en ++ le 1 src ++ le 2 div ++ le 4 0 ++ le 8 0)
theorem test_clkout : [(clocked, 1, 8, 0), (clocked, 0, 9, 0xFFFF), (up, 1, 8, 0)].all (fun p => ok (clkoutS p.1 p.2.1 p.2.2.1 p.2.2.2) 0x0B03
    && zeroAt (cmd0 (clkoutS p.1 p.2.1 p.2.2.1 p.2.2.2)).body 4 4
    && decide (domainFreq (markBegun (clkoutS p.1 p.2.1 p.2.2.1 p.2.2.2) 0 0) p.2.2.1 ≤ 3200 * (p.2.2.2 + 1))) = true
    ∧ domainOk (markBegun (clkoutS clocked 1 8 0) 0 0) 8 = true ∧ domainOk (markBegun (clkoutS up 1 8 0) 0 0) 8 = false ∧ watched up = true := by decide +kernel

theorem test_heat : watched up = true ∧ up.mem.bgHeld = [] ∧ up.snag.push = [] ∧ levelOfPower up = 0 ∧ ([1759, 1600, 1599, -16, 0].all (fun t => decide ((t : Int) < 1760))) = true := by decide +kernel
def hot (die step : Nat) (cool : Option Nat) : State :=
  { regs up [(rThmDie + 4 * die, 1600)] with power := { up.power with dieStep := up.power.dieStep.set die step, dieCoolAt := up.power.dieCoolAt.set die cool } }
theorem test_stepDown : [0, 3].all (fun d => watched (hot d 1 none) && nthD (hot d 1 none).power.dieStep d 0 == 1 && decide (1600 ≤ dieTemp (hot d 1 none) d)) = true
    ∧ nthD (hot 3 1 none).power.dieStepAt 3 0 + 10 ^ 7 ≤ { hot 3 1 none with plumb := 10 ^ 7 }.plumb := by decide +kernel
theorem test_stepUp : [(0, 2), (4, 1)].all (fun p => nthD (hot p.1 p.2 (some 7)).power.dieCoolAt p.1 none == some 7 && nthD (hot p.1 p.2 (some 7)).power.dieStep p.1 0 == p.2) = true := by decide +kernel

/-- A device in a start-up phase, begun at tick 0. -/
def boots (phase : Nat) (loaded : Bool) (wait : List Nat) (flash : Store Byte) : State :=
  { regs State.reset [(rBootStatus, phase * 2 ^ 28)] with boot := { boot0 with pwrgd := true, resetN := true, loaded := loaded, railWait := wait, flash := flash } }
theorem test_fuseLoad : starting (boots 1 false [] []) = true ∧ bootPhase (boots 1 false [] []) = 1 ∧ pastLimit (boots 1 false [] []) = false
    ∧ pastLimit { boots 1 false [] [] with plumb := 10 ^ 7 } = true ∧ (boots 1 true [8] []).boot.railWait ≠ [] ∧ starting { boots 1 false [] [] with plumb := 10 ^ 7 } = true
    ∧ (State.reset.boot.pwrgd && State.reset.boot.resetN) = false := by decide +kernel
/-- The boot record of slot A, VALID in both slots, in copy 0; its CHECK is the SHA3-256 of its first 56 bytes. -/
def recordFlash : Store Byte :=
  (le 8 1 ++ le 1 0 ++ le 1 3 ++ le 46 0 ++ beBytes 8 0x700416CBF667B13D).zipIdx.map (fun (p : Byte × Nat) => (p.2, p.1))
theorem test_bootRecord : bootRecord (boots 3 true [] recordFlash) = some (0, { seq := 1, pref := 0, valid := 3 }) := by decide +kernel
theorem test_noRecord : starting (boots 3 true [] []) = true ∧ bootPhase (boots 3 true [] []) = 3 ∧ pastLimit (boots 3 true [] []) = false := by decide +kernel
theorem test_image_refused : verifySlot (boots 3 true [] recordFlash) 0 ≠ 1 ∧ verifySlot (boots 3 true [] recordFlash) 1 ≠ 1 ∧ bitOf 3 1 = true := by decide +kernel

/-- A manifest of three empty components; its key and its signature bytes of 1s. -/
def manifest : List Byte := le 4 0x4D495847 ++ le 2 1 ++ le 1 3 ++ le 1 0 ++ le 4 64 ++ le 4 0x4000 ++ le 48 0
def imageTable : List Byte :=
  ([1, 2, 3].flatMap (fun k => le 1 k ++ le 3 0 ++ le 4 0x3000 ++ le 4 0 ++ le 20 0 ++ beBytes 64 0xA69F73CCA23A9AC5C8B567DC185A756E97C982164FE25859E0D1DCC1475C80A615B2123AF1F5F94C11E3E9402C3AC558F500199D95B6D3E301758586281DCD26)) ++ le (13 * 96) 0
def slotA : List Byte := manifest ++ List.replicate 2592 0xFF ++ imageTable ++ List.replicate 4627 0xFF
def imaged : State :=
  let s := boots 3 true [] (stSetMany 0xFF [] 0x800000 slotA)
  { s with boot := { s.boot with fuses := stSetMany 0 [] 448 (sha3_512 (List.replicate 2592 0xFF)) } }
theorem test_manifest : manifestOk slotA = true ∧ slotA.length = 8819 ∧ sliceB slotA 64 2592 = List.replicate 2592 0xFF ∧ leAt slotA 8 1 = 64 := by decide +kernel
theorem test_emptyDigest : sha3_512 [] = beBytes 64 0xA69F73CCA23A9AC5C8B567DC185A756E97C982164FE25859E0D1DCC1475C80A615B2123AF1F5F94C11E3E9402C3AC558F500199D95B6D3E301758586281DCD26 := by decide +kernel
theorem test_imageTable : ∀ e ∈ imageEntries slotA, e.kind = 0 ∨ e.len = 0 ∧ e.digest = beBytes 64 0xA69F73CCA23A9AC5C8B567DC185A756E97C982164FE25859E0D1DCC1475C80A615B2123AF1F5F94C11E3E9402C3AC558F500199D95B6D3E301758586281DCD26 := by decide +kernel
theorem keccakRound_length (a : List Nat) (rc : Nat) : (keccakRound a rc).length = 25 := by
  simp [keccakRound, keccakChi, planes]
theorem keccak_length (l : List Nat) (a : List Nat) (h : a.length = 25) : (l.foldl keccakRound a).length = 25 := by
  induction l generalizing a with
  | nil => exact h
  | cons r l ih => exact ih _ (keccakRound_length a r)
theorem absorb_length (l : List (List Byte)) (a : List Nat) (h : a.length = 25) : (l.foldl keccakAbsorb a).length = 25 := by
  induction l generalizing a with
  | nil => exact h
  | cons r l ih => exact ih _ (keccak_length _ _ (by simp [h]))
theorem sha3_512_length (m : List Byte) : (sha3_512 m).length = 64 := by
  have h : ∀ l : List Nat, (l.flatMap (leBytes 8)).length = 8 * l.length := by
    intro l
    induction l with
    | nil => rfl
    | cons x l ih => simp only [List.flatMap_cons, List.length_append, ih, List.length_cons]; simp [leBytes]; omega
  simp only [sha3_512, sha3, List.length_take, h]
  rw [absorb_length _ _ (List.length_replicate ..)]
  rfl
theorem test_imageRead : manifestOf imaged 0 = slotA := by
  have h := stGetMany_setMany 0xFF ([] : Store Byte) 0x800000 slotA
  rw [test_manifest.2.1] at h
  have hf : imaged.boot.flash = stSetMany 0xFF [] 0x800000 slotA := by simp only [imaged, boots]
  have hb : slotBase 0 = 0x800000 := by decide
  rw [manifestOf, flashRead, hf, hb, h]
theorem test_imageKey : stGetMany 0 imaged.boot.fuses 448 64 = sha3_512 (List.replicate 2592 0xFF) := by
  have h := stGetMany_setMany 0 ([] : Store Byte) 448 (sha3_512 (List.replicate 2592 0xFF))
  rw [sha3_512_length] at h
  have hf : imaged.boot.fuses = stSetMany 0 [] 448 (sha3_512 (List.replicate 2592 0xFF)) := by simp only [imaged, boots]
  rw [hf, h]
/-- A slot that verifies, wherever signatures do. -/
theorem test_verified (h : ∀ k m g, Config.mldsaVerify k m g = true) : verifySlot imaged 0 = 1 := by
  have hm := test_manifest
  have he : (imageEntries slotA).all (fun e => e.kind == 0 || sha3_512 (flashRead imaged (slotBase 0 + e.off) e.len) == e.digest) = true := by
    rw [List.all_eq_true]
    intro e he
    rcases test_imageTable e he with h0 | ⟨h1, h2⟩
    · simp [h0]
    · simp [h1, h2, flashRead, stGetMany, test_emptyDigest]
  have hv : minSvn imaged ≤ 64 := by
    have h64 := (List.takeWhile_prefix (l := List.range 64) (fun i => bitOf (fuseBits imaged 3327 3264) i)).length_le
    simpa [minSvn] using h64
  unfold verifySlot
  simp only [test_imageRead, hm.1, hm.2.2.1, hm.2.2.2, test_imageKey, he, h, Nat.not_lt.mpr hv, Bool.not_true, Bool.false_eq_true, if_false, ne_eq, not_true_eq_false]
theorem test_release : starting (boots 6 true [] []) = true ∧ bootPhase (boots 6 true [] []) = 6 ∧ csrField (boots 6 true [] []) rSngStatus 30 30 = 0
    ∧ (boots 6 true [] []).plumb < (boots 6 true [] []).boot.startAt + 45 * 10 ^ 9 := by decide +kernel

def attestS (d : Nat) : State := host up 0x0C01 (le 32 5 ++ le 8 d ++ le 8 0)
theorem test_attest : ok (attestS 0x1000) 0x0C01 = true ∧ addrField (cmd0 (attestS 0x1000)).body 32 = some 0x1000 ∧ rangeOk (markBegun (attestS 0x1000) 0 0) 0x1000 5139 = true
    ∧ (markBegun (attestS 0x1000) 0 0).mem.errs = [] ∧ inSafe (markBegun (attestS 0x1000) 0 0) = false := by decide +kernel
theorem test_identityRead : ok (host up 0x0C02 (le 16 0x1000)) 0x0C02 = true ∧ addrField (cmd0 (host up 0x0C02 (le 16 0x1000))).body 0 = some 0x1000
    ∧ [0, 8192].all (fun n => rangeOk (markBegun (host up 0x0C02 (le 16 0x1000)) 0 0) 0x1000 (2596 + n)) = true := by decide +kernel
def stageS (op off len : Nat) (open' : Bool) : State :=
  host { up with boot := { up.boot with staging := open' } } 0x0C03 (le 1 op ++ le 3 0 ++ le 4 off ++ le 4 len ++ le 4 0 ++ le 8 0x1000 ++ le 8 0)
theorem test_stage : [1, 2, 3, 4].all (fun op => [false, true].all (fun o => ok (stageS op 0 256 o) 0x0C03 && stageOp (cmd0 (stageS op 0 256 o)) == op
    && (markBegun (stageS op 0 256 o) 0 0).boot.staging == o && stageClean (markBegun (stageS op 0 256 o) 0 0) (cmd0 (stageS op 0 256 o)))) = true := by decide +kernel
theorem test_stageData : [(0, 256), (slotSize - 65536, 65536)].all (fun p => ok (stageS 2 p.1 p.2 true) 0x0C03 && p.1 % 256 == 0 && p.2 % 256 == 0
    && !stageOverlaps (markBegun (stageS 2 p.1 p.2 true) 0 0) p.1 p.2 && rangeOk (markBegun (stageS 2 p.1 p.2 true) 0 0) 0x1000 p.2) = true := by decide +kernel
theorem test_stageFinish : stageTarget (markBegun (stageS 3 0 0 true) 0 0) = 1 ∧ verifySlot (markBegun (stageS 3 0 0 true) 0 0) 1 ≠ 1 := by decide +kernel
theorem test_smbus : smbusOn up = true ∧ smbusOn State.reset = false ∧ released up = true ∧ released State.reset = false := by decide +kernel

/-! The transport. -/

/-- A packet accepted by a device whose port 0 is up, and what its number is to it. -/
def takes (s : State) (h : ScHdr) (d : List Byte) (want : State → ScHdr → List Byte → Bool) : Bool :=
  match acceptScrim s (packet h d) h.op with
  | (t, some (k, b)) => want t k b
  | _ => false
def seen (s : State) (code : Nat) : State := { s with net := { s.net with rx := [{ src := 2, chan := 0x70, high := 5, lastAt := 0, states := [(5, code)] }] } }
def hdr (op addr len : Nat) : ScHdr := { head0 with op := op, chan := 0x70, seq := 5, addr := addr, len := len, queue := 7 }
def isFresh (t : State) (h : ScHdr) : Bool := rxCase t h.src h.chan h.seq == .fresh
def isAnswered (t : State) (h : ScHdr) (n : Nat) : Bool := rxCase t h.src h.chan h.seq == .answered n

theorem test_cmd : takes (linked up) (hdr 5 0 512) (le 512 1) (fun t h d => isFresh t h && d.length == 512 && h.len == 512 && decide (h.queue ≤ 7) && !inSafe t) = true
    ∧ takes (linked up) { hdr 5 0 512 with queue := 8 } (le 512 1) (fun t h _ => isFresh t h && h.queue == 8) = true
    ∧ takes (linked (seen up 2)) (hdr 5 0 512) (le 512 1) (fun t h _ => isAnswered t h 2) = true := by decide +kernel
theorem test_put : [(0, 32), (2 ^ 39 - 96, 96)].all (fun p => takes (linked up) (hdr 1 p.1 p.2) (le p.2 7) (fun t h d => isFresh t h && taking t && !isCollChan h && h.addr % 32 == 0
      && h.len == d.length && !inSafe t && !inCollRegion t h.addr h.len && (accessFault t h.addr h.len).isNone && t.mem.errs.isEmpty)) = true := by decide +kernel
theorem test_put_refused : takes (linked up) (hdr 1 (2 ^ 40) 32) (le 32 7) (fun t h _ => isFresh t h && (accessFault t h.addr h.len).isSome) = true
    ∧ takes (linked (seen up 2)) (hdr 1 0 32) (le 32 7) (fun t h _ => isAnswered t h 2 && !isCollChan h) = true := by decide +kernel
theorem test_get : [0, 4096].all (fun n => takes (linked up) (hdr 2 0x1000 n) [] (fun t h _ => isFresh t h && (convertAt t h.addr).isNone && taking t && (accessFault t h.addr h.len).isNone
    && !inCollRegion t h.addr h.len && t.mem.errs.isEmpty)) = true := by decide +kernel
def converting : State := { linked up with job := { up.job with converts := [{ base := 0x1000, len := 0x1000, stored := 0x04, target := 0x11, exp := 0x4000 }] } }
theorem test_get_converted : takes converting (hdr 2 0x1000 64) [] (fun t h _ => isFresh t h && (match convertAt t h.addr with
    | some c => (match getConverted t c h.addr h.len with | (_, .ok _) => true | _ => false)
    | none => false)) = true := by decide +kernel
theorem test_acc : takes (linked up) (hdr 4 0x1000 48) (le 16 1 ++ le 32 0) (fun t h d => isFresh t h && taking t && (accRun h d t).2.isNone) = true
    ∧ takes (linked up) (hdr 4 0x1000 8) (le 8 1) (fun t h d => isFresh t h && decide (d.length < 16)) = true
    ∧ takes (linked (seen up 2)) (hdr 4 0x1000 48) (le 16 1 ++ le 32 0) (fun t h _ => isAnswered t h 2) = true := by decide +kernel

/-- An operation of the device's own with two packets open, toward peer 2. -/
def opened (kind : Nat) (first : Bool) : ScrimOp :=
  { id := 9, owner := .firmware, kind := kind, peer := 2, chan := 0x70, cls := 1, issued := 0, limit := 1000, retries := 3, interval := 100
    pkts := [{ seq := 5, attempt := 0, sentAt := 0, acked := false, payload := [], addr := 0, len := 32 }
             , { seq := 6, attempt := 0, sentAt := 0, acked := first, payload := [], addr := 32, len := 32 }], reply := [] }
def issuing (kind : Nat) (first : Bool) : State := { linked up with net := { (linked up).net with ops := [opened kind first] } }
theorem test_ack : [true, false].all (fun f => takes (issuing 1 f) (hdr 8 0 0) [] (fun t h _ => (answered t h).any (fun r => r.1 == opened 1 f && r.1.kind != 2
      && (r.1.pkts.set h.pkt { r.2 with acked := true }).all (·.acked) == f))) = true
    ∧ takes (linked up) (hdr 8 0 0) [] (fun t h _ => (answered t h).isNone) = true := by decide +kernel
theorem test_nack : takes (issuing 1 false) (hdr 9 0 0) [] (fun t h _ => (answered t h).isSome) = true
    ∧ takes (linked up) (hdr 9 0 0) [] (fun t h _ => (answered t h).isNone) = true := by decide +kernel
theorem test_getReply : [true, false].all (fun f => takes (issuing 2 f) (hdr 3 0 32) (le 32 7) (fun t h d => (answered t h).any (fun r => r.1.kind == 2 && r.2.len == d.length && !r.2.acked
      && (r.1.pkts.set h.pkt { r.2 with acked := true }).all (·.acked) == f))) = true
    ∧ takes (linked up) (hdr 3 0 32) (le 32 7) (fun t h _ => (answered t h).isNone) = true := by decide +kernel
theorem test_timeout : ((issuing 1 false).net.ops.find? (fun (o : ScrimOp) => o.id == 9 && decide (o.limit ≤ 1000))).isSome = true
    ∧ (issuing 1 false).net.ops.all (fun o => o.id != 9 || decide (999 < o.limit)) = true := by decide +kernel
theorem test_retry : ((issuing 1 false).net.ops.find? (fun o => o.id == 9 && (o.pkts[1]?).any (fun k => pktDue { issuing 1 false with plumb := 100 } o k))) = some (opened 1 false) := by
  decide +kernel
theorem test_eviction : ((seen up 2).net.rx.all (fun c => c.src == 2 && decide (c.lastAt + 150000000 ≤ 150000000))) = true := by decide +kernel
/-- A receive table of 16,384 pairs, none of source 2. -/
def full : State := { up with net := { up.net with rx := List.replicate 16384 { src := 3, chan := 0, high := 0, lastAt := 0, states := [] } } }
theorem test_fullTable : (∀ c ∈ full.net.rx, ¬(c.src = 2 ∧ c.chan = 0x70)) ∧ 16384 ≤ full.net.rx.length := by
  constructor
  · intro c hc
    rw [show full.net.rx = List.replicate 16384 _ from rfl, List.mem_replicate] at hc
    rw [hc.2]
    decide
  · rw [show full.net.rx = List.replicate 16384 _ from rfl, List.length_replicate]
theorem test_marked : rxCase (seen up 2) 2 0x70 5 ≠ .noChannel ∧ (seen up 2).net.rx.length ≤ 16384 := by decide +kernel

/-- A device with addresses of its own on port 0. -/
def addressed : State := { linked up with net := { (linked up).net with ip4 := [10, 0, 0, 1] } }
def frame4 (etype : Nat) (b : List Byte) : List Byte := le 12 0 ++ beBytes 2 etype ++ b
def arp (target : List Byte) : List Byte := beBytes 8 0x0001080006040001 ++ le 6 7 ++ [10, 0, 0, 2] ++ le 6 0 ++ target
theorem test_arp : [[10, 0, 0, 1], [10, 0, 0, 3]].all (fun ip => frameBody (frame4 0x0806 (arp ip)) == (0x0806, arp ip) && beAt (arp ip) 0 8 == 0x0001080006040001
    && sliceB (arp ip) 24 4 == ip) = true ∧ ip4Of addressed 0 = [10, 0, 0, 1] ∧ portUsable addressed 0 = true := by decide +kernel
def ns (target : List Byte) : List Byte := le 4 0x60 ++ beBytes 2 24 ++ [58, 255] ++ List.replicate 16 9 ++ List.replicate 16 1 ++ [135, 0, 0, 0] ++ le 4 0 ++ target
theorem test_ns : [1, 3].all (fun v => frameBody (frame4 0x86DD (ns (List.replicate 16 v))) == (0x86DD, ns (List.replicate 16 v)) && leAt (ns (List.replicate 16 v)) 6 1 == 58
    && leAt (ns (List.replicate 16 v)) 40 1 == 135 && sliceB (ns (List.replicate 16 v)) 48 16 == List.replicate 16 v) = true ∧ ip6Of addressed 0 = List.replicate 16 1 := by decide +kernel
def echo4 : List Byte := [0x45, 0] ++ beBytes 2 28 ++ le 4 0 ++ [64, 1, 0, 0] ++ [10, 0, 0, 2] ++ [10, 0, 0, 1] ++ [8, 0, 0, 0] ++ le 4 77
def echo6 : List Byte := le 4 0x60 ++ beBytes 2 8 ++ [58, 255] ++ List.replicate 16 9 ++ List.replicate 16 1 ++ [128, 0, 0, 0] ++ le 4 77
theorem test_echo : frameBody (frame4 0x0800 echo4) = (0x0800, echo4) ∧ sliceB echo4 16 4 = ip4Of addressed 0 ∧ leAt echo4 0 1 = 0x45 ∧ beAt echo4 6 2 % 0x4000 = 0 ∧ leAt echo4 9 1 = 1
    ∧ leAt (sliceB echo4 20 (beAt echo4 2 2 - 20)) 0 1 = 8 ∧ frameBody (frame4 0x86DD echo6) = (0x86DD, echo6) ∧ sliceB echo6 24 16 = ip6Of addressed 0 ∧ leAt echo6 6 1 = 58
    ∧ leAt (sliceB echo6 40 (beAt echo6 4 2)) 0 1 = 128 := by decide +kernel

/-- A queue pair that expects PSN 100, and a packet to it. -/
def qp1 : Qp :=
  { valid := true, queue := 1, mtu := 512, remote := 7, gid := List.replicate 16 2, epsn := 100, msn := 0, rpsn := 0, send := [], sending := false
    writeAt := 0, writeLeft := 0, writing := false, lastCnp := none, byJob := false }
def paired (q : Qp) : State :=
  { linked up with net := { (linked up).net with qps := [(0x100, q)] }, job := { up.job with rkeys := [(0, { key := 77, base := 0x1000, len := 0x1000, read := true, write := true })] } }
def roce (op psn : Nat) (body : List Byte) : Packet :=
  let b := [byteOf op, 0] ++ beBytes 2 0xFFFF ++ [0] ++ beBytes 3 0x100 ++ [0x80] ++ beBytes 3 psn ++ body
  let d := b ++ le 4 (icrc (List.replicate 16 2) (List.replicate 16 1) 7 b)
  { packet head0 [] with dport := 4791, sum := udpSum (List.replicate 16 2) (List.replicate 16 1) 7 4791 d, payload := d }
def reth (a n : Nat) : List Byte := beBytes 8 a ++ beBytes 4 77 ++ beBytes 4 n
def roceOk (q : Qp) (op psn : Nat) (body : List Byte) (ops : List Nat) : Bool :=
  (acceptRoce (paired q) (roce op psn body) ops).any (fun r => r.1.op == op && r.1.psn == psn && r.2.1 == q && r.2.2 == body && linkErrors (paired q) 0 (roce op psn body).link == paired q && (congest (paired q) (roce op psn body) 0x100 q).2 == q)
theorem test_send : [(qp1, 0x04, 512), (qp1, 0x00, 512), ({ qp1 with sending := true, send := le 512 3 }, 0x01, 512), ({ qp1 with sending := true, send := le 512 3 }, 0x02, 512)].all
    (fun p => roceOk p.1 p.2.1 100 (le p.2.2 5) [0x00, 0x01, 0x02, 0x03, 0x04, 0x05, 0x16, 0x17]) = true := by decide +kernel
theorem test_send_psn : [99, 100 + 2 ^ 23, 101, 99 + 2 ^ 23].all (fun n => roceOk qp1 0x04 n (le 32 5) [0x00, 0x01, 0x02, 0x03, 0x04, 0x05, 0x16, 0x17]) = true
    ∧ 2 ^ 23 ≤ (99 + 2 ^ 24 - 100) % 2 ^ 24 ∧ 2 ^ 23 ≤ (100 + 2 ^ 23 + 2 ^ 24 - 100) % 2 ^ 24 ∧ (99 + 2 ^ 23 + 2 ^ 24 - 100) % 2 ^ 24 < 2 ^ 23 := by decide +kernel
theorem test_write : [(qp1, 0x0A, reth 0x1000 64 ++ le 64 5), (qp1, 0x06, reth 0x1000 2048 ++ le 512 5), ({ qp1 with writing := true, writeAt := 0x1400, writeLeft := 2048 }, 0x07, le 512 5)
      , ({ qp1 with writing := true, writeAt := 0x1800, writeLeft := 32 }, 0x08, le 32 5)].all (fun p => roceOk p.1 p.2.1 100 p.2.2 [0x06, 0x07, 0x08, 0x09, 0x0A, 0x0B]) = true
    ∧ keyOk (paired qp1) 77 0x1000 2048 true = true ∧ CleanMem (paired qp1) := by unfold CleanMem; decide +kernel
theorem test_read : roceOk qp1 0x0C 100 (reth 0x1000 2048) [0x0C] = true ∧ keyOk (paired qp1) 77 0x1000 2048 false = true ∧ keyOk (paired qp1) 77 0x2000 32 false = false
    ∧ roceOk qp1 0x0C 100 (reth 0x2000 32) [0x0C] = true ∧ roceOk qp1 0x13 100 (le 28 0) [0x13, 0x14] = true := by decide +kernel

/-! Ill-formed commands, one for each check of WellFormed. -/

theorem test_wf_host : (Instr.fill 8 0).wf = false ∧ (Instr.fill 0 (2 ^ 32)).wf = false ∧ (Instr.fill 7 (2 ^ 32 - 1)).wf = true := by decide
def pkt0 : Packet := packet head0 []
theorem test_wf_packet : (Instr.put { pkt0 with port := 7 }).wf = false ∧ (Instr.put { pkt0 with mac := [] }).wf = false ∧ (Instr.put { pkt0 with src := [1] }).wf = false
    ∧ (Instr.put { pkt0 with dst := [1, 2, 3, 4] }).wf = false ∧ (Instr.put { pkt0 with sport := 65536 }).wf = false ∧ (Instr.put { pkt0 with dport := 65536 }).wf = false
    ∧ (Instr.syncRequest pkt0 (-1)).wf = false ∧ (Instr.syncResponse pkt0 (-1)).wf = false ∧ (Instr.put pkt0).wf = true ∧ (Instr.collectiveData ⟨pkt0, 3⟩).wf = false ∧ (Instr.collectiveData ⟨pkt0, 2⟩).wf = true := by decide +kernel
def calm : StageEvents := { arrays := [], upsets := [], spot := .agree }
theorem test_wf_core : (Instr.loadStage (2 ^ 18) ⟨0, calm⟩).wf = false ∧ (Instr.loadStage 0 ⟨256, calm⟩).wf = false ∧ (Instr.takeTiles 256).wf = false ∧ (Instr.loadStage 5 ⟨255, calm⟩).wf = true := by decide
theorem test_wf_chan : (Instr.move 33 0).wf = false ∧ (Instr.move 31 16).wf = false ∧ (Instr.move 32 32).wf = false ∧ (Instr.move 31 15).wf = true ∧ (Instr.move 32 31).wf = true := by decide
def struck (engine kind : Nat) : StageEvents := { calm with arrays := [{ engine := engine, pos := 0, column := 0, delta := 1, kind := kind, word := 0, syn := 0 }] }
def upset (u : Upset) : StageEvents := { calm with upsets := [u] }
theorem test_wf_fault : (Instr.multiply 5 0 (struck 4 1)).wf = false ∧ (Instr.screed 5 0 (struck 0 256) []).wf = false ∧ (Instr.multiply 5 0 (struck 3 255)).wf = true
    ∧ (Instr.vecAdd 5 ⟨0, upset (.core 0 256 true)⟩).wf = false ∧ (Instr.loadStage 5 ⟨0, upset (.cluster 0 256 false)⟩).wf = false
    ∧ (Instr.multiply 5 0 (upset (.engine 4 0 0 1))).wf = false ∧ (Instr.multiply 5 0 (upset (.path 4096 1))).wf = false ∧ (Instr.multiply 5 0 (upset (.path 4095 1))).wf = true := by decide
theorem test_wf_ops : (Instr.updateTakesTensor (2 ^ 18) { spot := .agree, parity := none }).wf = false ∧ (Instr.updateComplete (2 ^ 18)).wf = false ∧ (Instr.packetRetry (2 ^ 18) 0).wf = false
    ∧ (Instr.packetRetry 5 256).wf = false ∧ (Instr.operationTimeout (2 ^ 18)).wf = false ∧ (Instr.collectiveTimeout (2 ^ 18)).wf = false ∧ (Instr.runComplete (2 ^ 18)).wf = false
    ∧ (Instr.launchAtDue (2 ^ 18)).wf = false := by decide
theorem test_wf_stacks : (Instr.topcoatEnd 8).wf = false ∧ (Instr.sectorGrant 8 0).wf = false ∧ (Instr.sectorGrant 0 64).wf = false ∧ (Instr.capacityAccess 8).wf = false
    ∧ (Instr.refresh 8 0 0).wf = false ∧ (Instr.refresh 0 64 0).wf = false ∧ (Instr.refresh 0 0 256).wf = false ∧ (Instr.pseudoChannelRetirement 8 0).wf = false
    ∧ (Instr.patrolScrub 9 0 []).wf = false ∧ (Instr.patrolScrub 8 8 []).wf = false ∧ (Instr.patrolScrub 0 0 [(38, 1)]).wf = false ∧ (Instr.patrolScrub 0 0 [(37, 2 ^ 32)]).wf = false
    ∧ (Instr.hawkMigration 16 0 0).wf = false := by decide
theorem test_wf_ports : (Instr.arpRequest 7 (List.replicate 14 0)).wf = false ∧ (Instr.pauseFrame 0 (List.replicate 13 0)).wf = false ∧ (Instr.portUp 7 1).wf = false ∧ (Instr.portUp 0 256).wf = false
    ∧ (Instr.portDown 7).wf = false ∧ (Instr.channelEviction 65536).wf = false ∧ (Instr.childEntryExpiry 65536).wf = false := by decide
theorem test_wf_lath : (Instr.lathCellArrival 72 0 0 []).wf = false ∧ (Instr.lathCellArrival 0 5 0 []).wf = false ∧ (Instr.lathCellArrival 0 0 13 []).wf = false ∧ (Instr.addAssemblyTimeout 80 0 0).wf = false
    ∧ (Instr.cellAck 33).wf = false ∧ (Instr.lathParcelRetry 33 0).wf = false ∧ (Instr.lathParcelRetry 0 512).wf = false ∧ (Instr.allStop 33).wf = false ∧ (Instr.mergeHoldExpiry 0 512).wf = false := by decide
theorem test_wf_snag : (Instr.passMismatchDecision 1152 ⟨true, []⟩ ⟨true, []⟩).wf = false ∧ (Instr.arrayEventDecision 1152 []).wf = false ∧ (Instr.patchTestDue (2 ^ 32)).wf = false
    ∧ (Instr.patchTestComplete 0 256 ⟨0, 0⟩).wf = false ∧ (Instr.patchTestComplete 0 0 ⟨256, 0⟩).wf = false := by decide
theorem test_wf_power : (Instr.windowStart 4).wf = false ∧ (Instr.windowEnd 4).wf = false ∧ (Instr.sagSample 65536).wf = false ∧ (Instr.railOutOfWindow 16 0 true).wf = false ∧ (Instr.railOutOfWindow 1 65536 true).wf = false
    ∧ (Instr.avsSetpointMove 65536).wf = false ∧ (Instr.powerCap 65536).wf = false ∧ (Instr.thermalSample { dieT := [], stackT := List.replicate 8 0, caseT := List.replicate 8 0 }).wf = false
    ∧ (Instr.thermalStepDown 4).wf = false ∧ (Instr.thermalStepUp 5).wf = false ∧ (Instr.droopComparator 4).wf = false ∧ (Instr.fixedRailInWindow 16).wf = false := by decide
theorem test_wf_boot : (Instr.release { badCores := [288], badUnits := [], trained := 255 }).wf = false ∧ (Instr.release { badCores := [], badUnits := [2 ^ 32], trained := 255 }).wf = false ∧ (Instr.smbusRead 256).wf = false ∧ (Instr.smbusWrite 256 []).wf = false ∧ (Instr.tapInstruction (2 ^ 32)).wf = false := by decide

end Sys2Proof.Tests
end

section
/-! SUPPORT. The registers' read-back rules, and what reset leaves in registers, queues and memory. -/

namespace Sys2Proof.Machine

/-! Bit fields: what a field reads as after a field was put. -/

/-- A field below bit `w` does not see the word cut to `w` bits. -/
theorem fieldOf_mod_two_pow (n w h l : Nat) (hw : h < w) : fieldOf (n % 2 ^ w) h l = fieldOf n h l := by
  refine Nat.eq_of_testBit_eq fun i => ?_
  rw [fieldOf_testBit, fieldOf_testBit, Nat.testBit_mod_two_pow]
  by_cases hi : i < h + 1 - l
  · have hiw : i + l < w := by omega
    simp [hiw]
  · simp [hi]

theorem fieldOf_putField_self (n hi lo v : Nat) (h : lo ≤ hi) :
    fieldOf (putField n hi lo v) hi lo = v % 2 ^ (hi + 1 - lo) := by
  refine Nat.eq_of_testBit_eq fun i => ?_
  rw [fieldOf_testBit, Nat.testBit_mod_two_pow, putField_testBit _ _ _ _ _ h]
  by_cases hb : i < hi + 1 - lo
  · have hin : i + lo ≤ hi := by omega
    simp [hin]
  · simp [hb]

/-- Fields that do not meet are independent. -/
theorem fieldOf_putField_disjoint (n hi lo v h l : Nat) (hlo : lo ≤ hi) (hd : h < lo ∨ hi < l) :
    fieldOf (putField n hi lo v) h l = fieldOf n h l := by
  refine Nat.eq_of_testBit_eq fun i => ?_
  rw [fieldOf_testBit, fieldOf_testBit, putField_testBit _ _ _ _ _ hlo]
  by_cases hb : i < h + 1 - l
  · rcases hd with below | above
    · have hi' : i + l < lo := by omega
      simp [hi']
    · have h1 : ¬ i + l < lo := by omega
      have h2 : ¬ i + l ≤ hi := by omega
      simp [h1, h2]
  · simp [hb]

/-! The same of a register of the state. -/

theorem csrField_setField (s : State) (a hi lo v h l : Nat) (hh : h < 32) :
    csrField (csrSetField s a hi lo v) a h l = fieldOf (putField (csrGet s a) hi lo v) h l := by
  rw [csrField, csrSetField, csrGet_put_self, fieldOf_mod_two_pow _ _ _ _ hh]

theorem csrField_setField_self (s : State) (a hi lo v : Nat) (h : lo ≤ hi) (hhi : hi < 32) :
    csrField (csrSetField s a hi lo v) a hi lo = v % 2 ^ (hi + 1 - lo) := by
  rw [csrField_setField _ _ _ _ _ _ _ hhi, fieldOf_putField_self _ _ _ _ h]

theorem csrField_setField_disjoint (s : State) (a hi lo v h l : Nat) (hlo : lo ≤ hi) (hd : h < lo ∨ hi < l) (hh : h < 32) :
    csrField (csrSetField s a hi lo v) a h l = csrField s a h l := by
  rw [csrField_setField _ _ _ _ _ _ _ hh, fieldOf_putField_disjoint _ _ _ _ _ _ hlo hd, csrField]

/-- Settles O6: a put is read back whole, and a field put by the bits of the word. -/
theorem registersReadBackFieldByField : Obligations.RegistersReadBackFieldByField := by
  refine ⟨csrGet_put, fun s a hi lo v hlo hhi => ⟨csrField_setField_self s a hi lo v hlo hhi, ?_⟩⟩
  intro h l hd _ hh
  exact csrField_setField_disjoint s a hi lo v h l hlo hd hh

/-! A store built by a run of entries, each key set once. -/

/-- The store after the entries of a list are set in order, each value by its word. -/
def setAll (m : Store Word) (l : List (Nat × Nat)) : Store Word :=
  l.foldl (fun m p => stSet 0 m p.1 (BitVec.ofNat 32 p.2)) m

/-- The register file after reset is the empty one with the reset values set (R10). -/
theorem reset_csr : State.reset.csr = setAll [] resetRegs := by
  rw [State.reset, csr0, setAll]

theorem setAll_cons (m : Store Word) (p : Nat × Nat) (l : List (Nat × Nat)) :
    setAll m (p :: l) = setAll (stSet 0 m p.1 (BitVec.ofNat 32 p.2)) l := rfl

theorem wf_setAll (l : List (Nat × Nat)) {m : Store Word} (h : Store.wf 0 m = true) : Store.wf 0 (setAll m l) = true := by
  induction l generalizing m with
  | nil => exact h
  | cons p r ih => exact ih (wf_set p.1 _ h)

theorem stGet_setAll_of_notMem (l : List (Nat × Nat)) (m : Store Word) (a : Nat) (h : a ∉ l.map Prod.fst) :
    stGet 0 (setAll m l) a = stGet 0 m a := by
  induction l generalizing m with
  | nil => rfl
  | cons p r ih =>
    obtain ⟨hne, hr⟩ : a ≠ p.1 ∧ a ∉ r.map Prod.fst := by simpa using h
    rw [setAll_cons, ih _ hr, stGet_set_other _ _ _ _ _ hne]

theorem stGet_setAll_of_mem (l : List (Nat × Nat)) (m : Store Word) (p : Nat × Nat) (hl : (l.map Prod.fst).Nodup) (hp : p ∈ l) :
    stGet 0 (setAll m l) p.1 = BitVec.ofNat 32 p.2 := by
  induction l generalizing m with
  | nil => cases hp
  | cons q r ih =>
    obtain ⟨hq, hr⟩ := List.nodup_cons.1 hl
    rcases List.mem_cons.1 hp with rfl | hp
    · rw [setAll_cons, stGet_setAll_of_notMem r _ _ hq, stGet_set_self]
    · exact ih _ hr hp

/-! What reset leaves, part by part. -/

theorem resetRegs_nodup : (resetRegs.map Prod.fst).Nodup := by decide +kernel

theorem resetRegs_lt_two_pow : ∀ p ∈ resetRegs, p.2 < 2 ^ 32 := by decide +kernel

theorem csrGet_reset_of_mem {a v : Nat} (h : (a, v) ∈ resetRegs) : csrGet State.reset a = v := by
  rw [csrGet, reset_csr, stGet_setAll_of_mem _ _ (a, v) resetRegs_nodup h, BitVec.toNat_ofNat,
    Nat.mod_eq_of_lt (resetRegs_lt_two_pow (a, v) h)]

theorem csrGet_reset_of_notMem {a : Nat} (h : a ∉ resetRegs.map Prod.fst) : csrGet State.reset a = 0 := by
  rw [csrGet, reset_csr, stGet_setAll_of_notMem _ _ _ h]
  rfl

theorem csrField_reset_of_notMem {a : Nat} (h : a ∉ resetRegs.map Prod.fst) (hi lo : Nat) : csrField State.reset a hi lo = 0 := by
  simp [csrField, csrGet_reset_of_notMem h, fieldOf]

/-- Every queue stands as `queue0` says, a number past the eighth too (it reads as the default). -/
theorem queueAt_reset (q : Nat) : queueAt State.reset q = queue0 := by
  rw [queueAt, nthD, show State.reset.queues = List.replicate 8 queue0 from rfl, List.getElem?_replicate]
  split <;> rfl

theorem jobOpen?_reset : jobOpen? State.reset = false := by
  rw [jobOpen?, csrField_reset_of_notMem (by decide +kernel)]
  rfl

theorem stepState_reset : stepState State.reset = sIdle := csrField_reset_of_notMem (by decide +kernel) 2 0

theorem memByte_reset (a : Nat) : memByte State.reset a = 0 := rfl

/-- Settles O3: memory is empty, the register file is a run of writes over the empty one, and the
queues are the eight. -/
theorem resetHoldsInv : Obligations.ResetHoldsInv :=
  ⟨rfl, reset_csr ▸ wf_setAll resetRegs rfl, List.length_replicate, Nat.zero_le 64⟩

/-- Settles O5: each named register is an entry of `resetRegs`, and the queues, the job, the step and
memory stand as reset puts them. -/
theorem resetLeaves : Obligations.ResetLeaves :=
  ⟨fun _ => csrGet_reset_of_mem, fun _ => csrGet_reset_of_notMem,
    csrGet_reset_of_mem (by decide +kernel), csrGet_reset_of_mem (by decide +kernel), csrGet_reset_of_mem (by decide +kernel),
    csrGet_reset_of_mem (by decide +kernel), csrGet_reset_of_mem (by decide +kernel), csrGet_reset_of_mem (by decide +kernel),
    fun q _ => queueAt_reset q ▸ ⟨rfl, rfl, rfl⟩, jobOpen?_reset, stepState_reset, rfl, memByte_reset, rfl⟩

end Sys2Proof.Machine
end

section
/-! SUPPORT. The frame of the fault manager, of completions and of a seam's end: the arbiters' pointers and the command
that a seam holds; for a checked memory access also where the step stands. What one record of the Snag list leaves. -/

namespace Sys2Proof.Machine

/-! The Snag list's counter table (R355) holds nothing of the seam. -/

theorem snagPutEntry_counters (g : SnagSt) (c : SnagCounter) : ∃ l, snagPutEntry g c = { g with counters := l } := by
  unfold snagPutEntry
  split
  · exact ⟨_, rfl⟩
  · split
    · exact ⟨_, rfl⟩
    · split
      · exact ⟨g.counters, rfl⟩
      · exact ⟨_, rfl⟩

@[simp] theorem snagPutEntry_seamHold (g : SnagSt) (c : SnagCounter) : (snagPutEntry g c).seamHold = g.seamHold := by
  obtain ⟨l, hl⟩ := snagPutEntry_counters g c
  rw [hl]

theorem snagEvent_counters (g : SnagSt) (unit : Nat) : ∃ l, snagEvent g unit = { g with counters := l } :=
  snagPutEntry_counters ..

@[simp] theorem snagEvent_seamHold (g : SnagSt) (unit : Nat) : (snagEvent g unit).seamHold = g.seamHold :=
  snagPutEntry_seamHold ..

/-! The frame. -/

/-- From `s` to `t` the arbiters' pointers (R30) and the command that a seam holds (R26) stay as they are. -/
def SeamKept (s t : State) : Prop := t.mem.ptrs = s.mem.ptrs ∧ t.snag.seamHold = s.snag.seamHold

/-- From `s` to `t` these stay, and the step stands where it stood (R144). -/
def StepKept (s t : State) : Prop := SeamKept s t ∧ t.step = s.step ∧ csrGet t rHubStepState = csrGet s rHubStepState

theorem SeamKept.refl (s : State) : SeamKept s s := ⟨rfl, rfl⟩

theorem SeamKept.trans {s t u : State} (h : SeamKept s t) (k : SeamKept t u) : SeamKept s u :=
  ⟨k.1.trans h.1, k.2.trans h.2⟩

theorem SeamKept.ptrs {s t : State} (h : SeamKept s t) : t.mem.ptrs = s.mem.ptrs := h.1

theorem SeamKept.seamHold {s t : State} (h : SeamKept s t) : t.snag.seamHold = s.snag.seamHold := h.2

theorem SeamKept.foldl {α : Type} (f : State → α → State) (h : ∀ s a, SeamKept s (f s a)) (l : List α) (s : State) :
    SeamKept s (l.foldl f s) := by
  induction l generalizing s with
  | nil => exact .refl s
  | cons a r ih => exact (h s a).trans (ih _)

theorem StepKept.refl (s : State) : StepKept s s := ⟨.refl s, rfl, rfl⟩

theorem StepKept.trans {s t u : State} (h : StepKept s t) (k : StepKept t u) : StepKept s u :=
  ⟨h.1.trans k.1, k.2.1.trans h.2.1, k.2.2.trans h.2.2⟩

theorem StepKept.seamKept {s t : State} (h : StepKept s t) : SeamKept s t := h.1

theorem StepKept.foldl {α : Type} (f : State → α → State) (h : ∀ s a, StepKept s (f s a)) (l : List α) (s : State) :
    StepKept s (l.foldl f s) := by
  induction l generalizing s with
  | nil => exact .refl s
  | cons a r ih => exact (h s a).trans (ih _)

theorem StepKept.stepPhase_eq {s t : State} (h : StepKept s t) : stepPhase t = stepPhase s := by
  obtain ⟨-, hstep, hreg⟩ := h
  have hstate : stepState t = stepState s := by rw [stepState, stepState, csrField, csrField, hreg]
  rw [stepPhase, stepPhase, hstate, hstep]

/-! A checked access (R204, R205): memory's bytes and errors, counters, and the Snag list with its flash. -/

theorem csrSetField_stepKept (s : State) {a : Nat} (hi lo v : Nat) (ha : rHubStepState < a) :
    StepKept s (csrSetField s a hi lo v) :=
  ⟨⟨rfl, rfl⟩, rfl, csrGet_put_other _ _ _ _ (Nat.ne_of_lt ha)⟩

theorem csrBump_stepKept (s : State) {a : Nat} (hi lo n : Nat) (ha : rHubStepState < a) :
    StepKept s (csrBump s a hi lo n) := csrSetField_stepKept s hi lo _ ha

theorem snag_stepKept (s : State) {g : SnagSt} (h : g.seamHold = s.snag.seamHold) : StepKept s { s with snag := g } :=
  ⟨⟨rfl, h⟩, rfl, rfl⟩

theorem boot_stepKept (s : State) (b : BootSt) : StepKept s { s with boot := b } := ⟨⟨rfl, rfl⟩, rfl, rfl⟩

theorem snagEvent_stepKept (s : State) (unit : Nat) : StepKept s { s with snag := snagEvent s.snag unit } :=
  snag_stepKept s (snagEvent_seamHold ..)

theorem snagPutEntry_stepKept (s : State) (c : SnagCounter) : StepKept s { s with snag := snagPutEntry s.snag c } :=
  snag_stepKept s (snagPutEntry_seamHold ..)

theorem memStore_stepKept (s : State) (a : Nat) (bs : List Byte) : StepKept s (memStore s a bs) := ⟨⟨rfl, rfl⟩, rfl, rfl⟩

theorem setErrs_stepKept (s : State) (k : Nat) (e : List (Nat × Nat)) : StepKept s (setErrs s k e) := ⟨⟨rfl, rfl⟩, rfl, rfl⟩

theorem noteBad_stepKept (s : State) (ks : List Nat) : StepKept s (noteBad s ks) := ⟨⟨rfl, rfl⟩, rfl, rfl⟩

theorem noteCorr_stepKept (s : State) (kind unit pos : Nat) : StepKept s (noteCorr s kind unit pos) := ⟨⟨rfl, rfl⟩, rfl, rfl⟩

theorem idxClear_stepKept (s : State) (k : Nat) : StepKept s (idxClear s k) := by
  unfold idxClear
  split
  · exact .refl s
  · exact ⟨⟨rfl, rfl⟩, rfl, rfl⟩

theorem commitCopy_stepKept (s : State) (base : Nat) : StepKept s (commitCopy s base) :=
  StepKept.trans (StepKept.foldl (fun t i => flashWrite t (base + 64 * i) (sliceB (stGet [] s.snag.ring i) 0 64))
    (fun _ _ => boot_stepKept ..) s.snag.pending s) ((boot_stepKept ..).trans (boot_stepKept ..))

theorem commitSnag_stepKept (s : State) : StepKept s (commitSnag s) :=
  (((commitCopy_stepKept s _).trans (commitCopy_stepKept _ _)).trans (snag_stepKept _ rfl)).trans
    (csrSetField_stepKept _ _ _ _ (by decide))

theorem snagPush_stepKept (s : State) (bs : List Byte) : StepKept s (snagPush s bs) :=
  (snag_stepKept s rfl).trans (csrSetField_stepKept _ _ _ _ (by decide))

theorem snagRecord_stepKept (s : State) (r : ErrRec) : StepKept s (snagRecord s r) := by
  unfold snagRecord
  split
  · exact (snagPush_stepKept ..).trans (commitSnag_stepKept _)
  · exact snagPush_stepKept ..

theorem retireLater_stepKept (s : State) (unit : Nat) : StepKept s (retireLater s unit) := by
  unfold retireLater
  split
  · exact .refl s
  · exact snag_stepKept s rfl

theorem markPort_stepKept (s : State) (unit : Nat) : StepKept s (markPort s unit) := by
  unfold markPort
  split
  · exact .refl s
  · exact csrSetField_stepKept _ _ _ _ (Nat.lt_add_right _ (by decide))

theorem condemn_stepKept (s : State) (unit : Nat) : StepKept s (condemn s unit) := by
  unfold condemn
  split
  · exact markPort_stepKept ..
  · exact retireLater_stepKept ..

theorem reportEvent_stepKept (s : State) (r : ErrRec) : StepKept s (reportEvent s r) := by
  unfold reportEvent
  dsimp only
  split
  · exact ((snagEvent_stepKept s _).trans (snagRecord_stepKept ..)).trans (condemn_stepKept ..)
  · exact (snagEvent_stepKept s _).trans (snagRecord_stepKept ..)

theorem stepState_lt_pcStatus (st pc : Nat) : rHubStepState < rMemPcStatus + 0x10000 * st + 4 * pc := by
  unfold rHubStepState rMemPcStatus
  omega

theorem countCorrected_stepKept (s : State) (k n : Nat) : StepKept s (countCorrected s k n) := by
  unfold countCorrected
  split
  · exact (csrBump_stepKept _ _ _ _ (Nat.lt_add_right _ (by decide))).trans
      (csrBump_stepKept _ _ _ _ (stepState_lt_pcStatus ..))
  · exact csrBump_stepKept _ _ _ _ (Nat.lt_add_right _ (by decide))
  · exact .refl s

theorem countPoisoned_stepKept (s : State) (k : Nat) : StepKept s (countPoisoned s k) := by
  unfold countPoisoned
  split
  · exact csrBump_stepKept _ _ _ _ (Nat.lt_add_right _ (by decide))
  · exact csrBump_stepKept _ _ _ _ (Nat.lt_add_right _ (by decide))
  · exact .refl s

theorem symbolThreshold_stepKept (s : State) (unit pos : Nat) : StepKept s (symbolThreshold s unit pos) := by
  unfold symbolThreshold
  dsimp only
  split
  · exact ((noteCorr_stepKept ..).trans (reportEvent_stepKept ..)).trans (retireLater_stepKept ..)
  · exact noteCorr_stepKept ..

theorem rowThreshold_stepKept (s : State) (unit row : Nat) (syn : List Byte) : StepKept s (rowThreshold s unit row syn) := by
  unfold rowThreshold
  dsimp only
  split
  · exact ((noteCorr_stepKept ..).trans (snagPutEntry_stepKept ..)).trans (snagRecord_stepKept ..)
  · exact noteCorr_stepKept ..

theorem overlayErrs_stepKept (s : State) (k : Nat) (errs : List (Nat × Nat)) : StepKept s (overlayErrs s k errs) := by
  refine StepKept.foldl _ (fun t e => ?_) _ s
  dsimp only
  split
  · exact memStore_stepKept ..
  · exact .refl _

theorem symbolThresholds_stepKept (s : State) (unit : Nat) (fix : List (Nat × Nat)) :
    StepKept s (fix.foldl (fun t f => symbolThreshold t unit f.1) s) :=
  StepKept.foldl _ (fun _ _ => symbolThreshold_stepKept ..) fix s

theorem correctedRecord_stepKept (s : State) (k n : Nat) (c : SnagCounter) (r : ErrRec) :
    StepKept s (snagRecord { countCorrected s k n with snag := snagPutEntry (countCorrected s k n).snag c } r) :=
  ((countCorrected_stepKept s k n).trans (snagPutEntry_stepKept ..)).trans (snagRecord_stepKept ..)

theorem meetSymbols_stepKept (wb : Bool) (s : State) (k : Nat) : StepKept s (meetSymbols wb s k) := by
  have rewritten (t : State) (e : List (Nat × Nat)) : StepKept t (overlayErrs (setErrs t k []) k e) :=
    (setErrs_stepKept ..).trans (overlayErrs_stepKept ..)
  unfold meetSymbols
  dsimp only
  split
  · split
    · exact .refl s
    · exact rewritten ..
  · split
    · exact (((correctedRecord_stepKept ..).trans (symbolThresholds_stepKept ..)).trans (rowThreshold_stepKept ..)).trans (rewritten ..)
    · exact ((correctedRecord_stepKept ..).trans (symbolThresholds_stepKept ..)).trans (rowThreshold_stepKept ..)
  · exact (countPoisoned_stepKept ..).trans (reportEvent_stepKept ..)

theorem meetIndex_stepKept (wb : Bool) (s : State) (k : Nat) : StepKept s (meetIndex wb s k) := by
  unfold meetIndex
  dsimp only
  split
  · exact .refl s
  · split
    · exact ((countCorrected_stepKept ..).trans (snagRecord_stepKept ..)).trans (idxClear_stepKept ..)
    · exact (countCorrected_stepKept ..).trans (snagRecord_stepKept ..)
  · exact (countPoisoned_stepKept ..).trans (reportEvent_stepKept ..)

theorem meetSector_stepKept (wb : Bool) (s : State) (k : Nat) : StepKept s (meetSector wb s k) := by
  unfold meetSector
  split
  · exact meetIndex_stepKept ..
  · exact (meetSymbols_stepKept ..).trans (meetIndex_stepKept ..)

theorem readMem_stepKept (s : State) (a n : Nat) : StepKept s (readMem s a n).1 := by
  show StepKept s (touchMem s a n).1
  unfold touchMem
  dsimp only
  split
  · exact .refl s
  · have met := StepKept.foldl (fun t k => meetSector (!writeWaits s (64 * k)) t k) (fun _ _ => meetSector_stepKept ..) (badSectors s a n) s
    split
    · exact met
    · exact met.trans (noteBad_stepKept ..)

theorem writeMem_stepKept (s : State) (a : Nat) (bs : List Byte) : StepKept s (writeMem s a bs).1 := by
  unfold writeMem
  dsimp only
  split
  · exact memStore_stepKept ..
  · have written (part whole : List Nat) (keep : List (Nat × List Byte)) :=
      (((StepKept.foldl _ (fun t k => meetSector_stepKept true t k) part s).trans
        (StepKept.foldl (fun t k => idxClear (setErrs t k []) k)
          (fun _ _ => (setErrs_stepKept ..).trans (idxClear_stepKept ..)) whole _)).trans (memStore_stepKept _ a bs)).trans
        (StepKept.foldl (fun t (p : Nat × List Byte) => memStore t (p.1 * 64) p.2) (fun _ _ => memStore_stepKept ..) keep _)
    split
    · exact written _ _ _
    · exact (written _ _ _).trans (noteBad_stepKept ..)

theorem markRetired_stepKept (s : State) (unit : Nat) : StepKept s (markRetired s unit) :=
  snag_stepKept s (snagPutEntry_seamHold ..)

theorem requestTakeover_stepKept (s : State) (unit check : Nat) : StepKept s (requestTakeover s unit check) :=
  ((snagRecord_stepKept s _).trans (csrSetField_stepKept _ _ _ _ (by decide))).trans (boot_stepKept ..)

theorem retirePc_stepKept (s : State) (st pc : Nat) : StepKept s (retirePc s st pc) := by
  have field (t : State) (hi lo v : Nat) : StepKept t (csrSetField t (rMemPcStatus + 0x10000 * st + 4 * pc) hi lo v) :=
    csrSetField_stepKept _ _ _ _ (stepState_lt_pcStatus st pc)
  unfold retirePc
  dsimp only
  split
  · exact .refl s
  · split
    · exact (field ..).trans (requestTakeover_stepKept ..)
    · exact (StepKept.foldl _ (fun t k => meetSector_stepKept true t k) _ s).trans (field ..)

/-! Completions (R326): rings, the replay log, and the answer to the sender. -/

theorem queuePut_seamKept (s : State) (q : Nat) (x : Queue) : SeamKept s (queuePut s q x) := ⟨rfl, rfl⟩

theorem csrSetField_seamKept (s : State) (a hi lo v : Nat) : SeamKept s (csrSetField s a hi lo v) := ⟨rfl, rfl⟩

theorem chip_seamKept (s : State) (c : ChipSt) : SeamKept s { s with chip := c } := ⟨rfl, rfl⟩

theorem stepSt_seamKept (s : State) (x : StepSt) : SeamKept s { s with step := x } := ⟨rfl, rfl⟩

theorem noteOp_seamKept (s : State) (c : Cmd) (st : Nat) : SeamKept s (noteOp s c st) := by
  unfold noteOp
  split
  · exact .refl s
  · exact ⟨rfl, rfl⟩

theorem ringWrite_seamKept (s : State) (q : Nat) (r : Bool) (e : List Byte) : SeamKept s (ringWrite s q r e) := by
  unfold ringWrite
  dsimp only
  split
  · exact queuePut_seamKept ..
  · have written := (writeMem_stepKept s ((queueAt s q).cq + 64 + 32 * ((queueAt s q).tail % ((queueAt s q).depth + 64))) e).seamKept
    split
    · exact written.trans (csrSetField_seamKept ..)
    · exact (written.trans (writeMem_stepKept ..).seamKept).trans (queuePut_seamKept ..)

theorem cmdReply_seamKept (s : State) (o : Origin) (quiet : Bool) (e : List Byte) : SeamKept s (cmdReply s o quiet e) := by
  unfold cmdReply
  split
  · exact .refl s
  · unfold sendAnswer
    split
    · exact .refl s
    · exact ⟨rfl, rfl⟩

theorem report_seamKept (s : State) (c : Cmd) (st fl : Nat) (r : List Byte) : SeamKept s (report s c st fl r) := by
  unfold report
  dsimp only
  split
  · exact noteOp_seamKept ..
  · split
    · have noted (l : List (Nat × Nat)) : SeamKept s (noteOp { s with step := { s.step with silent := l } } c st) :=
        SeamKept.trans ⟨rfl, rfl⟩ (noteOp_seamKept ..)
      split
      · exact (noted _).trans (csrSetField_seamKept ..)
      · exact noted _
    · exact (((queuePut_seamKept ..).trans (ringWrite_seamKept ..)).trans (noteOp_seamKept ..)).trans (cmdReply_seamKept ..)

theorem complete_seamKept (s : State) (c : Cmd) (st fl : Nat) (r : List Byte) : SeamKept s (complete s c st fl r) := by
  have reported (l : List Flight) : SeamKept s { report s c st fl r with flights := l } :=
    (report_seamKept s c st fl r).trans ⟨rfl, rfl⟩
  unfold complete
  dsimp only
  split
  · exact reported _
  · exact (reported _).trans (queuePut_seamKept ..)

theorem finish_seamKept (s : State) (c : Cmd) (st : Nat) : SeamKept s (finish s c st) := complete_seamKept ..

theorem logEntry_seamKept (s : State) (q : Nat) (e : List Byte) : SeamKept s (logEntry s q e) := by
  unfold logEntry
  dsimp only
  split
  · exact SeamKept.trans ⟨rfl, rfl⟩ (writeMem_stepKept ..).seamKept
  · exact SeamKept.trans ⟨rfl, rfl⟩ (csrSetField_seamKept ..)

theorem SeamKept.ite {s t u : State} {p : Prop} [Decidable p] (h : SeamKept s t) (k : SeamKept s u) :
    SeamKept s (if p then t else u) := by
  split
  · exact h
  · exact k

theorem markBegun_seamKept (s : State) (q qseq : Nat) : SeamKept s (markBegun s q qseq) := by
  unfold markBegun
  dsimp only
  split
  · exact .refl s
  · exact SeamKept.ite ((queuePut_seamKept ..).trans (logEntry_seamKept ..)) (queuePut_seamKept ..)

/-! Step replay (R169, R352). -/

theorem replayStep_seamKept (s : State) : SeamKept s (replayStep s) := by
  have moved (u : State) (p : Prop) (d : Decidable p) (h : SeamKept s u) :
      SeamKept s (if p then setStepState u sOpen else setStepState u sReplaying) := SeamKept.ite h h
  exact SeamKept.trans (moved (dropStreams (restoreHawk (discardPending (dropTiles s _)))) _ _ ⟨rfl, rfl⟩) ⟨rfl, rfl⟩

theorem abortOpen_seamKept (s : State) : SeamKept s (abortOpen s) := by
  unfold abortOpen
  dsimp only
  refine SeamKept.trans ?_ (SeamKept.foldl _ (fun t h => ?_) _ _)
  · refine SeamKept.trans ?_ (SeamKept.foldl _ (fun t k => ?_) _ _)
    · exact SeamKept.trans ⟨rfl, rfl⟩ (SeamKept.foldl _ (fun _ _ => finish_seamKept ..) _ _)
    · split
      · exact (markBegun_seamKept ..).trans (finish_seamKept ..)
      · exact .refl t
  · split
    · exact (markBegun_seamKept ..).trans (finish_seamKept ..)
    · exact .refl t

theorem readLog_stepKept (s : State) : StepKept s (readLog s).1 := readMem_stepKept ..

theorem orderReplay_seamKept (s : State) (unit check : Nat) : SeamKept s (orderReplay s unit check) := by
  unfold orderReplay
  dsimp only
  refine (snagRecord_stepKept s (errRec unit check 0 1 6)).seamKept.trans ?_
  split
  · exact .refl _
  · split
    · exact abortOpen_seamKept _
    · refine (readLog_stepKept _).seamKept.trans ?_
      split
      · exact abortOpen_seamKept _
      · exact (stepSt_seamKept ..).trans (replayStep_seamKept _)

/-! Retirement (R352). -/

theorem carryPrograms_seamKept (s : State) (a b : Nat) : SeamKept s (carryPrograms s a b) := by
  unfold carryPrograms blockPut
  dsimp only
  split <;> split <;> exact ⟨rfl, rfl⟩

theorem syncAvail_seamKept (s : State) : SeamKept s (syncAvail s) := csrSetField_seamKept ..

theorem clusterOut_seamKept (s : State) (n check : Nat) : SeamKept s (clusterOut s n check) := by
  unfold clusterOut
  dsimp only
  split
  · exact .refl s
  · split
    · exact (csrSetField_seamKept ..).trans (syncAvail_seamKept _)
    · split
      · split
        · exact (csrSetField_seamKept ..).trans (syncAvail_seamKept _)
        · exact ((((csrSetField_seamKept ..).trans (csrSetField_seamKept ..)).trans (syncAvail_seamKept _)).trans
            (carryPrograms_seamKept ..)).trans (orderReplay_seamKept ..)
      · exact ((csrSetField_seamKept ..).trans (syncAvail_seamKept _)).trans (requestTakeover_stepKept ..).seamKept

theorem retireCluster_seamKept (s : State) (n check : Nat) : SeamKept s (retireCluster s n check) := by
  have marked := (markRetired_stepKept s (unitCluster n 0xFFF)).seamKept
  unfold retireCluster
  dsimp only
  split
  · exact marked.trans (clusterOut_seamKept ..)
  · exact marked.trans ⟨rfl, rfl⟩

theorem takeSpares_seamKept (s : State) (n : Nat) : SeamKept s (takeSpares s n) := by
  unfold takeSpares
  exact SeamKept.trans ⟨rfl, rfl⟩
    (SeamKept.foldl _ (fun _ _ => (csrSetField_seamKept ..).trans (csrSetField_seamKept ..)) _ _)

theorem markCore_seamKept (s : State) (n p : Nat) : SeamKept s (markCore s n p) :=
  (csrSetField_seamKept ..).trans (markRetired_stepKept ..).seamKept

theorem exchangeCore_seamKept (s : State) (n k : Nat) : SeamKept s (exchangeCore s n k) := ⟨rfl, rfl⟩

theorem saveFails_seamKept (s : State) (n p : Nat) : SeamKept s (saveFails s n p) := by
  unfold saveFails
  refine SeamKept.trans ?_ ((snagRecord_stepKept ..).seamKept.trans (orderReplay_seamKept ..))
  exact ⟨rfl, snagEvent_seamHold ..⟩

theorem retireCore_seamKept (s : State) (n p check : Nat) : SeamKept s (retireCore s n p check) := by
  unfold retireCore
  dsimp only
  refine (takeSpares_seamKept s n).trans ?_
  generalize takeSpares s n = t
  have marked (t : State) (k : Nat) : SeamKept t (csrSetField (markCore t n k) (rHubSpare + 4 * n) 5 4 2) :=
    (markCore_seamKept ..).trans (csrSetField_seamKept ..)
  split
  · exact .refl _
  · split
    · exact marked ..
    · split
      · split
        · refine (chip_seamKept t _).trans ((markCore_seamKept _ n _).trans ((marked _ p).trans (retireCluster_seamKept ..)))
        · exact saveFails_seamKept ..
      · split
        · exact ((markCore_seamKept ..).trans (exchangeCore_seamKept _ n _)).trans (csrSetField_seamKept ..)
        · exact (markCore_seamKept ..).trans (retireCluster_seamKept ..)

theorem retireUnit_seamKept (s : State) (unit check : Nat) : SeamKept s (retireUnit s unit check) := by
  have marked := (markRetired_stepKept s unit).seamKept
  have later := marked.trans (retireLater_stepKept _ unit).seamKept
  have takeover := marked.trans (requestTakeover_stepKept _ unit check).seamKept
  unfold retireUnit
  dsimp only
  split
  · exact marked.trans (retireCore_seamKept ..)
  · exact retireCore_seamKept ..
  · split
    · exact later
    · split
      · exact takeover
      · exact retireCluster_seamKept ..
  · split
    · exact takeover
    · exact later
  · exact marked.trans (markPort_stepKept ..).seamKept
  · exact ((csrSetField_seamKept ..).trans (markRetired_stepKept ..).seamKept).trans (requestTakeover_stepKept ..).seamKept
  · split
    · exact later
    · exact takeover

theorem decideEvent_seamKept (s : State) (r : ErrRec) (recurs : Bool) : SeamKept s (decideEvent s r recurs) := by
  unfold decideEvent
  dsimp only
  refine SeamKept.trans (t := { s with snag := snagEvent s.snag r.unit, step := { s.step with met := s.step.met ++ [(r.unit, r.check, r.op)] } })
    ⟨rfl, snagEvent_seamHold ..⟩ ?_
  split
  · exact (snagRecord_stepKept ..).seamKept.trans (retireUnit_seamKept ..)
  · exact (snagRecord_stepKept ..).seamKept

/-! The end of a seam (R168): telemetry, counters, the ledger and the mirror. -/

theorem coreSection_seamKept (s : State) (pc : Nat) : SeamKept s (coreSection s pc).1 := by
  have taken (l : List Nat) (r : State × List Byte) :
      SeamKept r.1 (l.foldl (fun r _ => ((takeFree r.1).2, r.2 ++ leBytes 4 (takeFree r.1).1)) r).1 := by
    induction l generalizing r with
    | nil => exact .refl _
    | cons a l ih => exact SeamKept.trans ⟨rfl, rfl⟩ (ih _)
  exact taken ..

theorem coreSections_seamKept (l : List Nat) (s : State) : SeamKept s (coreSections l s).1 := by
  induction l generalizing s with
  | nil => exact .refl s
  | cons k r ih => exact (coreSection_seamKept ..).trans (ih _)

theorem bgHeld_seamKept (s : State) (l : List (List Byte)) : SeamKept s { s with mem := { s.mem with bgHeld := l } } := ⟨rfl, rfl⟩

theorem telWrite_seamKept (l : List (List Byte)) (s : State) : SeamKept s (telWrite l s) := by
  induction l generalizing s with
  | nil => exact ⟨rfl, rfl⟩
  | cons d r ih =>
    unfold telWrite
    dsimp only
    split
    · exact ⟨rfl, rfl⟩
    · split
      · exact ((writeMem_stepKept ..).seamKept.trans (csrSetField_seamKept ..)).trans (ih _)
      · exact ((writeMem_stepKept ..).seamKept.trans (stepSt_seamKept ..)).trans (ih _)

theorem writeTelemetry_seamKept (s : State) (outcome : Nat) : SeamKept s (writeTelemetry s outcome) := by
  unfold writeTelemetry
  split
  · exact .refl s
  · exact (((coreSections_seamKept _ s).trans (stepSt_seamKept ..)).trans (bgHeld_seamKept ..)).trans (telWrite_seamKept ..)

theorem clearRegs_seamKept (s : State) (lo hi : Nat) : SeamKept s (clearRegs s lo hi) := ⟨rfl, rfl⟩

theorem csrPut_seamKept (s : State) (a v : Nat) : SeamKept s (csrPut s a v) := ⟨rfl, rfl⟩

theorem clearCounters_seamKept (s : State) : SeamKept s (clearCounters s) := by
  unfold clearCounters
  dsimp only
  refine SeamKept.trans ?_ ((((clearRegs_seamKept ..).trans (clearRegs_seamKept ..)).trans (csrPut_seamKept ..)).trans (csrPut_seamKept ..))
  refine SeamKept.trans ?_ (SeamKept.foldl _ (fun _ _ => clearRegs_seamKept ..) _ _)
  refine SeamKept.trans ?_ (SeamKept.foldl _ (fun _ _ => clearRegs_seamKept ..) _ _)
  exact SeamKept.foldl _ (fun _ _ => ((clearRegs_seamKept ..).trans (clearRegs_seamKept ..)).trans (clearRegs_seamKept ..)) _ s

theorem digestEvent_seamKept (s : State) (k : Nat) : SeamKept s (digestEvent s k) := by
  unfold digestEvent
  dsimp only
  split
  · exact decideEvent_seamKept ..
  · split
    · exact (requestTakeover_stepKept ..).seamKept
    · split
      · exact (snagRecord_stepKept ..).seamKept
      · exact .refl s

theorem sendPkt_seamKept (s : State) (o : ScrimOp) (k : TxPkt) (idx : Nat) : SeamKept s (sendPkt s o k idx) := by
  unfold sendPkt
  dsimp only
  split
  · exact .refl s
  · exact ⟨rfl, rfl⟩

theorem issueOp_seamKept (s : State) (owner : OpOwner) (id kind peer chan cls addr : Nat) (data : List Byte) (len : Nat) :
    SeamKept s (issueOp s owner id kind peer chan cls addr data len).1 := by
  unfold issueOp issueOrWait
  split
  · exact .refl s
  · split
    · exact ⟨rfl, rfl⟩
    · exact SeamKept.trans ⟨rfl, rfl⟩ (SeamKept.foldl _ (fun _ _ => sendPkt_seamKept ..) _ _)

theorem pieceBytes_seamKept (s : State) (a n : Nat) : SeamKept s (pieceBytes s a n).1 := by
  unfold pieceBytes
  split
  · exact .refl s
  · exact (readMem_stepKept ..).seamKept

theorem mirrorStop_seamKept (s : State) : SeamKept s (mirrorStop s) :=
  (snag_stepKept s rfl).seamKept.trans (csrSetField_seamKept ..)

theorem sentPiece_seamKept {s : State} {g : SnagSt} (h : g.seamHold = s.snag.seamHold) (owner : OpOwner)
    (id kind peer chan cls addr : Nat) (data : List Byte) (len : Nat) :
    SeamKept s (issueOp { s with snag := g } owner id kind peer chan cls addr data len).1 :=
  (snag_stepKept s h).seamKept.trans (issueOp_seamKept ..)

theorem mirrorPump_seamKept (s : State) : SeamKept s (mirrorPump s) := by
  unfold mirrorPump
  dsimp only
  split
  · split
    · exact .refl s
    · split
      · exact (pieceBytes_seamKept ..).trans (mirrorStop_seamKept _)
      · split
        · exact (pieceBytes_seamKept ..).trans (sentPiece_seamKept (by rfl) ..)
        · exact ((pieceBytes_seamKept ..).trans (sentPiece_seamKept (by rfl) ..)).trans (mirrorStop_seamKept _)
  · exact .refl s

theorem writeLedger_seamKept (s : State) (outcome : Nat) : SeamKept s (writeLedger s outcome) := by
  have copied (t : State) (i : Nat) (e : List Byte) (cls : Nat) : SeamKept t (copyLedger t i e cls) := by
    unfold copyLedger
    split
    · exact .refl t
    · split
      · exact .refl t
      · exact issueOp_seamKept ..
  unfold writeLedger
  split
  · exact .refl s
  · exact (((writeMem_stepKept ..).seamKept.trans (csrSetField_seamKept ..)).trans (csrSetField_seamKept ..)).trans (copied ..)

theorem startMirror_seamKept (s : State) (committed : Bool) : SeamKept s (startMirror s committed) := by
  unfold startMirror
  dsimp only
  split
  · exact .refl s
  · split
    · exact csrSetField_seamKept ..
    · exact ((snag_stepKept s (by rfl)).seamKept.trans (csrSetField_seamKept ..)).trans (mirrorPump_seamKept _)

theorem setPhase_seamKept (s : State) (v : Nat) : SeamKept s (setPhase s v) := SeamKept.ite ⟨rfl, rfl⟩ ⟨rfl, rfl⟩

/-- The seam's end puts every pointer back to 0 (R30), and nothing after that moves one. -/
theorem seamTail_ptrs (s : State) (c : Cmd) : (seamTail s c).mem.ptrs = [] := by
  unfold seamTail
  extract_lets outcome m cleared digest norm sampled decided mirrored marked stepSt closed
  have h1 : SeamKept cleared decided :=
    ((writeTelemetry_seamKept ..).trans (clearCounters_seamKept _)).trans (digestEvent_seamKept ..)
  have h2 : SeamKept cleared mirrored :=
    SeamKept.ite h1 ((h1.trans (writeLedger_seamKept ..)).trans (startMirror_seamKept ..))
  have h3 : SeamKept cleared marked := (h2.trans (csrSetField_seamKept ..)).trans (csrSetField_seamKept ..)
  have h4 : SeamKept cleared closed := (h3.trans (stepSt_seamKept ..)).trans (setPhase_seamKept ..)
  exact (h4.trans (finish_seamKept ..)).ptrs

/-! A record of the Snag list (R353, R354). -/

/-- From `s` to `t` one record of the Snag list was written: the list is one longer and its clock, the tests
and the seam's own books stand; of the registers SNG_STATUS alone may differ; memory, engines and plumb time are as they were. -/
structure Recorded (s t : State) : Prop where
  mem : t.mem = s.mem
  chip : t.chip = s.chip
  time : t.time = s.time
  written : t.snag.written = s.snag.written + 1
  testing : t.snag.testing = s.snag.testing
  snagTime : t.snag.time = s.snag.time
  csrGet_eq : ∀ a, a ≠ rSngStatus → csrGet t a = csrGet s a

theorem commitCopy_flash (s : State) (base : Nat) : ∃ f, commitCopy s base = { s with boot := { s.boot with flash := f } } := by
  have copied (l : List Nat) (t : State) : ∃ f, l.foldl (fun t i => flashWrite t (base + 64 * i) (sliceB (stGet [] s.snag.ring i) 0 64)) t
      = { t with boot := { t.boot with flash := f } } := by
    induction l generalizing t with
    | nil => exact ⟨t.boot.flash, rfl⟩
    | cons i r ih =>
      obtain ⟨f, hf⟩ := ih (flashWrite t (base + 64 * i) (sliceB (stGet [] s.snag.ring i) 0 64))
      exact ⟨f, hf⟩
  obtain ⟨f, hf⟩ := copied s.snag.pending s
  unfold commitCopy
  dsimp only
  rw [hf]
  exact ⟨_, rfl⟩

theorem commitSnag_flash (s : State) : ∃ f, commitSnag s = csrSetField { s with
    snag := { s.snag with pending := [], retryAt := 0 }, boot := { s.boot with flash := f } } rSngStatus 13 0 0 := by
  obtain ⟨f, hf⟩ := commitCopy_flash s s.boot.snagAt
  obtain ⟨g, hg⟩ := commitCopy_flash (commitCopy s s.boot.snagAt) (s.boot.snagAt + 0x200000)
  unfold commitSnag
  dsimp only
  rw [hg, hf]
  exact ⟨g, rfl⟩

theorem snagPush_recorded (s : State) (bs : List Byte) : Recorded s (snagPush s bs) :=
  ⟨rfl, rfl, rfl, rfl, rfl, rfl, fun _ ha => csrGet_put_other _ _ _ _ ha⟩

theorem snagRecord_recorded (s : State) (r : ErrRec) : Recorded s (snagRecord s r) := by
  have pushed := snagPush_recorded s (r.toBytes s)
  unfold snagRecord snagAppend
  dsimp only
  split
  · obtain ⟨f, hf⟩ := commitSnag_flash (snagPush s (r.toBytes s))
    rw [hf]
    exact ⟨pushed.mem, pushed.chip, pushed.time, pushed.written, pushed.testing, pushed.snagTime,
      fun a ha => (csrGet_put_other _ _ _ _ ha).trans (pushed.csrGet_eq a ha)⟩
  · exact pushed

end Sys2Proof.Machine
end

section
/-! PROOF. The arbiters' grants, and memory's own commands (R29, R30, R156, R195, R206, R207, R212, R215). -/

namespace Sys2Proof.Machine

/-! A grant (R29, R30). -/

/-- A most urgent class: it is among those asked for, and below each of them. -/
theorem foldl_min_least (k : Nat) (ks : List Nat) :
    ks.foldl min k ∈ k :: ks ∧ ∀ b ∈ k :: ks, ks.foldl min k ≤ b :=
  List.min?_eq_some_iff.1 List.min?_cons'

/-- The round that starts at a pointer comes to every requester. -/
theorem round_reaches {n j : Nat} (p : Nat) (hj : j < n) : (p + (j + n - p % n) % n) % n = j := by
  have hp : p % n < n := Nat.mod_lt _ (by omega)
  calc (p + (j + n - p % n) % n) % n
      = (p % n + (j + n - p % n)) % n := by simp [Nat.add_mod]
    _ = (j + n) % n := by congr 1; omega
    _ = j := by rw [Nat.add_mod_right, Nat.mod_eq_of_lt hj]

/-- A requester's place in that round is told by its number. -/
theorem round_place {n i : Nat} (p : Nat) (hi : i < n) : ((p + i) % n + n - p % n) % n = i := by
  have hp : p % n < n := Nat.mod_lt _ (by omega)
  rw [Nat.add_mod p i n, Nat.mod_eq_of_lt hi]
  rcases Nat.lt_or_ge (p % n + i) n with h | h
  · rw [Nat.mod_eq_of_lt h, show p % n + i + n - p % n = i + n by omega, Nat.add_mod_right, Nat.mod_eq_of_lt hi]
  · have hlt : p % n + i - n < n := by omega
    rw [Nat.mod_eq_sub_mod h, Nat.mod_eq_of_lt hlt, show p % n + i - n + n - p % n = i by omega, Nat.mod_eq_of_lt hi]

/-- The arbiters' pointers replaced. -/
def withPtrs (s : State) (p : Store Nat) : State := { s with mem := { s.mem with ptrs := p } }

@[simp] theorem withPtrs_ptrs (s : State) (p : Store Nat) : (withPtrs s p).mem.ptrs = p := rfl

theorem withPtrs_back (s : State) (p : Store Nat) : withPtrs (withPtrs s p) s.mem.ptrs = s := rfl

/-- A grant with requesters: the most urgent class, and of it the first of the round. -/
theorem grant_some (s : State) (base n : Nat) {reqs : List (Nat × Nat)} (hne : reqs ≠ []) (hlt : ∀ r ∈ reqs, r.1 < n) :
    ∃ cls i, i < n ∧ (∀ r ∈ reqs, cls ≤ r.2) ∧ ((stGet 0 s.mem.ptrs (base * 8 + cls) + i) % n, cls) ∈ reqs
      ∧ (∀ m, m < i → ((stGet 0 s.mem.ptrs (base * 8 + cls) + m) % n, cls) ∉ reqs)
      ∧ grant s base n reqs = some ((stGet 0 s.mem.ptrs (base * 8 + cls) + i) % n, withPtrs s (stSet 0 s.mem.ptrs (base * 8 + cls)
          (((stGet 0 s.mem.ptrs (base * 8 + cls) + i) % n + 1) % n))) := by
  obtain ⟨k, ks, hks⟩ : ∃ k ks, reqs.map (·.2) = k :: ks := List.exists_cons_of_ne_nil (by simpa using hne)
  obtain ⟨hmem, hle⟩ := foldl_min_least k ks
  rw [← hks] at hmem hle
  obtain ⟨⟨j, cls⟩, hj, hcls⟩ := List.mem_map.1 hmem
  have hjn : j < n := hlt _ hj
  simp only at hcls
  refine ⟨cls, ?_⟩
  unfold grant
  simp only [hks, ← hcls]
  rw [← hcls] at hle
  generalize stGet 0 s.mem.ptrs (base * 8 + cls) = p
  rw [List.find?_map]
  cases hfind : (List.range n).find? ((fun j => reqs.contains (j, cls)) ∘ fun i => (p + i) % n) with
  | none =>
    have hno := List.find?_eq_none.1 hfind ((j + n - p % n) % n) (List.mem_range.2 (Nat.mod_lt _ (by omega)))
    simp [round_reaches p hjn, hj] at hno
  | some i =>
    obtain ⟨hi, hin, hfirst⟩ := List.find?_range_eq_some.1 hfind
    exact ⟨i, List.mem_range.1 hin, fun r hr => hle _ (List.mem_map_of_mem hr), by simpa using hi,
      fun m hm => by simpa using hfirst m hm, rfl⟩

theorem grant_nil (s : State) (base n : Nat) : grant s base n [] = none := rfl

/-- What a grant does (R29, R30), the round told from the pointer on. -/
theorem grant_serves_round (s : State) (base n : Nat) (reqs : List (Nat × Nat)) (hne : reqs ≠ []) (hlt : ∀ r ∈ reqs, r.1 < n) :
    ∃ j cls t, grant s base n reqs = some (j, t) ∧ (j, cls) ∈ reqs ∧ (∀ r ∈ reqs, cls ≤ r.2)
      ∧ (∀ i, i < (j + n - stGet 0 s.mem.ptrs (base * 8 + cls) % n) % n →
          ((stGet 0 s.mem.ptrs (base * 8 + cls) + i) % n, cls) ∉ reqs)
      ∧ (∀ k, stGet 0 t.mem.ptrs k = if k = base * 8 + cls then (j + 1) % n else stGet 0 s.mem.ptrs k)
      ∧ withPtrs t s.mem.ptrs = s := by
  obtain ⟨cls, i, hi, hle, hmem, hfirst, hg⟩ := grant_some s base n hne hlt
  refine ⟨_, cls, _, hg, hmem, hle, ?_, fun k => ?_, withPtrs_back ..⟩
  · rw [round_place _ hi]
    exact hfirst
  · rw [withPtrs_ptrs, stGet_set]

/-! The pointers at release and at a seam's end (R30). -/

theorem SameUnits.ready_eq {s t : State} (h : SameUnits s t) : t.boot.ready = s.boot.ready := by
  obtain ⟨-, -, -, -, -, -, -, -, -, -, -, -, -, hboot, -⟩ := h
  rw [hboot]

theorem bootEvent_ready (s : State) (severity : Nat) : (bootEvent s severity).boot.ready = s.boot.ready :=
  (snagRecord_books ..).1.ready_eq

theorem toSafe_notReady (s : State) (cause : Nat) : (toSafe s cause).boot.ready = false := by
  unfold toSafe
  extract_lets s1 s2 mac sp power net boot t
  rw [bootEvent_ready]

theorem burnSvn_mem (s : State) : (burnSvn s).mem = s.mem := by
  unfold burnSvn
  dsimp only
  split <;> rfl

/-- A release that asserts READY leaves memory as it is after reset. -/
theorem releaseState_mem {r : BootReport} {s : State} (hs : s.boot.ready = false) (hready : (releaseState r s).boot.ready = true) :
    (releaseState r s).mem = mem0 := by
  revert hready
  unfold releaseState
  split
  · simp [hs]
  · split
    · simp [toSafe_notReady]
    · extract_lets trained failed mapped up
      split
      · simp [toSafe_notReady]
      · exact fun _ => burnSvn_mem _

theorem seamRest_ptrs {s : State} (c : Cmd) (h : seamWaits (seamTests (seamRetires s)) = false) :
    (seamRest s c).mem.ptrs = [] := by
  have hgo : seamRest s c = seamTail (seamTests (seamRetires s)) c := if_neg (by simp [h])
  rw [hgo, seamTail_ptrs]

/-! The schedulers (R195, R215). -/

/-- The queue of pseudo-channel scheduler `k` replaced. -/
def withMemQueue (s : State) (k : Nat) (q : List MemReq) : State :=
  { s with mem := { s.mem with queues := stSet [] s.mem.queues k q } }

/-- The queue of capacity controller `k` replaced. -/
def withTierQueue (s : State) (k : Nat) (q : List MemReq) : State :=
  { s with mem := { s.mem with tierQ := stSet [] s.mem.tierQ k q } }

theorem sectorGrantState_grants {s t : State} {stack pc : Nat} {r : MemReq} {rest : List MemReq} (hst : stack < 8) (hpc : pc < 64)
    (h : grantReq s (stack * 64 + pc) 7 (fun r => if r.kind = 4 then 5 else if r.src < 4 then r.src else stack / 2)
      (fun r => decide (r.cls < 4) || !caseHot s stack) (stGet [] s.mem.queues (stack * 64 + pc)) = some (r, rest, t)) :
    sectorGrantState stack pc s = memServed (withMemQueue t (stack * 64 + pc) rest) r := by
  have hrow : ¬(8 ≤ stack ∨ 64 ≤ pc) := by omega
  simp only [sectorGrantState, if_neg hrow, h]
  rfl

theorem capacityAccessState_grants {s t : State} {ctl : Nat} {r : MemReq} {rest : List MemReq} (hctl : ctl < 8)
    (h : grantReq s (600 + ctl) 4 (fun _ => 0) (fun _ => true) (stGet [] s.mem.tierQ ctl) = some (r, rest, t)) :
    capacityAccessState ctl s = memServed (withTierQueue t ctl rest) r := by
  have hrow : ¬ 8 ≤ ctl := by omega
  simp only [capacityAccessState, if_neg hrow, h]
  rfl

/-! Refresh and the scrubber (R206, R212). -/

/-- The tick of a bank's last refresh noted. -/
def noteRefresh (s : State) (k : Nat) : State :=
  { s with mem := { s.mem with refreshed := stSet 0 s.mem.refreshed k s.plumb } }

theorem refreshState_notes {s : State} {stack pc bank : Nat} (hst : stack < 8) (hpc : pc < 64) (hbank : bank < 256)
    (hr : released s = true) :
    ∃ p, refreshState stack pc bank s = noteRefresh (withPtrs s p) ((stack * 64 + pc) * 256 + bank) := by
  obtain ⟨cls, i, -, -, -, -, hg⟩ := grant_some s (stack * 64 + pc) 7 (reqs := [(6, 0)]) (by simp) (by simp)
  have hrow : ¬(8 ≤ stack ∨ 64 ≤ pc ∨ (!released s) = true) := by
    simp only [hr, Bool.not_true, Bool.false_eq_true, or_false]
    omega
  simp only [refreshState, if_neg hrow, hg, Nat.mod_eq_of_lt hbank]
  exact ⟨_, rfl⟩

/-- A scrubber of a pseudo-channel moved on to its next sector. -/
def scrubOn (s : State) (k : Nat) : State :=
  { s with mem := { s.mem with scrub := stSet 0 s.mem.scrub k ((stGet 0 s.mem.scrub k + 1) % 2 ^ 24) } }

/-- Where no cell has lost anything, memory without errors stays so. -/
theorem cellFlips_clean {s : State} (h : CleanMem s) (k : Nat) : cellFlips s k [] = s := by
  obtain ⟨herrs, hidx⟩ := h
  have hset : setErrs s k (sectorErrs s k) = s := by
    simp only [setErrs, sectorErrs, herrs, stGet, stSet, stErase, if_true, List.filter_nil]
    rw [← herrs]
  simp only [cellFlips, List.filter_nil, List.foldl_nil, hset]
  split
  · rfl
  · simp [hidx, stGet, stSet, stErase]
    simp [← hidx]

theorem patrolScrubState_clean {s : State} {stack pc : Nat} (hst : stack < 8) (hpc : pc < 64) (hr : released s = true) (h : CleanMem s) :
    patrolScrubState stack pc [] s = scrubOn s (stack * 64 + pc) := by
  have hrow : ¬(9 ≤ stack ∨ 64 ≤ pc ∨ (stack = 8 ∧ 8 ≤ pc) ∨ (!released s) = true) := by
    simp only [hr, Bool.not_true, Bool.false_eq_true, or_false]
    omega
  have hclean : CleanMem (scrubOn s (stack * 64 + pc)) := h
  simp only [patrolScrubState, if_neg hrow, if_neg (show stack ≠ 8 by omega)]
  split
  · rfl
  · rename_i a _
    have hread : cellFlips (scrubOn s (stack * 64 + pc)) (a / 64) [] = _ := cellFlips_clean hclean (a / 64)
    have hbad : badSectors (scrubOn s (stack * 64 + pc)) a 64 = [] := badSectors_clean hclean ..
    unfold scrubOn at hread hbad
    rw [hread, hbad]
    rfl

/-! Retirement of a pseudo-channel (R207). -/

/-- An order to retire a unit taken off the list. -/
def dropRetire (s : State) (unit : Nat) : State :=
  { s with snag := { s.snag with retires := s.snag.retires.filter (· != unit) } }

theorem dropRetire_stepKept (s : State) (unit : Nat) : StepKept s (dropRetire s unit) := snag_stepKept s rfl

/-- Between steps a retirement moves the unit's traffic and orders no replay. -/
theorem pseudoChannelRetirementState_between {s : State} {stack pc : Nat} (hst : stack < 8) (hpc : pc < 64)
    (hin : unitMem stack pc 0 ∈ s.snag.retires) (hq : stackQuiet s stack = true) (hopen : stepPhase s ≠ sOpen)
    (hdec : stepPhase s ≠ sDeciding) :
    pseudoChannelRetirementState stack pc s
      = retirePc (markRetired (dropRetire s (unitMem stack pc 0)) (unitMem stack pc 0)) stack pc := by
  have hrow : ¬(8 ≤ stack ∨ 64 ≤ pc ∨ (!s.snag.retires.contains (unitMem stack pc 0)) = true ∨ (!stackQuiet s stack) = true) := by
    simp only [List.contains_iff_mem.2 hin, hq, Bool.not_true, Bool.false_eq_true, or_false]
    omega
  have hphase : stepPhase (retirePc (markRetired (dropRetire s (unitMem stack pc 0)) (unitMem stack pc 0)) stack pc) = stepPhase s :=
    (((dropRetire_stepKept ..).trans (markRetired_stepKept ..)).trans (retirePc_stepKept ..)).stepPhase_eq
  exact (if_neg hrow).trans (if_neg (by rw [← dropRetire, hphase]; exact not_or.2 ⟨hopen, hdec⟩))

/-! Migration of a Hawk unit (R156). -/

theorem portGrant_ptrs (s : State) (a port tport cls : Nat) : ∃ p, portGrant s a port tport cls = withPtrs s p := by
  unfold portGrant
  dsimp only
  split
  · exact ⟨_, rfl⟩
  · exact ⟨_, rfl⟩
  · exact ⟨s.mem.ptrs, rfl⟩

/-- A Hawk unit of the overflow part read from its staging place from now on. -/
def migrateUnit (s : State) (mb unit staging : Nat) : State :=
  hawkPut s mb { hawkOf s mb with migrated := stSet 0 (hawkOf s mb).migrated unit (staging + 1) }

theorem hawkOf_migrateUnit (s : State) (mb unit staging : Nat) :
    hawkOf (migrateUnit s mb unit staging) mb = { hawkOf s mb with migrated := stSet 0 (hawkOf s mb).migrated unit (staging + 1) } :=
  stGet_set_self ..

theorem hawkAddr_withPtrs (s : State) (p : Store Nat) (m o : Nat) : hawkAddr (withPtrs s p) m o = hawkAddr s m o := rfl

theorem memBytes_withPtrs (s : State) (p : Store Nat) (a n : Nat) : memBytes (withPtrs s p) a n = memBytes s a n := rfl

theorem hawkOf_withPtrs (s : State) (p : Store Nat) (m : Nat) : hawkOf (withPtrs s p) m = hawkOf s m := rfl

theorem hawkOf_memStore (s : State) (a : Nat) (bs : List Byte) (m : Nat) : hawkOf (memStore s a bs) m = hawkOf s m := rfl

/-- A migration that nothing holds copies the unit, over memory without errors. -/
theorem hawkMigrationState_copies {s : State} {mb unit staging : Nat} (hmb : mb < 16) (hr : released s = true) (hshed : shedLevel s < 2)
    (hover : (rangeOf s.job.hawkHbm mb).len ≤ unit * 4096) (halign : staging % 4096 = 0) (hinter : inInterleaved s staging 4096 = true)
    (hlower : lowerWaits s 4 = false) (hcase : caseHolds s (hawkAddr s mb (unit * 4096)) 4096 = false)
    (hcase' : caseHolds s staging 4096 = false) (hfresh : stGet 0 (hawkOf s mb).migrated unit = 0)
    (hframe : ∃ f ∈ (hawkOf s mb).frames, f.start ≤ unit ∧ unit < f.start + f.length) (hclean : CleanMem s) :
    ∃ p, hawkMigrationState mb unit staging s
      = migrateUnit (memStore (withPtrs s p) staging (memBytes s (hawkAddr s mb (unit * 4096)) 4096)) mb unit staging := by
  have hany : (hawkOf s mb).frames.any (fun f => decide (f.start ≤ unit) && decide (unit < f.start + f.length)) = true := by
    simpa using hframe
  have hrow : ¬(16 ≤ mb ∨ (!released s) = true ∨ 2 ≤ shedLevel s ∨ unit * 4096 < (rangeOf s.job.hawkHbm mb).len ∨ staging % 4096 ≠ 0
      ∨ (!inInterleaved s staging 4096) = true ∨ lowerWaits s 4 = true ∨ caseHolds s (hawkAddr s mb (unit * 4096)) 4096 = true
      ∨ caseHolds s staging 4096 = true ∨ stGet 0 (hawkOf s mb).migrated unit ≠ 0
      ∨ (!(hawkOf s mb).frames.any (fun f => decide (f.start ≤ unit) && decide (unit < f.start + f.length))) = true) := by
    simp only [hr, hinter, hlower, hcase, hcase', hfresh, hany, halign, Bool.not_true, Bool.false_eq_true, ne_eq, not_true,
      or_false, false_or]
    omega
  obtain ⟨p, hp⟩ := portGrant_ptrs s (hawkAddr s mb (unit * 4096)) 0 2 4
  have hclean' : CleanMem (withPtrs s p) := hclean
  refine ⟨p, ?_⟩
  have hread : readMem (withPtrs s p) (hawkAddr s mb (unit * 4096)) 4096
      = (withPtrs s p, some (memBytes s (hawkAddr s mb (unit * 4096)) 4096)) := by
    rw [readMem_clean hclean', memBytes_withPtrs]
  have hcopied : hawkMigrationState mb unit staging s
      = hawkPut (memStore (withPtrs s p) staging (memBytes s (hawkAddr s mb (unit * 4096)) 4096)) mb
          { hawkOf s mb with migrated := stSet 0 (hawkOf s mb).migrated unit (staging + 1) } := by
    simp only [hawkMigrationState, if_neg hrow, hp, hawkAddr_withPtrs, hread, writeMem_clean hclean']
  rw [hcopied, migrateUnit, hawkOf_memStore, hawkOf_withPtrs]

theorem memBytes_length (s : State) (a n : Nat) : (memBytes s a n).length = n := by simp [memBytes]

/-- Settles O37: the round of R30, READY and the seam's end from which the pointers start at 0, and one row of
memory's own commands at a time. -/
theorem memoryGrantsAndCommands : Obligations.MemoryGrantsAndCommands := by
  refine ⟨⟨?grant, grant_nil, ?release, ?seam⟩, ?sectorGrant, ?capacityAccess, ?refresh, ?scrub, ?retirement, ?migration⟩
  case grant => exact fun s base n reqs _ hne hlt => grant_serves_round s base n reqs hne hlt
  case release =>
    intro s u r hs hu hready k
    have hnot : s.boot.ready = false := by
      simp only [starting, Bool.and_eq_true, Bool.not_eq_true'] at hs
      obtain ⟨⟨⟨-, hnot⟩, -⟩, -⟩ := hs
      exact hnot
    cases hu
    rw [releaseState_mem hnot hready]
    rfl
  case seam =>
    intro s c k h
    rw [seamRest_ptrs c h]
    rfl
  case sectorGrant =>
    intro s t stack pc r rest hst hpc h
    exact ⟨withMemQueue t (stack * 64 + pc) rest, congrArg Host.Outcome.next (sectorGrantState_grants hst hpc h), stGet_set_self .., rfl, rfl⟩
  case capacityAccess =>
    intro s t ctl r rest hctl h
    exact ⟨withTierQueue t ctl rest, congrArg Host.Outcome.next (capacityAccessState_grants hctl h), stGet_set_self .., rfl⟩
  case refresh =>
    intro s stack pc bank hst hpc hbank hr
    obtain ⟨p, hp⟩ := refreshState_notes hst hpc hbank hr
    exact ⟨_, congrArg Host.Outcome.next hp, stGet_set_self .., rfl⟩
  case scrub =>
    intro s stack pc hst hpc hr hclean
    exact ⟨_, congrArg Host.Outcome.next (patrolScrubState_clean hst hpc hr hclean), rfl, stGet_set_self ..⟩
  case retirement =>
    intro s stack pc hst hpc hin hq hopen hdec
    exact ⟨_, _, congrArg Host.Outcome.next (pseudoChannelRetirementState_between hst hpc hin hq hopen hdec), rfl, rfl⟩
  case migration =>
    intro s mb unit staging hmb hr hshed hover halign hinter hlower hcase hcase' hfresh hframe hclean
    obtain ⟨p, hp⟩ := hawkMigrationState_copies hmb hr hshed hover halign hinter hlower hcase hcase' hfresh hframe hclean
    refine ⟨_, congrArg Host.Outcome.next hp, ?_, ?_, ?_, fun a ha => ?_⟩
    · rw [hawkOf_migrateUnit, stGet_set_self]
    · rw [hawkOf_migrateUnit, hawkOf_memStore, hawkOf_withPtrs]
    · have h := memBytes_store (withPtrs s p) staging (memBytes s (hawkAddr s mb (unit * 4096)) 4096)
      rwa [memBytes_length] at h
    · have h := memByte_store (withPtrs s p) staging (memBytes s (hawkAddr s mb (unit * 4096)) 4096) a
      rw [memBytes_length, if_neg (by omega)] at h
      exact h

end Sys2Proof.Machine
end

section
/-! PROOF. Background windows start and end (R33, R310); ports come up and go down (R245, R270, R300). -/

namespace Sys2Proof.Machine

/-! Background windows (R33, R310). -/

/-- A window opened to end at a tick. -/
def openWindow (s : State) (w tick : Nat) : State := { s with time := { s.time with winOpen := s.time.winOpen ++ [4 * tick + w] } }

/-- The windows of a number whose end tick has come closed. -/
def closeWindow (s : State) (w : Nat) : State :=
  { s with time := { s.time with winOpen := s.time.winOpen.filter (fun x => !(x % 4 == w && decide (x / 4 ≤ s.plumb))) } }

theorem windowStartState_starts {s : State} {w : Nat} (hshed : shedDue s = false) (hlaunch : launchAhead s 8 = false)
    (hstart : winStarts s w = true) (hend : winEndDue s = false) :
    windowStartState w s = pumpOps (mirrorPump (telFlush
      (openWindow s w (s.plumb + 256 * fieldOf (csrGet s (rPlbWinCtrl + 8 * w)) 23 0)))) :=
  if_neg (by simp [hshed, hlaunch, hstart, hend])

theorem windowStartState_idle {s : State} {w : Nat} (h : winStarts s w = false) : windowStartState w s = s :=
  if_pos (by simp [h])

theorem windowEndState_closes {s : State} (w : Nat) (hshed : shedDue s = false) (hlaunch : launchAhead s 8 = false) :
    windowEndState w s = closeWindow s w :=
  if_neg (by simp [hshed, hlaunch])

theorem mem_closeWindow (s : State) (w x : Nat) :
    x ∈ (closeWindow s w).time.winOpen ↔ x ∈ s.time.winOpen ∧ ¬(x % 4 = w ∧ x / 4 ≤ s.plumb) := by
  simp [closeWindow, List.mem_filter, imp_iff_not_or]

/-! Registers. -/

theorem csrGet_setField_other (s : State) {a b : Nat} (hi lo v : Nat) (h : b ≠ a) : csrGet (csrSetField s a hi lo v) b = csrGet s b :=
  csrGet_put_other _ _ _ _ h

theorem time_csrGet (s : State) (x : TimeSt) (a : Nat) : csrGet { s with time := x } a = csrGet s a := rfl

theorem csrField_setField_zero (s : State) (a : Nat) {hi lo : Nat} (h : lo ≤ hi) (hhi : hi < 32) :
    csrField (csrSetField s a hi lo 0) a hi lo = 0 := by
  rw [csrField_setField_self _ _ _ _ _ h hhi, Nat.zero_mod]

/-- The register file replaced. -/
def withCsr (s : State) (c : Store Word) : State := { s with csr := c }

theorem withCsr_setField (s : State) (a hi lo v : Nat) (c : Store Word) : withCsr (csrSetField s a hi lo v) c = withCsr s c := rfl

theorem csrField_congr {s t : State} {a : Nat} (h : csrGet t a = csrGet s a) (hi lo : Nat) : csrField t a hi lo = csrField s a hi lo := by
  rw [csrField, csrField, h]

/-! A plumb source lost with its port (R300). -/

/-- HOLDOVER is put into PLB_STATUS, and one record tells it. -/
theorem enterHoldover_recorded (s : State) :
    Recorded (setPlbState { s with time := { s.time with holdover := s.plumb, exchanges := [] } } plHoldover) (enterHoldover s) := by
  rw [enterHoldover]
  exact snagRecord_recorded ..

theorem csrGet_setPlbState (s : State) (v : Nat) {a : Nat} (ha : a ≠ rPlbStatus) : csrGet (setPlbState s v) a = csrGet s a :=
  csrGet_setField_other _ _ _ _ ha

theorem enterHoldover_csrGet (s : State) {a : Nat} (ha : a ≠ rPlbStatus) (hs : a ≠ rSngStatus) :
    csrGet (enterHoldover s) a = csrGet s a := by
  refine ((enterHoldover_recorded s).csrGet_eq a hs).trans ?_
  exact (csrGet_setPlbState _ _ ha).trans (time_csrGet ..)

theorem enterHoldover_sourceOk (s : State) : (enterHoldover s).time.sourceOk = s.time.sourceOk := by
  rw [(enterHoldover_recorded s).time, setPlbState, csrSetField_time]

/-- HOLDOVER is a state of the count; what the clock is recovered from is another field. -/
theorem enterHoldover_source (s : State) : csrField (enterHoldover s) rPlbStatus 27 27 = csrField s rPlbStatus 27 27 := by
  rw [csrField_congr ((enterHoldover_recorded s).csrGet_eq rPlbStatus (by decide)), setPlbState,
    csrField_setField_disjoint _ _ _ _ _ _ _ (by decide) (by decide) (by decide), csrField_congr (time_csrGet ..)]

theorem sourceLost_local {s : State} (port : Nat) (h : csrField s rPlbStatus 27 27 = 0) : sourceLost s port = s :=
  if_neg (by simp [h])

theorem sourceLost_csrGet (s : State) (port : Nat) {a : Nat} (ha : a ≠ rPlbStatus) (hs : a ≠ rSngStatus) :
    csrGet (sourceLost s port) a = csrGet s a := by
  unfold sourceLost
  dsimp only
  split
  · split
    · exact (enterHoldover_csrGet _ ha hs).trans (csrGet_setField_other _ _ _ _ ha)
    · exact csrGet_setField_other _ _ _ _ ha
  · rfl

/-- A clock recovered from the port that went down falls back to LOCAL. -/
theorem sourceLost_falls {s : State} {port : Nat} (hsrc : csrField s rPlbStatus 27 27 = 1) (hport : csrField s rPlbStatus 26 24 = port) :
    (sourceLost s port).time.sourceOk = false ∧ csrField (sourceLost s port) rPlbStatus 27 27 = 0 := by
  unfold sourceLost
  rw [if_pos ⟨hsrc, hport⟩]
  dsimp only
  split
  · rw [enterHoldover_sourceOk, enterHoldover_source]
    exact ⟨rfl, csrField_setField_zero _ _ (by decide) (by decide)⟩
  · exact ⟨rfl, csrField_setField_zero _ _ (by decide) (by decide)⟩

/-! Ports (R245, R270). -/

/-- SCR_PORT_STATUS of a port (R270). -/
def portReg (port : Nat) : Nat := rScrPortStatus + 0x10 * port

theorem portReg_lt_plb {port : Nat} (h : port < 7) : portReg port < rPlbStatus := by
  unfold portReg rScrPortStatus rPlbStatus
  omega

theorem portReg_ne {port : Nat} (h : port < 7) {a : Nat} (ha : rPlbStatus ≤ a) : a ≠ portReg port :=
  Nat.ne_of_gt (Nat.lt_of_lt_of_le (portReg_lt_plb h) ha)

/-- The port's own fields as it goes down: not up, no lane locked, the transition counted. -/
def portDropped (s : State) (port : Nat) : State :=
  csrBump (csrSetField (csrSetField s (portReg port) 31 31 0) (portReg port) 27 24 0) (portReg port) 15 0 1

theorem linkDown_down {s : State} {port : Nat} (h : csrField s (portReg port) 31 31 = 0) : linkDown s port = s :=
  if_pos (Or.inr h)

theorem linkDown_up {s : State} {port : Nat} (hport : port < 7) (h : csrField s (portReg port) 31 31 = 1) :
    linkDown s port = sourceLost (portDropped s port) port :=
  if_neg (by rw [← portReg, h]; omega)

theorem portDropped_csrGet (s : State) {port a : Nat} (h : a ≠ portReg port) : csrGet (portDropped s port) a = csrGet s a := by
  rw [portDropped, csrBump, csrGet_setField_other _ _ _ _ h, csrGet_setField_other _ _ _ _ h, csrGet_setField_other _ _ _ _ h]

theorem portDropped_fields (s : State) (port : Nat) :
    csrField (portDropped s port) (portReg port) 31 31 = 0 ∧ csrField (portDropped s port) (portReg port) 27 24 = 0
      ∧ csrField (portDropped s port) (portReg port) 15 0 = min (csrField s (portReg port) 15 0 + 1) 65535 := by
  unfold portDropped csrBump
  refine ⟨?_, ?_, ?_⟩
  · rw [csrField_setField_disjoint _ _ _ _ _ _ _ (by decide) (by decide) (by decide),
      csrField_setField_disjoint _ _ _ _ _ _ _ (by decide) (by decide) (by decide), csrField_setField_zero _ _ (by decide) (by decide)]
  · rw [csrField_setField_disjoint _ _ _ _ _ _ _ (by decide) (by decide) (by decide), csrField_setField_zero _ _ (by decide) (by decide)]
  · rw [csrField_setField_self _ _ _ _ _ (by decide) (by decide),
      csrField_setField_disjoint _ _ _ _ _ _ _ (by decide) (by decide) (by decide),
      csrField_setField_disjoint _ _ _ _ _ _ _ (by decide) (by decide) (by decide)]
    simp only [satAdd]
    omega

/-- A port of the configuration that is not gated: with all its lanes it comes up unless it is retired, with fewer it
goes down (R245, R246, R270). -/
theorem portUpState_there {s : State} {port : Nat} (lanes : Nat) (hport : port < 7) (hr : released s = true)
    (hthere : (nthD s.net.ports port port0).present = true) (hgate : s.power.gatesOff.contains (unitPort port) = false) :
    portUpState port lanes s =
      if lanes % 16 &&& portLanes port = portLanes port then
        (if csrField (csrSetField s (portReg port) 27 24 (lanes % 16 &&& portLanes port)) (portReg port) 30 30 = 1 then
          csrSetField s (portReg port) 27 24 (lanes % 16 &&& portLanes port)
        else csrSetField (csrSetField s (portReg port) 27 24 (lanes % 16 &&& portLanes port)) (portReg port) 31 31 1)
      else if bitOf (lanes % 16 &&& portLanes port) 0 then
        csrSetField (linkDown s port) (portReg port) 27 24 (lanes % 16 &&& portLanes port)
      else sourceLost (csrSetField (linkDown s port) (portReg port) 27 24 (lanes % 16 &&& portLanes port)) port := by
  refine if_neg ?_
  simp only [hr, hthere, hgate, Bool.and_true, Bool.true_or, Bool.not_true, Bool.false_eq_true, or_false, Nat.not_le]
  exact hport

theorem portUpState_up {s : State} {port lanes : Nat} (hport : port < 7) (hr : released s = true)
    (hthere : (nthD s.net.ports port port0).present = true) (hgate : s.power.gatesOff.contains (unitPort port) = false)
    (hlanes : lanes % 16 &&& portLanes port = portLanes port) (hret : csrField s (portReg port) 30 30 = 0) :
    portUpState port lanes s = csrSetField (csrSetField s (portReg port) 27 24 (portLanes port)) (portReg port) 31 31 1 := by
  rw [portUpState_there lanes hport hr hthere hgate, if_pos hlanes, hlanes, if_neg]
  rw [csrField_setField_disjoint _ _ _ _ _ _ _ (by decide) (by decide) (by decide), hret]
  decide

/-- A port with fewer lanes that was not up stays down; whether a clock recovered from it is lost is its first lane's
to say. -/
theorem portUpState_fewer {s : State} {port lanes : Nat} (hport : port < 7) (hr : released s = true)
    (hthere : (nthD s.net.ports port port0).present = true) (hgate : s.power.gatesOff.contains (unitPort port) = false)
    (hlanes : lanes % 16 &&& portLanes port ≠ portLanes port) (hdown : csrField s (portReg port) 31 31 = 0) :
    portUpState port lanes s = csrSetField s (portReg port) 27 24 (lanes % 16 &&& portLanes port)
      ∨ portUpState port lanes s = sourceLost (csrSetField s (portReg port) 27 24 (lanes % 16 &&& portLanes port)) port := by
  rw [portUpState_there lanes hport hr hthere hgate, if_neg hlanes, linkDown_down hdown]
  split
  · exact .inl rfl
  · exact .inr rfl

theorem lanes_lt (lanes port : Nat) : (lanes % 16 &&& portLanes port) < 16 :=
  Nat.lt_of_le_of_lt Nat.and_le_left (Nat.mod_lt _ (by decide))

/-- The lanes of a port read back from its register. -/
theorem lanes_read_back (s : State) (port : Nat) {v : Nat} (h : v < 16) :
    csrField (csrSetField s (portReg port) 27 24 v) (portReg port) 27 24 = v := by
  rw [csrField_setField_self _ _ _ _ _ (by decide) (by decide)]
  exact Nat.mod_eq_of_lt h

theorem portDownState_up {s : State} {port : Nat} (hport : port < 7) (h : csrField s (portReg port) 31 31 = 1) :
    portDownState port s = if inSafe s then linkDown s port
      else decideEvent (linkDown s port) (errRec (unitPort port) 0x0A 0 1 0) false := by
  have hsafe : inSafe (linkDown s port) = inSafe s := by
    rw [inSafe, inSafe, csrField_congr]
    rw [linkDown_up hport h, sourceLost_csrGet _ _ (by decide) (by decide), portDropped_csrGet _ (portReg_ne hport (by decide))]
  rw [← hsafe]
  exact if_neg (by rw [← portReg, h]; omega)

/-- Settles O45: the windows' rows by their guards, a port's register by the fields put into it, and a lost clock
by the register that names its port. -/
theorem windowsAndPorts : Obligations.WindowsAndPorts := by
  refine ⟨fun s w hshed hlaunch => ⟨?start, ?idle, ?close⟩, fun s port lanes hport hr hthere hgate => ⟨?up, ?fewer⟩, ?down⟩
  case start => exact fun hstart hend => congrArg Host.Outcome.next (windowStartState_starts hshed hlaunch hstart hend)
  case idle => exact fun hidle => congrArg Host.Outcome.next (windowStartState_idle hidle)
  case close =>
    exact ⟨_, congrArg Host.Outcome.next (windowEndState_closes w hshed hlaunch), mem_closeWindow s w, rfl⟩
  case up =>
    intro hlanes hret
    rw [← portReg] at hret ⊢
    refine ⟨_, congrArg Host.Outcome.next (portUpState_up hport hr hthere hgate hlanes hret), ?_, ?_, fun a ha => ?_, ?_⟩
    · exact csrField_setField_self _ _ _ _ _ (by decide) (by decide)
    · rw [csrField_setField_disjoint _ _ _ _ _ _ _ (by decide) (by decide) (by decide)]
      exact lanes_read_back s port (hlanes ▸ lanes_lt lanes port)
    · rw [csrGet_setField_other _ _ _ _ ha, csrGet_setField_other _ _ _ _ ha]
    · exact (withCsr_setField ..).trans (withCsr_setField ..)
  case fewer =>
    intro hlanes hdown
    rw [← portReg] at hdown ⊢
    have hdown' : csrField (csrSetField s (portReg port) 27 24 (lanes % 16 &&& portLanes port)) (portReg port) 31 31 = 0 := by
      rw [csrField_setField_disjoint _ _ _ _ _ _ _ (by decide) (by decide) (by decide), hdown]
    have hread := lanes_read_back s port (lanes_lt lanes port)
    rcases portUpState_fewer hport hr hthere hgate hlanes hdown with hu | hu
    · exact ⟨_, congrArg Host.Outcome.next hu, hdown', hread, fun _ => withCsr_setField ..⟩
    · have hreg := sourceLost_csrGet (csrSetField s (portReg port) 27 24 (lanes % 16 &&& portLanes port)) port
        (Nat.ne_of_lt (portReg_lt_plb hport)) (Nat.ne_of_lt (Nat.lt_trans (portReg_lt_plb hport) (by decide)))
      refine ⟨_, congrArg Host.Outcome.next hu, (csrField_congr hreg ..).trans hdown', (csrField_congr hreg ..).trans hread, fun hlocal => ?_⟩
      rw [sourceLost_local]
      · exact withCsr_setField ..
      · rw [csrField_congr (csrGet_setField_other _ _ _ _ (portReg_ne hport (Nat.le_refl _))), hlocal]
  case down =>
    intro s port hport h
    rw [← portReg] at h ⊢
    have hreg := sourceLost_csrGet (portDropped s port) port
      (Nat.ne_of_lt (portReg_lt_plb hport)) (Nat.ne_of_lt (Nat.lt_trans (portReg_lt_plb hport) (by decide)))
    have hplb (hi lo : Nat) := csrField_congr (portDropped_csrGet s (portReg_ne hport (Nat.le_refl _))) hi lo
    obtain ⟨hdown, hlanes, hcount⟩ := portDropped_fields s port
    refine ⟨linkDown s port, ?_⟩
    rw [linkDown_up hport h, csrField_congr hreg, csrField_congr hreg, csrField_congr hreg]
    refine ⟨hdown, hlanes, hcount, fun hlocal => ?_, fun hsrc hat => ?_, fun hsafe => ?_, fun hsafe => ?_⟩
    · rw [sourceLost_local _ (by rw [hplb, hlocal])]
      exact ((withCsr_setField ..).trans (withCsr_setField ..)).trans (withCsr_setField ..)
    · exact sourceLost_falls (by rw [hplb, hsrc]) (by rw [hplb, hat])
    · exact congrArg Host.Outcome.next (by rw [portDownState_up hport h, if_pos hsafe, linkDown_up hport h])
    · exact congrArg Host.Outcome.next (by rw [portDownState_up hport h, if_neg (by simp [hsafe]), linkDown_up hport h])

end Sys2Proof.Machine
end

section
/-! PROOF. Patch tests: asked for, falling due, ending (R25, R26, R358–R360). -/

namespace Sys2Proof.Machine

/-! A unit made due (R358, R360). -/

/-- Making a unit due touches the list of due units and its register alone. -/
theorem makeDue_eq (s : State) (unit : Nat) :
    ∃ c l, makeDue s unit = { s with csr := c, snag := { s.snag with due := l } }
      ∧ (l.any (fun d => d.1 == unit) = true ∨ s.snag.testing.any (fun d => d.1 == unit) = true) := by
  unfold makeDue
  split
  · next h => exact ⟨s.csr, s.snag.due, rfl, by simpa using h⟩
  · exact ⟨_, s.snag.due ++ [(unit, s.snag.time, 0)], rfl, .inl (by simp)⟩

/-- A command that waits for its unit's test (R360). -/
def awaitTest (s : State) (unit : Nat) (c : Cmd) : State :=
  { fly s c with snag := { s.snag with testCmds := s.snag.testCmds ++ [(unit, c)] } }

theorem bodyPatchTest_takes {c : Cmd} {s : State} (ht : testable s (leAt c.body 0 4) = true) (hnow : leAt c.body 4 1 ≤ 1)
    (hz : zeroAt c.body 5 3 = true) :
    bodyPatchTest c s = some (if leAt c.body 4 1 = 1 then makeDue (awaitTest s (leAt c.body 0 4) c) (leAt c.body 0 4)
      else awaitTest s (leAt c.body 0 4) c) := by
  refine if_neg ?_
  simp only [ht, hz, Bool.not_true, Bool.false_eq_true, false_or, or_false]
  omega

/-! The end of a test (R360). -/

/-- A unit no longer under test. -/
def testOver (s : State) (unit : Nat) : State :=
  { s with snag := { s.snag with testing := s.snag.testing.filter (fun t => t.1 != unit) } }

/-- The time of a unit's last passing run noted. -/
def notePass (s : State) (unit : Nat) : State :=
  { s with snag := { s.snag with lastPass := stSet 0 s.snag.lastPass unit s.snag.time } }

/-- The failing test of a unit counted. -/
def countFailure (s : State) (unit : Nat) : State :=
  { csrBump (testOver s unit) rSngPatchState 7 0 1 with snag := snagEvent (testOver s unit).snag unit }

/-- The failing test of a unit counted and recorded, at its severity. -/
def recordFailure (s : State) (unit severity kernel pass : Nat) : State :=
  snagRecord (countFailure s unit)
    { errRec unit 0x0E 0 severity 10 with syndrome := leBytes 2 kernel ++ leBytes 4 pass }

theorem becomeSpare_eq (s : State) (unit mode : Nat) :
    ∃ l, becomeSpare s unit mode = { s with snag := { s.snag with newSpares := l } }
      ∧ (isCoreUnit unit = true → mode = 0 → (unit, mode) ∈ l) := by
  unfold becomeSpare
  split
  · exact ⟨_, rfl, fun _ _ => by simp⟩
  · next h => exact ⟨s.snag.newSpares, rfl, fun hcore hmode => absurd (by simp [hcore, hmode]) h⟩

section
variable {s : State} {unit mode : Nat} (h : s.snag.testing.find? (fun t => t.1 == unit) = some (unit, mode)) (kernel pass : Nat)
include h

theorem patchTestEnd_pass : patchTestEnd unit 0 kernel pass s
    = syncPatch (endTestCmds (becomeSpare (notePass (testOver s unit) unit) unit mode) unit 0 0xFF) := by
  unfold patchTestEnd
  rw [h]
  rfl

/-- A failing test: decided permanent where it failed again or is the third event within 72 hours (R348, R360). -/
theorem patchTestEnd_fail {result : Nat} (hr : result ≠ 0) : patchTestEnd unit result kernel pass s
    = syncPatch (endTestCmds
        (if 2 ≤ result ∨ thirdEvent (countFailure s unit).snag unit = true then
          retireUnit
            (recordFailure s unit (if 2 ≤ result ∨ thirdEvent (countFailure s unit).snag unit = true then 2 else 1) kernel pass) unit 0x0E
        else becomeSpare (notePass
          (recordFailure s unit (if 2 ≤ result ∨ thirdEvent (countFailure s unit).snag unit = true then 2 else 1) kernel pass) unit) unit mode)
        unit (min result 2) kernel) := by
  unfold patchTestEnd
  rw [h]
  exact if_neg hr

theorem patchTestEnd_transient (hthird : thirdEvent (countFailure s unit).snag unit = false) :
    patchTestEnd unit 1 kernel pass s
      = syncPatch (endTestCmds (becomeSpare (notePass (recordFailure s unit 1 kernel pass) unit) unit mode) unit 1 kernel) := by
  have hlive : ¬(2 ≤ 1 ∨ thirdEvent (countFailure s unit).snag unit = true) := by simp [hthird]
  rw [patchTestEnd_fail h kernel pass (by decide), if_neg hlive, if_neg hlive]
  rfl

theorem patchTestEnd_permanent : patchTestEnd unit 2 kernel pass s
    = syncPatch (endTestCmds (retireUnit (recordFailure s unit 2 kernel pass) unit 0x0E) unit 2 kernel) := by
  have hdead : 2 ≤ 2 ∨ thirdEvent (countFailure s unit).snag unit = true := .inl (Nat.le_refl 2)
  rw [patchTestEnd_fail h kernel pass (by decide), if_pos hdead, if_pos hdead]
  rfl

end

theorem countFailure_mem (s : State) (unit : Nat) : (countFailure s unit).mem = s.mem := by simp [countFailure, testOver]

theorem countFailure_chip (s : State) (unit : Nat) : (countFailure s unit).chip = s.chip := by simp [countFailure, testOver]

/-- What a failing test's record leaves: memory and engines; the test is over, one record is written. -/
theorem recordFailure_leaves (s : State) (unit severity kernel pass : Nat) :
    (recordFailure s unit severity kernel pass).mem = s.mem ∧ (recordFailure s unit severity kernel pass).chip = s.chip
      ∧ (recordFailure s unit severity kernel pass).snag.written = s.snag.written + 1
      ∧ (recordFailure s unit severity kernel pass).snag.testing = s.snag.testing.filter (fun t => t.1 != unit)
      ∧ (recordFailure s unit severity kernel pass).snag.time = s.snag.time := by
  obtain ⟨l, hl⟩ := snagEvent_counters (testOver s unit).snag unit
  have hcount : (countFailure s unit).snag = { (testOver s unit).snag with counters := l } := hl
  have hrec : Recorded (countFailure s unit) (recordFailure s unit severity kernel pass) := snagRecord_recorded ..
  rw [hrec.mem, hrec.chip, hrec.written, hrec.testing, hrec.snagTime, hcount]
  exact ⟨countFailure_mem .., countFailure_chip .., rfl, rfl, rfl⟩

/-! The seam that waits for a test in place (R26). -/

theorem syncPatch_seamKept (s : State) : SeamKept s (syncPatch s) := (csrSetField_seamKept ..).trans (csrSetField_seamKept ..)

theorem endTestCmds_seamKept (s : State) (unit result kernel : Nat) : SeamKept s (endTestCmds s unit result kernel) :=
  (snag_stepKept s (by rfl)).seamKept.trans (SeamKept.foldl _ (fun _ _ => complete_seamKept ..) _ _)

theorem testEnded_seamHold (s : State) (unit result kernel : Nat) :
    (syncPatch (endTestCmds s unit result kernel)).snag.seamHold = s.snag.seamHold :=
  ((endTestCmds_seamKept ..).trans (syncPatch_seamKept _)).seamHold

theorem recordFailure_seamHold (s : State) (unit severity kernel pass : Nat) :
    (recordFailure s unit severity kernel pass).snag.seamHold = s.snag.seamHold :=
  (snagRecord_stepKept ..).seamKept.seamHold.trans (snagEvent_seamHold ..)

/-- A test's end completes there where no seam waits. -/
theorem patchTestComplete_ends {s t : State} {unit result kernel pass : Nat} (ht : patchTestEnd unit result kernel pass s = t)
    (hold : t.snag.seamHold = none) : exec (.patchTestComplete unit result ⟨kernel, pass⟩) s = .next t := by
  refine congrArg Host.Outcome.next ?_
  unfold patchTestCompleteState
  simp only [ht, hold]

theorem patchTestComplete_resumes {s t : State} {unit result kernel pass : Nat} {c : Cmd} (ht : t = patchTestEnd unit result kernel pass s)
    (hold : t.snag.seamHold = some c) : exec (.patchTestComplete unit result ⟨kernel, pass⟩) s
      = .next (if seamWaits t then t else seamTail { t with snag := { t.snag with seamHold := none } } c) := by
  refine congrArg Host.Outcome.next ?_
  unfold patchTestCompleteState
  simp only [← ht, hold]

/-- Settles O46: PATCH_TEST and its unit through `makeDue`, the three ends of a test through `patchTestEnd`. -/
theorem patchTestsFallDueAndEnd : Obligations.PatchTestsFallDueAndEnd := by
  refine ⟨?asked, fun s unit hr ht => ⟨fun hdue => ?due, fun hearly => ?early⟩,
    fun s unit mode kernel pass h hold => ⟨?passed, ?transient, ?permanent⟩, ?resumed⟩
  case asked =>
    intro s q qseq c hb ht hnow hz
    have ⟨_, hop, _⟩ := hb
    have hrow : patchTestState q qseq s = _ :=
      (hostRow_begins hb (by simp [hop])).trans (by rw [bodyPatchTest_takes ht hnow hz, Option.getD_some])
    refine ⟨_, congrArg Host.Outcome.next hrow, ?_⟩
    split
    · next hnow1 =>
      obtain ⟨r, l, hmade, hl⟩ := makeDue_eq (awaitTest (markBegun s q qseq) (leAt c.body 0 4) c) (leAt c.body 0 4)
      rw [hmade]
      exact ⟨rfl, rfl, fun h0 => by omega, fun _ => hl, rfl, rfl, rfl⟩
    · next hnow0 => exact ⟨rfl, rfl, fun _ => rfl, fun h1 => absurd h1 hnow0, rfl, rfl, rfl⟩
  case due =>
    obtain ⟨c, l, hmade, hl⟩ := makeDue_eq s unit
    have hdue' : stGet 0 s.snag.lastPass unit + minutes (csrField s rSngPatchCfg 15 0) ≤ s.snag.time := hdue
    have hrow : patchTestDueState unit s = makeDue s unit := if_pos (by simpa [hr, ht] using hdue')
    exact ⟨_, congrArg Host.Outcome.next (hrow.trans hmade), hl, rfl, rfl⟩
  case early =>
    have hearly' : s.snag.time < stGet 0 s.snag.lastPass unit + minutes (csrField s rSngPatchCfg 15 0) := hearly
    exact congrArg Host.Outcome.next (if_neg (by simpa [hr, ht] using hearly'))
  case passed =>
    obtain ⟨l, hspare, hl⟩ := becomeSpare_eq (notePass (testOver s unit) unit) unit mode
    refine ⟨_, patchTestComplete_ends (patchTestEnd_pass h kernel pass) ?_, ?_⟩
    · rw [testEnded_seamHold, hspare]
      exact hold
    · rw [hspare]
      exact ⟨stGet_set_self .., rfl, rfl, rfl, hl⟩
  case transient =>
    rintro v rfl hthird
    obtain ⟨hmem, hchip, hwritten, htesting, htime⟩ := recordFailure_leaves s unit 1 kernel pass
    obtain ⟨l, hspare, -⟩ := becomeSpare_eq (notePass (recordFailure s unit 1 kernel pass) unit) unit mode
    refine ⟨_, patchTestComplete_ends (patchTestEnd_transient h kernel pass hthird) ?_, ?_⟩
    · rw [testEnded_seamHold, hspare]
      exact (recordFailure_seamHold ..).trans hold
    · rw [hspare]
      exact ⟨hwritten, (stGet_set_self ..).trans htime, htesting, hmem, hchip⟩
  case permanent =>
    obtain ⟨hmem, hchip, hwritten, htesting, -⟩ := recordFailure_leaves s unit 2 kernel pass
    refine ⟨_, patchTestComplete_ends (patchTestEnd_permanent h kernel pass) ?_, hwritten, htesting, hmem, hchip⟩
    rw [testEnded_seamHold, (retireUnit_seamKept ..).seamHold, recordFailure_seamHold, hold]
  case resumed =>
    intro s t unit result kernel pass c ht hold
    exact patchTestComplete_resumes ht hold

end Sys2Proof.Machine
end

section
/-! SUPPORT. The tiles of a RUN's engines: taken and let go by a walk that changes the tiles alone (R84, R85). -/

namespace Sys2Proof.Machine

/-! Tiles: writes that touch them alone, and the walk over the tiles of a RUN's engines. -/

theorem tileGet_put_of (s : State) (pe t pe' t' : Nat) (x : Tile) :
    tileGet (tilePut s pe' t' x) pe t = if pe * 8 + t = pe' * 8 + t' then x else tileGet s pe t :=
  stGet_set ..

/-- From `s` to `t` the tiles alone have changed. -/
def TilesOnly (s t : State) : Prop := ∃ l, t = { s with chip := { s.chip with tiles := l } }

theorem TilesOnly.refl (s : State) : TilesOnly s s := ⟨s.chip.tiles, rfl⟩

theorem TilesOnly.trans {s t u : State} (h : TilesOnly s t) (k : TilesOnly t u) : TilesOnly s u := by
  obtain ⟨l, rfl⟩ := h
  obtain ⟨m, rfl⟩ := k
  exact ⟨m, rfl⟩

theorem TilesOnly.foldl {α : Type} {f : State → α → State} (h : ∀ s a, TilesOnly s (f s a)) (l : List α) (s : State) :
    TilesOnly s (l.foldl f s) := by
  induction l generalizing s with
  | nil => exact .refl s
  | cons a r ih => exact (h s a).trans (ih _)

theorem TilesOnly.enginesOf {s t : State} (h : TilesOnly s t) (lc : Nat) : enginesOf t lc = enginesOf s lc := by
  obtain ⟨l, rfl⟩ := h
  rfl

theorem tilePut_tilesOnly (s : State) (pe t : Nat) (x : Tile) : TilesOnly s (tilePut s pe t x) := ⟨_, rfl⟩

/-- What one step of a fold sets and every step keeps stands at its end, over states the fold can reach. -/
theorem foldl_sets {σ α : Type} {f : σ → α → σ} {I P : σ → Prop} (hI : ∀ t b, I t → I (f t b)) (hP : ∀ t b, P t → P (f t b))
    {l : List α} {a : α} (ha : a ∈ l) (hset : ∀ t, I t → P (f t a)) {s : σ} (hs : I s) : P (l.foldl f s) := by
  induction l generalizing s with
  | nil => cases ha
  | cons b r ih =>
    rcases List.mem_cons.1 ha with rfl | har
    · exact List.foldlRecOn r f (hset s hs) fun t ht b _ => hP t b ht
    · exact ih har (hI s b hs)

/-- A walk over the engines of logical cores, with `g` at every item of a list for each engine. -/
def walkEngines {α : Type} (cores : List Nat) (items : List α) (g : State → Nat → α → State) (s : State) : State :=
  cores.foldl (fun s lc => (enginesOf s lc).foldl (fun s pe => items.foldl (fun s a => g s pe a) s) s) s

section Walk
variable {α : Type} {g : State → Nat → α → State} {cores : List Nat} {items : List α} {s : State}

theorem walkEngines_tilesOnly (hg : ∀ s pe a, TilesOnly s (g s pe a)) : TilesOnly s (walkEngines cores items g s) :=
  .foldl (fun _ _ => .foldl (fun _ pe => .foldl (fun t a => hg t pe a) items _) _ _) cores s

/-- What `g` sets at one item of one engine, and keeps everywhere, stands after the walk. -/
theorem walkEngines_sets {P : State → Prop} (hg : ∀ s pe a, TilesOnly s (g s pe a)) (hP : ∀ t pe a, P t → P (g t pe a))
    {lc pe : Nat} {a : α} (hlc : lc ∈ cores) (hpe : pe ∈ enginesOf s lc) (ha : a ∈ items) (hset : ∀ t, P (g t pe a)) :
    P (walkEngines cores items g s) := by
  have items_keep (pe : Nat) (t : State) (ht : P t) : P (items.foldl (fun s a => g s pe a) t) :=
    List.foldlRecOn items _ ht fun t ht a _ => hP t pe a ht
  refine foldl_sets (I := TilesOnly s) (fun t b ht => ht.trans ?_) (fun t b ht => ?_) hlc (fun t ht => ?_) (.refl s)
  · exact .foldl (fun _ pe => .foldl (fun t a => hg t pe a) items _) _ _
  · exact List.foldlRecOn _ _ ht fun t ht pe _ => items_keep pe t ht
  · exact foldl_sets (I := fun _ => True) (fun _ _ _ => trivial) (fun t pe => items_keep pe t) (ht.enginesOf lc ▸ hpe)
      (fun t _ => foldl_sets (I := fun _ => True) (fun _ _ _ => trivial) (fun t a => hP t pe a) ha (fun t _ => hset t) trivial)
      trivial

end Walk

/-- One tile taken for an operation. -/
def ownTile (op : Nat) (s : State) (pe : Nat) (c : TileCtl) : State :=
  tilePut s pe c.tile { tileGet s pe c.tile with owned := true, kept := false, owner := op }

theorem ownTiles_eq_walk (s : State) (h : RunHead) (op : Nat) :
    ownTiles s h op = walkEngines h.cores (tilesNamed h) (ownTile op) s := rfl

theorem ownTiles_tilesOnly (s : State) (h : RunHead) (op : Nat) : TilesOnly s (ownTiles s h op) :=
  walkEngines_tilesOnly fun s pe _ => tilePut_tilesOnly s pe ..

/-- An operation owns a tile as one it took and has not let go. -/
def OwnedBy (op : Nat) (x : Tile) : Prop := x.owned = true ∧ x.owner = op ∧ x.kept = false

/-- Every tile a RUN names is its own once it has taken its tiles (R84). -/
theorem ownTiles_owns {s : State} {h : RunHead} {lc pe : Nat} {c : TileCtl} (op : Nat) (hlc : lc ∈ h.cores)
    (hpe : pe ∈ enginesOf s lc) (hc : c ∈ tilesNamed h) :
    OwnedBy op (tileGet (ownTiles s h op) pe c.tile) := by
  rw [ownTiles_eq_walk]
  refine walkEngines_sets (P := fun t => OwnedBy op (tileGet t pe c.tile)) (fun s pe _ => tilePut_tilesOnly s pe ..)
    (fun t pe' c' ht => ?_) hlc hpe hc (fun t => ?_)
  · rw [ownTile, tileGet_put_of]
    split
    · exact ⟨rfl, rfl, rfl⟩
    · exact ht
  · rw [ownTile, tileGet_put]
    exact ⟨rfl, rfl, rfl⟩

/-- One tile let go by an operation. -/
def releaseTile (h : RunHead) (op : Nat) (fault : Bool) (s : State) (pe t : Nat) : State :=
  if !(tileGet s pe t).owned || (tileGet s pe t).owner != op || (tileGet s pe t).halted then s
  else if !fault && keeps h t then tilePut s pe t { tileGet s pe t with kept := true }
  else tilePut s pe t { freeTile with trans := (tileGet s pe t).trans, owner := (tileGet s pe t).owner }

theorem releaseTiles_eq_walk (s : State) (h : RunHead) (op : Nat) (fault : Bool) :
    releaseTiles s h op fault = walkEngines h.cores (List.range 8) (releaseTile h op fault) s := rfl

theorem releaseTile_tilesOnly (h : RunHead) (op : Nat) (fault : Bool) (s : State) (pe t : Nat) :
    TilesOnly s (releaseTile h op fault s pe t) := by
  unfold releaseTile
  split_ifs
  · exact .refl s
  · exact tilePut_tilesOnly ..
  · exact tilePut_tilesOnly ..

theorem releaseTiles_tilesOnly (s : State) (h : RunHead) (op : Nat) (fault : Bool) : TilesOnly s (releaseTiles s h op fault) :=
  walkEngines_tilesOnly (releaseTile_tilesOnly h op fault)

/-- A tile of an operation is kept or halted. -/
def LetGo (op : Nat) (x : Tile) : Prop := x.owned = true → x.owner = op → x.kept = true ∨ x.halted = true

theorem releaseTile_self (h : RunHead) (op : Nat) (fault : Bool) (s : State) (pe t : Nat) :
    LetGo op (tileGet (releaseTile h op fault s pe t) pe t) := by
  unfold releaseTile
  split_ifs with hother hkeep
  · intro howned howner
    simp only [howned, howner, Bool.not_true, bne_self_eq_false, Bool.or_self, Bool.false_or] at hother
    exact .inr hother
  · rw [tileGet_put]
    exact fun _ _ => .inl rfl
  · rw [tileGet_put]
    exact fun howned => by cases howned

theorem releaseTile_other (h : RunHead) (op : Nat) (fault : Bool) (s : State) {pe t pe' t' : Nat} (hne : pe * 8 + t ≠ pe' * 8 + t') :
    tileGet (releaseTile h op fault s pe' t') pe t = tileGet s pe t := by
  unfold releaseTile
  split_ifs <;> simp only [tileGet_put_of, hne, if_false]

/-- Of the tiles of its engines an operation that let go owns those kept and those halted alone (R84). -/
theorem releaseTiles_letGo {s : State} {h : RunHead} {op lc pe t : Nat} {fault : Bool} (hlc : lc ∈ h.cores)
    (hpe : pe ∈ enginesOf s lc) (ht : t < 8) : LetGo op (tileGet (releaseTiles s h op fault) pe t) := by
  rw [releaseTiles_eq_walk]
  refine walkEngines_sets (P := fun u => LetGo op (tileGet u pe t)) (releaseTile_tilesOnly h op fault) (fun u pe' t' hu => ?_)
    hlc hpe (List.mem_range.2 ht) (fun u => releaseTile_self h op fault u pe t)
  by_cases hkey : pe * 8 + t = pe' * 8 + t'
  · have hsame (u : State) : tileGet u pe t = tileGet u pe' t' := congrArg (stGet freeTile u.chip.tiles) hkey
    exact hsame _ ▸ releaseTile_self h op fault u pe' t'
  · exact (releaseTile_other h op fault u hkey).symm ▸ hu

end Sys2Proof.Machine
end

section
/-! PROOF. RUN and RUN_LEVEL begin, are held or wait (R85, R146, R343); held and finished ones end (R84–R86, R113, R142, R150). -/

namespace Sys2Proof.Machine

/-! The held list. -/

theorem isHeld_holdClocks (s : State) (q qseq : Nat) : isHeld (holdClocks s) q qseq = isHeld s q qseq := by
  simp only [isHeld, holdClocks, List.any_map]
  congr 1
  funext h
  simp only [Function.comp_apply]
  split <;> rfl

theorem isHeld_unhold (s : State) (q qseq : Nat) : isHeld (unhold s q qseq) q qseq = false := by
  rw [isHeld, List.any_eq_false]
  intro h hmem
  simpa [imp_iff_not_or] using (List.mem_filter.1 hmem).2

theorem isHeld_markBegun (s : State) (p pseq q qseq : Nat) : isHeld (markBegun s p pseq) q qseq = isHeld s q qseq := by
  obtain ⟨-, -, -, -, -, hheld, -⟩ := markBegun_units (.refl s) p pseq
  rw [isHeld, isHeld, hheld]

/-! RUN from its queue's head to its tiles (R85, R146, R343). -/

theorem runWait_waits {c : Cmd} {s : State}
    (h : stepPhase s ≠ sOpen ∨ isHeld s c.queue c.qseq ∨ queueAhead s c (runHead c.body)) : runWait c s = some s := if_pos h

/-- The entry of a command that joins the held ones, its clock not yet started (R86). -/
def heldEntry (s : State) (c : Cmd) : Held :=
  { q := c.queue, qseq := c.qseq, used := 0, since := none, limit := 1000 * fieldOf (settingGet s rScdTileHold) 15 0
    order := s.held.length }

section Reached
variable {c : Cmd} {s : State} (hopen : stepPhase s = sOpen) (hheld : isHeld s c.queue c.qseq = false)
  (hahead : queueAhead s c (runHead c.body) = false)
include hopen hheld hahead

theorem runWait_refused (hcheck : runCheck s (runLevelled s c) (runHead c.body) = false) : runWait c s = none := by
  simp [runWait, hopen, hheld, hahead, hcheck]

theorem runWait_free (hcheck : runCheck s (runLevelled s c) (runHead c.body) = true) (htiles : tilesState s (runHead c.body) = 0)
    (hearlier : earlierReady s (runHead c.body) = false) : runWait c s = none := by
  simp [runWait, hopen, hheld, hahead, hcheck, htiles, hearlier]

/-- A RUN whose tiles are owned joins the held commands, at their end. -/
theorem runWait_holds (hcheck : runCheck s (runLevelled s c) (runHead c.body) = true) (htiles : tilesState s (runHead c.body) = 1) :
    runWait c s = some (holdClocks { s with held := s.held ++ [heldEntry s c] }) := by
  simp [runWait, hopen, hheld, hahead, hcheck, htiles, heldEntry]

end Reached

/-- RUN and RUN_LEVEL that begin have the same meaning. -/
theorem exec_run_begins {s : State} {q qseq op : Nat} {c : Cmd} {i : Instr} (h : Begins s q qseq op c)
    (hi : (op = 0x0401 ∧ i = .run q qseq) ∨ (op = 0x0402 ∧ i = .runLevel q qseq)) :
    exec i s = .next ((runWait c s).getD (runBegin c (markBegun s q qseq))) := by
  have ⟨_, hop, _⟩ := h
  have hrow {sel : Cmd → Bool} (hs : sel c = true) :
      waitRow s q qseq sel runWait runBegin = (runWait c s).getD (runBegin c (markBegun s q qseq)) := by
    rw [waitRow_begins h hs]
    cases runWait c s <;> rfl
  obtain ⟨rfl, rfl⟩ | ⟨rfl, rfl⟩ := hi
  · exact congrArg Host.Outcome.next (hrow (by simp [hop]))
  · exact congrArg Host.Outcome.next (hrow (by simp [hop]))

theorem runBegin_poisoned {c : Cmd} {s d : State} (hd : readDescs s (runHead c.body) = (d, false)) :
    runBegin c s = finish d c stFault := by simp [runBegin, hd]

theorem runBegin_refused {c : Cmd} {s d : State} (hd : readDescs s (runHead c.body) = (d, true))
    (hcheck : runCheck d (runLevelled d c) (runHead c.body) = false) : runBegin c s = finish d c stBadParam := by
  simp [runBegin, hd, runChecked, hcheck]

/-- A RUN with every core at its first stage. -/
def firstRun (d : State) (c : Cmd) (rb : List Byte) (copies : List (Nat × Nat × Bool)) : Run :=
  { cmd := c, level := runLevelled d c, recipe := rb, copies := copies, cores := (runHead c.body).cores.map coreRun0, frames := [] }

/-- That RUN over the tiles it has taken. -/
def runStarted (d : State) (c : Cmd) (rb : List Byte) (copies : List (Nat × Nat × Bool)) : State :=
  let t := fly (ownTiles d (runHead c.body) c.op) c
  { t with runs := t.runs ++ [firstRun d c rb copies] }

theorem runBegin_started {c : Cmd} {s d : State} {rb : List Byte} {copies : List (Nat × Nat × Bool)}
    (hd : readDescs s (runHead c.body) = (d, true)) (h : RunTakes d c rb copies) : runBegin c s = runStarted d c rb copies := by
  obtain ⟨hcheck, htiles, hrecipe, hcopies, htake⟩ := h
  simp only [runBegin, hd, runChecked, hcheck, takeRun, htiles, hrecipe, hcopies, htake]
  rfl

theorem runStarted_taken (d : State) (c : Cmd) (rb : List Byte) (copies : List (Nat × Nat × Bool)) :
    RunTaken d (runStarted d c rb copies) c rb copies := by
  obtain ⟨l, hl⟩ := ownTiles_tilesOnly d (runHead c.body) c.op
  refine ⟨⟨firstRun d c rb copies, ?runs, rfl, rfl, rfl, rfl, rfl, rfl⟩, fun lc hlc pe hpe t ht => ?tiles, ?mem, ?csr, ?queues, ?job⟩
  case tiles => exact ownTiles_owns c.op hlc hpe ht
  all_goals simp [runStarted, fly, hl]

theorem runBegin_takes {c : Cmd} {s d : State} {rb : List Byte} {copies : List (Nat × Nat × Bool)}
    (hd : readDescs s (runHead c.body) = (d, true)) (h : RunTakes d c rb copies) : RunTaken d (runBegin c s) c rb copies :=
  runBegin_started hd h ▸ runStarted_taken d c rb copies

/-- Settles O27: the wait at the queue's head by `runWait`'s branches, what begins by `runBegin`'s. -/
theorem runBeginsHoldsOrWaits : Obligations.RunBeginsHoldsOrWaits := by
  intro s q qseq op c i hb hi
  have hexec := exec_run_begins hb hi
  have hwaits (h : stepPhase s ≠ sOpen ∨ isHeld s c.queue c.qseq ∨ queueAhead s c (runHead c.body)) : exec i s = .next s := by
    rw [hexec, runWait_waits h, Option.getD_some]
  refine ⟨fun h => hwaits (.inl h), fun h => hwaits (.inr (.inr h)), fun hopen hheld hahead => ⟨?held, ?begins, ?refused⟩⟩
  case held =>
    intro hcheck htiles
    rw [hexec, runWait_holds hopen hheld hahead hcheck htiles, Option.getD_some]
    refine ⟨_, rfl, ?_, rfl, rfl, rfl, rfl, rfl⟩
    rw [isHeld_holdClocks]
    simp [isHeld, heldEntry]
  case begins =>
    intro hcheck htiles hearlier
    rw [hexec, runWait_free hopen hheld hahead hcheck htiles hearlier, Option.getD_none]
    exact ⟨fun d rb copies hd h => ⟨_, rfl, runBegin_takes hd h⟩, fun d hd => congrArg _ (runBegin_poisoned hd)⟩
  case refused =>
    intro hcheck d
    rw [hexec, runWait_refused hopen hheld hahead hcheck, Option.getD_none]
    exact ⟨fun hd hcheck => congrArg _ (runBegin_refused hd hcheck), fun hd => congrArg _ (runBegin_poisoned hd)⟩

/-! Held commands (R85, R86). -/

theorem RunTaken.holdClocks {d u : State} {c : Cmd} {rb : List Byte} {copies : List (Nat × Nat × Bool)}
    (h : RunTaken d u c rb copies) : RunTaken d (holdClocks u) c rb copies := h

theorem takeTilesState_begins {s : State} {core : Nat} {x : Held} {c : Cmd} (hnext : nextHeld s core = some (x, c))
    (hopen : stepPhase s = sOpen) (hlimit : holdUsed s x < x.limit) (hready : (readyCmd s x.q x.qseq).isSome = true)
    (hearly : earlySkip s x.q x.qseq = false) :
    takeTilesState core s = holdClocks (runBegin c (markBegun (unhold s x.q x.qseq) x.q x.qseq)) := by
  have hnone : (readyCmd s x.q x.qseq).isNone = false := by simpa using hready
  simp [takeTilesState, hnext, hopen, hlimit, hnone, hearly]

theorem tileConflictState_ends {s : State} {q qseq : Nat} {x : Held} {c : Cmd}
    (hfind : s.held.find? (fun h => h.q == q && h.qseq == qseq) = some x) (hcmd : heldCmd s x = some c)
    (hlimit : x.limit ≤ holdUsed s x) :
    tileConflictState q qseq s = finish (markBegun (unhold s q qseq) q qseq) c stTileConflict := by
  simp [tileConflictState, hfind, hcmd, Nat.not_lt.2 hlimit]

theorem tileConflictState_waits {s : State} {q qseq : Nat} {x : Held} {c : Cmd}
    (hfind : s.held.find? (fun h => h.q == q && h.qseq == qseq) = some x) (hcmd : heldCmd s x = some c)
    (hlimit : holdUsed s x < x.limit) : tileConflictState q qseq s = s := by
  simp [tileConflictState, hfind, hcmd, hlimit]

/-! A finished RUN (R84, R113, R142, R150). -/

theorem coreCauses_level {r : Run} (h : r.level = true) (k : CoreRun) : coreCauses r k = 0 := if_pos h

/-- A fault status on a core is the RUN's class of status. -/
theorem runStatus_fault {r : Run} {k : CoreRun} (hk : k ∈ r.cores) (hfault : k.status / 256 = 3) : runStatus r / 256 = 3 := by
  have hne : k.status ≠ stOk := fun h => by simp [h, stOk] at hfault
  have hmem : k.status ∈ (r.cores.map (·.status)).filter (· != stOk) :=
    List.mem_filter.2 ⟨List.mem_map_of_mem hk, by simpa using hne⟩
  unfold runStatus
  dsimp only
  cases hf : ((r.cores.map (·.status)).filter (· != stOk)).find? (fun st => st / 256 == 3) with
  | some st => simpa using List.find?_some hf
  | none => exact absurd hfault (by simpa using List.find?_eq_none.1 hf _ hmem)

/-- With no chain ended by a status of its own, the NaN trap comes before the flags. -/
theorem runStatus_ok {r : Run} (hok : ∀ k ∈ r.cores, k.status = stOk) : runStatus r
    = if r.cores.any (·.origin) then stNanTrap else if r.cores.any (fun k => coreCauses r k != 0) then stFlagged else stOk := by
  have hnone : (r.cores.map (·.status)).filter (· != stOk) = [] := by simpa using hok
  simp only [runStatus, hnone, List.find?_nil]

theorem setCause_withCsr (s : State) (pc recipe causes : Nat) : ∃ l, setCause s pc recipe causes = withCsr s l := by
  unfold setCause
  dsimp only
  split_ifs
  · exact ⟨s.csr, rfl⟩
  · exact ⟨_, rfl⟩
  · exact ⟨_, rfl⟩

theorem foldl_withCsr {α : Type} {f : State → α → State} (hf : ∀ s a, ∃ l, f s a = withCsr s l) (as : List α) (s : State) :
    ∃ l, as.foldl f s = withCsr s l := by
  induction as generalizing s with
  | nil => exact ⟨s.csr, rfl⟩
  | cons a r ih =>
    obtain ⟨l, hl⟩ := hf s a
    obtain ⟨m, hm⟩ := ih (withCsr s l)
    exact ⟨m, by rw [List.foldl_cons, hl, hm]; rfl⟩

/-- A finished RUN gone, its tiles let go. -/
def tilesLeft (s : State) (op : Nat) (r : Run) : State :=
  releaseTiles { s with runs := s.runs.filter (fun x => x.cmd.op != op) } (runHead r.cmd.body) op
    (runStatus r == stFault || runStatus r == stBadParam)

/-- The state a finished RUN leaves for its completion: its cores' causes set too, and an origin noted for the vote. -/
def runLeft (s : State) (op : Nat) (r : Run) : State :=
  let t := r.cores.foldl (fun t k => setCause t (physCore t k.core) (runHead r.cmd.body).recipe (coreCauses r k)) (tilesLeft s op r)
  if runStatus r = stNanTrap ∨ r.cores.any (·.origin) then { t with step := { t.step with nfLocal := true } } else t

theorem runCompleteState_ends {s : State} {op : Nat} {r : Run} (hr : runOf s op = some r)
    (hall : r.cores.all (·.ended (runHead r.cmd.body).nstage) = true) : runCompleteState op s
    = complete (runLeft s op r) r.cmd (runStatus r) (r.cores.foldl (fun a k => a ||| coreCauses r k) 0) [] := by
  simp only [runCompleteState, hr, hall]
  rfl

theorem runCompleteState_waits {s : State} {op : Nat} {r : Run} (hr : runOf s op = some r)
    (hall : r.cores.all (·.ended (runHead r.cmd.body).nstage) = false) : runCompleteState op s = s := by
  simp [runCompleteState, hr, hall]

theorem tilesLeft_tilesOnly (s : State) (op : Nat) (r : Run) :
    TilesOnly { s with runs := s.runs.filter (fun x => x.cmd.op != op) } (tilesLeft s op r) := releaseTiles_tilesOnly ..

/-- Beside registers and the step's books a finished RUN changes the RUNs and its tiles alone. -/
theorem runLeft_eq (s : State) (op : Nat) (r : Run) : ∃ l st, runLeft s op r = { withCsr (tilesLeft s op r) l with step := st } := by
  obtain ⟨l, hl⟩ := foldl_withCsr
    (f := fun t (k : CoreRun) => setCause t (physCore t k.core) (runHead r.cmd.body).recipe (coreCauses r k))
    (fun _ _ => setCause_withCsr ..) r.cores (tilesLeft s op r)
  unfold runLeft
  dsimp only
  rw [hl]
  split
  · exact ⟨l, _, rfl⟩
  · exact ⟨l, _, rfl⟩

/-- Settles O28: a held command through `runBegin`, a finished one through the walk that lets its tiles go. -/
theorem runsHeldAndReleased : Obligations.RunsHeldAndReleased := by
  refine ⟨⟨fun s core x c hnext hopen hlimit hready hearly => ⟨isHeld_unhold .., fun d rb copies hd h => ?takes⟩,
    fun s q qseq x c hfind hcmd => ⟨fun hlimit => ?conflict, fun hlimit => ?waits⟩⟩,
    fun s op r hr => ⟨fun hall => ?ends, fun hall => congrArg Host.Outcome.next (runCompleteState_waits hr hall)⟩⟩
  case takes =>
    exact ⟨_, congrArg Host.Outcome.next (takeTilesState_begins hnext hopen hlimit hready hearly), (runBegin_takes hd h).holdClocks⟩
  case conflict =>
    obtain ⟨-, hjob, -, hchip, hruns, -, htopcoat, -⟩ := markBegun_units (.refl (unhold s q qseq)) q qseq
    refine ⟨_, congrArg Host.Outcome.next (tileConflictState_ends hfind hcmd hlimit), ?_, hchip, hruns, hjob, htopcoat⟩
    rw [isHeld_markBegun, isHeld_unhold]
  case waits => exact congrArg Host.Outcome.next (tileConflictState_waits hfind hcmd hlimit)
  case ends =>
    obtain ⟨l, st, hleft⟩ := runLeft_eq s op r
    obtain ⟨tiles, htiles⟩ := tilesLeft_tilesOnly s op r
    refine ⟨_, congrArg Host.Outcome.next (runCompleteState_ends hr hall), ?runs, fun h k _ => coreCauses_level h k,
      fun k hk => runStatus_fault hk, fun hok horigin => ?trap, fun hok => ?ok, fun lc hlc pe hpe t ht => ?tiles, ?mem, ?job, ?queues⟩
    case trap => rw [runStatus_ok hok, if_pos (by simpa using horigin)]
    case ok =>
      rw [runStatus_ok fun k hk => (hok k hk).1, if_neg (by simpa using fun k hk => (hok k hk).2.1),
        if_neg (by simpa using fun k hk => (hok k hk).2.2)]
    case tiles =>
      rw [hleft]
      exact releaseTiles_letGo hlc hpe ht
    all_goals rw [hleft, htiles]; rfl

end Sys2Proof.Machine
end

section
/-! PROOF. The stages QUANTISE, MULTIPLY, SCREED and RETURN where no error meets them (R77, R99, R111, R119). -/

namespace Sys2Proof.Machine

/-- A row under a spot check whose results agree works its stage as it stands. -/
theorem checkedRow_at {s : State} {op core k : Nat} {x : StCtx} {ev : StageEvents} (h : AtStage s op core x) (hu : ev.upsets = [])
    (hs : ev.spot = .agree) (hk : isKind k x.rcd = true) (sub : Nat) (f : StCtx → State → State) :
    stageRow op core ev (isKind k) (fun x s => x.checked s sub ev.spot f) s = f x s := by
  rw [stageRow_at h hu, if_pos hk, hs, checked_at h]

/-! QUANTISE and RETURN: the Float edge over its source rows. -/

section FloatEdge
variable {s r : State} {x : StCtx} {c : FloatCtl} {a d : Desc} {rows : List (List FV)}
  (hc : FloatCtl.ofBytes x.rcd.ctrl = some c) (ha : x.desc s x.rcd.dIn = some a) (hd : x.desc s x.rcd.dOut = some d)
include hc ha hd

theorem quantiseBody_unread (hr : readVals s x.io a = (r, none)) : quantiseBody x s = x.fail r stFault := by
  simp only [quantiseBody, hc, ha, hd, hr]

/-- A QUANTISE whose source reads goes on by whether its output was written whole, its counts taken either way. -/
theorem quantiseBody_read {o : QOut} {w : State × Bool} {t : State} (hr : readVals s x.io a = (r, some rows))
    (ho : o = quantOut r x.io.pc (quantSet x.run.level d c (Recipe.ofBytes x.run.recipe)) d
      (rows.map (prepRow (if c.rotEn then (Recipe.ofBytes x.run.recipe).rot else 1)
        (if c.scaleEn then some (coreScales r x.io.pc c.scale a.width) else none))))
    (hw : w = writeQuant r x.io d o)
    (ht : t = addCounts (floatCounts w.1 x.io.pc o.counts) x.run.cmd.op x.core.core o.counts) :
    quantiseBody x s = if w.2 then x.done t else x.fail t stFault := by
  simp only [quantiseBody, hc, ha, hd, hr, ht, hw, ho]

/-- A RETURN whose source reads goes on by whether its output and its scale gradients were written whole. -/
theorem returnBody_read {n : Nat} {scale : Option (List FV)} {out : List (List FV)} {w g : State × Bool}
    (hr : readVals s x.io a = (r, some rows)) (hn : n = if c.rotEn then (Recipe.ofBytes x.run.recipe).rot else 1)
    (hscale : scale = if c.scaleEn then some (coreScales r x.io.pc c.scale a.width) else none)
    (hout : out = rows.map (returnRow c.ret n scale)) (hw : w = writeFloats r x.io d f32 out)
    (hg : g = if c.sgradEn then sgradPart x w.1 n c (scale.getD (List.replicate a.width fvOne)) a.width out else (w.1, true)) :
    returnBody x s = if w.2 && g.2 then x.done g.1
      else x.fail (if c.sgradEn then reportSide x g.1 (x.desc s x.rcd.dAux).toList else g.1) stFault := by
  simp only [returnBody, hc, ha, hd, hr, hg, hw, hout, hscale, hn]

end FloatEdge

/-! MULTIPLY: both operands fed, then the four engines. -/

section Multiply
variable {s : State} {x : StCtx} {c : TileCtl} {a b : Desc} {mask : Nat} {u v : State × Option Feed} {faults : List ArrayFault}
  (hc : TileCtl.ofBytes x.rcd.ctrl = some c) (ha : x.desc s x.rcd.dIn = some a) (hb : x.desc s x.rcd.dAux = some b)
  (hmask : mask = if x.run.level then 0xF else c.mask)
  (hu : u = feedOperand s x a mask c.statFloor) (hv : v = feedOperand u.1 x b mask c.strmFloor)
include hc ha hb hmask hu hv

theorem multiplyBody_unfed (h : u.2 = none ∨ v.2 = none) :
    multiplyBody faults x s = x.fail (reportSide x v.1 [a, b]) stFault := by
  subst hmask hu hv
  simp only [multiplyBody, hc, ha, hb]
  split
  · next hst hsm => rw [hst, hsm] at h; simp at h
  · rfl

/-- A MULTIPLY with both operands fed goes on unless one of its engines stopped. -/
theorem multiplyBody_fed {st sm : Feed} {w r t : State} {ps : List (Bool × Nat)} (hst : u.2 = some st) (hsm : v.2 = some sm)
    (hw : w = if x.core.engPos.all (· == 0) then
      [0, 1, 2, 3].foldl (fun s e => fillBanks s (x.io.pc * 4 + e) (streamBytes x b v.1)) v.1 else v.1)
    (hwork : enginesWork x c mask st.mat sm.mat (if st.mat.kind = .p4 then paletteDescs v.1 a.pal else []) a.colBase a.colStep
      (stageBlocks c.trans st.mat a.width) faults [0, 1, 2, 3] w = (r, some ps))
    (ht : t = if x.core.engPos.all (· == 0) then feedCount (feedCount r x st.counts) x sm.counts else r) :
    multiplyBody faults x s = if ps.any (·.1)
      then holdClocks (syncRecovering
        (coreUpd t x.run.cmd.op x.core.core (fun k => { k with stopped := true, engPos := ps.map (·.2) })))
      else x.done t := by
  subst hmask hu hv hw ht
  simp only [multiplyBody, hc, ha, hb, hst, hsm, hwork]

end Multiply

/-- A tile opened fresh (R83): every entry zero, its owner as it was. -/
theorem openTile_fresh (s : State) (pc e : Nat) {c : TileCtl} (t : Tile) (h : c.opn = 0) :
    (openTile s pc e c t).2 = some (t.opened c.trans c.tx c.yarna (c.addr + e * spillUnit)) := by
  simp only [openTile, h]

/-- A SCREED by what its drain came to: whole, stopped, or a row not written. -/
theorem screedBody_drains {s : State} {x : StCtx} {m : TileCtl} {c : ScreedCtl} {d : Desc} {j : ScreedJob}
    {fs : List ArrayFault} (hm : lastMultiply x.head.stages x.i = some m) (hc : ScreedCtl.ofBytes x.rcd.ctrl = some c)
    (hd : x.desc s x.rcd.dOut = some d) (hj : j = { ctl := c, tile := m, out := d, rc := Recipe.ofBytes x.run.recipe })
    {r : State × Nat} (hr : r = drainFrom x j fs (j.places - x.core.rowPos) x.core.rowPos s) :
    screedBody fs x s = if r.2 = 1 then r.1 else if r.2 = 2 then x.fail r.1 stFault else x.done r.1 := by
  simp only [screedBody, hm, hc, hd, hr, hj]

/-- Settles O30: each stage's row works its body, and the body's equation says how it goes on. -/
theorem engineStages : Obligations.EngineStages := by
  intro s op core x ev h hu hs
  refine ⟨fun hk c a d hc ha hd => ?quantise, fun hk c a b mask u v hc ha hb hmask hfu hfv => ?multiply,
    fun pc e c t hopn => ⟨_, openTile_fresh s pc e t hopn, rfl, rfl, rfl, rfl⟩,
    fun hk m c d j ws fs hfs hm hc hd hj => ?screed, fun hk c a d r rows n scale out w g hc ha hd hr hn hscale hout hw hg => ?ret⟩
  case quantise =>
    have hrow : exec (.quantise op core ev) s = .next (quantiseBody x s) :=
      congrArg Host.Outcome.next (checkedRow_at h hu hs hk 0x101 quantiseBody)
    refine ⟨fun r rows o w t hr ho hw ht => ?_, fun r hr => by rw [hrow, quantiseBody_unread hc ha hd hr]⟩
    rw [hrow, quantiseBody_read hc ha hd hr ho hw ht]
    exact ⟨fun hok => by rw [if_pos hok], fun hbad => by rw [if_neg (by simp [hbad])]⟩
  case multiply =>
    have hrow : exec (.multiply op core ev) s = .next (multiplyBody ev.arrays x s) :=
      congrArg Host.Outcome.next ((stageRow_at h hu _ _).trans (if_pos hk))
    refine ⟨fun st sm w r ps t hst hsm hw hwork ht => ?_,
      fun hnone => by rw [hrow, multiplyBody_unfed hc ha hb hmask hfu hfv hnone]⟩
    rw [hrow, multiplyBody_fed hc ha hb hmask hfu hfv hst hsm hw hwork ht]
    exact ⟨fun hgo => by rw [if_neg (by simp [hgo])], fun hstop => by rw [if_pos hstop]⟩
  case screed =>
    have hrow : exec (.screed op core ev ws) s = .next (screedBody fs x s) :=
      congrArg Host.Outcome.next (hfs ▸ checkedRow_at h hu hs hk 0x103 (screedBody (ev.arrays ++ writeFaults ws)))
    rw [hrow, screedBody_drains hm hc hd hj rfl]
    exact ⟨fun hdone => by simp only [hdone]; rfl, fun hstop => by rw [if_pos hstop]⟩
  case ret =>
    have hrow : exec (.returnStage op ⟨core, ev⟩) s = .next (returnBody x s) :=
      congrArg Host.Outcome.next (checkedRow_at h hu hs hk 0x101 returnBody)
    rw [hrow, returnBody_read hc ha hd hr hn hscale hout hw hg]
    exact ⟨fun hok => by rw [if_pos hok], fun hbad => by rw [if_neg (by simp [hbad])]⟩

end Sys2Proof.Machine
end

section
/-! PROOF. The VECTOR stages where no error meets them (R128, R131), and what their functions make of a row (R133–R138). -/

namespace Sys2Proof.Machine

/-! The rows of the seventeen functions (R131). -/

/-- The functions of R131: each one's number, its row rule, and the instruction that works it on a core. -/
def vecTable (op core : Nat) (ev : StageEvents) : List (Nat × (VecIn → VecRow) × Instr) :=
  [(0x00, vfCopy, .vecCopy op ⟨core, ev⟩), (0x01, vfAdd, .vecAdd op ⟨core, ev⟩), (0x02, vfSub, .vecSub op ⟨core, ev⟩),
   (0x03, vfMul, .vecMul op ⟨core, ev⟩), (0x10, vfAct, .act op core ev), (0x11, vfActBwd, .actBwd op ⟨core, ev⟩),
   (0x20, vfSmStats, .smStats op ⟨core, ev⟩), (0x21, vfSmNorm, .smNorm op ⟨core, ev⟩),
   (0x22, vfSmBwdSum, .smBwdSum op ⟨core, ev⟩), (0x23, vfSmBwd, .smBwd op ⟨core, ev⟩),
   (0x28, vfLnStats, .lnStats op ⟨core, ev⟩), (0x29, vfNormApply, .normApply op ⟨core, ev⟩),
   (0x2A, vfNormBwdSum, .normBwdSum op ⟨core, ev⟩), (0x2B, vfNormBwd, .normBwd op ⟨core, ev⟩),
   (0x2C, vfRmsStats, .rmsStats op ⟨core, ev⟩), (0x30, vfTopk, .topk op ⟨core, ev⟩), (0x38, vfSegsum, .segsum op ⟨core, ev⟩)]

theorem exec_vecTable {op core num : Nat} {ev : StageEvents} {f : VecIn → VecRow} {i : Instr}
    (h : (num, f, i) ∈ vecTable op core ev) (s : State) : exec i s = .next (vecRow num f op core ev s) := by
  have hall : ∀ e ∈ vecTable op core ev, exec e.2.2 s = .next (vecRow e.1 e.2.1 op core ev s) := by
    simp only [vecTable, List.forall_mem_cons]
    exact ⟨rfl, rfl, rfl, rfl, rfl, rfl, rfl, rfl, rfl, rfl, rfl, rfl, rfl, rfl, rfl, rfl, rfl, nofun⟩
  exact hall _ h

/-- A vector row works the stage of its function, and does nothing at another. -/
theorem vecRow_at {s : State} {op core : Nat} {x : StCtx} {ev : StageEvents} (h : AtStage s op core x) (hu : ev.upsets = [])
    (hs : ev.spot = .agree) (num : Nat) (f : VecIn → VecRow) :
    vecRow num f op core ev s = if isVec num x.rcd then vecBody f x s else s := by
  rw [vecRow, stageRow_at h hu, hs, checked_at h]

/-! The stage over one core: its two inputs, its rows, its output (R128). -/

/-- The second input, read where the function takes one. -/
def vecSecond (x : StCtx) (c : VecCtl) (s r : State) : State × Option (List (List FV)) :=
  match x.desc s x.rcd.dAux with
  | some b => if vecNeedsAux c.func then readVals r x.io b else (r, some [])
  | none => (r, some [])

/-- The rows worked in ascending order, from a state. -/
def vecRowsWorked (f : VecIn → VecRow) (x : StCtx) (c : VecCtl) (s : State) (xs ys : List (List FV)) (t : State) :
    State × VecOut × Bool :=
  (xs.mapIdx (fun k v => (k, v, nthD ys k []))).foldl
    (vecRowStep f x c (if c.func = 0x38 then x.desc s x.rcd.dOut else none)) (t, { rows := [], causes := [], more := [] }, true)

/-- The output written as its format asks. -/
def vecOutPut (x : StCtx) (c : VecCtl) (a : Desc) (s : State) (w : State × VecOut × Bool) : State × Bool :=
  match x.desc s x.rcd.dOut with
  | some d =>
    if c.func = 0x38 ∨ !vecWritesOut c.func then putNoOut w.1 x c a.width w.2.1
    else match d.fmt.float? with
      | some ft => putFloatOut w.1 x c d ft w.2.1
      | none => putBlockOut w.1 x c d w.2.1
  | none => putNoOut w.1 x c a.width w.2.1

/-- How a stage goes on from what its inputs read as, in state `t`. -/
def vecGoesOn (f : VecIn → VecRow) (x : StCtx) (c : VecCtl) (a : Desc) (s t : State) :
    Option (List (List FV)) → Option (List (List FV)) → State
  | some xs, some ys =>
    let w := vecRowsWorked f x c s xs ys t
    let o := vecOutPut x c a s w
    if w.2.2 && o.2 then x.done o.1 else x.fail o.1 stFault
  | _, _ => x.fail t stFault

section Body
variable {s : State} {x : StCtx} {c : VecCtl} {a : Desc} {r y : State × Option (List (List FV))} (f : VecIn → VecRow)
  (hc : VecCtl.ofBytes x.rcd.ctrl = some c) (ha : x.desc s x.rcd.dIn = some a) (hr : r = readVals s x.io a)
  (hy : y = vecSecond x c s r.1)
include hc ha hr hy

theorem vecBody_goesOn : vecBody f x s = vecGoesOn f x c a s y.1 r.2 y.2 := by
  subst hr hy
  simp only [vecBody, hc, ha]
  rfl

theorem vecBody_unread (h : r.2 = none ∨ y.2 = none) : vecBody f x s = x.fail y.1 stFault := by
  rw [vecBody_goesOn f hc ha hr hy]
  obtain hmain | hsecond := h
  · rw [hmain, vecGoesOn]; nofun
  · rw [hsecond, vecGoesOn]; nofun

/-- A stage whose inputs read passes where its rows' records and its output were written whole. -/
theorem vecBody_done {xs ys : List (List FV)} {w : State × VecOut × Bool} {o : State × Bool} (hxs : r.2 = some xs)
    (hys : y.2 = some ys) (hw : w = vecRowsWorked f x c s xs ys y.1) (ho : o = vecOutPut x c a s w)
    (hok : (w.2.2 && o.2) = true) : vecBody f x s = x.done o.1 := by
  rw [vecBody_goesOn f hc ha hr hy, hxs, hys, vecGoesOn, ← hw, ← ho, if_pos hok]

end Body

/-! What the functions make of a row (R133–R138). -/

theorem vfArith_out (op : FV → FV → FV) {v : VecIn} (h : v.ctl.prec = false) :
    (vfArith op v).out = List.zipWith (fun a b => f32.round (op a b)) v.x v.y := by
  simp [vfArith, h]

theorem smValue_masked {m : FV} (h : m = .inf true) (s x : FV) : smValue m s x = fvZero := if_pos h

/-- A wholly masked row gives +0 everywhere (R134). -/
theorem vfSmNorm_masked {v : VecIn} (h : rsF32 v.state 0 = .inf true) : ∀ y ∈ (vfSmNorm v).out, y = fvZero :=
  List.forall_mem_map.2 fun x _ => smValue_masked h _ x

/-- A wholly masked row gives +0 everywhere backwards too (R135). -/
theorem vfSmBwd_masked {v : VecIn} (h : rsF32 v.state 0 = .inf true) : ∀ y ∈ (vfSmBwd v).out, y = fvZero := by
  simp only [vfSmBwd, h, if_true, ← List.map_uncurry_zip_eq_zipWith]
  exact List.forall_mem_map.2 fun _ _ => rfl

theorem vfSmStats_out (v : VecIn) : (vfSmStats v).out = [] := by
  unfold vfSmStats
  extract_lets
  split
  · rfl
  · rfl

/-- The statistics of a norm keep row state alone, at the last piece and before (R136). -/
theorem vfStats_out (rms : Bool) (v : VecIn) : (vfStats rms v).out = [] := by
  simp only [vfStats]
  split
  · rfl
  · rfl

theorem leBytes_length (n v : Nat) : (leBytes n v).length = n := by
  induction n generalizing v with
  | zero => rfl
  | succ n ih => simp [leBytes, ih]

/-- A ranked list cut to `k` at every insertion stays within `k`. -/
theorem rankInserts_length_le {k : Nat} (ascend : Bool) (es : List (FV × Nat)) {old : List (FV × Nat)} (h : old.length ≤ k) :
    (es.foldl (fun l e => (rankInsert ascend e l).take k) old).length ≤ k :=
  List.foldlRecOn (motive := fun l : List (FV × Nat) => l.length ≤ k) es _ h fun _ _ _ _ => List.length_take_le ..

/-- Entries of one size, filled up to `k` of them. -/
theorem length_entries_filled {α : Type} {n k : Nat} {entry : α → List Byte} (hn : ∀ e, (entry e).length = n) {l : List α}
    (hl : l.length ≤ k) (e : α) :
    (l.flatMap entry ++ (List.replicate (k - l.length) (entry e)).flatten).length = n * k := by
  simp only [List.length_append, List.length_flatMap, List.length_flatten, List.map_replicate, hn, List.map_const',
    List.sum_replicate, smul_eq_mul]
  rw [← Nat.add_mul, Nat.add_sub_cancel' hl, Nat.mul_comm]

/-- A top-k row leaves exactly K entries of 8 bytes (R138). -/
theorem vfTopk_puts_length (v : VecIn) : (vfTopk v).puts.map (fun p => p.2.length) = [8 * v.ctl.k] := by
  have hold (l : List (FV × Nat)) (seen : Nat) :
      (if v.ctl.first then [] else l.take (min v.ctl.k seen)).length ≤ v.ctl.k := by
    split
    · exact Nat.zero_le _
    · exact (List.length_take_le ..).trans (Nat.min_le_left ..)
  exact congrArg (fun n => [n]) (length_entries_filled (fun e => by simp [leBytes_length])
    (rankInserts_length_le _ _ (hold _ _)) (.inf true, 0xFFFFFFFF))

/-- Settles O31: each row of `vecTable` works its function's body, whose equations say how it goes on; a row's values
by the function's own definition. -/
theorem vectorStagesAndValues : Obligations.VectorStagesAndValues := by
  refine ⟨fun s op core num f i x ev h hu hs hi => ?stages, fun v => ?values⟩
  case stages =>
    rw [exec_vecTable hi, vecRow_at h hu hs]
    refine ⟨fun hother => by rw [hother]; rfl, fun hvec c a r y hc ha hr hy => ?_⟩
    rw [if_pos hvec]
    exact ⟨fun hnone => by rw [vecBody_unread f hc ha hr hy hnone],
      fun xs ys w o hxs hys hw ho hok => by rw [vecBody_done f hc ha hr hy hxs hys hw ho hok]⟩
  case values =>
    refine ⟨fun hprec => ⟨?copy, vfArith_out _ hprec, vfArith_out _ hprec, vfArith_out _ hprec⟩, rfl, rfl,
      fun hmask => ⟨vfSmNorm_masked hmask, vfSmBwd_masked hmask⟩, vfTopk_puts_length v, vfSmStats_out v, rfl, vfStats_out _ v,
      vfStats_out _ v, rfl, rfl, rfl, List.length_mapIdx .., ?normBwd⟩
    case copy => simp [vfCopy, hprec]
    case normBwd => simp [vfNormBwd]

end Sys2Proof.Machine
end

section
/-! SUPPORT. Where the step stands (R144): a move of its phase, and what leaves it and its fence alone. -/

namespace Sys2Proof.Machine

/-! A move of the phase. -/

/-- From `s` to `t` the step moved to phase `v`: HUB_STEP_STATE keeps its other fields, every other register stays, and
beside registers the step's own books of its phase and of a replay's end alone may differ. -/
structure Moved (s t : State) (v : Nat) : Prop where
  phase : stepPhase t = v
  upper : ∀ hi lo, 2 < lo → hi < 32 → csrField t rHubStepState hi lo = csrField s rHubStepState hi lo
  other : ∀ a, a ≠ rHubStepState → csrGet t a = csrGet s a
  frame : ∃ c ph rt, t = { s with csr := c, step := { s.step with phase := ph, replayTo := rt } }

theorem stepState_set (s : State) {v : Nat} (hv : v < 8) : stepState (setStepState s v) = v :=
  (csrField_setField_self s rHubStepState 2 0 v (by decide) (by decide)).trans (Nat.mod_eq_of_lt hv)

theorem stepPhase_of_stepState {s : State} {v : Nat} (h : stepState s = v) (hv : v ≠ sReplaying) : stepPhase s = v := by
  subst h
  exact if_neg hv

/-- STATE set to a phase, a replay ended or not. -/
theorem setStepState_moved (s : State) {v : Nat} (hv : v < sReplaying) (rt : Option (Nat × Nat)) :
    Moved s (setStepState { s with step := { s.step with replayTo := rt } } v) v where
  phase := stepPhase_of_stepState (stepState_set _ (hv.trans (by decide))) (Nat.ne_of_lt hv)
  upper _ _ hlo hhi := csrField_setField_disjoint _ _ _ _ _ _ _ (by decide) (.inr hlo) hhi
  other _ ha := csrGet_setField_other _ _ _ _ ha
  frame := ⟨_, _, _, rfl⟩

theorem setPhase_moved (s : State) {v : Nat} (hv : v < sReplaying) : Moved s (setPhase s v) v := by
  unfold setPhase
  split
  · next hrep => exact ⟨if_pos hrep, fun _ _ _ _ => rfl, fun _ _ => rfl, ⟨_, _, _, rfl⟩⟩
  · exact setStepState_moved s hv s.step.replayTo

theorem Moved.ite {s t u : State} {v : Nat} {p : Prop} [Decidable p] (ht : Moved s t v) (hu : Moved s u v) :
    Moved s (if p then t else u) v := by
  split
  · exact ht
  · exact hu

theorem enterDeciding_moved (s : State) : Moved s (enterDeciding s) sDeciding :=
  (setStepState_moved s (by decide) none).ite (setPhase_moved s (by decide))

/-! What leaves the fence alone. -/

/-- From `s` to `t` the fence and its operations stay, and a step that is OPEN stays OPEN. -/
def FenceKept (s t : State) : Prop :=
  t.step.fence = s.step.fence ∧ t.step.fenceOps = s.step.fenceOps ∧ (stepPhase s = sOpen → stepPhase t = sOpen)

theorem FenceKept.refl (s : State) : FenceKept s s := ⟨rfl, rfl, id⟩

theorem FenceKept.trans {s t u : State} (h : FenceKept s t) (k : FenceKept t u) : FenceKept s u :=
  ⟨k.1.trans h.1, k.2.1.trans h.2.1, k.2.2 ∘ h.2.2⟩

theorem FenceKept.foldl {α : Type} {f : State → α → State} (h : ∀ s a, FenceKept s (f s a)) (l : List α)
    (s : State) : FenceKept s (l.foldl f s) := by
  induction l generalizing s with
  | nil => exact .refl s
  | cons a r ih => exact (h s a).trans (ih _)

theorem FenceKept.ite {s t u : State} {p : Prop} [Decidable p] (h : FenceKept s t) (k : FenceKept s u) :
    FenceKept s (if p then t else u) := by
  split
  · exact h
  · exact k

theorem queuePut_fenceKept (s : State) (q : Nat) (x : Queue) : FenceKept s (queuePut s q x) := ⟨rfl, rfl, id⟩

theorem StepKept.fenceKept {s t : State} (h : StepKept s t) : FenceKept s t := by
  have hphase := h.stepPhase_eq
  obtain ⟨-, hstep, -⟩ := h
  exact ⟨by rw [hstep], by rw [hstep], fun hopen => hphase.trans hopen⟩

/-! Completions and beginnings leave the fence. -/

theorem ringWrite_stepKept (s : State) (q : Nat) (r : Bool) (e : List Byte) : StepKept s (ringWrite s q r e) := by
  unfold ringWrite
  dsimp only
  split
  · exact ⟨⟨rfl, rfl⟩, rfl, rfl⟩
  · have written := writeMem_stepKept s ((queueAt s q).cq + 64 + 32 * ((queueAt s q).tail % ((queueAt s q).depth + 64))) e
    split
    · exact written.trans (csrBump_stepKept _ _ _ _ (Nat.lt_add_right _ (by decide)))
    · exact (written.trans (writeMem_stepKept ..)).trans ⟨⟨rfl, rfl⟩, rfl, rfl⟩

theorem cmdReply_stepKept (s : State) (o : Origin) (quiet : Bool) (e : List Byte) : StepKept s (cmdReply s o quiet e) := by
  unfold cmdReply sendAnswer
  dsimp only
  repeat' split
  · exact .refl s
  · exact .refl s
  · exact ⟨⟨rfl, rfl⟩, rfl, rfl⟩

theorem noteOp_fenceKept (s : State) (c : Cmd) (st : Nat) : FenceKept s (noteOp s c st) := by
  unfold noteOp
  split
  · exact .refl s
  · exact ⟨rfl, rfl, id⟩

/-- A replay that has reached the state its fault interrupted moves STATE to OPEN (R144). -/
theorem report_fenceKept (s : State) (c : Cmd) (st fl : Nat) (r : List Byte) : FenceKept s (report s c st fl r) := by
  unfold report
  dsimp only
  split
  · exact noteOp_fenceKept ..
  · split
    · have noted (l : List (Nat × Nat)) : FenceKept s (noteOp { s with step := { s.step with silent := l } } c st) :=
        FenceKept.trans (t := { s with step := { s.step with silent := l } }) ⟨rfl, rfl, id⟩ (noteOp_fenceKept ..)
      split
      · exact (noted _).trans ⟨rfl, rfl, fun _ => stepPhase_of_stepState (stepState_set _ (by decide)) (by decide)⟩
      · exact noted _
    · refine FenceKept.trans (StepKept.fenceKept ?_) ((noteOp_fenceKept ..).trans (cmdReply_stepKept ..).fenceKept)
      exact StepKept.trans ⟨⟨rfl, rfl⟩, rfl, rfl⟩ (ringWrite_stepKept ..)

theorem finish_fenceKept (s : State) (c : Cmd) (st : Nat) : FenceKept s (finish s c st) := by
  have reported (l : List Flight) : FenceKept s { report s c st 0 [] with flights := l } :=
    (report_fenceKept s c st 0 []).trans ⟨rfl, rfl, id⟩
  unfold finish complete
  dsimp only
  split
  · exact reported _
  · exact (reported _).trans (queuePut_fenceKept ..)

theorem logEntry_fenceKept (s : State) (q : Nat) (e : List Byte) : FenceKept s (logEntry s q e) := by
  have logged : FenceKept s { s with step := { s.step with cmdLog := s.step.cmdLog ++ [(q, e)] } } := ⟨rfl, rfl, id⟩
  unfold logEntry
  dsimp only
  split
  · exact logged.trans (writeMem_stepKept ..).fenceKept
  · exact logged.trans (csrSetField_stepKept _ _ _ _ (by decide)).fenceKept

theorem markBegun_fenceKept (s : State) (q qseq : Nat) : FenceKept s (markBegun s q qseq) := by
  unfold markBegun
  dsimp only
  split
  · exact .refl s
  · exact FenceKept.ite ((queuePut_fenceKept ..).trans (logEntry_fenceKept ..)) (queuePut_fenceKept ..)

end Sys2Proof.Machine
end

section
/-! PROOF. STEP_BEGIN opens the step; STEP_COMMIT and STEP_SKIP hold their fence (R147, R165, R166). -/

namespace Sys2Proof.Machine

/-! Numbers of a byte string. -/

theorem leNat_lt (bs : List Byte) : leNat bs < 256 ^ bs.length := by
  induction bs with
  | nil => exact Nat.one_pos
  | cons b r ih =>
    have hb := b.isLt
    rw [leNat, List.length_cons, Nat.pow_succ]
    omega

theorem sliceB_length (bs : List Byte) (off n : Nat) : (sliceB bs off n).length = n := by
  simp only [sliceB, List.length_append, List.length_replicate, List.length_take]
  omega

theorem leAt_lt (bs : List Byte) (off n : Nat) : leAt bs off n < 256 ^ n :=
  (leNat_lt _).trans_eq (by rw [sliceB_length])

/-! STEP_BEGIN (R147). -/

/-- What STEP_BEGIN sets besides the phase, and what it leaves, from `s` to `u`. -/
structure OpensBooks (s u : State) (attempt level mbs : Nat) : Prop where
  attempt : csrField u rHubStepState 31 16 = attempt
  level : csrField u rHubStepState 7 7 = level
  beganAt : u.step.beganAt = s.plumb
  microbatches : u.step.microbatches = mbs
  fence : u.step.fence = none
  vote : u.step.vote = none
  nfLocal : u.step.nfLocal = false
  chip : u.chip = s.chip
  job : u.job = s.job
  queues : u.queues = s.queues
  mem : CleanMem s → u.mem = s.mem

theorem OpensBooks.moved {s t u : State} {attempt level mbs v : Nat} (h : OpensBooks s t attempt level mbs)
    (hm : Moved t u v) : OpensBooks s u attempt level mbs := by
  obtain ⟨-, hupper, -, c, ph, rt, rfl⟩ := hm
  exact { h with
    attempt := (hupper 31 16 (by decide) (by decide)).trans h.attempt
    level := (hupper 7 7 (by decide) (by decide)).trans h.level }

theorem openStep_opens (s : State) {attempt level : Nat} (mbs : Nat) (ha : attempt < 2 ^ 16) (hl : level < 2) :
    stepPhase (openStep s attempt level mbs) = sOpen ∧ OpensBooks s (openStep s attempt level mbs) attempt level mbs := by
  unfold openStep
  extract_lets at' r read steps _ st _ books fields
  have hread : ErrOnly s read ∧ (CleanMem s → read.mem = s.mem) := by
    unfold read r
    split
    · exact ⟨.refl s, fun _ => rfl⟩
    · exact ⟨readMem_books .., fun h => by rw [readMem_clean h]⟩
  obtain ⟨⟨hunits, hqueues, -⟩, hmem⟩ := hread
  obtain ⟨-, hjob, -, hchip, -, -, -, -, -, -, -, -, -, -, hplumb, -⟩ := hunits
  have hbooks : OpensBooks s fields attempt level mbs :=
    { attempt := by
        rw [csrField_setField_disjoint _ _ _ _ _ _ _ (by decide) (.inr (by decide)) (by decide),
          csrField_setField_self _ _ _ _ _ (by decide) (by decide), Nat.mod_eq_of_lt ha]
      level := (csrField_setField_self _ _ _ _ _ (by decide) (by decide)).trans (Nat.mod_eq_of_lt hl)
      beganAt := hplumb, microbatches := rfl, fence := rfl, vote := rfl, nfLocal := rfl
      chip := hchip, job := hjob, queues := hqueues, mem := hmem }
  suffices hmoved : Moved fields _ sOpen from ⟨hmoved.phase, hbooks.moved hmoved⟩
  exact (setStepState_moved fields (by decide) none).ite (setPhase_moved fields (by decide))

theorem bodyStepBegin_opens {c : Cmd} {s : State} (h : stepBeginCheck s c = none) :
    bodyStepBegin c s = some (finish (openStep s (leAt c.body 8 2) (leAt c.body 10 1) (leAt c.body 11 1)) c stOk) := by
  simp only [bodyStepBegin, h]

/-- A level that the checks let through is 0 or 1 (R147). -/
theorem stepBeginCheck_level {c : Cmd} {s : State} (h : stepBeginCheck s c = none) : leAt c.body 10 1 < 2 := by
  unfold stepBeginCheck at h
  dsimp only at h
  split_ifs at h with _ _ hbody
  rw [not_or] at hbody
  omega

theorem bodyStepBegin_notIdle {c : Cmd} {s : State} (h : stepPhase s ≠ sIdle) :
    bodyStepBegin c s = some (finish s c stNotReady) := by
  have hcheck : stepBeginCheck s c = some stNotReady := if_pos (.inl h)
  simp only [bodyStepBegin, hcheck, if_neg h]

/-! STEP_COMMIT and STEP_SKIP (R165, R166). -/

theorem sweepEarly_fenceKept (s : State) (f : Fence) : FenceKept s (sweepEarly s f) :=
  FenceKept.trans ⟨rfl, rfl, id⟩ (FenceKept.foldl (fun _ _ => (markBegun_fenceKept ..).trans (finish_fenceKept ..)) _ _)

/-- The fence of `c` held, its command in flight. -/
def fenceHeld (s : State) (c : Cmd) : State :=
  fly { s with step := { s.step with fence := some (fenceOfCmd c), fenceOps := none } } c

theorem bodyFence_holds {c : Cmd} {s : State} (hopen : stepPhase s = sOpen) (hplaced : placed? s = true)
    (hfence : s.step.fence = none) (hbody : fenceBodyOk c = true) :
    bodyFence c s = some (if (fenceOfCmd c).early then sweepEarly (fenceHeld s c) (fenceOfCmd c) else fenceHeld s c) := by
  simp [bodyFence, hopen, hplaced, hfence, hbody, fenceHeld]

/-- STEP_COMMIT and STEP_SKIP that begin have the same meaning. -/
theorem exec_fence_begins {s : State} {q qseq op : Nat} {c : Cmd} {i : Instr} (h : Begins s q qseq op c)
    (hi : (op = 0x0503 ∧ i = .stepCommit q qseq) ∨ (op = 0x0504 ∧ i = .stepSkip q qseq)) :
    exec i s = .next ((bodyFence c (markBegun s q qseq)).getD s) := by
  have ⟨_, hop, _⟩ := h
  obtain ⟨rfl, rfl⟩ | ⟨rfl, rfl⟩ := hi
  · exact congrArg Host.Outcome.next (hostRow_begins h (by simp [hop]))
  · exact congrArg Host.Outcome.next (hostRow_begins h (by simp [hop]))

/-- Settles O20: what opening the step sets and leaves by `OpensBooks`, a fence by `bodyFence`'s last branch. -/
theorem stepBeginsAndFences : Obligations.StepBeginsAndFences := by
  refine ⟨fun s q qseq c h => ?begin, fun s q qseq op c i h hi hopen hplaced hfence hbody => ?fence⟩
  case begin =>
    have ⟨_, hop, _⟩ := h
    have hexec : exec (.stepBegin q qseq) s = .next ((bodyStepBegin c (markBegun s q qseq)).getD s) :=
      congrArg Host.Outcome.next (hostRow_begins h (by simp [hop]))
    refine ⟨fun hcheck => ?_, fun hidle => ⟨_, by rw [hexec, bodyStepBegin_notIdle hidle]; rfl, rfl⟩⟩
    obtain ⟨hphase, hbooks⟩ := openStep_opens (markBegun s q qseq) (leAt c.body 11 1) (leAt_lt c.body 8 2)
      (stepBeginCheck_level hcheck)
    exact ⟨_, by rw [hexec, bodyStepBegin_opens hcheck]; rfl, hphase, hbooks.attempt, hbooks.level, hbooks.beganAt,
      hbooks.microbatches, hbooks.fence, hbooks.vote, hbooks.nfLocal, hbooks.chip, hbooks.job, hbooks.queues, hbooks.mem⟩
  case fence =>
    have ⟨_, hop, _⟩ := h
    rw [exec_fence_begins h hi, bodyFence_holds hopen hplaced hfence hbody, Option.getD_some]
    have hkept : FenceKept (fenceHeld (markBegun s q qseq) c)
        (if (fenceOfCmd c).early then sweepEarly (fenceHeld (markBegun s q qseq) c) (fenceOfCmd c)
          else fenceHeld (markBegun s q qseq) c) :=
      .ite (sweepEarly_fenceKept ..) (.refl _)
    obtain ⟨hkfence, hkops, hkopen⟩ := hkept
    refine ⟨_, rfl, hkfence, hkops, rfl, rfl, by simp [fenceOfCmd, hop], by simp [fenceOfCmd, hop], hkopen hopen,
      fun hearly => ?_⟩
    rw [if_neg (by simp [hearly])]
    exact ⟨rfl, by simp [SameUnits, fenceHeld, fly], rfl, rfl⟩

end Sys2Proof.Machine
end

section
/-! PROOF. A reached fence starts the vote, and the vote commits or skips (R161, R163, R165, R167). -/

namespace Sys2Proof.Machine

/-! Numbers written into a byte string. -/

theorem leNat_leBytes (n v : Nat) : leNat (leBytes n v) = v % 256 ^ n := by
  induction n generalizing v with
  | zero => simp [leBytes, leNat, Nat.mod_one]
  | succ n ih =>
    rw [leBytes, leNat, ih, BitVec.toNat_ofNat, Nat.pow_succ' (m := 256), Nat.mod_mul]

theorem sliceB_append_self (a bs r : List Byte) : sliceB (a ++ bs ++ r) a.length bs.length = bs := by
  simp [sliceB]

/-- A number written after other bytes reads as written. -/
theorem leAt_leBytes (a r : List Byte) (n v : Nat) : leAt (a ++ leBytes n v ++ r) a.length n = v % 256 ^ n := by
  have h := sliceB_append_self a (leBytes n v) r
  rw [leBytes_length] at h
  rw [leAt, h, leNat_leBytes]

theorem leAt_head (b : Byte) (r : List Byte) : leAt (b :: r) 0 1 = b.toNat := by
  simp [leAt, sliceB, leNat]

/-! STEPS (R145). -/

theorem csrGet64_lt (s : State) (a : Nat) : csrGet64 s a < 2 ^ 64 := by
  have lo : csrGet s a < 2 ^ 32 := BitVec.isLt _
  have hi : csrGet s (a + 4) < 2 ^ 32 := BitVec.isLt _
  unfold csrGet64
  omega

theorem csrGet64_put64 (s : State) (a v : Nat) : csrGet64 (csrPut64 s a v) a = v % 2 ^ 64 := by
  rw [csrGet64, csrPut64, csrGet_put_self, csrGet_put_other _ _ _ _ (by omega), csrGet_put_self]
  omega

theorem csrPut64_withCsr (s : State) (a v : Nat) : ∃ l, csrPut64 s a v = withCsr s l := ⟨_, rfl⟩

theorem stepsOf_congr {s t : State} (h : ∀ a, a ≠ rHubStepState → csrGet t a = csrGet s a) : stepsOf t = stepsOf s := by
  rw [stepsOf, stepsOf, csrGet64, csrGet64, h _ (by decide), h _ (by decide)]

theorem Moved.stepsOf_eq {s t : State} {v : Nat} (h : Moved s t v) : stepsOf t = stepsOf s := stepsOf_congr h.other

/-! The vote's word (R167). -/

theorem voteWord_steps (s : State) (f : Fence) : leAt (voteWord s f) 4 8 = stepsOf s := by
  rw [voteWord, List.append_assoc]
  exact (leAt_leBytes [_, _, _, _] _ 8 (stepsOf s)).trans (Nat.mod_eq_of_lt (csrGet64_lt ..))

theorem voteWord_bits (s : State) (f : Fence) :
    bitOf (leAt (voteWord s f) 0 1) 0 = s.step.nfLocal ∧ bitOf (leAt (voteWord s f) 0 1) 1 = f.skip := by
  have hhead : leAt (voteWord s f) 0 1 = (byteOf (boolNat s.step.nfLocal + 2 * boolNat f.skip)).toNat := leAt_head ..
  rw [hhead]
  cases s.step.nfLocal <;> cases f.skip <;> decide

/-! FENCE_REACHED (R165). -/

section Reached
variable {s : State} {f : Fence} (hfence : s.step.fence = some f) (hopen : stepPhase s = sOpen)
  (hpassed : fencePassed s f = true) (hflights : stepFlights s = []) (hops : s.step.fenceOps = none)
include hfence hopen hpassed hflights hops

/-- With nothing of the step in flight the device decides, unless a STEP_COMMIT meets a stranded stack. -/
theorem fenceReachedState_passed : fenceReachedState s = if !f.skip && strandedHawk s f.carry
    then finish { s with step := { s.step with fence := none, fenceOps := none } } f.cmd stNotReady
    else startVote (enterDeciding { s with step := { s.step with fenceOps := some [] } }) 1
      (voteWord (enterDeciding { s with step := { s.step with fenceOps := some [] } }) f) := by
  simp only [fenceReachedState, hfence, hopen, hpassed, hflights, hops]
  rfl

theorem fenceReached_votes (hgo : f.skip = true ∨ strandedHawk s f.carry = false) :
    exec .fenceReached s = .next (startVote (enterDeciding { s with step := { s.step with fenceOps := some [] } }) 1
      (voteWord (enterDeciding { s with step := { s.step with fenceOps := some [] } }) f)) := by
  have hneg : ¬ (!f.skip && strandedHawk s f.carry) = true := by
    obtain h | h := hgo
    · simp [h]
    · simp [h]
  exact congrArg Host.Outcome.next ((fenceReachedState_passed hfence hopen hpassed hflights hops).trans (if_neg hneg))

/-- A STEP_COMMIT over a stack outside its mask that holds frames is refused, and the stacks stay (R157). -/
theorem fenceReached_refuses (hskip : f.skip = false) (hstranded : strandedHawk s f.carry = true) :
    ∃ u, exec .fenceReached s = .next (finish u f.cmd stNotReady) ∧ u.step.fence = none ∧ stepPhase u = sOpen
      ∧ u.hawk = s.hawk :=
  ⟨_, congrArg Host.Outcome.next ((fenceReachedState_passed hfence hopen hpassed hflights hops).trans
    (if_pos (by simp [hskip, hstranded]))), rfl, hopen, rfl⟩

end Reached

/-! COMMIT_VOTE (R161, R163, R165, R167). -/

theorem voteOutcome_eq (w : List Byte) : voteOutcome w = if leAt w 4 8 &&& leAt w 12 8 ≠ 0 then 4
    else if bitOf (leAt w 0 1) 1 then 3 else if bitOf (leAt w 0 1) 0 then 2 else 1 := rfl

/-- The vote's books closed and its outcome noted, over which the device commits or skips. -/
def voteClosed (s : State) (o : Nat) : State :=
  csrSetField { s with step := { s.step with fence := none, fenceOps := none, vote := none, voteDone := false } }
    rHubStepState 11 8 o

theorem voteClosed_outcome (s : State) {o : Nat} (h : o < 16) : csrField (voteClosed s o) rHubStepState 11 8 = o :=
  (csrField_setField_self _ _ _ _ _ (by decide) (by decide)).trans (Nat.mod_eq_of_lt h)

theorem voteClosed_stepsOf (s : State) (o : Nat) : stepsOf (voteClosed s o) = stepsOf s :=
  stepsOf_congr fun _ ha => csrGet_setField_other _ _ _ _ ha

section Voted
variable {s : State} {f : Fence} {w : List Byte} (hfence : s.step.fence = some f) (hvote : s.step.vote = some w)
  (hdone : s.step.voteDone = true) (hphase : stepPhase s = sDeciding)
include hfence hvote hdone hphase

theorem commitVoteState_commits (h : voteOutcome w = 1) :
    commitVoteState s = finish (commitStep (voteClosed s 1) f) f.cmd stOk := by
  simp only [commitVoteState, hfence, hvote, hdone, hphase, h]
  exact if_neg (by simp)

theorem commitVoteState_skips (h : voteOutcome w = 2 ∨ voteOutcome w = 3) :
    commitVoteState s = finish (skipStep (voteClosed s (voteOutcome w))) f.cmd stSkipped := by
  obtain h | h := h
  · simp only [commitVoteState, hfence, hvote, hdone, hphase, h]
    exact if_neg (by simp)
  · simp only [commitVoteState, hfence, hvote, hdone, hphase, h]
    exact if_neg (by simp)

theorem commitVoteState_faults (h : voteOutcome w = 4) : ∃ u, commitVoteState s = finish u f.cmd stFault := by
  simp only [commitVoteState, hfence, hvote, hdone, hphase, h]
  exact ⟨_, rfl⟩

end Voted

/-- The tensors, the norms and the carried mask of a commit, STEPS and the phase still as they were. -/
def slotsCommitted (s : State) (f : Fence) : State :=
  commitNorms { s with
    job := { s.job with tensors := s.job.tensors.map Tensor.commit }, step := { s.step with carriedNow := f.carry } }

/-- STEPS counted one further over the slots committed (R145). -/
def stepCounted (s : State) (f : Fence) : State :=
  csrPut64 (slotsCommitted s f) rHubStepCountLo (stepsOf (slotsCommitted s f) + 1)

theorem slotsCommitted_csrGet (s : State) (f : Fence) (a : Nat) : csrGet (slotsCommitted s f) a = csrGet s a := rfl

/-- From `s` to `t` STEPS, the carried mask and the tensors' slots are as decided, and the vote's outcome, the fence,
memory and the engines as they were. -/
structure Decided (s t : State) (steps carried : Nat) (slots : Tensor → Tensor) : Prop where
  steps : stepsOf t = steps
  outcome : csrField t rHubStepState 11 8 = csrField s rHubStepState 11 8
  tensors : t.job.tensors = s.job.tensors.map slots
  carried : t.step.carriedNow = carried
  fence : t.step.fence = s.step.fence
  mem : t.mem = s.mem
  chip : t.chip = s.chip

theorem Decided.moved {s t u : State} {v steps carried : Nat} {slots : Tensor → Tensor} (h : Decided s t steps carried slots)
    (hm : Moved t u v) : Decided s u steps carried slots := by
  have hsteps := hm.stepsOf_eq
  obtain ⟨-, hupper, -, c, ph, rt, rfl⟩ := hm
  exact { h with steps := hsteps.trans h.steps, outcome := (hupper 11 8 (by decide) (by decide)).trans h.outcome }

theorem stepsOf_stepCounted (s : State) (f : Fence) : stepsOf (stepCounted s f) = (stepsOf s + 1) % 2 ^ 64 := by
  have hcount : stepsOf (slotsCommitted s f) = stepsOf s := stepsOf_congr fun _ _ => rfl
  rw [stepsOf, stepCounted, csrGet64_put64, hcount]

theorem stepCounted_stepState (s : State) (f : Fence) : csrGet (stepCounted s f) rHubStepState = csrGet s rHubStepState := by
  rw [stepCounted, csrPut64, csrGet_put_other _ _ _ _ (by decide), csrGet_put_other _ _ _ _ (by decide), slotsCommitted_csrGet]

theorem stepCounted_decided (s : State) (f : Fence) :
    Decided s (stepCounted s f) ((stepsOf s + 1) % 2 ^ 64) f.carry Tensor.commit := by
  have hsteps := stepsOf_stepCounted s f
  have hreg := stepCounted_stepState s f
  obtain ⟨l, hl⟩ := csrPut64_withCsr (slotsCommitted s f) rHubStepCountLo (stepsOf (slotsCommitted s f) + 1)
  rw [stepCounted, hl] at hsteps hreg ⊢
  exact ⟨hsteps, csrField_congr hreg _ _, rfl, rfl, rfl, rfl, rfl⟩

/-- What committing does: STEPS one further, every pending slot the committed one, the carried mask in force. -/
theorem commitStep_commits (s : State) (f : Fence) : stepPhase (commitStep s f) = sCommitted
    ∧ Decided s (commitStep s f) ((stepsOf s + 1) % 2 ^ 64) f.carry Tensor.commit := by
  have hmoved : Moved (stepCounted s f) (commitStep s f) sCommitted := setPhase_moved (stepCounted s f) (by decide)
  exact ⟨hmoved.phase, (stepCounted_decided s f).moved hmoved⟩

/-- The tensors and the carried mask of a skip, the phase still as it was. -/
def slotsDiscarded (s : State) : State :=
  { s with job := { s.job with tensors := s.job.tensors.map Tensor.discard }, step := { s.step with carriedNow := 0 } }

/-- What skipping does: STEPS as it was, every pending slot given up, no stack carried. -/
theorem skipStep_skips (s : State) : stepPhase (skipStep s) = sSkipped
    ∧ Decided s (skipStep s) (stepsOf s) 0 Tensor.discard := by
  have hmoved : Moved (slotsDiscarded s) (skipStep s) sSkipped := setPhase_moved _ (by decide)
  have hdecided : Decided s (slotsDiscarded s) (stepsOf s) 0 Tensor.discard := ⟨rfl, rfl, rfl, rfl, rfl, rfl, rfl⟩
  exact ⟨hmoved.phase, hdecided.moved hmoved⟩

/-- Settles O21: a passed fence by `fenceReachedState_passed`, a vote by its outcome. -/
theorem fenceAndVoteDecide : Obligations.FenceAndVoteDecide := by
  refine ⟨fun s f hfence hopen hpassed hflights hops => ⟨fun hgo => ?votes, fun hskip hstranded => ?refuses⟩,
    fun s f w hfence hvote hdone hphase => ?voted⟩
  case votes =>
    have hmoved := enterDeciding_moved { s with step := { s.step with fenceOps := some [] } }
    have hsteps := hmoved.stepsOf_eq
    obtain ⟨hphase, -, -, c, ph, rt, heq⟩ := hmoved
    obtain ⟨hnf, hskip⟩ := voteWord_bits (enterDeciding { s with step := { s.step with fenceOps := some [] } }) f
    refine ⟨_, fenceReached_votes hfence hopen hpassed hflights hops hgo, hphase, ?_, hnf.trans ?_, hskip,
      (voteWord_steps ..).trans hsteps, ?_, ?_, ?_⟩
    · rw [heq]; exact hfence
    all_goals rw [heq]
  case refuses =>
    obtain ⟨u, hexec, hnone, hstill, -⟩ := fenceReached_refuses hfence hopen hpassed hflights hops hskip hstranded
    exact ⟨u, hexec, hnone, hstill⟩
  case voted =>
    refine ⟨fun h => by rw [voteOutcome_eq, if_pos h], fun h hskip => by simp [voteOutcome_eq, h, hskip],
      fun h hskip hnf => by simp [voteOutcome_eq, h, hskip, hnf], fun h hskip hnf => by simp [voteOutcome_eq, h, hskip, hnf],
      fun h => ?commits, fun h => ?skips, fun h => ?faults⟩
    case commits =>
      obtain ⟨hat, hdecided⟩ := commitStep_commits (voteClosed s 1) f
      exact ⟨_, congrArg Host.Outcome.next (commitVoteState_commits hfence hvote hdone hphase h), hat,
        by rw [hdecided.steps, voteClosed_stepsOf], hdecided.outcome.trans (voteClosed_outcome s (by decide)),
        hdecided.tensors, hdecided.carried, hdecided.fence, hdecided.mem, hdecided.chip⟩
    case skips =>
      obtain ⟨hat, hdecided⟩ := skipStep_skips (voteClosed s (voteOutcome w))
      exact ⟨_, congrArg Host.Outcome.next (commitVoteState_skips hfence hvote hdone hphase h), hat,
        by rw [hdecided.steps, voteClosed_stepsOf], hdecided.outcome.trans (voteClosed_outcome s (by omega)),
        hdecided.tensors, hdecided.carried, hdecided.fence, hdecided.mem, hdecided.chip⟩
    case faults =>
      obtain ⟨u, hu⟩ := commitVoteState_faults hfence hvote hdone hphase h
      exact ⟨u, congrArg Host.Outcome.next hu⟩

end Sys2Proof.Machine
end

section
/-! PROOF. STEP_SEAM ends the step in IDLE, and the PERMUTE vote switches the layout or leaves it (R168, R295, R368). -/

namespace Sys2Proof.Machine

/-! The seam's end (R168). -/

/-- Nothing is compared for a step that was not replayed (R368). -/
theorem digestCase_first {s : State} (h : s.step.again = false) (outcome : Nat) : digestCase s outcome = 0 := by
  simp [digestCase, h]

/-- The seam's end completes the command by what the digests say, over a step closed: IDLE, at level 0, its log and norms
empty. -/
theorem seamTail_closes (s : State) (c : Cmd) : ∃ u,
    seamTail s c = finish u c (if digestCase { s with mem := { s.mem with ptrs := [] } } (csrField s rHubStepState 11 8) = 1
      then stFault else stOk)
      ∧ stepPhase u = sIdle ∧ csrField u rHubStepState 7 7 = 0 ∧ u.step.cmdLog = [] ∧ u.step.norms = [] := by
  unfold seamTail
  extract_lets outcome m cleared digest norm sampled decided mirrored marked stepSt closed
  have hlow : csrField marked rHubStepState 7 7 = 0 :=
    (csrField_setField_disjoint _ _ _ _ _ _ _ (by decide) (.inr (by decide)) (by decide)).trans
      (csrField_setField_self mirrored _ _ _ _ (by decide) (by decide))
  clear_value marked
  have hmoved : Moved _ closed sIdle := setPhase_moved _ (by decide)
  have hlevel := hmoved.upper 7 7 (by decide) (by decide)
  obtain ⟨hphase, -, -, r, ph, rt, heq⟩ := hmoved
  exact ⟨closed, rfl, hphase, hlevel.trans hlow, by rw [heq], by rw [heq]⟩

theorem seamRest_waits {s : State} (c : Cmd) (h : seamWaits (seamTests (seamRetires s)) = true) : seamRest s c
    = { seamTests (seamRetires s) with snag := { (seamTests (seamRetires s)).snag with seamHold := some c } } := if_pos h

theorem seamRest_goesOn {s : State} (c : Cmd) (h : seamWaits (seamTests (seamRetires s)) = false) :
    seamRest s c = seamTail (seamTests (seamRetires s)) c := if_neg (by simp [h])

/-! STEP_SEAM (R95, R168, R342). -/

/-- A seam whose lists read and pass their checks loads them, and goes on where no PERMUTE is due. -/
theorem bodyStepSeam_loads {c : Cmd} {s r p l : State} {rb : List Byte} {pals : List (Nat × List Nat)}
    (hphase : stepPhase s = sCommitted ∨ stepPhase s = sSkipped) (hbody : seamBodyOk s c.body = true)
    (hrecs : readMem s (leAt c.body 8 8) (64 * leAt c.body 0 2) = (r, some rb))
    (hpals : readPalettes (leAt c.body 16 8) (maskedSlots (leAt c.body 2 1)) r = (p, some pals))
    (hnums : noRepeats ((seamRecords rb).map (·.1)) = true) (hvalid : (chunksOf 64 rb.length rb).all seamRecordOk = true)
    (hlevels : pals.all (fun x => x.2.all levelValid) = true) (hl : l = loadSeam (seamHawk (fly p c)) (seamRecords rb) pals)
    (hdue : permuteDue l = false) : bodyStepSeam c s = some (seamRest l c) := by
  have hat : ¬ (stepPhase s ≠ sCommitted ∧ stepPhase s ≠ sSkipped) := by tauto
  simp only [bodyStepSeam, if_neg hat, hbody, hrecs, hpals, hnums, hvalid, hlevels, ← hl, hdue]
  rfl

/-! PERMUTE_VOTE (R295). -/

/-- The PERMUTE no longer held: HELD falls, and nothing else changes. -/
def permuteDropped (s : State) : State := csrSetField { s with coll := { s.coll with permute := none } } rColEpoch 16 16 0

theorem permuteDropped_epoch (s : State) :
    csrField (permuteDropped s) rColEpoch 16 16 = 0 ∧ epochOf (permuteDropped s) = epochOf s :=
  ⟨csrField_setField_self _ _ _ _ _ (by decide) (by decide),
    csrField_setField_disjoint _ _ _ _ _ _ _ (by decide) (.inl (by decide)) (by decide)⟩

/-- The seam that carried a PERMUTE goes on; one run outside a seam leaves nothing behind it. -/
def permuteGoesOn (p : Permute) (s : State) : State :=
  match p.seam with
  | some c => seamRest s c
  | none => s

theorem permuteVoteState_ends {s : State} {p : Permute} (hp : s.coll.permute = some p) (hstage : p.stage = 3) :
    permuteVoteState s = permuteGoesOn p (if p.failed then finish (permuteDropped s) p.cmd stTimeout
      else finish (permuteInstall (permuteDropped s) p).1 p.cmd
        (if (permuteInstall (permuteDropped s) p).2 then stOk else stFault)) := by
  simp only [permuteVoteState, hp, hstage]
  rfl

theorem permuteGoesOn_alone {p : Permute} (s : State) (h : p.seam = none) : permuteGoesOn p s = s := by
  simp [permuteGoesOn, h]

theorem permuteGoesOn_seam {p : Permute} {c : Cmd} (s : State) (h : p.seam = some c) : permuteGoesOn p s = seamRest s c := by
  simp [permuteGoesOn, h]

theorem csrPut_eq_withCsr (s : State) (a v : Nat) : csrPut s a v = withCsr s (stSet 0 s.csr a (BitVec.ofNat 32 v)) := rfl

/-- Only registers differ from `s` to `t`. -/
def CsrOnly (s t : State) : Prop := ∃ l, t = withCsr s l

theorem CsrOnly.put {s t : State} (h : CsrOnly s t) (a v : Nat) : CsrOnly s (csrPut t a v) := by
  obtain ⟨l, rfl⟩ := h
  exact ⟨_, csrPut_eq_withCsr ..⟩

theorem setCoordinate_csrOnly (s : State) (shape : Nat × Nat × Nat) (id : Nat) (map : List Nat) :
    CsrOnly s (setCoordinate s shape id map) := by
  have hs : CsrOnly s s := ⟨s.csr, rfl⟩
  exact ((((hs.put _ _).put _ _).put _ _).put _ _).put _ _

/-- The map and the parameter table of a new layout, the registers still as they were. -/
def layoutPut (r : State) (ids : List Nat) (ts : List Tensor) : State :=
  { r with coll := { r.coll with map := ids }, job := { r.job with tensors := ts.map (fun x => { x with prevOk := false }) } }

/-- A layout whose tables read valid is installed: coordinate and epoch are set over its map and table. -/
theorem permuteInstall_valid {s r : State} {p : Permute} {ids : List Nat} {ts : List Tensor}
    (h : permuteTables s p.cmd.body = (r, some (ids, ts))) :
    ∃ l, permuteInstall s p
      = (csrSetField (withCsr (layoutPut r ids ts) l) rColEpoch 15 0 (leAt p.cmd.body 0 2), true) := by
  obtain ⟨l, hl⟩ := setCoordinate_csrOnly (layoutPut r ids ts) (pmShape p.cmd.body)
    (csrField (layoutPut r ids ts) rColId 11 0) ids
  refine ⟨l, ?_⟩
  rw [← hl, permuteInstall]
  simp only [h]
  rfl

/-- Settles O22: the seam's end by `seamTail_closes`, the PERMUTE by `permuteVoteState_ends`. -/
theorem seamAndPermuteEnd : Obligations.SeamAndPermuteEnd := by
  refine ⟨fun s q qseq c h => ?seam, fun s v p hp hstage hv => ?permute⟩
  case seam =>
    have ⟨_, hop, _⟩ := h
    have hexec : exec (.stepSeam q qseq) s = .next ((bodyStepSeam c (markBegun s q qseq)).getD s) :=
      congrArg Host.Outcome.next (hostRow_begins h (by simp [hop]))
    refine ⟨fun r rb p pals l w t hphase hbody hrecs hpals hnums hvalid hlevels hl hdue hw ht => ?_,
      fun t h => digestCase_first h _, fun hcommitted hskipped => ?_⟩
    · rw [hexec, bodyStepSeam_loads hphase hbody hrecs hpals hnums hvalid hlevels hl hdue, Option.getD_some]
      subst hw ht
      refine ⟨fun hwaits hdigest => ?_, fun hwaits => congrArg _ (seamRest_waits c hwaits)⟩
      obtain ⟨u, htail, hclosed⟩ := seamTail_closes (seamTests (seamRetires l)) c
      refine ⟨u, congrArg Host.Outcome.next ?_, hclosed⟩
      exact (seamRest_goesOn c hwaits).trans (htail.trans (congrArg (finish u c) (if_neg hdigest)))
    · rw [hexec, bodyStepSeam, if_pos ⟨hcommitted, hskipped⟩, Option.getD_some]
  case permute =>
    subst hv
    have hexec : exec .permuteVote s = .next (permuteVoteState s) := rfl
    rw [hexec, permuteVoteState_ends hp hstage]
    refine ⟨fun hfailed => ?failed, fun hfailed r ids ts htables => ?installed⟩
    case failed =>
      obtain ⟨hheld, hepoch⟩ := permuteDropped_epoch s
      rw [if_pos hfailed]
      exact ⟨fun hseam => congrArg _ (permuteGoesOn_alone _ hseam), fun c hseam => congrArg _ (permuteGoesOn_seam _ hseam),
        rfl, hheld, rfl, hepoch, rfl, rfl⟩
    case installed =>
      obtain ⟨l, hl⟩ := permuteInstall_valid htables
      rw [if_neg (by simp [hfailed]), show permuteInstall (permuteDropped s) p = _ from hl]
      have hepoch := (csrField_setField_self (withCsr (layoutPut r ids ts) l) rColEpoch 15 0 (leAt p.cmd.body 0 2)
        (by decide) (by decide)).trans (Nat.mod_eq_of_lt (leAt_lt ..))
      exact ⟨_, fun hseam => congrArg _ (permuteGoesOn_alone _ hseam), fun c hseam => congrArg _ (permuteGoesOn_seam _ hseam),
        rfl, rfl, hepoch, rfl, rfl⟩

end Sys2Proof.Machine
end

section
/-! PROOF. The Hawk stacks at a seam (R157). -/

namespace Sys2Proof.Machine

/-! Sparse stores. -/

/-- A store mapped entry by entry reads as the image of what it read. -/
theorem stGet_map {α β : Type} (g : α → β) (d : α) (m : Store α) (a : Nat) :
    stGet (g d) (m.map fun p => (p.1, g p.2)) a = g (stGet d m a) := by
  induction m with
  | nil => rfl
  | cons p r ih =>
    rw [List.map_cons, stGet, stGet, ih]
    split <;> rfl

/-- What a key reads as after every key of a list was set to its own value. -/
theorem stGet_foldl_set {α : Type} [DecidableEq α] (d : α) (one : Nat → α) (l : List Nat) (m : Store α) (a : Nat) :
    stGet d (l.foldl (fun h k => stSet d h k (one k)) m) a = if a ∈ l then one a else stGet d m a := by
  induction l generalizing m with
  | nil => rfl
  | cons k r ih =>
    rw [List.foldl_cons, ih, stGet_set]
    by_cases hr : a ∈ r
    · simp [hr]
    · by_cases hk : a = k
      · simp [hk]
      · simp [hr, hk]

/-- A key that reads as another value than the default has its entry. -/
theorem mem_of_stGet_ne {α : Type} {d : α} {m : Store α} {a : Nat} (h : stGet d m a ≠ d) : (a, stGet d m a) ∈ m := by
  induction m with
  | nil => exact absurd rfl h
  | cons p r ih =>
    rw [stGet] at h ⊢
    split at h
    · next heq => simp [heq]
    · next hne =>
      rw [if_neg hne]
      exact List.mem_cons_of_mem _ (ih h)

theorem hawkOf_put (s : State) (m n : Nat) (h : Hawk) : hawkOf (hawkPut s m h) n = if n = m then h else hawkOf s n :=
  stGet_set ..

/-! The stacks at a seam and after a replay. -/

/-- The stacks that a seam carries: those of the committed mask, and none after a skip. -/
def carriedAtSeam (s : State) : Nat := if stepPhase s = sCommitted then s.step.carriedNow else 0

/-- At a seam a carried stack keeps its frames and notes them, and every other is empty. -/
theorem hawkOf_seamHawk (s : State) {m : Nat} (hm : m < 16) : hawkOf (seamHawk s) m = if bitOf (carriedAtSeam s) m
    then { hawkOf s m with carried := true, atSeam := (hawkOf s m).frames } else hawkDefault := by
  refine (stGet_foldl_set hawkDefault _ _ _ m).trans ?_
  simp only [List.mem_filter, List.mem_range, hm, true_and]
  rfl

theorem seamHawk_atSeam (s : State) {m : Nat} (hm : m < 16) :
    (hawkOf (seamHawk s) m).atSeam = (hawkOf (seamHawk s) m).frames := by
  rw [hawkOf_seamHawk s hm]
  split <;> rfl

/-- A stack that a replay gives back the frames it had at the seam. -/
def Hawk.restored (h : Hawk) : Hawk := { h with frames := h.atSeam, migrated := [] }

theorem hawkOf_restoreHawk (r : State) (m : Nat) : hawkOf (restoreHawk r) m = (hawkOf r m).restored :=
  stGet_map Hawk.restored hawkDefault r.hawk m

/-- The frames noted at the seam read alike where the noted frames stand alike. -/
theorem atSeam_congr {r s : State} (h : r.hawk.map (fun p => (p.1, p.2.atSeam)) = s.hawk.map (fun p => (p.1, p.2.atSeam)))
    (m : Nat) : (hawkOf r m).atSeam = (hawkOf s m).atSeam := by
  have hr := stGet_map Hawk.atSeam hawkDefault r.hawk m
  rw [h] at hr
  exact hr.symm.trans (stGet_map Hawk.atSeam hawkDefault s.hawk m)

theorem strandedHawk_of_frames {s : State} {m carry : Nat} (hbit : bitOf carry m = false)
    (hframes : (hawkOf s m).frames ≠ []) : strandedHawk s carry = true := by
  have hentry : (m, hawkOf s m) ∈ s.hawk := mem_of_stGet_ne fun h => hframes (congrArg Hawk.frames h)
  exact List.any_eq_true.mpr ⟨_, hentry, by simp [hbit, hframes]⟩

/-- The stack of an UNSTASH pops the frame it read, once no core that it serves is still before the stage. -/
theorem pop_eq {s : State} {x : StCtx} {r : Run} {f : Frame} {rest : List Frame} (hrun : runOf s x.run.cmd.op = some r)
    (hcores : ∀ k ∈ r.cores, x.i < k.next ∨ k.status ≠ stOk) (hframes : (hawkOf s x.head.mb).frames = f :: rest)
    (hframe : x.io.frame = some f) : ∃ staged, x.pop s
      = hawkPut s x.head.mb { hawkOf s x.head.mb with frames := rest, migrated := staged } := by
  have hall : r.cores.all (fun k => decide (x.i < k.next) || k.status != stOk) = true := by simpa using hcores
  exact ⟨_, by simp only [StCtx.pop, hrun, hall, hframes, hframe]; exact if_pos (by simp)⟩

/-- Settles O26: the seam by `hawkOf_seamHawk`, the replay by `hawkOf_restoreHawk`, the pop by `pop_eq`. -/
theorem hawkStacksAtSeam : Obligations.HawkStacksAtSeam := by
  refine ⟨fun s m hm => ⟨fun hat hbit => ?kept, fun hat hbit => ?dropped, fun hat => ?skipped, fun r hr => ?replayed⟩,
    fun s f hfence hopen hpassed hflights hops hskip hstranded =>
      fenceReached_refuses hfence hopen hpassed hflights hops hskip hstranded,
    fun s m carry _ hbit hframes => strandedHawk_of_frames hbit hframes,
    fun s x r f rest hrun hcores hframes hframe => ?popped⟩
  case kept => simp [hawkOf_seamHawk s hm, carriedAtSeam, hat, hbit]
  case dropped => simp [hawkOf_seamHawk s hm, carriedAtSeam, hat, hbit, hawkDefault]
  case skipped => simp [hawkOf_seamHawk s hm, carriedAtSeam, hat, bitOf, hawkDefault]
  case replayed => rw [hawkOf_restoreHawk, Hawk.restored, atSeam_congr hr, seamHawk_atSeam s hm]
  case popped =>
    obtain ⟨staged, hpop⟩ := pop_eq hrun hcores hframes hframe
    rw [hpop]
    exact ⟨by simp [hawkOf_put], by simp [hawkOf_put], fun m hm => by simp [hawkOf_put, hm], rfl⟩

end Sys2Proof.Machine
end

section
/-! PROOF. TOPCOAT_LOAD and UPDATE take their place or are refused (R146, R172, R176, R188). -/

namespace Sys2Proof.Machine

/-! TOPCOAT_LOAD (R176). -/

/-- The program in its slot, its valid bit not yet set. -/
def programPut (s : State) (slot : Nat) (prog : List Byte) : State :=
  { s with topcoat := { s.topcoat with programs := stSet [] s.topcoat.programs slot prog } }

theorem bodyTopcoatLoad_notIdle {c : Cmd} {s : State} (h : stepPhase s ≠ sIdle) :
    bodyTopcoatLoad c s = some (finish s c stNotReady) := if_pos h

theorem bodyTopcoatLoad_valid {c : Cmd} {s : State} (hidle : stepPhase s = sIdle) (hlow : 4 ≤ leAt c.body 0 1)
    (hhigh : leAt c.body 0 1 ≤ 15) (hsome : 1 ≤ leAt c.body 1 1) (hmany : leAt c.body 1 1 ≤ 64)
    (hlen : 16 + 4 * leAt c.body 1 1 ≤ c.body.length) (hflags : leAt c.body 2 1 ≤ 31) (hbeta : leAt c.body 3 1 ≤ 31)
    (hzero : zeroAt c.body 4 12 = true) (hvalid : progValid (progOfBytes c.body) = true) :
    ∃ p, p = programPut s (leAt c.body 0 1) (sliceB c.body 0 (16 + 4 * leAt c.body 1 1))
      ∧ bodyTopcoatLoad c s
        = some (finish (csrPut p rTopProgValid (csrGet p rTopProgValid ||| 2 ^ leAt c.body 0 1)) c stOk) := by
  have hgood : ¬ (leAt c.body 0 1 < 4 ∨ 15 < leAt c.body 0 1 ∨ leAt c.body 1 1 = 0 ∨ 64 < leAt c.body 1 1
      ∨ c.body.length < 16 + 4 * leAt c.body 1 1 ∨ 31 < leAt c.body 2 1 ∨ 31 < leAt c.body 3 1
      ∨ (!zeroAt c.body 4 12) = true ∨ (!progValid (progOfBytes c.body)) = true) := by
    rw [hzero, hvalid]
    simp only [Bool.not_true, Bool.false_eq_true, or_false]
    omega
  exact ⟨_, rfl, (if_neg (not_not.mpr hidle)).trans (if_neg hgood)⟩

/-- A bit of a register set by a bitwise or stands in the register. -/
theorem csrPut_setBit (s : State) (a v : Nat) {k : Nat} (hk : k < 32) :
    bitOf (csrGet (csrPut s a (v ||| 2 ^ k)) a) k = true := by
  rw [csrGet_put_self, bitOf, Nat.testBit_mod_two_pow]
  simp [hk]

/-! UPDATE (R172, R174, R188). -/

/-- Nothing is noted ahead of an UPDATE that begins. -/
theorem updNoted_begins {s : State} {q qseq op : Nat} {c : Cmd} (h : Begins s q qseq op c) : updNoted s q qseq = s := by
  obtain ⟨hready, -, hearly, -, hadmitted⟩ := h
  simp [updNoted, hready, hearly, hadmitted]

theorem updateState_begins {s : State} {q qseq : Nat} {c : Cmd} (h : Begins s q qseq 0x0602 c) :
    updateState q qseq s = (updWait c s).getD (updRefuse c (markBegun s q qseq)) := by
  have ⟨_, hop, _⟩ := h
  rw [updateState, updNoted_begins h, waitRow_begins h (by simp [hop])]
  cases updWait c s <;> rfl

/-- Names that allow the UPDATE of a tensor hold no other UPDATE of it. -/
theorem updNamesOk_fresh {s : State} {c : Cmd} (h : updNamesOk s c = true) :
    ∀ n ∈ s.topcoat.named, n.op ≠ 0 → n.tensor ≠ c.uTensor := by
  intro n hn hop htensor
  simp only [updNamesOk, Bool.and_eq_true, Bool.not_eq_true', List.any_eq_false] at h
  obtain ⟨⟨hnone, -⟩, -⟩ := h
  exact hnone n (List.mem_filter.mpr ⟨hn, by simp [hop]⟩) (by simp [htensor])

/-- An UPDATE whose names allow it joins the UPDATEs that the step names. -/
theorem nameTensor_names {s : State} {c : Cmd} (h : updNamesOk s c = true) :
    ∃ l n, nameTensor s c false = { s with topcoat := { s.topcoat with named := l ++ [n] } }
      ∧ n.tensor = c.uTensor ∧ n.op = c.op ∧ n.status = none := by
  have hfresh : ¬ ((s.topcoat.named.filter (fun n => n.op != 0 || n.tensor != c.uTensor)).any
      (fun n => n.tensor == c.uTensor)) = true := by
    rw [List.any_eq_true]
    rintro ⟨n, hn, htensor⟩
    obtain ⟨hmem, hkept⟩ := List.mem_filter.mp hn
    have hsame : n.tensor = c.uTensor := by simpa using htensor
    exact updNamesOk_fresh h n hmem (by simpa [hsame] using hkept) hsame
  exact ⟨_, _, if_neg hfresh, rfl, rfl, rfl⟩

section Update
variable {s : State} {c : Cmd}

theorem updWait_notOpen (h : stepPhase s ≠ sOpen) : updWait c s = some s := if_pos (.inl h)

variable (hopen : stepPhase s = sOpen) (hfresh : s.topcoat.waiting.contains (c.queue, c.qseq) = false)
include hopen hfresh

theorem updWait_open : ¬ (stepPhase s ≠ sOpen ∨ s.topcoat.waiting.contains (c.queue, c.qseq) = true) := by
  rw [hopen, hfresh]
  decide

theorem updWait_joins (hok : (updBodyOk s c && updNamesOk s c) = true) : updWait c s
    = some { nameTensor s c false with topcoat := { (nameTensor s c false).topcoat with
        waiting := (nameTensor s c false).topcoat.waiting ++ [(c.queue, c.qseq)] } } :=
  (if_neg (updWait_open hopen hfresh)).trans (if_pos (by simpa using hok))

theorem updWait_refused (hbad : (updBodyOk s c && updNamesOk s c) = false) : updWait c s = none :=
  (if_neg (updWait_open hopen hfresh)).trans (if_neg (by simpa using hbad))

end Update

/-- Settles O38: the load by `bodyTopcoatLoad_valid`, the UPDATE by `nameTensor_names`. -/
theorem topcoatCommands : Obligations.TopcoatCommands := by
  refine fun s q qseq c => ⟨fun h => ?load, fun h => ?update⟩
  case load =>
    have ⟨_, hop, _⟩ := h
    have hexec : exec (.topcoatLoad q qseq) s = .next ((bodyTopcoatLoad c (markBegun s q qseq)).getD s) :=
      congrArg Host.Outcome.next (hostRow_begins h (by simp [hop]))
    refine ⟨fun hidle => by rw [hexec, bodyTopcoatLoad_notIdle hidle, Option.getD_some],
      fun hidle hlow hhigh hsome hmany hlen hflags hbeta hzero hvalid => ?_⟩
    obtain ⟨p, hp, hbody⟩ := bodyTopcoatLoad_valid hidle hlow hhigh hsome hmany hlen hflags hbeta hzero hvalid
    refine ⟨_, by rw [hexec, hbody, Option.getD_some], ?_, fun k hk => ?_, csrPut_setBit _ _ _ (by omega),
      by rw [hp]; rfl⟩
    · rw [hp]; exact stGet_set_self ..
    · rw [hp]; exact stGet_set_other _ _ _ _ _ hk
  case update =>
    have hexec : exec (.update q qseq) s = .next (updateState q qseq s) := rfl
    rw [hexec, updateState_begins h]
    refine ⟨fun hopen => by rw [updWait_notOpen hopen, Option.getD_some], fun hopen hfresh hok => ?joins,
      fun hopen hfresh hbad => ?refused⟩
    case joins =>
      have ⟨_, hnames⟩ := Bool.and_eq_true_iff.mp hok
      obtain ⟨l, n, hnamed, htensor, hown, hopenStatus⟩ := nameTensor_names hnames
      rw [updWait_joins hopen hfresh hok, hnamed, Option.getD_some]
      exact ⟨_, n, rfl, rfl, by simp, htensor, hown, hopenStatus, rfl⟩
    case refused => rw [updWait_refused hopen hfresh hbad, Option.getD_none, updRefuse]

end Sys2Proof.Machine
end

section
/-! PROOF. A waiting UPDATE is taken when its waits are over, and completes with all eight Topcoats (R160, R172, R174). -/

namespace Sys2Proof.Machine

/-! UPDATE_TAKES_TENSOR (R172 to R175). -/

theorem tensorAt_tensorPut {s : State} {i : Nat} {t : Tensor} (h : tensorAt s i = some t) (v : Tensor) :
    tensorAt (tensorPut s i v) i = some v :=
  List.getElem?_set_self (List.getElem?_eq_some_iff.mp h).choose

/-- A tensor claimed for the first time has a pending slot, and its previous version is gone. -/
theorem claimTensor_tensorAt {s : State} {c : Cmd} {t : Tensor} (h : tensorAt s c.uTensor = some t)
    (hfirst : s.topcoat.taken.any (fun k => k.1 == c.queue && k.2.1 == c.qseq) = false) :
    tensorAt (claimTensor s c t) c.uTensor = some { t with pending := true, prevOk := false } := by
  rw [claimTensor, if_neg (by rw [hfirst]; decide)]
  exact tensorAt_tensorPut (s := { s with
    topcoat := { s.topcoat with taken := s.topcoat.taken ++ [(c.queue, c.qseq, t.prevOk)] } }) h _

/-- Whether a RUN reads the version of the tensor that the UPDATE writes over. -/
def readersOf (s : State) (c : Cmd) : Bool := s.runs.any (fun x => x.copies.any (fun k => k.1 == c.uTensor && k.2.2))

/-- What a claimed UPDATE whose tensor nobody reads does: Topcoat reads the row list, and takes the tensor (R174). -/
def takesRows (s : State) (c : Cmd) (t : Tensor) (ev : TopEvents) : State :=
  let r := if c.uRows then readRows s c t else (s, some (some []))
  match r.2 with
  | none => updQuit (unclaimTensor (topRecurs r.1) c t) c stFault
  | some none => updDrop (unclaimTensor r.1 c t) c
  | some (some l) => takeTensor r.1 c t (if c.uRows then some l else none) ev

theorem takesRows_whole {s : State} {c : Cmd} {t : Tensor} {ev : TopEvents} (h : c.uRows = false) :
    takesRows s c t ev = takeTensor s c t none ev := by
  simp [takesRows, h]

theorem takesRows_listed {s r : State} {c : Cmd} {t : Tensor} {ev : TopEvents} {l : List Nat} (h : c.uRows = true)
    (hl : readRows s c t = (r, some (some l))) : takesRows s c t ev = takeTensor r c t (some l) ev := by
  simp [takesRows, h, hl]

theorem takesRows_disordered {s r : State} {c : Cmd} {t : Tensor} {ev : TopEvents} (h : c.uRows = true)
    (hl : readRows s c t = (r, some none)) : takesRows s c t ev = updDrop (unclaimTensor r c t) c := by
  simp [takesRows, h, hl]

theorem takesRows_poisoned {s r : State} {c : Cmd} {t : Tensor} {ev : TopEvents} (h : c.uRows = true)
    (hl : readRows s c t = (r, none)) : takesRows s c t ev = updQuit (unclaimTensor (topRecurs r) c t) c stFault := by
  simp [takesRows, h, hl]

section Takes
variable {s : State} {op : Nat} {ev : TopEvents} {c : Cmd} {t : Tensor} (hwait : waitingUpdate s op = some c)
  (hopen : stepPhase s = sOpen) (hshed : shedLevel s < 4) (htensor : tensorAt s c.uTensor = some t)
include hwait hopen hshed htensor

theorem updateTakes_opWaits (h : waitOpEnd s c = .waits) : updateTakesTensorState op ev s = s := by
  simp [updateTakesTensorState, hwait, hopen, hshed.not_ge, htensor, h]

theorem updateTakes_opEnds {st : Nat} (h : waitOpEnd s c = .ends st) : updateTakesTensorState op ev s = updQuit s c st := by
  simp [updateTakesTensorState, hwait, hopen, hshed.not_ge, htensor, h]

variable (hop : waitOpEnd s c = .over)
include hop

theorem updateTakes_scaleWaits (h : waitScaleEnd s c = .waits) : updateTakesTensorState op ev s = s := by
  simp [updateTakesTensorState, hwait, hopen, hshed.not_ge, htensor, hop, h]

theorem updateTakes_scaleEnds {st : Nat} (h : waitScaleEnd s c = .ends st) :
    updateTakesTensorState op ev s = updQuit s c st := by
  simp [updateTakesTensorState, hwait, hopen, hshed.not_ge, htensor, hop, h]

variable (hscale : waitScaleEnd s c = .over)
include hscale

/-- Over a claimed tensor an UPDATE waits for its readers and for the UPDATE under way (R172, R173). -/
theorem updateTakes_claimed
    (h : readersOf (claimTensor s c t) c = true ∨ (claimTensor s c t).topcoat.running.isSome = true) :
    updateTakesTensorState op ev s = claimTensor s c t := by
  simp only [updateTakesTensorState, hwait, hopen, hshed.not_ge, htensor, hop, hscale]
  exact if_pos h

theorem updateTakes_takes (hreaders : readersOf (claimTensor s c t) c = false)
    (hrunning : (claimTensor s c t).topcoat.running = none) :
    updateTakesTensorState op ev s = takesRows (claimTensor s c t) c t ev := by
  have hfree : ¬ (readersOf (claimTensor s c t) c = true ∨ (claimTensor s c t).topcoat.running.isSome = true) := by
    simp [hreaders, hrunning]
  simp only [updateTakesTensorState, hwait, hopen, hshed.not_ge, htensor, hop, hscale]
  refine (if_neg hfree).trans ?_
  rfl

end Takes

/-! UPDATE_COMPLETE (R160, R172). -/

theorem scaleSatCause_withCsr (s : State) (recipe : Nat) : ∃ l, scaleSatCause s recipe = withCsr s l :=
  foldl_withCsr (fun _ _ => setCause_withCsr ..) _ _

/-- The norms of an UPDATE's layer kept (R160). -/
def normsKept (s : State) (u : UpdateRun) : State := { s with step := { s.step with norms := addNorm s.step.norms u.norm } }

theorem scaleSatNoted_withCsr (s : State) (u : UpdateRun) :
    ∃ l, (if u.scaleSat = true then scaleSatCause s u.cmd.uRecipe else s) = withCsr s l := by
  split
  · exact scaleSatCause_withCsr ..
  · exact ⟨s.csr, rfl⟩

section Complete
variable {s : State} {op : Nat} {u : UpdateRun} (hrun : s.topcoat.running = some u)
include hrun

theorem updateComplete_busy (h : s.topcoat.tops.any (·.busy) = true) : updateCompleteState op s = s := by
  simp only [updateCompleteState, hrun]
  exact if_pos (.inr h)

/-- With all eight Topcoats done the UPDATE ends over its layer's norms kept, and registers beside. -/
theorem updateComplete_ends (hop : u.cmd.op = op) (h : s.topcoat.tops.any (·.busy) = false) :
    ∃ l flags, flags = boolNat u.notFin * 0x40 + boolNat u.winSat * 8 + boolNat u.scaleSat * 32 ∧ updateCompleteState op s
      = endUpdate (withCsr (normsKept s u) l) u.cmd (if flags = 0 then stOk else stFlagged) flags := by
  have hgo : ¬ (u.cmd.op ≠ op ∨ s.topcoat.tops.any (·.busy) = true) := by simp [hop, h]
  obtain ⟨l, hl⟩ := scaleSatNoted_withCsr (normsKept s u) u
  refine ⟨l, _, rfl, ?_⟩
  rw [← hl]
  simp only [updateCompleteState, hrun]
  exact if_neg hgo

end Complete

/-- Settles O39: the UPDATE that waits by how its waits stand, the one under way by `updateComplete_ends`. -/
theorem updateTakesAndCompletes : Obligations.UpdateTakesAndCompletes := by
  refine fun s op => ⟨fun ev c t hwait hopen hshed htensor => ⟨fun h => ?opWaits, fun hop h => ?scaleWaits,
    fun st h => ?opEnds, fun st hop h => ?scaleEnds, fun hop hscale d hd => ?bothOver⟩,
    fun u hrun hop => ⟨fun hbusy => ?busy, fun hidle => ?done⟩⟩
  case opWaits => exact congrArg _ (updateTakes_opWaits hwait hopen hshed htensor h)
  case opEnds => exact congrArg _ (updateTakes_opEnds hwait hopen hshed htensor h)
  case scaleWaits => exact congrArg _ (updateTakes_scaleWaits hwait hopen hshed htensor hop h)
  case scaleEnds => exact congrArg _ (updateTakes_scaleEnds hwait hopen hshed htensor hop h)
  case bothOver =>
    subst hd
    refine ⟨claimTensor_tensorAt htensor, fun h => congrArg _ (updateTakes_claimed hwait hopen hshed htensor hop hscale h),
      fun hreaders hrunning => ?_⟩
    have htakes : exec (.updateTakesTensor op ev) s = .next (takesRows (claimTensor s c t) c t ev) :=
      congrArg _ (updateTakes_takes hwait hopen hshed htensor hop hscale hreaders hrunning)
    rw [htakes]
    exact ⟨fun hrows => by rw [takesRows_whole hrows], fun r l hrows hl => by rw [takesRows_listed hrows hl],
      fun r hrows hl => by rw [takesRows_disordered hrows hl], fun r hrows hl => by rw [takesRows_poisoned hrows hl]⟩
  case busy => exact congrArg _ (updateComplete_busy hrun hbusy)
  case done =>
    obtain ⟨l, flags, hflags, hend⟩ := updateComplete_ends hrun hop hidle
    exact ⟨_, flags, congrArg _ hend, rfl, rfl, rfl, hflags⟩

end Sys2Proof.Machine
end

section
/-! PROOF. LOAD, STORE, STASH and UNSTASH stages move their planes (R148, R151, R155). -/

namespace Sys2Proof.Machine

/-! A core's place in its RUN. -/

theorem find?_map_kept {α : Type} {p : α → Bool} {f : α → α} (h : ∀ a, p (f a) = p a) (l : List α) :
    (l.map f).find? p = (l.find? p).map f := by
  rw [List.find?_map, show p ∘ f = p from funext h]

/-- A core of a RUN reads as updated. -/
theorem coreAt_coreUpd (s : State) (op core : Nat) {f : CoreRun → CoreRun} (hf : ∀ k, (f k).core = k.core) :
    coreAt (coreUpd s op core f) op core = (coreAt s op core).map f := by
  have hcores (l : List CoreRun) : (l.map (fun k => if k.core = core then f k else k)).find? (fun k => k.core == core)
      = (l.find? (fun k => k.core == core)).map f := by
    rw [find?_map_kept fun k => by split <;> simp [hf]]
    refine Option.map_congr fun k hk => if_pos ?_
    simpa using List.find?_some hk
  have hruns : runOf (coreUpd s op core f) op = (runOf s op).map (fun r => { r with
      cores := r.cores.map (fun k => if k.core = core then f k else k) }) := by
    rw [runOf, coreUpd, find?_map_kept fun r => by split <;> rfl]
    refine Option.map_congr fun r hr => if_pos ?_
    simpa using List.find?_some hr
  rw [coreAt, hruns, coreAt]
  cases runOf s op with
  | none => rfl
  | some r => exact hcores r.cores

theorem coreAt_of_atStage {s : State} {op core : Nat} {x : StCtx} (h : AtStage s op core x) :
    x.run.cmd.op = op ∧ x.core.core = core ∧ coreAt s op core = some x.core := by
  obtain ⟨hrun, -, hcore, -⟩ := h
  exact ⟨by simpa using List.find?_some hrun, by simpa using List.find?_some hcore, by rw [coreAt, hrun]; exact hcore⟩

/-- A stage done leaves the core that did it at its next stage. -/
theorem coreAt_done {s t : State} {op core : Nat} {x : StCtx} (h : AtStage s op core x) (ht : t.runs = s.runs) :
    (coreAt (x.done t) op core).map (·.next) = some (x.i + 1) := by
  obtain ⟨rfl, rfl, hat⟩ := coreAt_of_atStage h
  have hkept : coreAt t x.run.cmd.op x.core.core = some x.core := by rw [← hat, coreAt, coreAt, runOf, runOf, ht]
  rw [StCtx.done, coreAt_coreUpd t x.run.cmd.op x.core.core, hkept]
  · rfl
  · exact fun _ => rfl

/-! Core buffers and planes. -/

theorem coreRead_length (s : State) (pc off n : Nat) : (coreRead s pc off n).length = n := by simp [coreRead]

/-- Bytes written into a core buffer read back where they fit. -/
theorem coreRead_write {s : State} {pc off n : Nat} {bs : List Byte} (hn : bs.length = n) (hfit : off + n ≤ 2 ^ 22) :
    coreRead (coreWrite s pc off bs) pc off n = bs := by
  subst hn
  have hwhole : bs.take (2 ^ 22 - off) = bs := List.take_of_length_le (by omega)
  refine List.ext_getElem (coreRead_length ..) fun i _ hi => ?_
  simp only [coreRead, coreWrite, hwhole, List.getElem_map, List.getElem_range, stGet_setMany]
  rw [if_pos (by omega), if_pos (by omega), show pc * 2 ^ 22 + off + i - (pc * 2 ^ 22 + off) = i by omega]
  simp [hi]

/-- A stage whose source has one plane moves it alone (R148). -/
theorem move_onePlane {s : State} {x : StCtx} {a d : Desc} {m : State × Bool} (ha : x.desc s x.rcd.dIn = some a)
    (hd : x.desc s x.rcd.dOut = some d) (hfmt : a.fmt.blocked = false) (hside : a.side = 0) (hfbl : a.fbl = 0)
    (hm : moveBytes s x.io a.space a.code d.space d.code a.codeBytes = m) : x.move s = (m.1, m.2, a.codeBytes) := by
  have hplanes : sharedPlanes a d = [(a.code, d.code, a.codeBytes)] := by simp [sharedPlanes, hfmt, hside, hfbl]
  simp only [StCtx.move, ha, hd, moveOperand, hplanes, List.foldl_cons, List.foldl_nil, Bool.true_and, Nat.zero_add, hm]

theorem moveBytes_load {s : State} (hclean : CleanMem s) (io : IoCtx) (a b n : Nat) :
    moveBytes s io 0 a 1 b n = (coreWrite s io.pc b (memBytes s a n), true) := by
  simp [moveBytes, spaceRead, spaceWrite, readMem_clean hclean]

theorem moveBytes_store {s : State} (hclean : CleanMem s) (io : IoCtx) (a b n : Nat) :
    moveBytes s io 1 a 0 b n = (memStore s b (coreRead s io.pc a n), true) := by
  simp [moveBytes, spaceRead, spaceWrite, writeMem_clean hclean]

/-! The rows. -/

section Rows
variable {s : State} {op core : Nat} {x : StCtx} {ev : StageEvents} (h : AtStage s op core x) (hu : ev.upsets = [])
include h hu

theorem exec_loadStage (hk : isKind kLoad x.rcd = true) : exec (.loadStage op ⟨core, ev⟩) s = .next (loadBody x s) :=
  congrArg Host.Outcome.next ((stageRow_at h hu _ _).trans (if_pos hk))

theorem exec_storeStage (hk : isKind kStore x.rcd = true) : exec (.storeStage op ⟨core, ev⟩) s = .next (storeBody x s) :=
  congrArg Host.Outcome.next ((stageRow_at h hu _ _).trans (if_pos hk))

theorem exec_stash (hk : isKind kStash x.rcd = true) : exec (.stash op ⟨core, ev⟩) s = .next (stashBody x s) :=
  congrArg Host.Outcome.next ((stageRow_at h hu _ _).trans (if_pos hk))

theorem exec_unstash (hk : isKind kUnstash x.rcd = true) : exec (.unstash op ⟨core, ev⟩) s = .next (unstashBody x s) :=
  congrArg Host.Outcome.next ((stageRow_at h hu _ _).trans (if_pos hk))

end Rows

section Bodies
variable {s : State} {x : StCtx}

theorem loadBody_done (hp : x.prefetched s = false) (hm : (x.move s).2.1 = true) : loadBody x s = x.done (x.move s).1 := by
  simp [loadBody, hp, hm]

theorem loadBody_fails (hp : x.prefetched s = false) (hm : (x.move s).2.1 = false) :
    loadBody x s = x.fail (x.move s).1 stFault := by
  simp [loadBody, hp, hm]

theorem storeBody_done (hm : (x.move s).2.1 = true) :
    storeBody x s = x.done (tallyBump (x.move s).1 (x.io.pc / 9) (leAt x.rcd.ctrl 0 1) (x.move s).2.2) := if_pos hm

theorem storeBody_fails (hm : (x.move s).2.1 = false) : storeBody x s = x.fail (x.move s).1 stFault := if_neg (by simp [hm])

variable {t : State} {y : StCtx}

theorem stashBody_done (hr : x.reserve s = some (t, y)) (hm : (y.move t).2.1 = true) :
    stashBody x s = y.done (y.move t).1 := by
  simp [stashBody, hr, hm]

theorem stashBody_fails (hr : x.reserve s = some (t, y)) (hm : (y.move t).2.1 = false) :
    stashBody x s = y.fail (y.move t).1 stFault := by
  simp [stashBody, hr, hm]

theorem stashBody_refused (hr : x.reserve s = none) : stashBody x s = x.fail s stBadParam := by simp [stashBody, hr]

theorem unstashBody_done (hf : x.topFrame s = some (t, y)) (hm : (y.move t).2.1 = true) :
    unstashBody x s = y.pop (y.done (y.move t).1) := by
  simp [unstashBody, hf, hm]

theorem unstashBody_fails (hf : x.topFrame s = some (t, y)) (hm : (y.move t).2.1 = false) :
    unstashBody x s = y.pop (y.fail (y.move t).1 stFault) := by
  simp [unstashBody, hf, hm]

theorem unstashBody_refused (hf : x.topFrame s = none) : unstashBody x s = x.fail s stBadParam := by simp [unstashBody, hf]

/-- A frame of its own is reserved exactly where it fits the stack (R155). -/
theorem reserve_isSome (hown : x.ownFrame = none) : (x.reserve s).isSome
    = !decide (hawkSize s x.head.mb < (hawkTop (hawkOf s x.head.mb) + leAt x.rcd.ctrl 4 4) * 4096) := by
  simp only [StCtx.reserve, hown]
  split
  · next hfull => simp [hfull]
  · next hfits => simp [hfits]

theorem topFrame_other (hown : x.ownFrame = none) (htop : ∀ f, (hawkOf s x.head.mb).frames.head? = some f →
    f.layer ≠ leAt x.rcd.ctrl 0 2 ∨ f.slot ≠ leAt x.rcd.ctrl 2 1) : x.topFrame s = none := by
  simp only [StCtx.topFrame, hown]
  split
  · rfl
  · next f rest hframes =>
    have hne := htop f (by simp [hframes])
    exact if_neg (by tauto)

end Bodies

theorem memByte_of_mem {s t : State} (h : t.mem = s.mem) (a : Nat) : memByte t a = memByte s a := by rw [memByte, memByte, h]

theorem memBytes_of_mem {s t : State} (h : t.mem = s.mem) (a n : Nat) : memBytes t a n = memBytes s a n := by
  simp only [memBytes, memByte_of_mem h]

theorem tallyBump_mem (s : State) (b t n : Nat) : (tallyBump s b t n).mem = s.mem := by
  unfold tallyBump blockPut
  dsimp only
  split_ifs <;> rfl

theorem tallyBump_runs (s : State) (b t n : Nat) : (tallyBump s b t n).runs = s.runs := by
  unfold tallyBump blockPut
  dsimp only
  split_ifs <;> rfl

/-- Settles O29: each row by its body's outcomes, a plane moved by `move_onePlane`, the core's next stage by `coreAt_done`. -/
theorem movingStages : Obligations.MovingStages := by
  refine fun s op core x ev h hu => ⟨fun hk hp => ?load, fun hk => ?store, fun hk => ?stash, fun hk => ?unstash⟩
  case load =>
    rw [exec_loadStage h hu hk]
    refine ⟨fun hm => by rw [loadBody_done hp hm], fun hm => by rw [loadBody_fails hp hm],
      fun a d ha hd hfmt hside hfbl hfrom hto hfit hclean => ?_⟩
    have hmove := move_onePlane ha hd hfmt hside hfbl
      (hfrom ▸ hto ▸ moveBytes_load hclean x.io a.code d.code a.codeBytes)
    rw [loadBody_done hp (by rw [hmove]), hmove]
    exact ⟨_, rfl, coreRead_write (memBytes_length ..) hfit, rfl, rfl, coreAt_done h rfl⟩
  case store =>
    rw [exec_storeStage h hu hk]
    refine ⟨fun hm => by rw [storeBody_done hm], fun hm => by rw [storeBody_fails hm],
      fun a d ha hd hfmt hside hfbl hfrom hto hclean => ?_⟩
    have hmove := move_onePlane ha hd hfmt hside hfbl
      (hfrom ▸ hto ▸ moveBytes_store hclean x.io a.code d.code a.codeBytes)
    rw [storeBody_done (by rw [hmove]), hmove]
    have hmem := tallyBump_mem (memStore s d.code (coreRead s x.io.pc a.code a.codeBytes)) (x.io.pc / 9) (leAt x.rcd.ctrl 0 1)
      a.codeBytes
    refine ⟨_, rfl, ?_, fun b hb => ?_, coreAt_done h (tallyBump_runs ..)⟩
    · have hback := memBytes_store s d.code (coreRead s x.io.pc a.code a.codeBytes)
      rw [coreRead_length] at hback
      exact (memBytes_of_mem hmem ..).trans hback
    · refine (memByte_of_mem hmem b).trans ((memByte_store ..).trans (if_neg ?_))
      rw [coreRead_length]
      omega
  case stash =>
    rw [exec_stash h hu hk]
    refine ⟨fun t y hr => ⟨fun hm => by rw [stashBody_done hr hm], fun hm => by rw [stashBody_fails hr hm]⟩,
      fun hown => ⟨fun hfull => ?_, fun hfits => ?_⟩⟩
    · have hnone : x.reserve s = none := by simpa [hfull] using reserve_isSome (s := s) hown
      rw [stashBody_refused hnone]
    · rw [reserve_isSome hown]
      simpa using hfits
  case unstash =>
    rw [exec_unstash h hu hk]
    exact ⟨fun t y hf => ⟨fun hm => by rw [unstashBody_done hf hm], fun hm => by rw [unstashBody_fails hf hm]⟩,
      fun hown htop => by rw [unstashBody_refused (topFrame_other hown htop)]⟩

end Sys2Proof.Machine
end

section
/-! PROOF. Topcoat's instructions at a stack that stands at their word (R178, R179, R180, R191). -/

namespace Sys2Proof.Machine

/-! A stack at its word. -/

section Word
variable {s : State} {st op : Nat} {c : TopCtx} (h : AtTopWord s st op c)
include h

/-- A stack that stands at a word of the row's operation works the row over what the word sees. -/
theorem topRow_at (f : TopCtx → State → State) : topRow st op f s = f c s := by
  obtain ⟨hrun, hstack, htensor, hprog, hword, rfl, hop, hbusy, hphase, hhalt, hreleased, hfirst, hshed⟩ := h
  have hgo : (!c.x.busy || c.x.atPhase || c.x.halted || !released s || stackWaits s c.st 3 || wordOp c.word != op) = false := by
    simp [hbusy, hphase, hhalt, hreleased, hfirst, hop]
  have hstays : (c.x.fresh && decide (4 ≤ shedLevel s)) = false := by simpa using hshed
  simp only [topRow, hrun, hstack, htensor, hprog, hword, hgo, hstays]
  rfl

theorem topAlu_at (f : TopCtx → FV) : topAlu st op f s = c.put s (f32Code (f c)) := topRow_at h _

end Word

theorem modTop_self {s : State} {st : Nat} {x : TopStack} (h : s.topcoat.tops[st]? = some x) (f : TopStack → TopStack) :
    (modTop s st f).topcoat.tops[st]? = some (f x) := by
  simp [modTop, h]

theorem modTop_other (s : State) {st k : Nat} (hk : k ≠ st) (f : TopStack → TopStack) :
    (modTop s st f).topcoat.tops[k]? = s.topcoat.tops[k]? := by
  simp [modTop, hk]

/-! The arithmetic instructions (R178). -/

/-- The arithmetic operations of R178: each one's number, the value it puts into D, and the instruction of a stack. -/
def aluTable (st : Nat) : List (Nat × (TopCtx → FV) × Instr) :=
  [(0x01, fun c => c.a.add c.b, .topcoatAdd st), (0x02, fun c => c.a.sub c.b, .topcoatSub st),
   (0x03, fun c => c.a.mul c.b, .topcoatMul st), (0x04, fun c => (c.a.mul c.b).add c.c, .topcoatFma st),
   (0x05, fun c => f32.div c.a c.b, .topcoatDiv st), (0x06, fun c => f32.sqrt c.a, .topcoatSqrt st),
   (0x07, fun c => f32.rsqrt c.a, .topcoatRsqrt st), (0x08, fun c => FV.max c.a c.b, .topcoatMax st),
   (0x09, fun c => fMin c.a c.b, .topcoatMin st), (0x0A, fun c => c.a.abs, .topcoatAbs st),
   (0x0B, fun c => c.a.negate, .topcoatNeg st), (0x0C, fun c => fSign c.a, .topcoatSign st),
   (0x0D, fun c => fMin (FV.max c.a c.b) c.c, .topcoatClamp st), (0x10, fun c => c.k, .topcoatLdk st),
   (0x11, fun c => c.a.mul c.k, .topcoatMulk st), (0x12, fun c => c.a.add c.k, .topcoatAddk st),
   (0x13, fun c => (c.a.mul c.k).add c.b, .topcoatFmak st)]

theorem exec_aluTable {st op : Nat} {f : TopCtx → FV} {i : Instr} (h : (op, f, i) ∈ aluTable st) (s : State) :
    exec i s = .next (topAlu st op f s) := by
  have hall : ∀ e ∈ aluTable st, exec e.2.2 s = .next (topAlu st e.1 e.2.1 s) := by
    simp only [aluTable, List.forall_mem_cons]
    exact ⟨rfl, rfl, rfl, rfl, rfl, rfl, rfl, rfl, rfl, rfl, rfl, rfl, rfl, rfl, rfl, rfl, rfl, nofun⟩
  exact hall _ h

/-- Settles O40: each row of `aluTable` puts its value into D, and a put changes its own stack alone. -/
theorem topcoatArithmetic : Obligations.TopcoatArithmetic := by
  intro s st op c v i h hi
  have hrow : (op, v, i) ∈ (aluTable st).map (fun e => (e.1, e.2.1 c, e.2.2)) := hi
  obtain ⟨⟨_, f, _⟩, hmem, heq⟩ := List.mem_map.mp hrow
  obtain ⟨rfl, rfl, rfl⟩ : _ = op ∧ f c = v ∧ _ = i := by simpa using heq
  have hexec := (exec_aluTable hmem s).trans (congrArg Host.Outcome.next (topAlu_at h f))
  obtain ⟨-, hstack, -, -, -, rfl, -⟩ := h
  exact ⟨_, _, hexec, modTop_self hstack _, rfl, rfl, rfl, rfl, fun k hk => modTop_other s hk _, rfl, rfl⟩

/-! The factor instructions (R180). -/

theorem topFactor_updated {c : TopCtx} (h : c.u.phase2 = true) (code : Nat) (s : State) : topFactor c code s = c.put s code :=
  if_pos h

/-- Before PHASE there is no updated factor, and whatever would be loaded is a free value. -/
theorem topFactor_free {c : TopCtx} (h : c.u.phase2 = false) (code : Nat) (s : State) :
    topFactor c code s = c.put (takeFree s).2 ((takeFree s).1 % 2 ^ 32) :=
  if_neg (by simp [h])

section Loads
variable {s : State} {st : Nat} {c : TopCtx}

theorem exec_ldrow (h : AtTopWord s st 0x22 c) : exec (.topcoatLdrow st) s
    = .next (topFactor c (leNat (planeBytes s c.t (plM2 (1 - c.t.cur)) (4 * c.row) 4)) s) :=
  congrArg Host.Outcome.next (topRow_at h _)

theorem exec_ldcol (h : AtTopWord s st 0x23 c) : exec (.topcoatLdcol st) s
    = .next (topFactor c (leNat (planeBytes s c.t (plS16 (1 - c.t.cur)) (4 * c.col) 4)) s) :=
  congrArg Host.Outcome.next (topRow_at h _)

theorem exec_ldrsum (h : AtTopWord s st 0x24 c) : exec (.topcoatLdrsum st) s = .next (topFactor c c.u.rsum s) :=
  congrArg Host.Outcome.next (topRow_at h _)

end Loads

/-! END (R179). -/

/-- Over memory without errors a plane takes its bytes; beside them only the arbiters' pointers change. -/
theorem planeWrite_clean {s : State} {t : Tensor} {i a : Nat} (hclean : CleanMem s) (ha : planeAddr s t i = some a) (off : Nat)
    (bs : List Byte) : ∃ p, planeWrite s t i off bs = (memStore (withPtrs s p) (a + off) bs, true) := by
  obtain ⟨p, hp⟩ := portGrant_ptrs s (a + off) 4 0 3
  have hclean' : CleanMem (withPtrs s p) := hclean
  exact ⟨p, by simp only [planeWrite, ha, hp, writeMem_clean hclean']⟩

section Ends
variable {s : State} {st : Nat} {c : TopCtx} {t : State}

theorem exec_end_fails (h : AtTopWord s st opEnd c) (hw : c.writeBack s = (t, false)) :
    exec (.topcoatEnd st) s = .next (topFault t) :=
  congrArg Host.Outcome.next ((topRow_at h _).trans (by simp only [hw]; rfl))

theorem exec_end_goesOn (h : AtTopWord s st opEnd c) (hw : c.writeBack s = (t, true)) :
    exec (.topcoatEnd st) s
      = .next (goOn (c.next t (fun s => endGroup s c.st c.u.cmd c.t c.p (nthD c.x.groups 0 0) true))) :=
  congrArg Host.Outcome.next ((topRow_at h _).trans (by simp only [hw]; rfl))

/-- The place of a parameter's halves in the planes of its master (R179). -/
def TopCtx.masterOff (c : TopCtx) : Nat := 256 * nthD c.x.groups 0 0 + 2 * c.x.param

/-- A program that keeps no moments writes back the two halves of its master, the low half last (R179). -/
theorem writeBack_noMoments (hm : c.p.moments = 0) {u : State} {hi lo : Bool}
    (hhi : planeWrite s c.t (plHi (1 - c.t.cur)) c.masterOff (leBytes 2 (nthD c.x.regs 0 0 / 65536)) = (u, hi))
    (hlo : planeWrite u c.t (plLo (1 - c.t.cur)) c.masterOff (leBytes 2 (nthD c.x.regs 0 0)) = (t, lo)) :
    c.writeBack s = (t, hi && lo) := by
  have hm2 : c.p.usesM2 = false := by simp [TopProg.usesM2, hm]
  rw [TopCtx.masterOff] at hhi hlo
  simp [TopCtx.writeBack, hm, hm2, hhi, hlo]

/-- Over memory without errors both halves are written, and the low one stands last. -/
theorem writeBack_clean (hclean : CleanMem s) (hm : c.p.moments = 0) {a b : Nat}
    (ha : planeAddr s c.t (plHi (1 - c.t.cur)) = some a) (hb : planeAddr s c.t (plLo (1 - c.t.cur)) = some b) :
    ∃ m, c.writeBack s = (memStore m (b + c.masterOff) (leBytes 2 (nthD c.x.regs 0 0)), true) := by
  obtain ⟨p, hhi⟩ := planeWrite_clean hclean ha c.masterOff (leBytes 2 (nthD c.x.regs 0 0 / 65536))
  have hclean' : CleanMem (memStore (withPtrs s p) (a + c.masterOff) (leBytes 2 (nthD c.x.regs 0 0 / 65536))) := hclean
  obtain ⟨_, hlo⟩ := planeWrite_clean (i := plLo (1 - c.t.cur)) hclean' hb c.masterOff (leBytes 2 (nthD c.x.regs 0 0))
  exact ⟨_, writeBack_noMoments hm hhi hlo⟩

end Ends

/-- Settles O41: each instruction works its row at the stack's word; a factor loaded as the phase has it, END by how its
write-back comes out. -/
theorem topcoatFactorsAndEnds : Obligations.TopcoatFactorsAndEnds := by
  refine fun s st op c h => ⟨fun hop => ?rowacc, fun hop => ?colacc, fun hphase => ⟨fun hop => ?ldrow, fun hop => ?ldcol,
    fun hop => ?ldrsum⟩, fun hphase i hi => ?free, fun hop t ok hnext => ?phase,
    fun hop t ok hw => ⟨fun hfails => ?fails, fun hok u done hnext => ?goesOn, fun a b hclean hm ha hb => ?master⟩⟩
  case rowacc => subst hop; exact congrArg Host.Outcome.next (topRow_at h _)
  case colacc => subst hop; exact congrArg Host.Outcome.next (topRow_at h _)
  case ldrow => subst hop; rw [exec_ldrow h, topFactor_updated hphase]
  case ldcol => subst hop; rw [exec_ldcol h, topFactor_updated hphase]
  case ldrsum => subst hop; rw [exec_ldrsum h, topFactor_updated hphase]
  case free =>
    refine ⟨_, ?_, rfl⟩
    simp only [List.mem_cons, List.not_mem_nil, or_false, Prod.mk.injEq] at hi
    obtain ⟨rfl, rfl⟩ | ⟨rfl, rfl⟩ | ⟨rfl, rfl⟩ := hi
    · rw [exec_ldrow h, topFactor_free hphase]
    · rw [exec_ldcol h, topFactor_free hphase]
    · rw [exec_ldrsum h, topFactor_free hphase]
  case phase =>
    subst hop
    exact congrArg Host.Outcome.next ((topRow_at h _).trans (by simp only [hnext]))
  case fails => subst hop hfails; exact exec_end_fails h hw
  case goesOn => subst hop hok; rw [exec_end_goesOn h hw, hnext, goOn]
  case master =>
    obtain ⟨m, hm⟩ := writeBack_clean hclean hm ha hb
    obtain ⟨rfl, rfl⟩ := Prod.mk.inj (hw.symm.trans hm)
    exact ⟨rfl, leBytes_length 2 (nthD c.x.regs 0 0) ▸ memBytes_store ..⟩

end Sys2Proof.Machine
end

section
/-! SUPPORT. Fields of registers that an operation leaves, and what a checked memory access does to them, to memory and to
the map (R196, R204, R205, R216). -/

namespace Sys2Proof.Machine

/-- What every step of a run keeps, the run keeps. -/
theorem foldl_related {α : Type} {R : State → State → Prop} (hrefl : ∀ s, R s s) (htrans : ∀ {s t u}, R s t → R t u → R s u)
    {f : State → α → State} {l : List α} (h : ∀ s, ∀ a ∈ l, R s (f s a)) (s : State) : R s (l.foldl f s) := by
  induction l generalizing s with
  | nil => exact hrefl s
  | cons a r ih => exact htrans (h s a (List.mem_cons_self ..)) (ih (fun s b hb => h s b (List.mem_cons_of_mem _ hb)) _)

/-! Fields left as they stood. -/

/-- From `s` to `t` every field of the kind `F` reads as before; `F` takes a register and the field's lowest bit. -/
structure FieldsKept (F : Nat → Nat → Prop) (s t : State) : Prop where
  field : ∀ a hi lo, hi < 32 → F a lo → csrField t a hi lo = csrField s a hi lo

section Fields

variable {F G : Nat → Nat → Prop} {s t u : State}

theorem FieldsKept.of_csrGet (h : ∀ a lo, F a lo → csrGet t a = csrGet s a) : FieldsKept F s t :=
  ⟨fun a hi lo _ hF => csrField_congr (h a lo hF) hi lo⟩

theorem FieldsKept.of_csr (h : t.csr = s.csr) : FieldsKept F s t := .of_csrGet fun _ _ _ => by rw [csrGet, csrGet, h]

theorem FieldsKept.refl (s : State) : FieldsKept F s s := .of_csr rfl

theorem FieldsKept.trans (h : FieldsKept F s t) (k : FieldsKept F t u) : FieldsKept F s u :=
  ⟨fun a hi lo hhi hF => (k.field a hi lo hhi hF).trans (h.field a hi lo hhi hF)⟩

theorem FieldsKept.after (k : FieldsKept F t u) (h : t.csr = s.csr) : FieldsKept F s u := (FieldsKept.of_csr h).trans k

theorem FieldsKept.ite {p : Prop} [Decidable p] (h : FieldsKept F s t) (k : FieldsKept F s u) : FieldsKept F s (if p then t else u) := by
  split
  · exact h
  · exact k

theorem FieldsKept.mono (h : FieldsKept F s t) (hFG : ∀ a lo, G a lo → F a lo) : FieldsKept G s t :=
  ⟨fun a hi lo hhi hG => h.field a hi lo hhi (hFG a lo hG)⟩

theorem FieldsKept.foldl {α : Type} {f : State → α → State} {l : List α} (h : ∀ s, ∀ a ∈ l, FieldsKept F s (f s a))
    (s : State) : FieldsKept F s (l.foldl f s) := foldl_related .refl .trans h s

/-- A field put leaves those of its register that lie above it, and every other register. -/
theorem csrSetField_fieldsKept (s : State) {a hi lo : Nat} (v : Nat) (hlo : lo ≤ hi) (h : ∀ l, F a l → hi < l) :
    FieldsKept F s (csrSetField s a hi lo v) := by
  refine ⟨fun b hi' lo' hhi hF => ?_⟩
  by_cases hb : b = a
  · subst hb
    exact csrField_setField_disjoint _ _ _ _ _ _ _ hlo (.inr (h _ hF)) hhi
  · exact csrField_congr (csrGet_setField_other _ _ _ _ hb) _ _

theorem snagRecord_fieldsKept (s : State) (r : ErrRec) (h : ∀ l, ¬ F rSngStatus l) : FieldsKept F s (snagRecord s r) :=
  .of_csrGet fun a lo hF => (snagRecord_recorded s r).csrGet_eq a (by rintro rfl; exact h lo hF)

end Fields

/-! What the books of a checked access count (R204, R219, R246, R353). -/

/-- The bits from `lo` up of register `a` that the books of a checked access may change: SNG_STATUS, a port's RETIRED bit, a
capacity controller's error counts, and of a stack its counts, and below bit 16 what a pseudo-channel has counted. -/
def Counts (a lo : Nat) : Prop :=
  a = rSngStatus ∨ (rScrPortStatus ≤ a ∧ a < rScrPortStatus + 0x70) ∨ (rCapErr ≤ a ∧ a < rCapErr + 0x100 ∧ a % 0x20 = 4)
    ∨ (rMemTherm ≤ a ∧ 0 < a % 0x10000 ∧ (a % 0x10000 < 0x100 ∨ lo < 16))

/-- What they leave. -/
def Uncounted (a lo : Nat) : Prop := ¬ Counts a lo

/-- From `s` to `t` memory stands as it stood, and of the registers counts alone may differ. -/
structure Booked (s t : State) : Prop where
  mem : t.mem = s.mem
  fields : FieldsKept Uncounted s t

theorem Booked.of_eq {s t : State} (hm : t.mem = s.mem) (hc : t.csr = s.csr) : Booked s t := ⟨hm, .of_csr hc⟩

theorem Booked.refl (s : State) : Booked s s := .of_eq rfl rfl

theorem Booked.trans {s t u : State} (h : Booked s t) (k : Booked t u) : Booked s u :=
  ⟨k.mem.trans h.mem, h.fields.trans k.fields⟩

theorem Booked.foldl {α : Type} {f : State → α → State} (h : ∀ s a, Booked s (f s a)) (l : List α) (s : State) :
    Booked s (l.foldl f s) := foldl_related .refl .trans (fun s a _ => h s a) s

/-- A field put within what the books count. -/
theorem csrSetField_booked (s : State) {a hi lo : Nat} (v : Nat) (hlo : lo ≤ hi) (h : ∀ l, l ≤ hi → Counts a l) :
    Booked s (csrSetField s a hi lo v) :=
  ⟨rfl, csrSetField_fieldsKept s v hlo fun l hl => Nat.lt_of_not_le fun hle => hl (h l hle)⟩

theorem csrBump_booked (s : State) {a hi lo : Nat} (n : Nat) (hlo : lo ≤ hi) (h : ∀ l, l ≤ hi → Counts a l) :
    Booked s (csrBump s a hi lo n) := csrSetField_booked s _ hlo h

theorem snagRecord_booked (s : State) (r : ErrRec) : Booked s (snagRecord s r) :=
  ⟨(snagRecord_recorded s r).mem, snagRecord_fieldsKept s r fun _ h => h (.inl rfl)⟩

theorem retireLater_booked (s : State) (unit : Nat) : Booked s (retireLater s unit) := by
  unfold retireLater
  split
  · exact .refl s
  · exact .of_eq rfl rfl

theorem markPort_booked (s : State) (unit : Nat) : Booked s (markPort s unit) := by
  unfold markPort
  split
  · exact .refl s
  · refine csrSetField_booked _ _ (by decide) fun l _ => .inr (.inl ?_)
    omega

theorem condemn_booked (s : State) (unit : Nat) : Booked s (condemn s unit) := by
  unfold condemn
  split
  · exact markPort_booked ..
  · exact retireLater_booked ..

theorem reportEvent_booked (s : State) (r : ErrRec) : Booked s (reportEvent s r) := by
  have counted : Booked s { s with snag := snagEvent s.snag r.unit } := .of_eq rfl rfl
  unfold reportEvent
  dsimp only
  split
  · exact (counted.trans (snagRecord_booked ..)).trans (condemn_booked ..)
  · exact counted.trans (snagRecord_booked ..)

/-! Where an address stands is within the device (R196, R197, R199, R217). -/

theorem xorPieces_lt (w fuel n : Nat) : xorPieces w fuel n < 2 ^ w := by
  induction fuel generalizing n with
  | zero => exact Nat.two_pow_pos w
  | succ fuel ih => exact Nat.xor_lt_two_pow (Nat.mod_lt _ (Nat.two_pow_pos w)) (ih _)

/-- A place that the device has: a pseudo-channel is one of 64, a capacity controller one of eight. -/
def Loc.Within : Loc → Prop
  | .hbm _ pc _ => pc < 64
  | .tier c _ _ => c < 8
  | .aperture => True
  | .hole => True

theorem interleave_within (a : Nat) : (interleave a).Within :=
  show fieldOf _ 5 0 < 64 from Nat.mod_lt _ (by decide)

theorem paramLoc_within (s : State) (n a : Nat) : (paramLoc s n a).Within :=
  show _ % 64 < 64 from Nat.mod_lt _ (by decide)

theorem tierLoc_within (t : Nat) : (tierLoc t).Within :=
  Nat.xor_lt_two_pow (n := 3) (Nat.mod_lt _ (by decide)) (xorPieces_lt 3 20 _)

theorem locOf_within (s : State) (a : Nat) : (locOf s a).Within := by
  unfold locOf
  split
  · split
    · exact interleave_within a
    · split
      · exact paramLoc_within ..
      · trivial
  · split
    · trivial
    · split
      · split
        · trivial
        · exact tierLoc_within _
      · split
        · exact Nat.mod_lt _ (by decide)
        · trivial

theorem physLoc_within (s : State) (a : Nat) : (physLoc s a).Within := by
  unfold physLoc
  split
  · split
    · trivial
    · exact tierLoc_within _
  · exact locOf_within s a

theorem physLoc_hbm {s : State} {a st pc off : Nat} (h : physLoc s a = .hbm st pc off) : pc < 64 := by
  have hin := physLoc_within s a
  rwa [h] at hin

theorem physLoc_tier {s : State} {a c p o : Nat} (h : physLoc s a = .tier c p o) : c < 8 := by
  have hin := physLoc_within s a
  rwa [h] at hin

end Sys2Proof.Machine
end

section
/-! SUPPORT. Sectors met by a checked access: what it books, and what it leaves of a poisoned sector (R204, R205, R216). -/

namespace Sys2Proof.Machine

/-! The books. -/

theorem memCount_counts (st off : Nat) (h : 0 < off) (h' : off < 0x100) (l : Nat) : Counts (rMemTherm + off + 0x10000 * st) l := by
  refine .inr (.inr (.inr ?_))
  unfold rMemTherm
  omega

theorem pcCount_counts {pc : Nat} (h : pc < 64) (st : Nat) {l : Nat} (hl : l ≤ 15) : Counts (rMemPcStatus + 0x10000 * st + 4 * pc) l := by
  refine .inr (.inr (.inr ?_))
  unfold rMemTherm rMemPcStatus
  omega

theorem capErr_counts {c : Nat} (h : c < 8) (l : Nat) : Counts (rCapErr + 0x20 * c) l := by
  refine .inr (.inr (.inl ?_))
  unfold rCapErr
  omega

theorem countCorrected_booked (s : State) (k n : Nat) : Booked s (countCorrected s k n) := by
  unfold countCorrected
  split
  · next st pc _ hloc =>
    exact (csrBump_booked s _ (by decide) fun l _ => memCount_counts st 4 (by decide) (by decide) l).trans
      (csrBump_booked _ _ (by decide) fun _ hl => pcCount_counts (physLoc_hbm hloc) st hl)
  · next hloc => exact csrBump_booked s _ (by decide) fun l _ => capErr_counts (physLoc_tier hloc) l
  · exact .refl s

theorem countPoisoned_booked (s : State) (k : Nat) : Booked s (countPoisoned s k) := by
  unfold countPoisoned
  split
  · next st _ _ _ => exact csrBump_booked s _ (by decide) fun l _ => memCount_counts st 8 (by decide) (by decide) l
  · next hloc => exact csrBump_booked s _ (by decide) fun l _ => capErr_counts (physLoc_tier hloc) l
  · exact .refl s

theorem symbolThreshold_booked (s : State) (unit pos : Nat) : Booked s (symbolThreshold s unit pos) := by
  have noted : Booked s (noteCorr s 1 unit pos) := .of_eq rfl rfl
  unfold symbolThreshold
  dsimp only
  split
  · exact (noted.trans (reportEvent_booked ..)).trans (retireLater_booked ..)
  · exact noted

theorem rowThreshold_booked (s : State) (unit row : Nat) (syn : List Byte) : Booked s (rowThreshold s unit row syn) := by
  have listed (c : SnagCounter) : Booked s { noteCorr s 2 unit row with snag := snagPutEntry (noteCorr s 2 unit row).snag c } :=
    .of_eq rfl rfl
  unfold rowThreshold
  dsimp only
  split
  · exact (listed _).trans (snagRecord_booked ..)
  · exact .of_eq rfl rfl

theorem correctedRecord_booked (s : State) (k n : Nat) (c : SnagCounter) (r : ErrRec) :
    Booked s (snagRecord { countCorrected s k n with snag := snagPutEntry (countCorrected s k n).snag c } r) := by
  have listed : Booked (countCorrected s k n) { countCorrected s k n with snag := snagPutEntry (countCorrected s k n).snag c } :=
    .of_eq rfl rfl
  exact ((countCorrected_booked s k n).trans listed).trans (snagRecord_booked ..)

/-! A sector met. -/

/-- A sector's symbols met: the books alone, or then the symbols of a sector that is not poisoned written anew. -/
theorem meetSymbols_cases (wb : Bool) (s : State) (k : Nat) : ∃ u, Booked s u ∧ (meetSymbols wb s k = u
    ∨ (rsDecode (sectorErrs s k) ≠ .uncorrectable ∧ ∃ errs, meetSymbols wb s k = overlayErrs (setErrs u k []) k errs)) := by
  unfold meetSymbols
  dsimp only
  split
  · next hclean =>
    split
    · exact ⟨s, .refl s, .inl rfl⟩
    · exact ⟨s, .refl s, .inr ⟨by simp [hclean], _, rfl⟩⟩
  · next fix hfix =>
    have thresholds (t : State) (u : Nat) : Booked t (fix.foldl (fun t f => symbolThreshold t u f.1) t) :=
      .foldl (fun _ _ => symbolThreshold_booked ..) fix t
    have booked (r : ErrRec) (c : SnagCounter) (u row : Nat) (syn : List Byte) :=
      ((correctedRecord_booked s k fix.length c r).trans (thresholds _ u)).trans (rowThreshold_booked _ u row syn)
    cases wb
    · exact ⟨_, booked .., .inl rfl⟩
    · exact ⟨_, booked .., .inr ⟨by simp [hfix], _, rfl⟩⟩
  · exact ⟨_, (countPoisoned_booked s k).trans (reportEvent_booked ..), .inl rfl⟩

/-- A group's index met: the books alone, or then an index with one wrong copy written anew. -/
theorem meetIndex_cases (wb : Bool) (s : State) (k : Nat) : ∃ u, Booked s u ∧ (meetIndex wb s k = u
    ∨ (idxState s k = 1 ∧ meetIndex wb s k = idxClear u k)) := by
  unfold meetIndex
  dsimp only
  split
  · exact ⟨s, .refl s, .inl rfl⟩
  · next hone =>
    have booked (r : ErrRec) := (countCorrected_booked s k 1).trans (snagRecord_booked _ r)
    cases wb
    · exact ⟨_, booked _, .inl (if_neg Bool.false_ne_true)⟩
    · exact ⟨_, booked _, .inr ⟨hone, if_pos rfl⟩⟩
  · exact ⟨_, (countPoisoned_booked s k).trans (reportEvent_booked ..), .inl rfl⟩

theorem idxClear_csr (s : State) (k : Nat) : (idxClear s k).csr = s.csr := by
  unfold idxClear
  split <;> rfl

theorem idxClear_bytes (s : State) (k : Nat) : (idxClear s k).mem.bytes = s.mem.bytes := by
  unfold idxClear
  split <;> rfl

theorem idxClear_errs (s : State) (k : Nat) : (idxClear s k).mem.errs = s.mem.errs := by
  unfold idxClear
  split <;> rfl

/-- Errors laid over a sector change bytes of that sector alone. -/
theorem overlayErrs_bytes (s : State) (k : Nat) (errs : List (Nat × Nat)) : ∃ b,
    overlayErrs s k errs = { s with mem := { s.mem with bytes := b } }
    ∧ ∀ x, x / 64 ≠ k → stGet 0 b x = stGet 0 s.mem.bytes x := by
  induction errs generalizing s with
  | nil => exact ⟨s.mem.bytes, rfl, fun _ _ => rfl⟩
  | cons e r ih =>
    by_cases he : e.1 < 32
    · obtain ⟨b, hb, hother⟩ := ih (memStore s (k * 64 + 2 * e.1) (leBytes 2 (leNat (memBytes s (k * 64 + 2 * e.1) 2) ^^^ e.2)))
      refine ⟨b, ?_, fun x hx => (hother x hx).trans ?_⟩
      · rw [overlayErrs, List.foldl_cons, if_pos he]
        exact hb
      · have hin := memByte_store s (k * 64 + 2 * e.1) (leBytes 2 (leNat (memBytes s (k * 64 + 2 * e.1) 2) ^^^ e.2)) x
        rw [leBytes_length, if_neg (by omega)] at hin
        exact hin
    · obtain ⟨b, hb, hother⟩ := ih s
      refine ⟨b, ?_, hother⟩
      rw [overlayErrs, List.foldl_cons, if_neg he]
      exact hb

theorem overlayErrs_csr (s : State) (k : Nat) (errs : List (Nat × Nat)) : (overlayErrs s k errs).csr = s.csr := by
  obtain ⟨b, hb, -⟩ := overlayErrs_bytes s k errs
  rw [hb]

theorem meetSymbols_fields (wb : Bool) (s : State) (k : Nat) : FieldsKept Uncounted s (meetSymbols wb s k) := by
  obtain ⟨u, hu, heq | ⟨-, errs, heq⟩⟩ := meetSymbols_cases wb s k
  · exact heq ▸ hu.fields
  · exact heq ▸ hu.fields.trans (.of_csr (overlayErrs_csr ..))

theorem meetIndex_fields (wb : Bool) (s : State) (k : Nat) : FieldsKept Uncounted s (meetIndex wb s k) := by
  obtain ⟨u, hu, heq | ⟨-, heq⟩⟩ := meetIndex_cases wb s k
  · exact heq ▸ hu.fields
  · exact heq ▸ hu.fields.trans (.of_csr (idxClear_csr ..))

theorem meetSector_fields (wb : Bool) (s : State) (k : Nat) : FieldsKept Uncounted s (meetSector wb s k) := by
  unfold meetSector
  split
  · exact meetIndex_fields ..
  · exact (meetSymbols_fields ..).trans (meetIndex_fields ..)

/-- A checked read changes counts of registers alone. -/
theorem readMem_fields (s : State) (a n : Nat) : FieldsKept Uncounted s (readMem s a n).1 := by
  have met : FieldsKept Uncounted s ((badSectors s a n).foldl (fun t k => meetSector (!writeWaits s (64 * k)) t k) s) :=
    .foldl (fun _ _ _ => meetSector_fields ..) s
  show FieldsKept Uncounted s (touchMem s a n).1
  unfold touchMem
  dsimp only
  split
  · exact .refl s
  · split
    · exact met
    · exact met.trans (.of_csr rfl)

/-! A checked write where errors meet it, in its parts. -/

/-- The sectors with errors that a write covers in part. -/
def partSectors (s : State) (a n : Nat) : List Nat := (badSectors s a n).filter (fun k => !coversSector a n k)

/-- Those of them that are poisoned. -/
def deadSectors (s : State) (a n : Nat) : List Nat := (partSectors s a n).filter (poisoned s)

/-- A sector that a write covers whole, free of errors. -/
def sectorCleared (s : State) (k : Nat) : State := idxClear (setErrs s k []) k

/-- The sectors of a write read or cleared, before its bytes are stored. -/
def writeMeets (s : State) (a n : Nat) : State :=
  ((badSectors s a n).filter (coversSector a n)).foldl sectorCleared ((partSectors s a n).foldl (meetSector true) s)

/-- The bytes of sectors put back as another state holds them. -/
def sectorsBack (r s : State) (ks : List Nat) : State := ks.foldl (fun t k => memStore t (k * 64) (memBytes r (k * 64) 64)) s

/-- A write's bytes stored, its poisoned sectors as they stood. -/
def writeStores (s : State) (a : Nat) (bs : List Byte) : State :=
  sectorsBack (writeMeets s a bs.length) (memStore (writeMeets s a bs.length) a bs) (deadSectors s a bs.length)

theorem writeMem_bad {s : State} {a : Nat} {bs : List Byte} {k : Nat} (h : k ∈ badSectors s a bs.length) :
    writeMem s a bs = if (deadSectors s a bs.length).isEmpty then (writeStores s a bs, true)
      else (noteBad (writeStores s a bs) (deadSectors s a bs.length), false) := by
  have hne : ¬ (badSectors s a bs.length).isEmpty = true := by
    rw [List.isEmpty_iff]
    exact List.ne_nil_of_mem h
  have hback (r t : State) (ks : List Nat) :
      (ks.map (fun k => (k, memBytes r (k * 64) 64))).foldl (fun t p => memStore t (p.1 * 64) p.2) t = sectorsBack r t ks :=
    List.foldl_map
  unfold writeMem
  simp only [if_neg hne]
  rw [hback]
  rfl

theorem writeMem_noBad {s : State} {a : Nat} {bs : List Byte} (h : badSectors s a bs.length = []) :
    writeMem s a bs = (memStore s a bs, true) := by simp [writeMem, h]

theorem sectorsBack_frame (r s : State) (ks : List Nat) : ∃ b, sectorsBack r s ks = { s with mem := { s.mem with bytes := b } } := by
  induction ks generalizing s with
  | nil => exact ⟨s.mem.bytes, rfl⟩
  | cons k rest ih => exact ih (memStore s (k * 64) (memBytes r (k * 64) 64))

theorem memByte_sectorsBack (r s : State) (ks : List Nat) (x : Nat) :
    memByte (sectorsBack r s ks) x = if x / 64 ∈ ks then memByte r x else memByte s x := by
  induction ks generalizing s with
  | nil => rfl
  | cons k rest ih =>
    have hstored : memByte (memStore s (k * 64) (memBytes r (k * 64) 64)) x = if x / 64 = k then memByte r x else memByte s x := by
      rw [memByte_store, memBytes_length]
      by_cases hk : x / 64 = k
      · have hx : k * 64 + (x - k * 64) = x := by omega
        rw [if_pos (by omega), if_pos hk, memBytes, List.getElem?_map, List.getElem?_range (by omega)]
        simp [hx]
      · rw [if_neg (by omega), if_neg hk]
    rw [sectorsBack, List.foldl_cons, ← sectorsBack, ih, hstored]
    by_cases hk : x / 64 = k <;> by_cases hr : x / 64 ∈ rest <;> simp [hk, hr]

theorem writeMeets_fields (s : State) (a n : Nat) : FieldsKept Uncounted s (writeMeets s a n) := by
  have met : FieldsKept Uncounted s ((partSectors s a n).foldl (meetSector true) s) :=
    .foldl (fun _ _ _ => meetSector_fields ..) s
  have cleared (t : State) (l : List Nat) : FieldsKept Uncounted t (l.foldl sectorCleared t) :=
    .foldl (fun r k _ => .of_csr (idxClear_csr (setErrs r k []) k)) t
  exact met.trans (cleared ..)

/-- A checked write changes counts of registers alone. -/
theorem writeMem_fields (s : State) (a : Nat) (bs : List Byte) : FieldsKept Uncounted s (writeMem s a bs).1 := by
  have stored : FieldsKept Uncounted s (writeStores s a bs) := by
    obtain ⟨b, hb⟩ := sectorsBack_frame (writeMeets s a bs.length) (memStore (writeMeets s a bs.length) a bs)
      (deadSectors s a bs.length)
    exact (writeMeets_fields s a bs.length).trans (.of_csr (by rw [writeStores, hb]; rfl))
  cases hbad : badSectors s a bs.length with
  | nil => exact writeMem_noBad hbad ▸ .of_csr rfl
  | cons k r =>
    rw [writeMem_bad (hbad ▸ List.mem_cons_self ..)]
    split
    · exact stored
    · exact stored.trans (.of_csr rfl)

/-! The map. -/

/-- A field of a register that the map and the remap slots of R207 are read from is no count. -/
theorem uncounted_of_lt {a : Nat} (h : a < rCapErr) (l : Nat) : Uncounted a l := by
  unfold Uncounted Counts
  unfold rCapErr at *
  unfold rSngStatus rScrPortStatus rMemTherm
  omega

theorem capStatus_uncounted {c : Nat} (h : c < 8) (l : Nat) : Uncounted (rCapStatus + 0x20 * c) l := by
  unfold Uncounted Counts rSngStatus rScrPortStatus rCapErr rMemTherm rCapStatus
  omega

theorem pcStatus_uncounted {pc : Nat} (h : pc < 64) (st : Nat) {l : Nat} (hl : 16 ≤ l) :
    Uncounted (rMemPcStatus + 0x10000 * st + 4 * pc) l := by
  unfold Uncounted Counts rSngStatus rScrPortStatus rCapErr rMemTherm rMemPcStatus
  omega

theorem bitOf_of_field {m n i : Nat} (h : fieldOf m i i = fieldOf n i i) : bitOf m i = bitOf n i := by
  have low (x : Nat) : (fieldOf x i i).testBit 0 = bitOf x i := by
    rw [fieldOf_testBit]
    simp [bitOf]
  rw [← low, ← low, h]

section Map

variable {s t : State} (h : FieldsKept Uncounted s t)
include h

theorem paramBase_kept : paramBase t = paramBase s := by
  rw [paramBase, paramBase, h.field rMemParamBase 9 0 (by decide) (uncounted_of_lt (by decide) _)]

theorem pregion_kept {n : Nat} (hn : n < 64) : pregValid t n = pregValid s n ∧ pregLog2 t n = pregLog2 s n
    ∧ pregBase t n = pregBase s n ∧ pregLen t n = pregLen s n := by
  have lo (hi l : Nat) (hhi : hi < 32) := h.field (rMemPregionLo + 8 * n) hi l hhi (uncounted_of_lt (by unfold rMemPregionLo rCapErr; omega) _)
  have len := h.field (rMemPregionHi + 8 * n) 16 0 (by decide) (uncounted_of_lt (by unfold rMemPregionHi rCapErr; omega) _)
  unfold pregValid pregLog2 pregBase pregLen
  rw [lo 31 31 (by decide), lo 19 16 (by decide), lo 15 0 (by decide), len]
  exact ⟨rfl, rfl, rfl, rfl⟩

theorem pregionOf_kept (a : Nat) : pregionOf t a = pregionOf s a := by
  refine List.find?_congr fun n hn => ?_
  obtain ⟨hvalid, -, hbase, hlen⟩ := pregion_kept h (List.mem_range.1 hn)
  rw [hvalid, hbase, hlen]

theorem tierOut_kept : tierOut t = tierOut s := by
  rw [tierOut, tierOut, Bool.eq_iff_iff, List.any_eq_true, List.any_eq_true]
  refine exists_congr fun c => and_congr_right fun hc => ?_
  rw [bitOf_of_field (h.field _ 31 31 (by decide) (capStatus_uncounted (List.mem_range.1 hc) _))]

theorem paramLoc_kept {n : Nat} (hn : n < 64) (a : Nat) : paramLoc t n a = paramLoc s n a := by
  obtain ⟨-, hlog, hbase, -⟩ := pregion_kept h hn
  simp only [paramLoc, hlog, hbase, paramBase_kept h]

theorem locOf_kept (a : Nat) : locOf t a = locOf s a := by
  unfold locOf
  rw [paramBase_kept h, pregionOf_kept h, tierOut_kept h]
  cases hreg : pregionOf s a with
  | none => rfl
  | some n => simp only [paramLoc_kept h (List.mem_range.1 (List.mem_of_find?_eq_some hreg))]

/-- Neither the map nor the remap slots of retired pseudo-channels are touched by a checked access. -/
theorem tierOffset_kept (a : Nat) : tierOffset t a = tierOffset s a := by
  have hin := locOf_within s a
  unfold tierOffset
  rw [locOf_kept h]
  cases hloc : locOf s a with
  | hbm st pc off =>
    rw [hloc] at hin
    have hfield (hi lo : Nat) (hhi : hi < 32) (hlo : 16 ≤ lo) := h.field _ hi lo hhi (pcStatus_uncounted hin st hlo)
    have hbit := bitOf_of_field (hfield 30 30 (by decide) (by decide))
    have hslot := hfield 29 27 (by decide) (by decide)
    simp only [csrField] at hslot
    simp only [hbit, hslot]
  | tier c p o => rfl
  | aperture => rfl
  | hole => rfl

theorem tierGroupOf_kept (k : Nat) : tierGroupOf t k = tierGroupOf s k := by
  rw [tierGroupOf, tierGroupOf, tierOffset_kept h]

end Map

end Sys2Proof.Machine
end

section
/-! PROOF. Memory reads back what was written, and a poisoned sector answers nothing and keeps its bytes (R194, R205, R216). -/

namespace Sys2Proof.Machine

/-! Memory without errors. -/

/-- Settles O7: a write without errors is a store, a read without errors the stored bytes. -/
theorem memoryReadsBackWhatWasWritten : Obligations.MemoryReadsBackWhatWasWritten := by
  refine ⟨fun s a bs hclean => ?_, fun s a n hclean => readMem_clean hclean a n⟩
  rw [writeMem_clean hclean]
  refine ⟨rfl, memBytes_store s a bs, fun x hx => ?_, hclean, rfl⟩
  rw [memByte_store, if_neg (by omega)]

/-! A poisoned sector while others are met. -/

theorem poisoned_iff (s : State) (k : Nat) : poisoned s k = true ↔ rsDecode (sectorErrs s k) = .uncorrectable ∨ idxState s k = 2 := by
  simp [poisoned]

/-- From `s` to `t` the bytes of sector `k` and its errors stand, and its group's index is no better where it was lost. -/
structure SectorStands (k : Nat) (s t : State) : Prop where
  bytes : ∀ x, x / 64 = k → memByte t x = memByte s x
  errs : sectorErrs t k = sectorErrs s k
  idx : idxState s k = 2 → idxState t k = 2

theorem SectorStands.refl (k : Nat) (s : State) : SectorStands k s s := ⟨fun _ _ => rfl, rfl, id⟩

theorem SectorStands.trans {k : Nat} {s t u : State} (h : SectorStands k s t) (g : SectorStands k t u) : SectorStands k s u :=
  ⟨fun x hx => (g.bytes x hx).trans (h.bytes x hx), g.errs.trans h.errs, g.idx ∘ h.idx⟩

theorem SectorStands.poisoned_of {k : Nat} {s t : State} (h : SectorStands k s t) (hp : poisoned s k = true) : poisoned t k = true := by
  rw [poisoned_iff] at *
  rw [h.errs]
  exact hp.imp_right h.idx

theorem idxState_congr {s t : State} {k : Nat} (hg : tierGroupOf t k = tierGroupOf s k) (hi : t.mem.tierIdx = s.mem.tierIdx) :
    idxState t k = idxState s k := by
  rw [idxState, idxState, hg, hi]

theorem Booked.idxState_eq {s t : State} (h : Booked s t) (k : Nat) : idxState t k = idxState s k :=
  idxState_congr (tierGroupOf_kept h.fields k) (by rw [h.mem])

theorem Booked.stands {s t : State} (h : Booked s t) (k : Nat) : SectorStands k s t :=
  ⟨fun _ _ => memByte_of_mem h.mem _, by rw [sectorErrs, sectorErrs, h.mem], fun hk => (h.idxState_eq k).trans hk⟩

/-- The symbols of another sector written anew. -/
theorem overlayErrs_stands {j k : Nat} (hjk : j ≠ k) (s : State) (errs : List (Nat × Nat)) :
    SectorStands k s (overlayErrs (setErrs s j []) j errs) := by
  obtain ⟨b, hb, hother⟩ := overlayErrs_bytes (setErrs s j []) j errs
  rw [hb]
  refine ⟨fun x hx => hother x (by omega), stGet_set_other [] s.mem.errs j [] k hjk.symm, fun hk => ?_⟩
  exact (idxState_congr rfl rfl).trans hk

theorem tierGroupOf_idxClear (s : State) (j k : Nat) : tierGroupOf (idxClear s j) k = tierGroupOf s k :=
  tierGroupOf_kept (.of_csr (idxClear_csr s j)) k

theorem idxClear_tierIdx {s : State} {j g : Nat} (h : tierGroupOf s j = some g) :
    (idxClear s j).mem.tierIdx = stSet (0, 0) s.mem.tierIdx g (0, 0) := by
  rw [idxClear, h]

theorem idxClear_of_none {s : State} {j : Nat} (h : tierGroupOf s j = none) : idxClear s j = s := by rw [idxClear, h]

/-- What a sector's index tells depends on its group alone. -/
theorem idxState_of_group {s : State} {j k : Nat} (h : tierGroupOf s j = tierGroupOf s k) : idxState s j = idxState s k := by
  rw [idxState, idxState, h]

/-- Of another group the index stays; of its own it reads right. -/
theorem idxState_idxClear (s : State) (j k : Nat) :
    idxState (idxClear s j) k = if tierGroupOf s k = tierGroupOf s j then 0 else idxState s k := by
  cases hj : tierGroupOf s j with
  | none =>
    rw [idxClear_of_none hj]
    split
    · next hk => rw [idxState, hk]
    · rfl
  | some g =>
    rw [idxState, tierGroupOf_idxClear, idxClear_tierIdx hj, idxState]
    cases hk : tierGroupOf s k with
    | none => rfl
    | some g' =>
      by_cases hg : g' = g
      · simp [hg]
      · simp [hg, stGet_set]

/-- An index with one wrong copy written anew: it is not the index of a group that has lost both. -/
theorem idxClear_stands {s : State} {j : Nat} (hj : idxState s j = 1) (k : Nat) : SectorStands k s (idxClear s j) := by
  refine ⟨fun x _ => by rw [memByte, memByte, idxClear_bytes], by rw [sectorErrs, sectorErrs, idxClear_errs], fun hk => ?_⟩
  have hother : tierGroupOf s k ≠ tierGroupOf s j := fun hg => by
    rw [idxState_of_group hg, hj] at hk
    cases hk
  rw [idxState_idxClear, if_neg hother, hk]

theorem meetSymbols_stands {s : State} {j k : Nat} (h : j ≠ k ∨ rsDecode (sectorErrs s k) = .uncorrectable) (wb : Bool) :
    SectorStands k s (meetSymbols wb s j) := by
  obtain ⟨u, hu, heq | ⟨hdec, errs, heq⟩⟩ := meetSymbols_cases wb s j
  · exact heq ▸ hu.stands k
  · have hjk : j ≠ k := h.elim id fun hk hjk => hdec (hjk ▸ hk)
    exact heq ▸ (hu.stands k).trans (overlayErrs_stands hjk u errs)

theorem meetIndex_stands (wb : Bool) (s : State) (j k : Nat) : SectorStands k s (meetIndex wb s j) := by
  obtain ⟨u, hu, heq | ⟨hone, heq⟩⟩ := meetIndex_cases wb s j
  · exact heq ▸ hu.stands k
  · exact heq ▸ (hu.stands k).trans (idxClear_stands ((hu.idxState_eq j).trans hone) k)

/-- Whatever sector is met, a poisoned one stands. -/
theorem meetSector_stands {s : State} {k : Nat} (hp : poisoned s k = true) (wb : Bool) (j : Nat) :
    SectorStands k s (meetSector wb s j) := by
  unfold meetSector
  split
  · exact meetIndex_stands ..
  · next hidx =>
    refine (meetSymbols_stands ?_ wb).trans (meetIndex_stands ..)
    by_cases hjk : j = k
    · subst hjk
      exact .inr (((poisoned_iff s j).1 hp).resolve_right hidx)
    · exact .inl hjk

theorem meetSectors_stands {k : Nat} (wb : Bool) (l : List Nat) {s : State} (hp : poisoned s k = true) :
    SectorStands k s (l.foldl (meetSector wb) s) := by
  induction l generalizing s with
  | nil => exact .refl k s
  | cons j r ih =>
    have met := meetSector_stands hp wb j
    exact met.trans (ih (met.poisoned_of hp))

/-! A poisoned sector written. -/

theorem memByte_sectorCleared (s : State) (j x : Nat) : memByte (sectorCleared s j) x = memByte s x := by
  rw [sectorCleared, memByte, memByte, idxClear_bytes]
  rfl

theorem memByte_sectorsCleared (l : List Nat) (s : State) (x : Nat) : memByte (l.foldl sectorCleared s) x = memByte s x := by
  induction l generalizing s with
  | nil => rfl
  | cons j r ih => exact (ih _).trans (memByte_sectorCleared s j x)

/-- A sector free of errors whose group's index is right. -/
def SectorClean (k : Nat) (s : State) : Prop := sectorErrs s k = [] ∧ idxState s k = 0

theorem SectorClean.not_poisoned {k : Nat} {s : State} (h : SectorClean k s) : poisoned s k = false := by
  obtain ⟨herrs, hidx⟩ := h
  rw [poisoned, herrs, hidx]
  rfl

theorem sectorErrs_sectorCleared (s : State) (j k : Nat) :
    sectorErrs (sectorCleared s j) k = if k = j then [] else sectorErrs s k := by
  rw [sectorErrs, sectorCleared, idxClear_errs]
  exact stGet_set [] s.mem.errs j [] k

theorem idxState_sectorCleared (s : State) (j k : Nat) :
    idxState (sectorCleared s j) k = if tierGroupOf s k = tierGroupOf s j then 0 else idxState s k :=
  idxState_idxClear (setErrs s j []) j k

theorem sectorCleared_self (s : State) (k : Nat) : SectorClean k (sectorCleared s k) :=
  ⟨by rw [sectorErrs_sectorCleared, if_pos rfl], by rw [idxState_sectorCleared, if_pos rfl]⟩

theorem SectorClean.sectorCleared {k : Nat} {s : State} (h : SectorClean k s) (j : Nat) : SectorClean k (sectorCleared s j) := by
  obtain ⟨herrs, hidx⟩ := h
  exact ⟨by rw [sectorErrs_sectorCleared, herrs, ite_self], by rw [idxState_sectorCleared, hidx, ite_self]⟩

/-- Every sector of a list cleared is clean, whatever was cleared before and after it. -/
theorem sectorsCleared_clean {k : Nat} {l : List Nat} (s : State) (h : k ∈ l ∨ SectorClean k s) :
    SectorClean k (l.foldl sectorCleared s) := by
  induction l generalizing s with
  | nil => exact h.resolve_left List.not_mem_nil
  | cons j r ih =>
    refine ih _ ?_
    rcases h with hmem | hclean
    · rcases List.mem_cons.1 hmem with rfl | hr
      · exact .inr (sectorCleared_self s k)
      · exact .inl hr
    · exact .inr (hclean.sectorCleared j)

theorem poisoned_of_frame {s t : State} (k : Nat) (hc : t.csr = s.csr) (he : t.mem.errs = s.mem.errs)
    (hi : t.mem.tierIdx = s.mem.tierIdx) : poisoned t k = poisoned s k := by
  rw [poisoned, poisoned, sectorErrs, sectorErrs, he, idxState_congr (tierGroupOf_kept (.of_csr hc) k) hi]

theorem poisoned_writeStores (s : State) (a : Nat) (bs : List Byte) (k : Nat) :
    poisoned (writeStores s a bs) k = poisoned (writeMeets s a bs.length) k := by
  obtain ⟨b, hb⟩ := sectorsBack_frame (writeMeets s a bs.length) (memStore (writeMeets s a bs.length) a bs) (deadSectors s a bs.length)
  rw [writeStores, hb]
  exact poisoned_of_frame k rfl rfl rfl

section Written

variable {s : State} {a k : Nat} {bs : List Byte} (hbad : k ∈ badSectors s a bs.length)
include hbad

/-- Whether a write that meets an error is reported as done, its memory is what `writeStores` says. -/
theorem writeMem_stored : (writeMem s a bs).1 = writeStores s a bs
    ∨ (writeMem s a bs).1 = noteBad (writeStores s a bs) (deadSectors s a bs.length) := by
  rw [writeMem_bad hbad]
  split
  · exact .inl rfl
  · exact .inr rfl

theorem mem_deadSectors (hp : poisoned s k = true) (hpart : coversSector a bs.length k = false) : k ∈ deadSectors s a bs.length :=
  List.mem_filter.2 ⟨List.mem_filter.2 ⟨hbad, by rw [hpart]; rfl⟩, hp⟩

theorem writeMem_part_fails (hp : poisoned s k = true) (hpart : coversSector a bs.length k = false) : (writeMem s a bs).2 = false := by
  have hne := List.ne_nil_of_mem (mem_deadSectors hbad hp hpart)
  rw [writeMem_bad hbad, if_neg (by rwa [List.isEmpty_iff])]

theorem writeMem_part_keeps (hp : poisoned s k = true) (hpart : coversSector a bs.length k = false) (x : Nat) (hx : x / 64 = k) :
    memByte (writeMem s a bs).1 x = memByte s x := by
  have stored : memByte (writeStores s a bs) x = memByte s x := by
    rw [writeStores, memByte_sectorsBack, if_pos (hx ▸ mem_deadSectors hbad hp hpart), writeMeets, memByte_sectorsCleared]
    exact (meetSectors_stands true _ hp).bytes x hx
  rcases writeMem_stored hbad with h | h
  · rw [h, stored]
  · rw [h]
    exact stored

theorem writeMem_whole_clears (hwhole : coversSector a bs.length k = true) : poisoned (writeMem s a bs).1 k = false := by
  have stored : poisoned (writeStores s a bs) k = false := by
    rw [poisoned_writeStores]
    exact (sectorsCleared_clean _ (.inl (List.mem_filter.2 ⟨hbad, hwhole⟩))).not_poisoned
  rcases writeMem_stored hbad with h | h
  · rw [h, stored]
  · rw [h]
    exact (poisoned_of_frame k rfl rfl rfl).trans stored

end Written

theorem readMem_poisoned {s : State} {a n k : Nat} (hbad : k ∈ badSectors s a n) (hp : poisoned s k = true) :
    (readMem s a n).2 = none := by
  have hne := List.ne_nil_of_mem hbad
  have hdead : (badSectors s a n).filter (poisoned s) ≠ [] := List.ne_nil_of_mem (List.mem_filter.2 ⟨hbad, hp⟩)
  have hfails : (touchMem s a n).2 = false := by
    unfold touchMem
    dsimp only
    rw [if_neg (by rwa [List.isEmpty_iff]), if_neg (by rwa [List.isEmpty_iff])]
  rw [readMem]
  exact if_neg (by rw [hfails]; exact Bool.false_ne_true)

/-- Settles O8: a poisoned sector stands while the other sectors of a write are met, and is then put back; one covered
whole is cleared; a read that meets one has a dead sector. -/
theorem poisonedSectorsAnswerNothing : Obligations.PoisonedSectorsAnswerNothing :=
  ⟨fun _ _ _ _ hbad hp => ⟨fun hpart => ⟨writeMem_part_fails hbad hp hpart, writeMem_part_keeps hbad hp hpart⟩,
    fun hwhole => writeMem_whole_clears hbad hwhole⟩, fun _ _ _ _ hbad hp => readMem_poisoned hbad hp⟩

end Sys2Proof.Machine
end

section
/-! PROOF. MARGIN and TEL_SAMPLE write what they measure (R170, R171, R214, R340). -/

namespace Sys2Proof.Machine

/-! Free values taken. -/

/-- The count of free values taken replaced. -/
def withFree (s : State) (n : Nat) : State := { s with free := n }

theorem laneRecords_takes (k : Nat) (s : State) : ∃ n, (laneRecords k s).1 = withFree s n := by
  induction k generalizing s with
  | zero => exact ⟨s.free, rfl⟩
  | succ k ih =>
    obtain ⟨n, hn⟩ := ih (takeFree s).2
    exact ⟨n, hn⟩

theorem laneRecords_length (k : Nat) (s : State) : (laneRecords k s).2.length = k := by
  induction k generalizing s with
  | zero => rfl
  | succ k ih => exact congrArg Nat.succ (ih _)

theorem laneRecords_flatten_length (k : Nat) (s : State) : (laneRecords k s).2.flatten.length = 4 * k := by
  induction k generalizing s with
  | zero => rfl
  | succ k ih =>
    rw [laneRecords, List.flatten_cons, List.length_append, ih, leBytes_length]
    omega

theorem coreSection_takes (s : State) (pc : Nat) : ∃ n, (coreSection s pc).1 = withFree s n := by
  have taken (l : List Nat) (r : State × List Byte) :
      ∃ n, (l.foldl (fun r _ => ((takeFree r.1).2, r.2 ++ leBytes 4 (takeFree r.1).1)) r).1 = withFree r.1 n := by
    induction l generalizing r with
    | nil => exact ⟨r.1.free, rfl⟩
    | cons a l ih =>
      obtain ⟨n, hn⟩ := ih ((takeFree r.1).2, r.2 ++ leBytes 4 (takeFree r.1).1)
      exact ⟨n, hn⟩
  exact taken ..

theorem coreSections_takes (l : List Nat) (s : State) : ∃ n, (coreSections l s).1 = withFree s n := by
  induction l generalizing s with
  | nil => exact ⟨s.free, rfl⟩
  | cons k r ih =>
    obtain ⟨m, hm⟩ := coreSection_takes s (physCore s k)
    obtain ⟨n, hn⟩ := ih (coreSection s (physCore s k)).1
    exact ⟨n, by rw [coreSections, hn, hm]; rfl⟩

/-- A telemetry record samples the counters and changes none (R170). -/
theorem telRecord_takes (s : State) (outcome lost : Nat) : ∃ n, (telRecord s outcome lost).1 = withFree s n :=
  coreSections_takes ((List.range 256).filter (coreExists s)) s

/-! MARGIN (R214, R340). -/

theorem worstLane_lt {rs : List (List Byte)} (h : rs ≠ []) : worstLane rs < rs.length := by
  unfold worstLane
  dsimp only
  cases hfind : (List.range rs.length).find? _ with
  | none => exact List.length_pos_iff.2 h
  | some i => exact List.mem_range.1 (List.mem_of_find?_eq_some hfind)

theorem clearPc_clean {s : State} (h : CleanMem s) (st pc : Nat) : CleanMem (clearPc s st pc) := by
  obtain ⟨herrs, hidx⟩ := h
  exact ⟨by simp [clearPc, herrs], hidx⟩

/-- The operands of a MARGIN within what R340 gives, its DEST in memory. -/
def MarginOk (c : Cmd) (s : State) : Prop :=
  ¬ (leAt c.body 0 1 = 0 ∨ 2 < leAt c.body 0 1 ∨ 7 < leAt c.body 1 1 ∨ 63 < leAt c.body 2 1 ∨ (!zeroAt c.body 3 5) = true
    ∨ 2 ^ 42 ≤ leAt c.body 8 8 ∨ (!rangeOk s (leAt c.body 8 8) 144) = true)

/-- Memory as the measurement begins: STRESS has cleared its pseudo-channel. -/
def marginStart (c : Cmd) (s : State) : State := if leAt c.body 0 1 = 2 then clearPc s (leAt c.body 1 1) (leAt c.body 2 1) else s

theorem marginStart_clean {s : State} (h : CleanMem s) (c : Cmd) : CleanMem (marginStart c s) := by
  unfold marginStart
  split
  · exact clearPc_clean h _ _
  · exact h

theorem exec_margin_begins {s : State} {q qseq : Nat} {c : Cmd} (h : Begins s q qseq 0x0B05 c) :
    exec (.margin q qseq) s = .next ((bodyMargin c (markBegun s q qseq)).getD s) := by
  obtain ⟨-, hop, -⟩ := id h
  exact congrArg Host.Outcome.next (hostRow_begins h (by rw [hop]; rfl))

section Margin

variable {c : Cmd} {s : State} (hok : MarginOk c s)
include hok

theorem bodyMargin_refused (hmode : leAt c.body 0 1 = 2) (hjob : jobOpen? s = true) :
    bodyMargin c s = some (finish s c stNotReady) :=
  (if_neg hok).trans (if_pos ⟨hmode, hjob⟩)

theorem bodyMargin_waits (hmode : leAt c.body 0 1 = 1) (hshed : 1 ≤ shedLevel s) : bodyMargin c s = none := by
  have hnot : ¬ (leAt c.body 0 1 = 2 ∧ jobOpen? s = true) := by omega
  exact ((if_neg hok).trans (if_neg hnot)).trans (if_pos (.inl hshed))

theorem bodyMargin_measures (hjob : leAt c.body 0 1 = 1 ∨ jobOpen? s = false) (hshed : shedLevel s = 0)
    (hcase : caseHot s (leAt c.body 1 1) = false) (hclean : CleanMem s) {r : State × List (List Byte)}
    (hr : r = laneRecords 36 (marginStart c s)) :
    bodyMargin c s = some (complete (memStore r.1 (leAt c.body 8 8) r.2.flatten) c stOk 0
      ([36, byteOf (worstLane r.2), 0, 0] ++ nthD r.2 (worstLane r.2) [])) := by
  have hnot : ¬ (leAt c.body 0 1 = 2 ∧ jobOpen? s = true) := by
    rintro ⟨hmode, hopen⟩
    rcases hjob with h | h
    · omega
    · simp [hopen] at h
  have hgo : ¬ (1 ≤ shedLevel s ∨ (leAt c.body 0 1 = 1 ∧ caseHot s (leAt c.body 1 1) = true ∧ bgClass s 3 = 5)) := by
    simp [hshed, hcase]
  have hwritten : writeMem r.1 (leAt c.body 8 8) r.2.flatten = (memStore r.1 (leAt c.body 8 8) r.2.flatten, true) := by
    obtain ⟨n, hn⟩ := laneRecords_takes 36 (marginStart c s)
    exact writeMem_clean (by rw [hr, hn]; exact marginStart_clean hclean c) _ _
  refine ((if_neg hok).trans (if_neg hnot)).trans ((if_neg hgo).trans ?_)
  rw [← marginStart, ← hr]
  dsimp only
  rw [hwritten]
  rfl

end Margin

/-- The lanes' records stand at DEST, and every other byte as it stood when the measurement began. -/
theorem margin_memory (s : State) (d : Nat) {r : State × List (List Byte)} (hr : r = laneRecords 36 s) :
    memBytes (memStore r.1 d r.2.flatten) d 144 = r.2.flatten
      ∧ ∀ a, a < d ∨ d + 144 ≤ a → memByte (memStore r.1 d r.2.flatten) a = memByte s a := by
  have hlen : r.2.flatten.length = 144 := hr ▸ laneRecords_flatten_length 36 s
  refine ⟨?_, fun a ha => ?_⟩
  · rw [← hlen]
    exact memBytes_store ..
  · rw [memByte_store, if_neg (by omega)]
    obtain ⟨n, hn⟩ := laneRecords_takes 36 s
    rw [hr, hn]
    rfl

/-! TEL_SAMPLE (R340). -/

theorem exec_telSample_begins {s : State} {q qseq : Nat} {c : Cmd} (h : Begins s q qseq 0x0A01 c) :
    exec (.telSample q qseq) s = .next ((bodyTelSample c (markBegun s q qseq)).getD s) := by
  obtain ⟨-, hop, -⟩ := id h
  exact congrArg Host.Outcome.next (hostRow_begins h (by rw [hop]; rfl))

section TelSample

variable {c : Cmd} {s : State} {r : State × List Byte} (hd : leAt c.body 0 8 < 2 ^ 42) (hz : zeroAt c.body 8 8 = true)
  (hr : r = telRecord s 0 0)
include hd hz hr

theorem bodyTelSample_valid : bodyTelSample c s = if (!rangeOk s (leAt c.body 0 8) r.2.length) = true then some (finish s c stBadParam)
    else some (finish (writeMem r.1 (leAt c.body 0 8) r.2).1 c (if (writeMem r.1 (leAt c.body 0 8) r.2).2 then stOk else stFault)) := by
  subst hr
  refine if_neg ?_
  rw [hz]
  simpa using hd

theorem bodyTelSample_refused (hrange : rangeOk s (leAt c.body 0 8) r.2.length = false) :
    bodyTelSample c s = some (finish s c stBadParam) := by
  rw [bodyTelSample_valid hd hz hr, hrange]
  rfl

theorem bodyTelSample_writes (hrange : rangeOk s (leAt c.body 0 8) r.2.length = true) (hclean : CleanMem s) :
    bodyTelSample c s = some (finish (memStore r.1 (leAt c.body 0 8) r.2) c stOk) := by
  have hclean' : CleanMem r.1 := by
    obtain ⟨n, hn⟩ := telRecord_takes s 0 0
    rw [hr, hn]
    exact hclean
  rw [bodyTelSample_valid hd hz hr, hrange, writeMem_clean hclean']
  rfl

end TelSample

/-- Settles O19: MARGIN by its guards and the lanes it stores, TEL_SAMPLE by the record it stores. -/
theorem measurementsWritten : Obligations.MeasurementsWritten := by
  refine ⟨fun s q qseq c h hlow hhigh hstack hpc hzero hdest hrange => ?margin,
    fun s q qseq c r h hdest hzero hr => ⟨?outside, ?written⟩⟩
  case margin =>
    have hok : MarginOk c (markBegun s q qseq) := by
      unfold MarginOk
      rw [hzero, hrange]
      simp only [Bool.not_true, Bool.false_eq_true, or_false, false_or]
      omega
    rw [exec_margin_begins h]
    refine ⟨fun hmode hjob => ?refused, fun hmode hshed => ?waits, fun hjob hshed hcase hclean => ?measures⟩
    case refused => rw [bodyMargin_refused hok hmode hjob]; rfl
    case waits => rw [bodyMargin_waits hok hmode hshed]; rfl
    case measures =>
      obtain ⟨r, hr⟩ : ∃ r, r = laneRecords 36 (marginStart c (markBegun s q qseq)) := ⟨_, rfl⟩
      have hlen : r.2.length = 36 := hr ▸ laneRecords_length 36 _
      have hworst : worstLane r.2 < 36 := hlen ▸ worstLane_lt (List.ne_nil_of_length_pos (by omega))
      have hbyte : (byteOf (worstLane r.2)).toNat = worstLane r.2 := by
        rw [byteOf, BitVec.toNat_ofNat, Nat.mod_eq_of_lt (by omega)]
      obtain ⟨hstored, hother⟩ := margin_memory (marginStart c (markBegun s q qseq)) (leAt c.body 8 8) hr
      refine ⟨_, r.2, byteOf (worstLane r.2), ?_, hlen, hbyte.symm ▸ hworst, hstored, fun hmode a ha => ?_, fun hmode a ha => ?_⟩
      · rw [bodyMargin_measures hok hjob hshed hcase hclean hr, hbyte]
        rfl
      · rw [hother a ha, marginStart, if_neg (by omega)]
      · rw [hother a ha, marginStart, if_pos hmode]
  case outside =>
    intro hout
    rw [exec_telSample_begins h, bodyTelSample_refused hdest hzero hr hout]
    rfl
  case written =>
    intro hin hclean
    obtain ⟨n, hn⟩ := telRecord_takes (markBegun s q qseq) 0 0
    refine ⟨memStore r.1 (leAt c.body 0 8) r.2, ?_, memBytes_store .., fun a ha => ?_, ?_, ?_⟩
    · rw [exec_telSample_begins h, bodyTelSample_writes hdest hzero hr hin hclean]
      rfl
    · rw [memByte_store, if_neg (by omega), hr, hn]
      rfl
    · rw [memStore_csr, hr, hn]
      rfl
    · rw [memStore_job, hr, hn]
      rfl

end Sys2Proof.Machine
end

section
/-! SUPPORT. The shed level and the heat registers: what completions, telemetry and the mirror leave of them, and what an
entry of S5 leaves (R170, R213, R362, R374, R379, R387). -/

namespace Sys2Proof.Machine

/-! The parts that `SameUnits` holds. -/

theorem SameUnits.runs_eq {s t : State} (h : SameUnits s t) : t.runs = s.runs := by
  obtain ⟨-, -, -, -, hruns, -⟩ := h
  exact hruns

theorem SameUnits.power_eq {s t : State} (h : SameUnits s t) : t.power = s.power := by
  obtain ⟨-, -, -, -, -, -, -, -, -, -, -, -, hpower, -⟩ := h
  exact hpower

theorem SameUnits.plumb_eq {s t : State} (h : SameUnits s t) : t.plumb = s.plumb := by
  obtain ⟨-, -, -, -, -, -, -, -, -, -, -, -, -, -, hplumb, -⟩ := h
  exact hplumb

/-! Telemetry and the mirror (R170, R362). -/

/-- The fields of heat and power: LEVEL of PWR_STATUS, THM_DIE of the five dies, MEM_THERM of the stacks. -/
def HeatField (a lo : Nat) : Prop :=
  (a = rPwrStatus ∧ 29 ≤ lo) ∨ (rThmDie ≤ a ∧ a < rThmDie + 20) ∨ (rMemTherm ≤ a ∧ a % 0x10000 = 0)

theorem heatField_uncounted {a lo : Nat} (h : HeatField a lo) : Uncounted a lo := by
  unfold HeatField at h
  unfold Uncounted Counts
  unfold rPwrStatus rThmDie rMemTherm at *
  unfold rSngStatus rScrPortStatus rCapErr
  omega

theorem not_heatField {a : Nat} (h : a < rPwrStatus) (lo : Nat) : ¬ HeatField a lo := by
  unfold HeatField
  unfold rPwrStatus at *
  unfold rThmDie rMemTherm
  omega

theorem writeMem_heat (s : State) (a : Nat) (bs : List Byte) : FieldsKept HeatField s (writeMem s a bs).1 :=
  (writeMem_fields s a bs).mono fun _ _ => heatField_uncounted

theorem readMem_heat (s : State) (a n : Nat) : FieldsKept HeatField s (readMem s a n).1 :=
  (readMem_fields s a n).mono fun _ _ => heatField_uncounted

/-- A field of a register below the power controller's put. -/
theorem csrSetField_heat (s : State) {a hi lo : Nat} (v : Nat) (hlo : lo ≤ hi) (h : a < rPwrStatus) :
    FieldsKept HeatField s (csrSetField s a hi lo v) :=
  csrSetField_fieldsKept s v hlo fun l hl => absurd hl (not_heatField h l)

/-- From `s` to `t` the fields of heat and power stand, and every unit. -/
structure HeatKept (s t : State) : Prop where
  fields : FieldsKept HeatField s t
  units : SameUnits s t

theorem HeatKept.refl (s : State) : HeatKept s s := ⟨.refl s, .refl s⟩

theorem HeatKept.trans {s t u : State} (h : HeatKept s t) (k : HeatKept t u) : HeatKept s u :=
  ⟨h.fields.trans k.fields, h.units.trans k.units⟩

theorem writeMem_heatKept (s : State) (a : Nat) (bs : List Byte) : HeatKept s (writeMem s a bs).1 :=
  ⟨writeMem_heat .., (SameUnits.refl s).write ..⟩

theorem csrSetField_heatKept (s : State) {a hi lo : Nat} (v : Nat) (hlo : lo ≤ hi) (h : a < rPwrStatus) :
    HeatKept s (csrSetField s a hi lo v) := ⟨csrSetField_heat s v hlo h, csrPut_units (.refl s) ..⟩

theorem step_heatKept (s : State) (x : StepSt) : HeatKept s { s with step := x } := ⟨.of_csr rfl, step_units (.refl s) x⟩

theorem net_heatKept (s : State) (n : NetSt) : HeatKept s { s with net := n } :=
  ⟨.of_csr rfl, (SameUnits.refl s).upd s.csr s.queues s.flights s.step s.mem n s.snag s.boot.flash⟩

theorem snag_heatKept (s : State) (g : SnagSt) : HeatKept s { s with snag := g } := ⟨.of_csr rfl, (snag_books s g).1⟩

theorem bgHeld_heatKept (s : State) (l : List (List Byte)) : HeatKept s { s with mem := { s.mem with bgHeld := l } } :=
  ⟨.of_csr rfl, (SameUnits.refl s).upd s.csr s.queues s.flights s.step _ s.net s.snag s.boot.flash⟩

theorem telWrite_heatKept (l : List (List Byte)) (s : State) : HeatKept s (telWrite l s) := by
  induction l generalizing s with
  | nil => exact bgHeld_heatKept s []
  | cons d r ih =>
    unfold telWrite
    dsimp only
    split
    · exact bgHeld_heatKept s _
    · split
      · exact ((writeMem_heatKept ..).trans (csrSetField_heatKept _ _ (by decide) (by decide))).trans (ih _)
      · exact ((writeMem_heatKept ..).trans (step_heatKept _ _)).trans (ih _)

theorem telFlush_heatKept (s : State) : HeatKept s (telFlush s) := telWrite_heatKept ..

theorem telFlush_empty {s : State} (h : s.mem.bgHeld = []) : telFlush s = s := by
  rw [telFlush, h, telWrite, ← h]

theorem sendPkt_heatKept (s : State) (o : ScrimOp) (k : TxPkt) (idx : Nat) : HeatKept s (sendPkt s o k idx) := by
  unfold sendPkt
  dsimp only
  split
  · exact .refl s
  · exact net_heatKept ..

theorem HeatKept.foldl {α : Type} {f : State → α → State} (h : ∀ s a, HeatKept s (f s a)) (l : List α) (s : State) :
    HeatKept s (l.foldl f s) := foldl_related .refl .trans (fun s a _ => h s a) s

theorem issueOp_heatKept (s : State) (owner : OpOwner) (id kind peer chan cls addr : Nat) (data : List Byte) (len : Nat) :
    HeatKept s (issueOp s owner id kind peer chan cls addr data len).1 := by
  unfold issueOp issueOrWait issueNow
  dsimp only
  split
  · exact .refl s
  · split
    · exact net_heatKept ..
    · exact (net_heatKept s _).trans (.foldl (fun t (p : Nat × TxPkt) => sendPkt_heatKept t _ p.2 p.1) _ _)

theorem pieceBytes_heatKept (s : State) (a n : Nat) : HeatKept s (pieceBytes s a n).1 := by
  unfold pieceBytes
  split
  · exact .refl s
  · exact ⟨readMem_heat .., (SameUnits.refl s).read ..⟩

theorem mirrorStop_heatKept (s : State) : HeatKept s (mirrorStop s) :=
  (snag_heatKept s _).trans (csrSetField_heatKept _ _ (by decide) (by decide))

theorem mirrorPump_heatKept (s : State) : HeatKept s (mirrorPump s) := by
  have sent (t : State) (g : SnagSt) (owner : OpOwner) (id kind peer chan cls addr : Nat) (data : List Byte) (len : Nat) :
      HeatKept t (issueOp { t with snag := g } owner id kind peer chan cls addr data len).1 :=
    (snag_heatKept t g).trans (issueOp_heatKept ..)
  unfold mirrorPump
  dsimp only
  split
  · split
    · exact .refl s
    · split
      · exact (pieceBytes_heatKept ..).trans (mirrorStop_heatKept _)
      · split
        · exact (pieceBytes_heatKept ..).trans (sent ..)
        · exact ((pieceBytes_heatKept ..).trans (sent ..)).trans (mirrorStop_heatKept _)
  · exact .refl s

theorem mirrorPump_idle {s : State} (h : s.snag.push = []) : mirrorPump s = s := by rw [mirrorPump, h]

/-! The shed level while commands begin and end (R326, R327). -/

/-- LEVEL of PWR_STATUS. -/
def LevelField (a lo : Nat) : Prop := a = rPwrStatus ∧ 29 ≤ lo

/-- From `s` to `t` the shed level, the power controller's books and the tick stay, and where no RUN is open none is after. -/
structure ShedKept (s t : State) : Prop where
  level : FieldsKept LevelField s t
  power : t.power = s.power
  plumb : t.plumb = s.plumb
  runs : s.runs = [] → t.runs = []

theorem ShedKept.of_units {s t : State} (hf : FieldsKept LevelField s t) (h : SameUnits s t) : ShedKept s t :=
  ⟨hf, h.power_eq, h.plumb_eq, fun hr => h.runs_eq.trans hr⟩

theorem ShedKept.refl (s : State) : ShedKept s s := .of_units (.refl s) (.refl s)

theorem ShedKept.trans {s t u : State} (h : ShedKept s t) (k : ShedKept t u) : ShedKept s u :=
  ⟨h.level.trans k.level, k.power.trans h.power, k.plumb.trans h.plumb, k.runs ∘ h.runs⟩

theorem ShedKept.foldl {α : Type} {f : State → α → State} (h : ∀ s a, ShedKept s (f s a)) (l : List α) (s : State) :
    ShedKept s (l.foldl f s) := foldl_related .refl .trans (fun s a _ => h s a) s

theorem levelOfPower_kept {s t : State} (h : FieldsKept LevelField s t) : levelOfPower t = levelOfPower s :=
  h.field rPwrStatus 31 29 (by decide) ⟨rfl, Nat.le_refl _⟩

theorem FieldsKept.level_of_heat {s t : State} (h : FieldsKept HeatField s t) : FieldsKept LevelField s t :=
  h.mono fun _ _ => .inl

theorem HeatKept.shedKept {s t : State} (h : HeatKept s t) : ShedKept s t := .of_units h.fields.level_of_heat h.units

theorem csrSetField_level (s : State) {a hi lo : Nat} (v : Nat) (hlo : lo ≤ hi) (h : a ≠ rPwrStatus ∨ hi < 29) :
    FieldsKept LevelField s (csrSetField s a hi lo v) :=
  csrSetField_fieldsKept s v hlo fun l hl => by
    obtain ⟨ha, hl⟩ := hl
    exact Nat.lt_of_lt_of_le (h.resolve_left (not_not_intro ha)) hl

theorem writeMem_level (s : State) (a : Nat) (bs : List Byte) : FieldsKept LevelField s (writeMem s a bs).1 :=
  (writeMem_heat s a bs).level_of_heat

theorem ringWrite_level (s : State) (q : Nat) (r : Bool) (e : List Byte) : FieldsKept LevelField s (ringWrite s q r e) := by
  unfold ringWrite
  dsimp only
  split
  · exact .of_csr rfl
  · split
    · exact (writeMem_level ..).trans (csrSetField_level _ _ (by decide) (.inr (by decide)))
    · exact ((writeMem_level ..).trans (writeMem_level ..)).trans (.of_csr rfl)

theorem queuePut_level (s : State) (q : Nat) (x : Queue) : FieldsKept LevelField s (queuePut s q x) := .of_csr rfl

theorem noteOp_level (s : State) (c : Cmd) (st : Nat) : FieldsKept LevelField s (noteOp s c st) :=
  .ite (.refl s) (.of_csr rfl)

theorem cmdReply_level (s : State) (o : Origin) (quiet : Bool) (e : List Byte) : FieldsKept LevelField s (cmdReply s o quiet e) := by
  unfold cmdReply sendAnswer
  split
  · exact .refl s
  · split
    · exact .refl s
    · exact .of_csr rfl

theorem report_level (s : State) (c : Cmd) (st fl : Nat) (r : List Byte) : FieldsKept LevelField s (report s c st fl r) := by
  unfold report
  dsimp only
  split
  · exact noteOp_level ..
  · split
    · have noted (l : List (Nat × Nat)) : FieldsKept LevelField s (noteOp { s with step := { s.step with silent := l } } c st) :=
        (noteOp_level ..).after rfl
      split
      · exact (noted _).trans (csrSetField_level _ _ (by decide) (.inl (by decide)))
      · exact noted _
    · exact ((queuePut_level ..).trans (ringWrite_level ..)).trans ((noteOp_level ..).trans (cmdReply_level ..))

theorem finish_shedKept (s : State) (c : Cmd) (st : Nat) : ShedKept s (finish s c st) := by
  refine .of_units ?_ (complete_units (.refl s) ..)
  unfold finish complete
  dsimp only
  split
  · exact (report_level ..).trans (.of_csr rfl)
  · exact (report_level ..).trans (.of_csr rfl)

theorem logEntry_level (s : State) (q : Nat) (e : List Byte) : FieldsKept LevelField s (logEntry s q e) := by
  unfold logEntry
  dsimp only
  split
  · exact (writeMem_level ..).after rfl
  · exact (csrSetField_level _ _ (by decide) (.inl (by decide))).after rfl

theorem markBegun_shedKept (s : State) (q qseq : Nat) : ShedKept s (markBegun s q qseq) := by
  refine .of_units ?_ (markBegun_units (.refl s) ..)
  unfold markBegun
  dsimp only
  split
  · exact .refl s
  · exact .ite ((queuePut_level ..).trans (logEntry_level ..)) (queuePut_level ..)

end Sys2Proof.Machine
end

section
/-! SUPPORT. What an entry of S5 leaves (R379). -/

namespace Sys2Proof.Machine

/-- A command begun and ended. -/
theorem markBegun_finish_shedKept (s : State) (q qseq : Nat) (c : Cmd) (st : Nat) : ShedKept s (finish (markBegun s q qseq) c st) :=
  (markBegun_shedKept ..).trans (finish_shedKept ..)

theorem shedPlaced_shedKept (s : State) : ShedKept s (shedPlaced s) := by
  have given : ShedKept s { s with held := [], topcoat := { s.topcoat with waiting := [] } } := ⟨.of_csr rfl, rfl, rfl, id⟩
  exact given.trans (.foldl (fun t q => .foldl (fun t (sl : QSlot) => markBegun_finish_shedKept t q sl.qseq (cmdOf q sl) stShed) _ t) _ _)

/-- What ends with every open command beside the commands themselves (R352, R365). -/
def workDropped (s : State) : State :=
  let s := dropStreams (dropTiles { s with runs := [], held := [] } ((s.flights.map (·.cmd)).map (·.op)))
  let s := { s with coll := { s.coll with running := [], permute := none }
                    topcoat := { s.topcoat with running := none, waiting := [], taken := [], tops := List.replicate 8 topStack0 }
                    step := { s.step with fence := none, fenceOps := none, vote := none, voteDone := false } }
  let s := { s with snag := { s.snag with testCmds := [], pull := none }
                    queues := s.queues.map (fun (x : Queue) => { x with launchHold := none }) }
  csrSetField { s with net := { s.net with waiting := [] } } rColEpoch 17 16 0

theorem workDropped_shedKept (s : State) : ShedKept s (workDropped s) where
  level := (csrSetField_level _ _ (by decide) (.inl (by decide))).after rfl
  power := rfl
  plumb := rfl
  runs _ := rfl

theorem abortOpen_after (s : State) : ShedKept (workDropped s) (abortOpen s) := by
  unfold abortOpen
  dsimp only
  refine ((ShedKept.foldl (fun _ _ => finish_shedKept ..) _ (workDropped s)).trans (.foldl (fun t k => ?_) _ _)).trans
    (.foldl (fun t h => ?_) _ _)
  · split
    · exact markBegun_finish_shedKept ..
    · exact .refl t
  · split
    · exact markBegun_finish_shedKept ..
    · exact .refl t

theorem abortOpen_shedKept (s : State) : ShedKept s (abortOpen s) := (workDropped_shedKept s).trans (abortOpen_after s)

theorem abortOpen_runs (s : State) : (abortOpen s).runs = [] := (abortOpen_after s).runs rfl

theorem copyLedger_heatKept (s : State) (i : Nat) (e : List Byte) (cls : Nat) : HeatKept s (copyLedger s i e cls) := by
  unfold copyLedger
  split
  · exact .refl s
  · split
    · exact .refl s
    · exact issueOp_heatKept ..

theorem saveHeader_heatKept (s : State) : HeatKept s (saveHeader s) := by
  unfold saveHeader
  split
  · exact .refl s
  · exact (writeMem_heatKept ..).trans (copyLedger_heatKept ..)

theorem clockArray_level (s : State) (d v : Nat) {hi lo : Nat} (hlo : lo ≤ hi) :
    FieldsKept LevelField s (csrSetField s (rClkArray + 4 * d) hi lo v) := by
  refine csrSetField_level s v hlo (.inl ?_)
  unfold rClkArray rPwrStatus
  omega

theorem clockStep_shedKept (s : State) (d : Nat) : ShedKept s (clockStep s d) := ⟨clockArray_level s d _ (by decide), rfl, rfl, id⟩

theorem clockAsk_shedKept (s : State) (bit v : Nat) : ShedKept s (clockAsk s bit v) := by
  have asked (t : State) (d : Nat) : ShedKept t (csrSetField t (rClkArray + 4 * d) bit bit v) :=
    ⟨clockArray_level t d v (Nat.le_refl _), rfl, rfl, id⟩
  exact .foldl (fun t d => (asked t d).trans (clockStep_shedKept _ d)) _ s

/-- S5 put into PWR_STATUS and the power controller's books, with its record. -/
def s5Noted (s : State) (unit cause sensor : Nat) (reading : Int) : State :=
  let s := powerRecord (csrSetField s rPwrStatus 31 29 5) unit cause false 5 sensor reading 3
  { s with power := { s.power with
    pendEnter := [], pendLeave := none, holdAt := none, s5At := some s.plumb, s5Cause := cause
    s4At := if s.power.s4At.isNone then some s.plumb else s.power.s4At } }

/-- What follows at once: clocks, the header, and every command's end. -/
def s5Ends (s : State) : State := abortOpen (shedPlaced (saveHeader (holdClocks (clockAsk s 31 1))))

theorem enterS5_entered {s : State} (h : levelOfPower s ≠ 5) (unit cause sensor : Nat) (reading : Int) :
    enterS5 s unit cause sensor reading = s5Ends (s5Noted s unit cause sensor reading) := if_neg h

theorem enterS5_again {s : State} (h : levelOfPower s = 5) (unit cause sensor : Nat) (reading : Int) :
    enterS5 s unit cause sensor reading = s := if_pos h

theorem s5Ends_shedKept (s : State) : ShedKept s (s5Ends s) := by
  have clocks (t : State) : ShedKept t (holdClocks t) := ⟨.of_csr rfl, rfl, rfl, id⟩
  exact ((((clockAsk_shedKept s 31 1).trans (clocks _)).trans (saveHeader_heatKept _).shedKept).trans (shedPlaced_shedKept _)).trans
    (abortOpen_shedKept _)

/-- The device is in S5 by a cause, since a tick, and no RUN is open. -/
structure InS5 (cause tick : Nat) (s : State) : Prop where
  level : levelOfPower s = 5
  s5Cause : s.power.s5Cause = cause
  s5At : s.power.s5At = some tick
  runs : s.runs = []

theorem powerRecord_fieldsKept {F : Nat → Nat → Prop} (s : State) (unit cause : Nat) (ret : Bool) (level sensor : Nat) (reading : Int)
    (severity : Nat) (h : ∀ l, ¬ F rSngStatus l) : FieldsKept F s (powerRecord s unit cause ret level sensor reading severity) :=
  snagRecord_fieldsKept s _ h

theorem powerRecord_books (s : State) (unit cause : Nat) (ret : Bool) (level sensor : Nat) (reading : Int) (severity : Nat) :
    ErrOnly s (powerRecord s unit cause ret level sensor reading severity) := snagRecord_books ..

theorem powerRecord_recorded (s : State) (unit cause : Nat) (ret : Bool) (level sensor : Nat) (reading : Int) (severity : Nat) :
    Recorded s (powerRecord s unit cause ret level sensor reading severity) := snagRecord_recorded ..

theorem powerRecord_level (s : State) (unit cause : Nat) (ret : Bool) (level sensor : Nat) (reading : Int) (severity : Nat) :
    levelOfPower (powerRecord s unit cause ret level sensor reading severity) = levelOfPower s :=
  levelOfPower_kept (powerRecord_fieldsKept _ _ _ _ _ _ _ _ fun _ hl => absurd hl.1 (by decide))

theorem powerRecord_plumb (s : State) (unit cause : Nat) (ret : Bool) (level sensor : Nat) (reading : Int) (severity : Nat) :
    (powerRecord s unit cause ret level sensor reading severity).plumb = s.plumb := (powerRecord_books ..).1.plumb_eq

theorem s5Noted_level (s : State) (unit cause sensor : Nat) (reading : Int) : levelOfPower (s5Noted s unit cause sensor reading) = 5 := by
  have hcsr : (s5Noted s unit cause sensor reading).csr
      = (powerRecord (csrSetField s rPwrStatus 31 29 5) unit cause false 5 sensor reading 3).csr := rfl
  rw [levelOfPower_kept (.of_csr hcsr), powerRecord_level]
  exact csrField_setField_self s rPwrStatus 31 29 5 (by decide) (by decide)

theorem s5Noted_cause (s : State) (unit cause sensor : Nat) (reading : Int) :
    (s5Noted s unit cause sensor reading).power.s5Cause = cause := rfl

theorem s5Noted_tick (s : State) (unit cause sensor : Nat) (reading : Int) :
    (s5Noted s unit cause sensor reading).power.s5At = some s.plumb := by
  have hat : (s5Noted s unit cause sensor reading).power.s5At
      = some (powerRecord (csrSetField s rPwrStatus 31 29 5) unit cause false 5 sensor reading 3).plumb := rfl
  rw [hat, powerRecord_plumb, csrSetField_plumb]

theorem s5Ends_runs (s : State) : (s5Ends s).runs = [] := abortOpen_runs _

/-- Entering S5 from a level above it notes the cause and the tick, and ends every RUN. -/
theorem enterS5_inS5 {s : State} (h : levelOfPower s ≠ 5) (unit cause sensor : Nat) (reading : Int) :
    InS5 cause s.plumb (enterS5 s unit cause sensor reading) := by
  have ends := s5Ends_shedKept (s5Noted s unit cause sensor reading)
  rw [enterS5_entered h]
  refine ⟨?_, ?_, ?_, s5Ends_runs _⟩
  · rw [levelOfPower_kept ends.level, s5Noted_level]
  · rw [ends.power, s5Noted_cause]
  · rw [ends.power, s5Noted_tick]

end Sys2Proof.Machine
end

section
/-! SUPPORT. One sensor read at a time: a stack's temperatures (R213, R389) and a die's (R387, R388, R390). -/

namespace Sys2Proof.Machine

/-- A run of samples comes to each of its numbers once. -/
theorem foldl_range_at {f : State → Nat → State} {n k : Nat} (hk : k < n) (s : State) :
    ∃ l₁ l₂ : List Nat, (∀ j ∈ l₁, j < n ∧ j ≠ k) ∧ (∀ j ∈ l₂, j < n ∧ j ≠ k)
      ∧ (List.range n).foldl f s = l₂.foldl f (f (l₁.foldl f s) k) := by
  obtain ⟨l₁, l₂, hl⟩ := List.append_of_mem (List.mem_range.2 hk)
  have hlt : ∀ j ∈ l₁ ++ k :: l₂, j < n := fun j hj => List.mem_range.1 (hl ▸ hj)
  have hnodup := List.nodup_range (n := n)
  rw [hl, List.nodup_middle, List.nodup_cons, List.mem_append, not_or] at hnodup
  obtain ⟨⟨h₁, h₂⟩, -⟩ := hnodup
  exact ⟨l₁, l₂, fun j hj => ⟨hlt j (List.mem_append_left _ hj), fun he => h₁ (he ▸ hj)⟩,
    fun j hj => ⟨hlt j (List.mem_append_right _ (List.mem_cons_of_mem k hj)), fun he => h₂ (he ▸ hj)⟩,
    by rw [hl, List.foldl_append, List.foldl_cons]⟩

/-- What every step of a run leaves, the run leaves. -/
theorem foldl_part {α β : Type} {f : State → α → State} {g : State → β} (h : ∀ s a, g (f s a) = g s) (l : List α) (s : State) :
    g (l.foldl f s) = g s := by
  induction l generalizing s with
  | nil => rfl
  | cons a r ih => exact (ih _).trans (h s a)

theorem wrapInt_lt (w : Nat) (i : Int) : wrapInt w i < 2 ^ w := by
  have hpos : (0 : Int) < ((2 ^ w : Nat) : Int) := by exact_mod_cast Nat.two_pow_pos w
  have hlt := Int.emod_lt_of_pos i hpos
  have hge := Int.emod_nonneg i hpos.ne'
  unfold wrapInt
  omega

theorem boolNat_mod_two (b : Bool) : boolNat b % 2 = boolNat b := by cases b <;> rfl

/-- A temperature put reads back as its 16 bits. -/
theorem csrField_setTemp (s : State) (a : Nat) (t : Int) : csrField (csrSetField s a 15 0 (wrapInt 16 t)) a 15 0 = wrapInt 16 t := by
  rw [csrField_setField_self _ _ _ _ _ (by decide) (by decide)]
  exact Nat.mod_eq_of_lt (wrapInt_lt 16 t)

/-- A flag put reads back. -/
theorem csrField_setFlag (s : State) (a : Nat) {i : Nat} (hi : i < 32) (b : Bool) :
    csrField (csrSetField s a i i (boolNat b)) a i i = boolNat b := by
  rw [csrField_setField_self _ _ _ _ _ (Nat.le_refl i) hi, Nat.add_sub_cancel_left]
  exact boolNat_mod_two b

theorem snagRecord_push (s : State) (r : ErrRec) : (snagRecord s r).snag.push = s.snag.push := by
  unfold snagRecord
  dsimp only
  split
  · obtain ⟨f, hf⟩ := commitSnag_flash (snagAppend s r)
    rw [hf]
    rfl
  · rfl

/-! A stack (R213, R389). -/

/-- MEM_THERM of a stack. -/
def memTherm (st : Nat) : Nat := rMemTherm + 0x10000 * st

/-- HOT after a reading of a stack's temperature: set at 90 °C, cleared below 85 °C. -/
def hotAfter (s : State) (st : Nat) (t : Int) : Bool :=
  decide (1440 ≤ t) || (csrField s (memTherm st) 31 31 == 1 && decide (1360 ≤ t))

/-- CASE after a reading of its case estimate. -/
def caseAfter (s : State) (st : Nat) (c : Int) : Bool :=
  decide (1520 ≤ c) || (csrField s (memTherm st) 30 30 == 1 && decide (1440 ≤ c))

/-- The readings put into MEM_THERM. -/
def stackNoted (s : State) (st : Nat) (t c : Int) : State :=
  csrSetField (csrSetField (csrSetField s (memTherm st) 31 31 (boolNat (hotAfter s st t))) (memTherm st) 30 30 (boolNat (caseAfter s st c)))
    (memTherm st) 15 0 (wrapInt 16 t)

/-- A stack that turned hot or cool told in `n`, `s` being before the reading. -/
def hotTold (s n : State) (st : Nat) (t : Int) : State :=
  if (csrField s (memTherm st) 31 31 == 1) = hotAfter s st t then n
  else powerRecord (stackAsk n (st / 2)) (unitMem st 0xFF 0xFFF) 5 (csrField s (memTherm st) 31 31 == 1) (boolNat (hotAfter s st t)) st t 0

/-- The same of CASE. -/
def caseTold (s n : State) (st : Nat) (c : Int) : State :=
  if (csrField s (memTherm st) 30 30 == 1) = caseAfter s st c then n
  else powerRecord n (unitMem st 0xFF 0xFFF) 6 (csrField s (memTherm st) 30 30 == 1) (boolNat (caseAfter s st c)) st c 0

theorem stackSample_parts (s : State) (st : Nat) (t c : Int) :
    stackSample s st t c = caseTold s (hotTold s (stackNoted s st t c) st t) st c := rfl

/-- A sample that changes registers and writes records alone. -/
structure StackRead (s t : State) : Prop where
  books : ErrOnly s t
  mem : t.mem = s.mem
  push : t.snag.push = s.snag.push

theorem StackRead.refl (s : State) : StackRead s s := ⟨.refl s, rfl, rfl⟩

theorem StackRead.trans {s t u : State} (h : StackRead s t) (k : StackRead t u) : StackRead s u :=
  ⟨h.books.trans k.books, k.mem.trans h.mem, k.push.trans h.push⟩

theorem StackRead.foldl {α : Type} {f : State → α → State} (h : ∀ s a, StackRead s (f s a)) (l : List α) (s : State) :
    StackRead s (l.foldl f s) := foldl_related .refl .trans (fun s a _ => h s a) s

theorem csrPut_stackRead (s : State) (a v : Nat) : StackRead s (csrPut s a v) := ⟨csrPut_books .., rfl, rfl⟩

theorem csrSetField_stackRead (s : State) (a hi lo v : Nat) : StackRead s (csrSetField s a hi lo v) := csrPut_stackRead ..

theorem powerRecord_stackRead (s : State) (unit cause : Nat) (ret : Bool) (level sensor : Nat) (reading : Int) (severity : Nat) :
    StackRead s (powerRecord s unit cause ret level sensor reading severity) :=
  ⟨powerRecord_books .., (powerRecord_recorded ..).mem, snagRecord_push ..⟩

theorem stackAsk_stackRead (s : State) (d : Nat) : StackRead s (stackAsk s d) :=
  (csrSetField_stackRead ..).trans (csrSetField_stackRead ..)

theorem stackSample_stackRead (s : State) (st : Nat) (t c : Int) : StackRead s (stackSample s st t c) := by
  have noted : StackRead s (stackNoted s st t c) :=
    ((csrSetField_stackRead ..).trans (csrSetField_stackRead ..)).trans (csrSetField_stackRead ..)
  have hot (n : State) : StackRead n (hotTold s n st t) := by
    unfold hotTold
    split
    · exact .refl n
    · exact (stackAsk_stackRead ..).trans (powerRecord_stackRead ..)
  have case (n : State) : StackRead n (caseTold s n st c) := by
    unfold caseTold
    split
    · exact .refl n
    · exact powerRecord_stackRead ..
  rw [stackSample_parts]
  exact (noted.trans (hot _)).trans (case _)

section StackFields

variable {F : Nat → Nat → Prop} {st : Nat} (hsng : ∀ l, ¬ F rSngStatus l) (hclk : ∀ l, ¬ F (rClkArray + 4 * (st / 2)) l)
include hsng hclk

/-- What tells a stack's HOT and CASE touches the Snag list's register and the clock of its die alone. -/
theorem told_fieldsKept (s n : State) (t c : Int) : FieldsKept F n (caseTold s (hotTold s n st t) st c) := by
  have put (m : State) {hi lo : Nat} (v : Nat) (hlo : lo ≤ hi) : FieldsKept F m (csrSetField m (rClkArray + 4 * (st / 2)) hi lo v) :=
    csrSetField_fieldsKept m v hlo fun l hl => absurd hl (hclk l)
  have asked (m : State) : FieldsKept F m (stackAsk m (st / 2)) := (put m _ (by decide)).trans (put _ _ (by decide))
  have hot : FieldsKept F n (hotTold s n st t) := .ite (.refl n) ((asked n).trans (powerRecord_fieldsKept _ _ _ _ _ _ _ _ hsng))
  exact .ite hot (hot.trans (powerRecord_fieldsKept _ _ _ _ _ _ _ _ hsng))

/-- A stack's sample leaves every field but those of its own register. -/
theorem stackSample_fieldsKept (htherm : ∀ l, ¬ F (memTherm st) l) (s : State) (t c : Int) : FieldsKept F s (stackSample s st t c) := by
  have put (m : State) {hi lo : Nat} (v : Nat) (hlo : lo ≤ hi) : FieldsKept F m (csrSetField m (memTherm st) hi lo v) :=
    csrSetField_fieldsKept m v hlo fun l hl => absurd hl (htherm l)
  have noted : FieldsKept F s (stackNoted s st t c) := ((put s _ (by decide)).trans (put _ _ (by decide))).trans (put _ _ (by decide))
  rw [stackSample_parts]
  exact noted.trans (told_fieldsKept hsng hclk s _ t c)

end StackFields

/-- The register of stack `st`. -/
def ThermReg (st a : Nat) (_lo : Nat) : Prop := a = memTherm st

theorem not_thermReg {a : Nat} (h : a < rMemTherm) (st l : Nat) : ¬ ThermReg st a l := by
  unfold ThermReg memTherm
  omega

/-- A stack's sample puts its reading and HOT into its register. -/
theorem stackSample_fields (s : State) {st : Nat} (hst : st < 8) (t c : Int) :
    csrField (stackSample s st t c) (memTherm st) 15 0 = wrapInt 16 t
      ∧ csrField (stackSample s st t c) (memTherm st) 31 31 = boolNat (hotAfter s st t) := by
  have told := told_fieldsKept (F := ThermReg st) (st := st) (not_thermReg (by decide) st)
    (not_thermReg (by unfold rClkArray rMemTherm; omega) st) s (stackNoted s st t c) t c
  rw [stackSample_parts, told.field _ 15 0 (by decide) rfl, told.field _ 31 31 (by decide) rfl]
  refine ⟨csrField_setTemp .., ?_⟩
  rw [stackNoted, csrField_setField_disjoint _ _ _ _ _ _ _ (by decide) (.inr (by decide)) (by decide),
    csrField_setField_disjoint _ _ _ _ _ _ _ (by decide) (.inr (by decide)) (by decide), csrField_setFlag _ _ (by decide)]

/-! A die (R387, R388, R390). -/

/-- THM_DIE of a die. -/
def thmDie (k : Nat) : Nat := rThmDie + 4 * k

/-- A reading put into THM_DIE and, where it is the highest, into THM_PEAK. -/
def dieNoted (s : State) (k : Nat) (t : Int) : State :=
  let s := csrSetField s (thmDie k) 15 0 (wrapInt 16 t)
  if sextNat 16 (csrField s (rThmPeak + 4 * k) 15 0) < t then csrSetField s (rThmPeak + 4 * k) 15 0 (wrapInt 16 t) else s

/-- The tick since which a stepped die is cool, none where it is not. -/
def coolSince (s : State) (k : Nat) (t : Int) : Option Nat :=
  if t < 1520 ∧ nthD s.power.dieStep k 0 ≠ 0 then some ((nthD s.power.dieCoolAt k none).getD s.plumb) else none

/-- That tick noted. -/
def dieCooling (s : State) (k : Nat) (t : Int) : State :=
  { s with power := { s.power with dieCoolAt := s.power.dieCoolAt.set k (coolSince s k t) } }

/-- A die's reading without its trip. -/
def dieRead (s : State) (k : Nat) (t : Int) : State :=
  if 1600 ≤ t ∧ nthD (dieNoted s k t).power.dieStep k 0 = 0 then
    powerRecord (setDieStep (dieNoted s k t) k 1) (unitDie k 0xFFF) 3 false 1 k t 0
  else dieCooling (dieNoted s k t) k t

theorem dieSample_parts (s : State) (k : Nat) (t : Int) :
    dieSample s k t = if 1760 ≤ t then enterS5 (dieRead s k t) (unitDie k 0xFFF) 4 k t else dieRead s k t := rfl

theorem dieNoted_csrOnly (s : State) (k : Nat) (t : Int) : CsrOnly s (dieNoted s k t) := by
  have put : CsrOnly s (csrSetField s (thmDie k) 15 0 (wrapInt 16 t)) := ⟨_, rfl⟩
  unfold dieNoted
  dsimp only
  split
  · exact put.put _ _
  · exact put

/-- A die's step in the power controller's books. -/
def dieStepPut (s : State) (k v : Nat) : State :=
  { s with power := { s.power with dieStep := s.power.dieStep.set k v, dieStepAt := s.power.dieStepAt.set k s.plumb
                                   dieCoolAt := s.power.dieCoolAt.set k none } }

/-- A die's step shown in THM_DIE. -/
def dieStepShown (s : State) (k v : Nat) : State :=
  csrSetField (csrSetField s (thmDie k) 31 31 (boolNat (v != 0))) (thmDie k) 30 29 v

theorem setDieStep_parts (s : State) (k v : Nat) : setDieStep s k v = if k < 4 then
    clockStep (csrSetField (dieStepShown (dieStepPut s k v) k v) (rClkArray + 4 * k) 30 30 (boolNat (v != 0))) k
  else dieStepShown (dieStepPut s k v) k v := rfl

theorem setDieStep_csrOnly (s : State) (k v : Nat) : CsrOnly (dieStepPut s k v) (setDieStep s k v) := by
  rw [setDieStep_parts]
  split
  · exact ⟨_, rfl⟩
  · exact ⟨_, rfl⟩

/-- A die's reading changes, beside registers and records, its own entries of the power controller's books. -/
structure DieRead (k : Nat) (s t : State) : Prop where
  mem : t.mem = s.mem
  queues : t.queues = s.queues
  plumb : t.plumb = s.plumb
  runs : t.runs = s.runs
  s5Cause : t.power.s5Cause = s.power.s5Cause
  s5At : t.power.s5At = s.power.s5At
  step_other : ∀ j, j ≠ k → nthD t.power.dieStep j 0 = nthD s.power.dieStep j 0

theorem nthD_set {α : Type} (l : List α) (k j : Nat) (v d : α) :
    nthD (l.set k v) j d = if j = k ∧ k < l.length then v else nthD l j d := by
  unfold nthD
  rw [List.getElem?_set]
  by_cases hj : k = j
  · subst hj
    by_cases hk : k < l.length <;> simp [hk]
  · simp [hj, Ne.symm hj]

theorem nthD_set_other {α : Type} (l : List α) {k j : Nat} (hj : j ≠ k) (v d : α) : nthD (l.set k v) j d = nthD l j d := by
  rw [nthD_set, if_neg (fun h => hj h.1)]

theorem setDieStep_dieRead (s : State) (k v : Nat) : DieRead k s (setDieStep s k v) := by
  obtain ⟨l, hl⟩ := setDieStep_csrOnly s k v
  rw [hl]
  exact ⟨rfl, rfl, rfl, rfl, rfl, rfl, fun j hj => nthD_set_other _ hj v 0⟩

theorem DieRead.recorded {k : Nat} {s t : State} (h : DieRead k s t) (unit cause : Nat) (ret : Bool) (level sensor : Nat) (reading : Int)
    (severity : Nat) : DieRead k s (powerRecord t unit cause ret level sensor reading severity) := by
  obtain ⟨hunits, hqueues, -⟩ := powerRecord_books t unit cause ret level sensor reading severity
  exact ⟨(powerRecord_recorded ..).mem.trans h.mem, hqueues.trans h.queues, hunits.plumb_eq.trans h.plumb, hunits.runs_eq.trans h.runs,
    by rw [hunits.power_eq, h.s5Cause], by rw [hunits.power_eq, h.s5At], fun j hj => by rw [hunits.power_eq, h.step_other j hj]⟩

theorem dieRead_dieRead (s : State) (k : Nat) (t : Int) : DieRead k s (dieRead s k t) := by
  obtain ⟨l, hl⟩ := dieNoted_csrOnly s k t
  unfold dieRead
  rw [hl]
  split
  · have put := setDieStep_dieRead (withCsr s l) k 1
    exact (⟨put.mem, put.queues, put.plumb, put.runs, put.s5Cause, put.s5At, put.step_other⟩ : DieRead k s _).recorded ..
  · exact ⟨rfl, rfl, rfl, rfl, rfl, rfl, fun _ _ => rfl⟩

section DieFields

variable {F : Nat → Nat → Prop} {k : Nat}

theorem dieNoted_fieldsKept (s : State) (t : Int) (hdie : ∀ l, F (thmDie k) l → 15 < l) (hpeak : ∀ l, ¬ F (rThmPeak + 4 * k) l) :
    FieldsKept F s (dieNoted s k t) := by
  have put : FieldsKept F s (csrSetField s (thmDie k) 15 0 (wrapInt 16 t)) := csrSetField_fieldsKept s _ (by decide) hdie
  exact .ite (put.trans (csrSetField_fieldsKept _ _ (by decide) fun l hl => absurd hl (hpeak l))) put

/-- The array clock of a die stepped. -/
theorem clockStepped_fieldsKept (s : State) (v : Nat) (hclk : ∀ l, ¬ F (rClkArray + 4 * k) l) :
    FieldsKept F s (clockStep (csrSetField s (rClkArray + 4 * k) 30 30 v) k) :=
  (csrSetField_fieldsKept s v (by decide) fun l hl => absurd hl (hclk l)).trans
    (csrSetField_fieldsKept _ _ (by decide) fun l hl => absurd hl (hclk l))

theorem setDieStep_shown (s : State) (v : Nat) (hclk : ∀ l, ¬ F (rClkArray + 4 * k) l) :
    FieldsKept F (dieStepShown (dieStepPut s k v) k v) (setDieStep s k v) := by
  rw [setDieStep_parts]
  exact .ite (clockStepped_fieldsKept _ _ hclk) (.refl _)

theorem dieStepShown_fieldsKept (s : State) (v : Nat) (hdie : ∀ l, ¬ F (thmDie k) l) : FieldsKept F s (dieStepShown s k v) :=
  (csrSetField_fieldsKept s _ (by decide) fun l hl => absurd hl (hdie l)).trans
    (csrSetField_fieldsKept _ _ (by decide) fun l hl => absurd hl (hdie l))

theorem setDieStep_fieldsKept (s : State) (v : Nat) (hdie : ∀ l, ¬ F (thmDie k) l) (hclk : ∀ l, ¬ F (rClkArray + 4 * k) l) :
    FieldsKept F s (setDieStep s k v) :=
  ((dieStepShown_fieldsKept (dieStepPut s k v) v hdie).trans (setDieStep_shown s v hclk)).after rfl

/-- A die's reading leaves every field but those of its own registers. -/
theorem dieRead_fieldsKept (s : State) (t : Int) (hdie : ∀ l, ¬ F (thmDie k) l) (hpeak : ∀ l, ¬ F (rThmPeak + 4 * k) l)
    (hclk : ∀ l, ¬ F (rClkArray + 4 * k) l) (hsng : ∀ l, ¬ F rSngStatus l) : FieldsKept F s (dieRead s k t) := by
  have noted : FieldsKept F s (dieNoted s k t) := dieNoted_fieldsKept s t (fun l hl => absurd hl (hdie l)) hpeak
  exact .ite ((noted.trans (setDieStep_fieldsKept _ 1 hdie hclk)).trans (powerRecord_fieldsKept _ _ _ _ _ _ _ _ hsng))
    (noted.trans (.of_csr rfl))

end DieFields

end Sys2Proof.Machine
end

section
/-! PROOF. Heat (R213, R387–R390). -/

namespace Sys2Proof.Machine

/-! The stacks of a sample. -/

/-- A stack's readings of a sample taken. -/
def readStack (t : TempSample) (s : State) (k : Nat) : State := stackSample s k (nthD t.stackT k 0) (nthD t.caseT k 0)

/-- A die's reading of a sample taken, its trip aside. -/
def readDie (t : TempSample) (s : State) (k : Nat) : State := dieRead s k (nthD t.dieT k 0)

/-- The stacks' readings taken. -/
def stacksRead (s : State) (t : TempSample) : State := (List.range 8).foldl (readStack t) s

/-- The dies' readings taken. -/
def diesRead (s : State) (t : TempSample) : State := (List.range 5).foldl (fun s k => dieSample s k (nthD t.dieT k 0)) s

/-- The stacks read, what a stack in CASE held gone on with, and the dies still to read. -/
def stacksSampled (s : State) (t : TempSample) : State := mirrorPump (telFlush (stacksRead s t))

theorem thermalSampleState_watched {s : State} (h : watched s = true) (t : TempSample) :
    thermalSampleState t s = diesRead (stacksSampled s t) t := if_neg (by simp [h])

theorem stacksRead_stackRead (s : State) (t : TempSample) : StackRead s (stacksRead s t) :=
  .foldl (fun _ _ => stackSample_stackRead ..) _ s

theorem goesOn_heatKept (s : State) : HeatKept s (mirrorPump (telFlush s)) := (telFlush_heatKept s).trans (mirrorPump_heatKept _)

theorem goesOn_idle {s : State} (hheld : s.mem.bgHeld = []) (hpush : s.snag.push = []) : mirrorPump (telFlush s) = s := by
  rw [telFlush_empty hheld, mirrorPump_idle hpush]

/-- LEVEL and THM_DIE, which the stacks' readings leave. -/
def DieField (a lo : Nat) : Prop := HeatField a lo ∧ a < rMemTherm

theorem stacksRead_dieFields (s : State) (t : TempSample) : FieldsKept DieField s (stacksRead s t) := by
  refine .foldl (fun s k hk => stackSample_fieldsKept (fun l hl => ?_) (fun l hl => ?_) (fun l hl => ?_) s _ _) s
  · exact not_heatField (by decide) l hl.1
  · obtain ⟨hheat, -⟩ := hl
    have := List.mem_range.1 hk
    unfold HeatField rPwrStatus rThmDie rMemTherm rClkArray at hheat
    omega
  · obtain ⟨-, hlt⟩ := hl
    unfold memTherm at hlt
    omega

theorem stackSample_thermReg {j k : Nat} (hj : j < 8) (hjk : j ≠ k) (s : State) (t c : Int) :
    FieldsKept (ThermReg k) s (stackSample s j t c) := by
  refine stackSample_fieldsKept (not_thermReg (by decide) k) (not_thermReg ?_ k) (fun l hl => ?_) s t c
  · unfold rClkArray rMemTherm
    omega
  · unfold ThermReg memTherm at hl
    omega

theorem hotAfter_kept {s t : State} {k : Nat} (h : FieldsKept (ThermReg k) s t) (x : Int) : hotAfter t k x = hotAfter s k x := by
  rw [hotAfter, hotAfter, h.field _ 31 31 (by decide) rfl]

theorem stacksRead_at (s : State) (t : TempSample) {k : Nat} (hk : k < 8) :
    csrField (stacksRead s t) (memTherm k) 15 0 = wrapInt 16 (nthD t.stackT k 0)
      ∧ csrField (stacksRead s t) (memTherm k) 31 31 = boolNat (hotAfter s k (nthD t.stackT k 0)) := by
  obtain ⟨l₁, l₂, h₁, h₂, hsplit⟩ := foldl_range_at (f := readStack t) hk s
  have others {l : List Nat} (hl : ∀ j ∈ l, j < 8 ∧ j ≠ k) (v : State) :
      FieldsKept (ThermReg k) v (l.foldl (readStack t) v) :=
    .foldl (fun v j hj => stackSample_thermReg (hl j hj).1 (hl j hj).2 v _ _) v
  obtain ⟨htemp, hhot⟩ := stackSample_fields (l₁.foldl (readStack t) s) hk
    (nthD t.stackT k 0) (nthD t.caseT k 0)
  rw [stacksRead, hsplit, (others h₂ _).field _ 15 0 (by decide) rfl, (others h₂ _).field _ 31 31 (by decide) rfl]
  exact ⟨htemp, hhot.trans (congrArg boolNat (hotAfter_kept (others h₁ s) _))⟩

theorem csrField_flag_lt (s : State) (a i : Nat) : csrField s a i i < 2 := by
  have h : csrField s a i i < 2 ^ (i + 1 - i) := Nat.mod_lt _ (Nat.two_pow_pos _)
  rwa [Nat.add_sub_cancel_left] at h

theorem hotAfter_hot {s : State} {k : Nat} {x : Int} (h : 1440 ≤ x) : hotAfter s k x = true := by simp [hotAfter, h]

theorem hotAfter_cool {s : State} {k : Nat} {x : Int} (h : x < 1360) : hotAfter s k x = false := by
  have h1 : ¬ 1440 ≤ x := by omega
  have h2 : ¬ 1360 ≤ x := by omega
  simp [hotAfter, h1, h2]

/-- Between the thresholds HOT stays as it was. -/
theorem hotAfter_between {s : State} {k : Nat} {x : Int} (hlo : 1360 ≤ x) (hhi : x < 1440) :
    boolNat (hotAfter s k x) = csrField s (memTherm k) 31 31 := by
  have h1 : ¬ 1440 ≤ x := by omega
  have hlt := csrField_flag_lt s (memTherm k) 31
  have hcase : csrField s (memTherm k) 31 31 = 0 ∨ csrField s (memTherm k) 31 31 = 1 := by omega
  rcases hcase with h | h <;> simp [hotAfter, h1, hlo, h, boolNat]

theorem stacksSampled_units (s : State) (t : TempSample) : SameUnits s (stacksSampled s t) := by
  obtain ⟨hunits, -⟩ := (stacksRead_stackRead s t).books
  exact hunits.trans (goesOn_heatKept (stacksRead s t)).units

theorem stacksSampled_dieFields (s : State) (t : TempSample) : FieldsKept DieField s (stacksSampled s t) :=
  (stacksRead_dieFields s t).trans ((goesOn_heatKept (stacksRead s t)).fields.mono fun _ _ hl => hl.1)

theorem stacksSampled_level (s : State) (t : TempSample) : levelOfPower (stacksSampled s t) = levelOfPower s :=
  levelOfPower_kept ((stacksSampled_dieFields s t).mono fun _ _ hl => ⟨.inl hl, hl.1 ▸ by decide⟩)

theorem stacksSampled_frame {s : State} (t : TempSample) (hheld : s.mem.bgHeld = []) (hpush : s.snag.push = []) :
    (stacksSampled s t).mem = s.mem ∧ (stacksSampled s t).queues = s.queues := by
  obtain ⟨⟨-, hqueues, -⟩, hmem, hsame⟩ := stacksRead_stackRead s t
  rw [stacksSampled, goesOn_idle (by rw [hmem, hheld]) (by rw [hsame, hpush])]
  exact ⟨hmem, hqueues⟩

theorem thermReg_heat {k a lo : Nat} (h : ThermReg k a lo) : HeatField a lo := by
  unfold ThermReg memTherm at h
  refine .inr (.inr ?_)
  unfold rMemTherm at *
  omega

theorem stacksSampled_at (s : State) (t : TempSample) {k : Nat} (hk : k < 8) :
    csrField (stacksSampled s t) (memTherm k) 15 0 = wrapInt 16 (nthD t.stackT k 0)
      ∧ csrField (stacksSampled s t) (memTherm k) 31 31 = boolNat (hotAfter s k (nthD t.stackT k 0)) := by
  have on : FieldsKept (ThermReg k) (stacksRead s t) (stacksSampled s t) := (goesOn_heatKept _).fields.mono fun _ _ => thermReg_heat
  rw [on.field _ 15 0 (by decide) rfl, on.field _ 31 31 (by decide) rfl]
  exact stacksRead_at s t hk

/-! The dies of a sample. -/

/-- The register of die `k`. -/
def DieReg (k a : Nat) (_lo : Nat) : Prop := a = thmDie k

/-- From `s` to `t` die `k` has its reading, its flags and its step. -/
structure DieStands (k : Nat) (s t : State) : Prop where
  fields : FieldsKept (DieReg k) s t
  step : nthD t.power.dieStep k 0 = nthD s.power.dieStep k 0

theorem DieStands.refl (k : Nat) (s : State) : DieStands k s s := ⟨.refl s, rfl⟩

theorem DieStands.trans {k : Nat} {s t u : State} (h : DieStands k s t) (g : DieStands k t u) : DieStands k s u :=
  ⟨h.fields.trans g.fields, g.step.trans h.step⟩

theorem dieRead_stands {j k : Nat} (hk : k < 5) (hj : j < 5) (hjk : j ≠ k) (s : State) (x : Int) : DieStands k s (dieRead s j x) := by
  have away {a : Nat} (ha : a ≠ thmDie k) (l : Nat) : ¬ DieReg k a l := ha
  refine ⟨dieRead_fieldsKept s x (away ?_) (away ?_) (away ?_) (away ?_), (dieRead_dieRead s j x).step_other k hjk.symm⟩
  all_goals
    unfold thmDie rThmDie
  · omega
  · unfold rThmPeak
    omega
  · unfold rClkArray
    omega
  · unfold rSngStatus
    omega

theorem not_dieReg_peak (k l : Nat) : ¬ DieReg k (rThmPeak + 4 * k) l := by
  unfold DieReg thmDie rThmPeak rThmDie
  omega

theorem not_dieReg_snag (k l : Nat) : ¬ DieReg k rSngStatus l := by
  unfold DieReg thmDie rSngStatus rThmDie
  omega

theorem not_dieReg_clock {j : Nat} (hj : j < 5) (k l : Nat) : ¬ DieReg k (rClkArray + 4 * j) l := by
  unfold DieReg thmDie rClkArray rThmDie
  omega

theorem dieNoted_temp (s : State) (k : Nat) (x : Int) : csrField (dieNoted s k x) (thmDie k) 15 0 = wrapInt 16 x := by
  have peak : FieldsKept (DieReg k) (csrSetField s (thmDie k) 15 0 (wrapInt 16 x)) (dieNoted s k x) :=
    .ite (csrSetField_fieldsKept _ _ (by decide) fun l hl => absurd hl (not_dieReg_peak k l)) (.refl _)
  rw [peak.field _ 15 0 (by decide) rfl, csrField_setTemp]

theorem dieNoted_flags (s : State) (k : Nat) (x : Int) : csrField (dieNoted s k x) (thmDie k) 31 29 = csrField s (thmDie k) 31 29 :=
  (dieNoted_fieldsKept (F := fun a lo => a = thmDie k ∧ 15 < lo) s x (fun _ hl => hl.2)
    (fun l hl => not_dieReg_peak k l hl.1)).field _ 31 29 (by decide) ⟨rfl, by decide⟩

theorem dieNoted_power (s : State) (k : Nat) (x : Int) : (dieNoted s k x).power = s.power := by
  obtain ⟨l, hl⟩ := dieNoted_csrOnly s k x
  rw [hl]
  rfl

/-- A step shown in a die's register. -/
theorem dieStepShown_fields (s : State) (k : Nat) {v : Nat} (hv : v < 4) :
    csrField (dieStepShown s k v) (thmDie k) 31 31 = boolNat (v != 0) ∧ csrField (dieStepShown s k v) (thmDie k) 30 29 = v
      ∧ csrField (dieStepShown s k v) (thmDie k) 15 0 = csrField s (thmDie k) 15 0 := by
  unfold dieStepShown
  refine ⟨?_, ?_, ?_⟩
  · rw [csrField_setField_disjoint _ _ _ _ _ _ _ (by decide) (.inr (by decide)) (by decide), csrField_setFlag _ _ (by decide)]
  · rw [csrField_setField_self _ _ _ _ _ (by decide) (by decide)]
    exact Nat.mod_eq_of_lt hv
  · rw [csrField_setField_disjoint _ _ _ _ _ _ _ (by decide) (.inl (by decide)) (by decide),
      csrField_setField_disjoint _ _ _ _ _ _ _ (by decide) (.inl (by decide)) (by decide)]

theorem setDieStep_fields (s : State) {k v : Nat} (hk : k < 5) (hv : v < 4) :
    csrField (setDieStep s k v) (thmDie k) 31 31 = boolNat (v != 0) ∧ csrField (setDieStep s k v) (thmDie k) 30 29 = v
      ∧ csrField (setDieStep s k v) (thmDie k) 15 0 = csrField s (thmDie k) 15 0 := by
  have shown := setDieStep_shown (F := DieReg k) s v (not_dieReg_clock hk k)
  rw [shown.field _ 31 31 (by decide) rfl, shown.field _ 30 29 (by decide) rfl, shown.field _ 15 0 (by decide) rfl]
  exact dieStepShown_fields (dieStepPut s k v) k hv

theorem recorded_dieReg (k : Nat) (s : State) (unit cause : Nat) (ret : Bool) (level sensor : Nat) (reading : Int) (severity : Nat) :
    FieldsKept (DieReg k) s (powerRecord s unit cause ret level sensor reading severity) :=
  powerRecord_fieldsKept _ _ _ _ _ _ _ _ (not_dieReg_snag k)

/-- A die's reading stands in its register. -/
theorem dieRead_temp (s : State) {k : Nat} (hk : k < 5) (x : Int) : csrField (dieRead s k x) (thmDie k) 15 0 = wrapInt 16 x := by
  obtain ⟨-, -, hstep⟩ := setDieStep_fields (dieNoted s k x) hk (v := 1) (by decide)
  unfold dieRead
  split
  · rw [(recorded_dieReg k ..).field _ 15 0 (by decide) rfl, hstep, dieNoted_temp]
  · exact dieNoted_temp s k x

/-- A die at 100 °C steps down. -/
theorem dieRead_hot {s : State} {k : Nat} (hk : k < 5) {x : Int} (hx : 1600 ≤ x) (hstep : nthD s.power.dieStep k 0 = 0) :
    csrField (dieRead s k x) (thmDie k) 31 31 = 1 ∧ csrField (dieRead s k x) (thmDie k) 30 29 = 1 := by
  obtain ⟨hflag, hshown, -⟩ := setDieStep_fields (dieNoted s k x) hk (v := 1) (by decide)
  have hread : dieRead s k x = powerRecord (setDieStep (dieNoted s k x) k 1) (unitDie k 0xFFF) 3 false 1 k x 0 :=
    if_pos ⟨hx, by rw [dieNoted_power, hstep]⟩
  have told := recorded_dieReg k (setDieStep (dieNoted s k x) k 1) (unitDie k 0xFFF) 3 false 1 k x 0
  rw [hread, told.field _ 31 31 (by decide) rfl, told.field _ 30 29 (by decide) rfl, hflag, hshown]
  exact ⟨rfl, rfl⟩

/-- One below it keeps its flags. -/
theorem dieRead_cool (s : State) (k : Nat) {x : Int} (hx : x < 1600) :
    csrField (dieRead s k x) (thmDie k) 31 29 = csrField s (thmDie k) 31 29 := by
  have hread : dieRead s k x = dieCooling (dieNoted s k x) k x := if_neg fun h => by omega
  rw [hread]
  exact dieNoted_flags s k x

/-! A sample without a trip. -/

theorem dieRegs_between {k : Nat} (hk : k < 5) : (rClkArray ≤ thmDie k ∧ thmDie k < rMemTherm)
    ∧ (rClkArray ≤ rThmPeak + 4 * k ∧ rThmPeak + 4 * k < rMemTherm) ∧ (rClkArray ≤ rClkArray + 4 * k ∧ rClkArray + 4 * k < rMemTherm) := by
  unfold thmDie rThmDie rThmPeak rClkArray rMemTherm
  omega

section NoTrip

variable {t : TempSample} (hcool : ∀ k, k < 5 → nthD t.dieT k 0 < 1760)
include hcool

theorem diesRead_noTrip (s : State) : diesRead s t = (List.range 5).foldl (readDie t) s := by
  refine List.foldl_ext _ _ _ fun s k hk => ?_
  have hx := hcool k (List.mem_range.1 hk)
  exact (dieSample_parts s k _).trans (if_neg (by omega))

theorem diesRead_frame (s : State) : (diesRead s t).mem = s.mem ∧ (diesRead s t).queues = s.queues := by
  rw [diesRead_noTrip hcool]
  exact ⟨foldl_part (g := State.mem) (fun s k => (dieRead_dieRead s k _).mem) _ s,
    foldl_part (g := State.queues) (fun s k => (dieRead_dieRead s k _).queues) _ s⟩

/-- Of the registers below the clocks' or from the stacks' on, the dies' readings change SNG_STATUS alone. -/
theorem diesRead_fieldsKept {F : Nat → Nat → Prop} (hdie : ∀ a l, F a l → a < rClkArray ∨ rMemTherm ≤ a) (hsng : ∀ l, ¬ F rSngStatus l)
    (s : State) : FieldsKept F s (diesRead s t) := by
  rw [diesRead_noTrip hcool]
  refine .foldl (fun s k hk => ?_) s
  obtain ⟨hthm, hpeak, hclk⟩ := dieRegs_between (List.mem_range.1 hk)
  have away {a : Nat} (ha : rClkArray ≤ a ∧ a < rMemTherm) (l : Nat) : ¬ F a l := fun hl => by
    have := hdie a l hl
    omega
  exact dieRead_fieldsKept s _ (away hthm) (away hpeak) (away hclk) hsng

theorem diesRead_at (s : State) {k : Nat} (hk : k < 5) : csrField (diesRead s t) (thmDie k) 15 0 = wrapInt 16 (nthD t.dieT k 0)
    ∧ (1600 ≤ nthD t.dieT k 0 → nthD s.power.dieStep k 0 = 0 →
        csrField (diesRead s t) (thmDie k) 31 31 = 1 ∧ csrField (diesRead s t) (thmDie k) 30 29 = 1)
    ∧ (nthD t.dieT k 0 < 1600 → csrField (diesRead s t) (thmDie k) 31 29 = csrField s (thmDie k) 31 29) := by
  obtain ⟨l₁, l₂, h₁, h₂, hsplit⟩ := foldl_range_at (f := readDie t) hk s
  have others {l : List Nat} (hl : ∀ j ∈ l, j < 5 ∧ j ≠ k) (v : State) :
      DieStands k v (l.foldl (readDie t) v) :=
    foldl_related (DieStands.refl k) .trans (fun v j hj => dieRead_stands hk (hl j hj).1 (hl j hj).2 v _) v
  obtain ⟨hbefore, hstep⟩ := others h₁ s
  have after := (others h₂ (readDie t (l₁.foldl (readDie t) s) k)).fields
  rw [diesRead_noTrip hcool, hsplit, after.field _ 15 0 (by decide) rfl, after.field _ 31 31 (by decide) rfl,
    after.field _ 30 29 (by decide) rfl, after.field _ 31 29 (by decide) rfl]
  exact ⟨dieRead_temp _ hk _, fun hx h0 => dieRead_hot hk hx (hstep.trans h0),
    fun hx => (dieRead_cool _ k hx).trans (hbefore.field _ 31 29 (by decide) rfl)⟩

end NoTrip

/-! A trip (R388). -/

theorem dieRead_level (s : State) (k : Nat) (x : Int) : levelOfPower (dieRead s k x) = levelOfPower s := by
  have away {a : Nat} (h : a ≠ rPwrStatus) (l : Nat) : ¬ LevelField a l := fun hl => h hl.1
  refine levelOfPower_kept (dieRead_fieldsKept s x (away ?_) (away ?_) (away ?_) (away (by decide)))
  · unfold thmDie rThmDie rPwrStatus
    omega
  · unfold rThmPeak rPwrStatus
    omega
  · unfold rClkArray rPwrStatus
    omega

/-- A trip from a level above S5 enters it with cause 4. -/
theorem dieSample_trips {s : State} (h : levelOfPower s < 5) (k : Nat) {x : Int} (hx : 1760 ≤ x) : InS5 4 s.plumb (dieSample s k x) := by
  have hlevel := dieRead_level s k x
  rw [dieSample_parts, if_pos hx, ← (dieRead_dieRead s k x).plumb]
  exact enterS5_inS5 (by omega) ..

/-- In S5 a sample enters nothing more. -/
theorem InS5.sampled {s : State} {tick : Nat} (h : InS5 4 tick s) (k : Nat) (x : Int) : InS5 4 tick (dieSample s k x) := by
  have hlevel : levelOfPower (dieRead s k x) = 5 := (dieRead_level s k x).trans h.level
  have frame := dieRead_dieRead s k x
  have hread : dieSample s k x = dieRead s k x := by
    rw [dieSample_parts, enterS5_again hlevel, ite_self]
  rw [hread]
  exact ⟨hlevel, frame.s5Cause.trans h.s5Cause, frame.s5At.trans h.s5At, frame.runs.trans h.runs⟩

theorem inS5_dies {tick : Nat} (T : Nat → Int) (l : List Nat) {s : State} (h : InS5 4 tick s) :
    InS5 4 tick (l.foldl (fun s k => dieSample s k (T k)) s) := by
  induction l generalizing s with
  | nil => exact h
  | cons k r ih => exact ih (h.sampled k _)

/-- The first die of a list at its trip enters S5, and the others leave it so. -/
theorem dies_trip {T : Nat → Int} {k : Nat} (hx : 1760 ≤ T k) {l : List Nat} (hk : k ∈ l) {s : State} (h : levelOfPower s < 5) :
    InS5 4 s.plumb (l.foldl (fun s k => dieSample s k (T k)) s) := by
  induction l generalizing s with
  | nil => cases hk
  | cons j r ih =>
    rw [List.foldl_cons]
    by_cases hj : 1760 ≤ T j
    · exact inS5_dies T r (dieSample_trips h j hj)
    · have hr : k ∈ r := (List.mem_cons.1 hk).resolve_left fun he => hj (he ▸ hx)
      have hread : dieSample s j (T j) = dieRead s j (T j) := (dieSample_parts s j _).trans (if_neg hj)
      rw [hread, ← (dieRead_dieRead s j (T j)).plumb]
      exact ih hr ((dieRead_level s j (T j)).trans_lt h)

/-! A step down and a step up (R388). -/

theorem boolNat_le_one (b : Bool) : boolNat b ≤ 1 := by cases b <;> decide

theorem setDieStep_frame (s : State) (k v : Nat) : (setDieStep s k v).mem = s.mem ∧ (setDieStep s k v).queues = s.queues
    ∧ (setDieStep s k v).snag = s.snag := by
  obtain ⟨l, hl⟩ := setDieStep_csrOnly s k v
  rw [hl]
  exact ⟨rfl, rfl, rfl⟩

/-- A die's second step asks its clock for STEP 2 (R390). -/
theorem setDieStep_clock (s : State) {k : Nat} (hk : k < 4) (hlen : k < s.power.dieStep.length) :
    csrField (setDieStep s k 2) (rClkArray + 4 * k) 1 0 = 2 ∧ csrField (setDieStep s k 2) (rClkArray + 4 * k) 30 30 = 1 := by
  rw [setDieStep_parts, if_pos hk, clockStep]
  refine ⟨?_, ?_⟩
  · rw [csrField_setField_self _ _ _ _ _ (by decide) (by decide)]
    have hown : nthD (csrSetField (dieStepShown (dieStepPut s k 2) k 2) (rClkArray + 4 * k) 30 30
        (boolNat (2 != 0))).power.dieStep k 0 = 2 :=
      (nthD_set ..).trans (if_pos ⟨rfl, hlen⟩)
    rw [hown, Nat.max_eq_left (Nat.le_trans (boolNat_le_one _) (by decide : 1 ≤ 2))]
    rfl
  · rw [csrField_setField_disjoint _ _ _ _ _ _ _ (by decide) (.inr (by decide)) (by decide), csrField_setFlag _ _ (by decide)]
    rfl

/-- A record of a die's step leaves memory, queues and every register but SNG_STATUS, and is one of the Snag list's. -/
theorem stepRecorded (s : State) (k v : Nat) (ret : Bool) (x : Int) {t : State}
    (ht : t = powerRecord (setDieStep s k v) (unitDie k 0xFFF) 3 ret v k x 0) :
    (∀ a hi lo, a ≠ rSngStatus → csrField t a hi lo = csrField (setDieStep s k v) a hi lo)
      ∧ t.snag.written = s.snag.written + 1 ∧ t.mem = s.mem ∧ t.queues = s.queues := by
  obtain ⟨hmem, hqueues, hsnag⟩ := setDieStep_frame s k v
  have told := powerRecord_recorded (setDieStep s k v) (unitDie k 0xFFF) 3 ret v k x 0
  obtain ⟨-, hbooks, -⟩ := powerRecord_books (setDieStep s k v) (unitDie k 0xFFF) 3 ret v k x 0
  subst ht
  exact ⟨fun a hi lo ha => csrField_congr (told.csrGet_eq a ha) hi lo, by rw [told.written, hsnag], told.mem.trans hmem,
    hbooks.trans hqueues⟩

theorem thermalStepDownState_holds {s : State} {die : Nat} (h : s.plumb < nthD s.power.dieStepAt die 0 + 10 ^ 7) :
    thermalStepDownState die s = s := if_pos (.inr (.inr (.inr (.inr h))))

theorem thermalStepDownState_steps {s : State} {die : Nat} (hdie : die < 4) (hw : watched s = true) (hone : nthD s.power.dieStep die 0 = 1)
    (hhot : 1600 ≤ dieTemp s die) (hdue : nthD s.power.dieStepAt die 0 + 10 ^ 7 ≤ s.plumb) :
    thermalStepDownState die s = powerRecord (setDieStep s die 2) (unitDie die 0xFFF) 3 false 2 die (dieTemp s die) 0 := by
  refine if_neg ?_
  simp only [hw, hone, Bool.not_true, Bool.false_eq_true, ne_eq, not_true, false_or, not_or]
  omega

/-- A step back told, and the tick from which the die's next hold runs. -/
def steppedUp (s : State) (die : Nat) : State :=
  let v := nthD s.power.dieStep die 0
  let t := powerRecord (setDieStep s die (v - 1)) (unitDie die 0xFFF) 3 true (v - 1) die (dieTemp s die) 0
  { t with power := { t.power with dieCoolAt := t.power.dieCoolAt.set die (if v = 1 then none else some t.plumb) } }

section StepUp

variable {s : State} {die t : Nat} (hcool : nthD s.power.dieCoolAt die none = some t)
include hcool

theorem thermalStepUpState_at : thermalStepUpState die s
    = if 5 ≤ die ∨ nthD s.power.dieStep die 0 = 0 ∨ s.plumb < t + 10 ^ 7 then s else steppedUp s die := by
  unfold thermalStepUpState
  rw [hcool]
  rfl

theorem thermalStepUpState_holds (h : s.plumb < t + 10 ^ 7) : thermalStepUpState die s = s :=
  (thermalStepUpState_at hcool).trans (if_pos (.inr (.inr h)))

theorem thermalStepUpState_steps (hdie : die < 5) (hstep : 1 ≤ nthD s.power.dieStep die 0) (hdue : t + 10 ^ 7 ≤ s.plumb) :
    thermalStepUpState die s = steppedUp s die :=
  (thermalStepUpState_at hcool).trans (if_neg (by omega))

end StepUp

theorem lt_length_of_nthD {α : Type} {l : List α} {k : Nat} {d : α} (h : nthD l k d ≠ d) : k < l.length := by
  by_contra hk
  exact h (by rw [nthD, List.getElem?_eq_none (Nat.le_of_not_lt hk), Option.getD_none])

theorem steppedUp_frame (s : State) (die : Nat) : ∃ t p, steppedUp s die = { t with power := p }
    ∧ t = powerRecord (setDieStep s die (nthD s.power.dieStep die 0 - 1)) (unitDie die 0xFFF) 3 true (nthD s.power.dieStep die 0 - 1) die
      (dieTemp s die) 0 := ⟨_, _, rfl, rfl⟩

/-- Settles O53: a sample stack by stack and die by die, a trip at the first die that is too hot, and the two
rows of a step by what they show and record. -/
theorem heatStepsClocks : Obligations.HeatStepsClocks := by
  refine ⟨fun s t hw hcool => ?sample, fun s t k hw hlevel hk hx => ?trip,
    fun s die hdie hw hone hhot => ⟨fun hsoon => ?downHolds, fun hdue => ?down⟩,
    fun s die t hdie hcool hlow hhigh => ⟨fun hsoon => ?upHolds, fun hdue => ?up⟩⟩
  case sample =>
    refine ⟨_, congrArg Host.Outcome.next (thermalSampleState_watched hw t), ?level, fun hheld hpush => ?memory, fun k hk => ?die,
      fun k hk => ?stack⟩
    case level =>
      have dies : FieldsKept LevelField (stacksSampled s t) (diesRead (stacksSampled s t) t) :=
        diesRead_fieldsKept hcool (fun a l (hl : LevelField a l) => .inl (hl.1 ▸ by decide)) (fun l hl => absurd hl.1 (by decide)) _
      rw [levelOfPower_kept dies, stacksSampled_level]
    case memory =>
      obtain ⟨hmem, hqueues⟩ := diesRead_frame hcool (stacksSampled s t)
      obtain ⟨hmem', hqueues'⟩ := stacksSampled_frame t hheld hpush
      exact ⟨hmem.trans hmem', hqueues.trans hqueues'⟩
    case die =>
      obtain ⟨htemp, hstepped, hkept⟩ := diesRead_at hcool (stacksSampled s t) hk
      rw [(stacksSampled_units s t).power_eq] at hstepped
      refine ⟨htemp, hstepped, fun hx => (hkept hx).trans ((stacksSampled_dieFields s t).field _ 31 29 (by decide) ?_)⟩
      unfold DieField HeatField thmDie rThmDie rMemTherm
      omega
    case stack =>
      have dies : FieldsKept (ThermReg k) (stacksSampled s t) (diesRead (stacksSampled s t) t) :=
        diesRead_fieldsKept hcool (fun a l (hl : ThermReg k a l) => .inr (hl ▸ Nat.le_add_right ..)) (not_thermReg (by decide) k) _
      obtain ⟨htemp, hhot⟩ := stacksSampled_at s t hk
      have hflag := (dies.field _ 31 31 (by decide) rfl).trans hhot
      exact ⟨(dies.field _ 15 0 (by decide) rfl).trans htemp, fun hx => hflag.trans (by rw [hotAfter_hot hx]; rfl),
        fun hx => hflag.trans (by rw [hotAfter_cool hx]; rfl), fun hlo hhi => hflag.trans (hotAfter_between hlo hhi)⟩
  case trip =>
    have hin := dies_trip (T := fun k => nthD t.dieT k 0) hx (List.mem_range.2 hk) (s := stacksSampled s t)
      ((stacksSampled_level s t).trans_lt hlevel)
    rw [(stacksSampled_units s t).plumb_eq] at hin
    exact ⟨_, congrArg Host.Outcome.next (thermalSampleState_watched hw t), hin.level, hin.s5Cause, hin.s5At, hin.runs⟩
  case downHolds => exact congrArg Host.Outcome.next (thermalStepDownState_holds hsoon)
  case down =>
    obtain ⟨hfields, hbooks⟩ := stepRecorded s die 2 false (dieTemp s die) rfl
    obtain ⟨-, hshown, -⟩ := setDieStep_fields s (k := die) (v := 2) (by omega) (by decide)
    obtain ⟨hclock, hasked⟩ := setDieStep_clock s hdie (lt_length_of_nthD (d := 0) (by omega))
    refine ⟨_, congrArg Host.Outcome.next (thermalStepDownState_steps hdie hw hone hhot hdue), ?_, ?_, ?_, hbooks⟩
    · exact (hfields _ 30 29 (by unfold rThmDie rSngStatus; omega)).trans hshown
    · exact (hfields _ 1 0 (by unfold rClkArray rSngStatus; omega)).trans hclock
    · exact (hfields _ 30 30 (by unfold rClkArray rSngStatus; omega)).trans hasked
  case upHolds => exact congrArg Host.Outcome.next (thermalStepUpState_holds hcool hsoon)
  case up =>
    obtain ⟨u, p, hu, hrecord⟩ := steppedUp_frame s die
    obtain ⟨hfields, hbooks⟩ := stepRecorded s die _ true (dieTemp s die) hrecord
    obtain ⟨hflag, hshown, -⟩ := setDieStep_fields s (k := die) (v := nthD s.power.dieStep die 0 - 1) hdie (by omega)
    have hreg : rThmDie + 4 * die ≠ rSngStatus := by
      unfold rThmDie rSngStatus
      omega
    refine ⟨{ u with power := p }, congrArg Host.Outcome.next ((thermalStepUpState_steps hcool hdie hlow hdue).trans hu), ?_, ?_,
      hbooks⟩
    · exact (hfields _ 30 29 hreg).trans hshown
    · refine ((hfields _ 31 31 hreg).trans hflag).trans ?_
      obtain hone | htwo : nthD s.power.dieStep die 0 = 1 ∨ nthD s.power.dieStep die 0 = 2 := by omega
      · rw [hone]; rfl
      · rw [htwo]; rfl

end Sys2Proof.Machine
end

section
/-! SUPPORT. Stencil blocks and their channels: what is left to read after one is written, and after a run over several
(R221, R223). -/

namespace Sys2Proof.Machine

/-! One block, one channel. -/

theorem blockPut_parts (s : State) (b : Nat) (k : Block) : ∃ l h, blockPut s b k = { s with blocks := l, hubBlock := h } := by
  unfold blockPut
  split
  · exact ⟨s.blocks, k, rfl⟩
  · exact ⟨_, s.hubBlock, rfl⟩

@[simp] theorem blockPut_mem (s : State) (b : Nat) (k : Block) : (blockPut s b k).mem = s.mem := by
  obtain ⟨l, h, hk⟩ := blockPut_parts s b k
  rw [hk]

@[simp] theorem blockPut_plumb (s : State) (b : Nat) (k : Block) : (blockPut s b k).plumb = s.plumb := by
  obtain ⟨l, h, hk⟩ := blockPut_parts s b k
  rw [hk]

@[simp] theorem blockGet_blockPut (s : State) (b : Nat) (k : Block) : blockGet (blockPut s b k) b = k := by
  unfold blockGet blockPut
  by_cases hb : b = 32
  · rw [if_pos hb, if_pos hb]
  · rw [if_neg hb, if_neg hb, stGet_set_self]

@[simp] theorem chanPut_mem (s : State) (b ch : Nat) (x : Chan) : (chanPut s b ch x).mem = s.mem := blockPut_mem ..

@[simp] theorem chanPut_plumb (s : State) (b ch : Nat) (x : Chan) : (chanPut s b ch x).plumb = s.plumb := blockPut_plumb ..

theorem chanPut_flights (s : State) (b ch : Nat) (x : Chan) : (chanPut s b ch x).flights = s.flights := by
  obtain ⟨l, h, hk⟩ := blockPut_parts s b { blockGet s b with chans := (blockGet s b).chans.set ch x }
  rw [chanPut, hk]

@[simp] theorem blockGet_chanPut (s : State) (b ch : Nat) (x : Chan) :
    blockGet (chanPut s b ch x) b = { blockGet s b with chans := (blockGet s b).chans.set ch x } := blockGet_blockPut ..

theorem chanGet_chanPut (s : State) (b ch j : Nat) (x : Chan) :
    chanGet (chanPut s b ch x) b j = if j = ch ∧ ch < (blockGet s b).chans.length then x else chanGet s b j := by
  rw [chanGet, blockGet_chanPut]
  exact nthD_set ..

theorem chanGet_blockPut (s : State) (b ch : Nat) (k : Block) : chanGet (blockPut s b k) b ch = nthD k.chans ch chan0 := by
  rw [chanGet, blockGet_blockPut]

/-! What completes commands or touches registers leaves the blocks. -/

theorem SameUnits.blockGet_eq {s t : State} (h : SameUnits s t) (b : Nat) : blockGet t b = blockGet s b := by
  obtain ⟨-, -, -, -, -, -, -, hblocks, hhub, -⟩ := h
  rw [blockGet, blockGet, hblocks, hhub]

/-- A channel whose stream has been reported. -/
def endedChan (x : Chan) (next : Nat) : Chan := { x with state := next, wait := 0, cmd := none, stopping := false, issued := 0 }

theorem chanEnd_units (s : State) (b ch next status : Nat) (stopped : Bool) :
    SameUnits (chanPut s b ch (endedChan (chanGet s b ch) next)) (chanEnd s b ch next status stopped) := by
  unfold chanEnd
  dsimp only
  split
  · exact .refl _
  · split
    · exact report_units (.refl _) ..
    · exact complete_units (.refl _) ..

theorem blockGet_chanEnd (s : State) (b ch next status : Nat) (stopped : Bool) : blockGet (chanEnd s b ch next status stopped) b
    = { blockGet s b with chans := (blockGet s b).chans.set ch (endedChan (chanGet s b ch) next) } :=
  ((chanEnd_units ..).blockGet_eq b).trans (blockGet_chanPut ..)

theorem chanGet_chanEnd (s : State) (b ch next status : Nat) (stopped : Bool) (j : Nat) : chanGet (chanEnd s b ch next status stopped) b j
    = if j = ch ∧ ch < (blockGet s b).chans.length then endedChan (chanGet s b ch) next else chanGet s b j := by
  rw [chanGet, blockGet_chanEnd]
  exact nthD_set ..

/-! A run over channels, each changed in its turn. -/

/-- Where each channel of a run is changed by `F` when its turn comes, and no other with it, the run changes just these, each once. -/
theorem chanGet_foldl {b : Nat} {I : State → Prop} {f : State → Nat → State} {F : Nat → Chan → Chan} {l : List Nat}
    (hI : ∀ t, ∀ i ∈ l, I t → I (f t i))
    (hf : ∀ t, ∀ i ∈ l, I t → ∀ j, chanGet (f t i) b j = if j = i then F i (chanGet t b i) else chanGet t b j)
    (hl : l.Nodup) {s : State} (hs : I s) (j : Nat) :
    chanGet (l.foldl f s) b j = if j ∈ l then F j (chanGet s b j) else chanGet s b j := by
  induction l generalizing s with
  | nil => rfl
  | cons i r ih =>
    obtain ⟨hi, hr⟩ := List.nodup_cons.1 hl
    have hstep := hf s i List.mem_cons_self hs j
    rw [List.foldl_cons, ih (fun t k hk => hI t k (List.mem_cons_of_mem _ hk)) (fun t k hk => hf t k (List.mem_cons_of_mem _ hk)) hr
      (hI s i List.mem_cons_self hs), hstep]
    by_cases hj : j = i
    · subst hj
      rw [if_neg hi, if_pos rfl, if_pos List.mem_cons_self]
    · simp only [List.mem_cons, hj, false_or, if_false]

/-- What a run over channels keeps: the tick, and how many channels the block has. -/
def ChansStand (b n p : Nat) (t : State) : Prop := (blockGet t b).chans.length = n ∧ t.plumb = p

theorem ChansStand.chanPut {b n p : Nat} {t : State} (h : ChansStand b n p t) (ch : Nat) (x : Chan) :
    ChansStand b n p (chanPut t b ch x) := by
  obtain ⟨hlen, hplumb⟩ := h
  exact ⟨by rw [blockGet_chanPut, List.length_set, hlen], (chanPut_plumb ..).trans hplumb⟩

theorem ChansStand.chanGet_put {b n p ch : Nat} {t : State} (h : ChansStand b n p t) (hch : ch < n) (x : Chan) (j : Nat) :
    chanGet (Machine.chanPut t b ch x) b j = if j = ch then x else chanGet t b j := by
  obtain ⟨hlen, -⟩ := h
  rw [chanGet_chanPut, hlen]
  exact if_congr (and_iff_left hch) rfl rfl

/-! The channels of a mask (R222). -/

theorem maskChans_nodup (m : Nat) : (maskChans m).Nodup := List.nodup_range.filter _

theorem maskChans_lt {m n ch : Nat} (hm : m < 2 ^ n) (h : ch ∈ maskChans m) : ch < n := by
  have hbit : bitOf m ch = true := (List.mem_filter.1 h).2
  by_contra hn
  have hlt : m < 2 ^ ch := hm.trans_le (Nat.pow_le_pow_right (by decide) (Nat.le_of_not_lt hn))
  rw [show bitOf m ch = m.testBit ch from rfl, Nat.testBit_lt_two_pow hlt] at hbit
  exact absurd hbit (by decide)

end Sys2Proof.Machine
end

section
/-! PROOF. The Stencil instructions, MOVE and ADD, and the waits (R223, R225–R230, R242). -/

namespace Sys2Proof.Machine

/-! A channel at its word. -/

section Word

variable {s : State} {b ch op w : Nat} {x : Chan}

theorem chanRow_at (h : AtWord s b ch op x w) (f : Chan → Nat → State → State) : chanRow b ch op f s = f x w s := by
  obtain ⟨hb, hch, rfl, rfl, hop, hrun, hgo, hstops, hshed, hrel⟩ := h
  unfold chanRow
  dsimp only
  rw [hrel, hstops, hgo, if_neg, if_pos ⟨hrun, .inl rfl⟩]
  simp only [hop, Bool.not_true, Bool.false_eq_true, ne_eq, not_true, or_false, false_or, not_or, Nat.not_le]
  exact ⟨hb, hch, hshed⟩

/-- A word of another operation is not the row's. -/
theorem chanRow_elsewhere {op' : Nat} (h : AtWord s b ch op x w) (hne : op ≠ op') (f : Chan → Nat → State → State) :
    chanRow b ch op' f s = s := by
  obtain ⟨-, -, rfl, rfl, hop, -⟩ := h
  exact if_pos (by simp [hop, hne])

theorem endlState_at (h : AtWord s b ch opEndl x w) {l start : Nat} (hl : x.loops.getLast? = some (l, start)) {i : Nat}
    (hi : i = nthD x.counters (fieldOf w 50 48) 0 + 1) : endlState b ch s
      = if i ≤ fieldOf (imageWord x.image (start - 1)) 23 0 then
          settle (chanPut s b ch { x with counters := x.counters.set (fieldOf w 50 48) i, pc := start }) b
        else stepChan s b ch { x with counters := x.counters.set (fieldOf w 50 48) i, loops := x.loops.dropLast } := by
  subst hi
  rw [endlState, chanRow_at h]
  simp only [hl]

/-! WAITP, WAITT and WAITC (R228). -/

theorem waitpState_at (h : AtWord s b ch opWaitp x w) : waitpState b ch s
    = if x.anchor + fieldOf w 47 0 ≤ s.plumb then stepChan s b ch { x with anchor := x.anchor + fieldOf w 47 0 }
      else waitChan s b ch x 1 0 (x.anchor + fieldOf w 47 0) := chanRow_at h _

theorem waittState_at (h : AtWord s b ch opWaitt x w) : waittState b ch s
    = if fieldOf w 31 0 ≤ tallyGet s b (fieldOf w 47 40) then stepChan s b ch x
      else waitChan s b ch x 3 (fieldOf w 47 40) (fieldOf w 31 0) := chanRow_at h _

theorem waitcState_at (h : AtWord s b ch opWaitc x w) : waitcState b ch s
    = if fieldOf w 31 0 ≤ (chanGet s b (fieldOf w 44 40)).signal then stepChan s b ch x
      else waitChan s b ch x 2 (fieldOf w 44 40) (fieldOf w 31 0) := chanRow_at h _

end Word

/-! SETT (R229). -/

/-- A tally of a block's node written. -/
def tallyPut (s : State) (b t v : Nat) : State :=
  blockPut s b { blockGet s b with tallies := stSet 0 (blockGet s b).tallies t (BitVec.ofNat 32 v) }

theorem tallyGet_tallyPut (s : State) (b t v t' : Nat) :
    tallyGet (tallyPut s b t v) b t' = if t' = t then v % 2 ^ 32 else tallyGet s b t' := by
  rw [tallyGet, tallyPut, blockGet_blockPut, stGet_set]
  split
  · exact BitVec.toNat_ofNat ..
  · rfl

theorem chanGet_tallyPut (s : State) (b t v ch : Nat) : chanGet (tallyPut s b t v) b ch = chanGet s b ch := chanGet_blockPut ..

theorem fieldOf_lt (n hi lo : Nat) : fieldOf n hi lo < 2 ^ (hi + 1 - lo) := Nat.mod_lt _ (Nat.two_pow_pos _)

/-- Settles O33: a channel at a word runs its row's meaning, and a word of another operation is passed over. -/
theorem stencilWordsRun : Obligations.StencilWordsRun := by
  intro s b ch op x w h
  refine ⟨?base, fun hne => congrArg _ (chanRow_elsewhere h hne _), ?stride, ?loop, ?endl, ?waitp, ?waitt, ?waitc, ?signal, ?sett,
    ?peer, ?last⟩
  case base | stride | loop | signal | peer | last =>
    rintro rfl
    exact congrArg Host.Outcome.next (chanRow_at h _)
  case endl =>
    rintro rfl l start hl
    have hrow := endlState_at h hl rfl
    exact ⟨fun hmore => congrArg Host.Outcome.next (hrow.trans (if_pos hmore)),
      fun hdone => congrArg Host.Outcome.next (hrow.trans (if_neg (Nat.not_le.2 hdone)))⟩
  case waitp =>
    rintro rfl
    exact ⟨fun hdue => congrArg Host.Outcome.next ((waitpState_at h).trans (if_pos hdue)),
      fun hsoon => ⟨_, congrArg Host.Outcome.next ((waitpState_at h).trans (if_neg (Nat.not_le.2 hsoon))), rfl, rfl, rfl, rfl⟩⟩
  case waitt =>
    rintro rfl
    exact ⟨fun hmet => congrArg Host.Outcome.next ((waittState_at h).trans (if_pos hmet)),
      fun hless => ⟨_, congrArg Host.Outcome.next ((waittState_at h).trans (if_neg (Nat.not_le.2 hless))), rfl, rfl, rfl, rfl⟩⟩
  case waitc =>
    rintro rfl
    exact ⟨fun hmet => congrArg Host.Outcome.next ((waitcState_at h).trans (if_pos hmet)),
      fun hless => ⟨_, congrArg Host.Outcome.next ((waitcState_at h).trans (if_neg (Nat.not_le.2 hless))), rfl, rfl, rfl, rfl⟩⟩
  case sett =>
    rintro rfl
    obtain ⟨-, -, hx, -⟩ := id h
    refine ⟨tallyPut s b (fieldOf w 47 40) (fieldOf w 31 0), congrArg Host.Outcome.next (chanRow_at h _), ?_,
      fun t ht => (tallyGet_tallyPut ..).trans (if_neg ht), (chanGet_tallyPut ..).trans hx, blockPut_mem ..⟩
    rw [tallyGet_tallyPut, if_pos rfl, Nat.mod_eq_of_lt (fieldOf_lt w 31 0)]

/-! Waits that end (R228). -/

section Waiting

variable {s : State} {b ch : Nat} {x : Chan}

theorem waitingAt_some {kinds : List Nat} (h : waitingAt s b ch kinds = some x) : chanGet s b ch = x ∧ x.wait ∈ kinds := by
  unfold waitingAt at h
  dsimp only at h
  split at h
  · cases h
  · next hgo =>
    cases h
    simp only [not_or] at hgo
    obtain ⟨-, -, -, -, -, -, hkind⟩ := hgo
    exact ⟨rfl, by simpa using hkind⟩

/-- A wait of one kind is none of the others. -/
theorem waitingAt_none {kinds others : List Nat} (h : waitingAt s b ch kinds = some x) (hd : ∀ k ∈ kinds, k ∉ others) :
    waitingAt s b ch others = none := by
  obtain ⟨hx, hkind⟩ := waitingAt_some h
  refine Option.eq_none_iff_forall_ne_some.2 fun y hy => ?_
  obtain ⟨rfl, hother⟩ := waitingAt_some hy
  exact hd _ hkind (hx ▸ hother)

theorem waitpDueState_at (h : waitingAt s b ch [1] = some x) : waitpDueState b ch s
    = if s.plumb < x.waitFor then s else stepChan s b ch { x with state := chRunning, wait := 0, anchor := x.waitFor } := by
  rw [waitpDueState, h]

theorem waitSatisfiedState_at (h : waitingAt s b ch [2, 3] = some x) : waitSatisfiedState b ch s
    = if x.entry + x.waitLen ≤ s.plumb ∨ waitValue s b x.wait x.waitId < x.waitFor then s
      else stepChan s b ch { x with state := chRunning, wait := 0 } := by
  rw [waitSatisfiedState, h]

theorem waitTimeoutState_at (h : waitingAt s b ch [2, 3] = some x) : waitTimeoutState b ch s
    = if s.plumb < x.entry + x.waitLen then s else chanEnd s b ch chLoaded stTimeout false := by
  rw [waitTimeoutState, h]

theorem waitTimeoutState_plumb (h : waitingAt s b ch [1] = some x) : waitTimeoutState b ch s = s := by
  rw [waitTimeoutState, waitingAt_none h (by decide)]

end Waiting

/-- Settles O35: the rows that end a wait by its condition and its window, and those that begin one by their word. -/
theorem streamWaitsEnd : Obligations.StreamWaitsEnd := by
  refine fun s b ch x => ⟨fun h => ⟨fun hdue => ?due, fun hsoon => ?soon, ?never⟩,
    fun h => ⟨fun hin hmet => ?met, fun hless => ?less, fun hend => ?windowEnd, fun hend => ?timeout, fun hin => ?windowOpen⟩,
    fun w h => ⟨fun hdue => ?passed, fun hsoon => ?plumb⟩, fun w kind v hword i hi => ?threshold, fun w h => ?last⟩
  case due => exact congrArg Host.Outcome.next ((waitpDueState_at h).trans (if_neg (Nat.not_lt.2 hdue)))
  case soon => exact congrArg Host.Outcome.next ((waitpDueState_at h).trans (if_pos hsoon))
  case never => exact congrArg Host.Outcome.next (waitTimeoutState_plumb h)
  case met => exact congrArg Host.Outcome.next ((waitSatisfiedState_at h).trans (if_neg (by omega)))
  case less => exact congrArg Host.Outcome.next ((waitSatisfiedState_at h).trans (if_pos (.inr hless)))
  case windowEnd => exact congrArg Host.Outcome.next ((waitSatisfiedState_at h).trans (if_pos (.inl hend)))
  case timeout => exact congrArg Host.Outcome.next ((waitTimeoutState_at h).trans (if_neg (Nat.not_lt.2 hend)))
  case windowOpen => exact congrArg Host.Outcome.next ((waitTimeoutState_at h).trans (if_pos hin))
  case passed => exact congrArg Host.Outcome.next ((waitpState_at h).trans (if_pos hdue))
  case plumb =>
    exact ⟨_, congrArg Host.Outcome.next ((waitpState_at h).trans (if_neg (Nat.not_le.2 hsoon))), rfl, rfl, rfl, rfl⟩
  case threshold =>
    obtain ⟨rfl, h, rfl⟩ | ⟨rfl, h, rfl⟩ := hword
    · subst hi
      exact ⟨fun hmet => congrArg Host.Outcome.next ((waitcState_at h).trans (if_pos hmet)), fun hless =>
        ⟨_, congrArg Host.Outcome.next ((waitcState_at h).trans (if_neg (Nat.not_le.2 hless))), rfl, rfl, rfl, rfl, rfl⟩⟩
    · subst hi
      exact ⟨fun hmet => congrArg Host.Outcome.next ((waittState_at h).trans (if_pos hmet)), fun hless =>
        ⟨_, congrArg Host.Outcome.next ((waittState_at h).trans (if_neg (Nat.not_le.2 hless))), rfl, rfl, rfl, rfl, rfl⟩⟩
  case last => exact congrArg Host.Outcome.next (chanRow_at h _)

/-! MOVE and ADD (R223, R230, R242). -/

/-- A channel's position at the start of the MOVE or ADD it stands at. -/
def moveMark (x : Chan) : ChanMark :=
  { id := x.moves, pc := x.pc, counters := x.counters, bases := x.bases, spaces := x.spaces, strides := x.strides, loops := x.loops
    signal := x.signal, anchor := x.anchor, peer := x.peer }

/-- A channel whose MOVE or ADD begins notes where it stands; one that carries on has done so. -/
def markedChan (x : Chan) : Chan := if x.issued = 0 then { x with marks := x.marks ++ [moveMark x] } else x

/-- The parcels of a MOVE or ADD issued as far as they go, its operands read. -/
def issuedPieces (b ch : Nat) (x : Chan) (m : MoveOp) (r : State) : State :=
  issuePieces b ch x.moves m 16 (chanPut r b ch (markedChan x))

section Move

variable {s r : State} {b ch w : Nat} {x : Chan}

theorem moveRow_held (hcls : 4 ≤ fieldOf w 55 53) (hshed : 2 ≤ shedLevel s) (hfresh : x.issued = 0) :
    moveRow b ch x w s = settle (chanPut s b ch { x with state := chHeld }) b := if_pos ⟨hcls, hshed, hfresh⟩

variable (hgo : fieldOf w 55 53 < 4 ∨ shedLevel s < 2 ∨ 0 < x.issued)
include hgo

theorem moveRow_done (hdone : x.moves ∈ x.doneIds) :
    moveRow b ch x w s = settle (chanPut s b ch { x with pc := x.pc + 1, moves := x.moves + 1 }) b := by
  rw [moveRow, if_neg (by omega), if_pos (List.contains_iff_mem.2 hdone)]

variable (hnew : x.moves ∉ x.doneIds)
include hnew

theorem moveRow_fault {a : Nat} (hm : moveOf s b x w = (r, .error a)) : moveRow b ch x w s
    = busError (chanPut r b ch x) b { page := false, addr := a, reason := 0, chans := 2 ^ ch, marks := [], tag := 0, tries := 0 } := by
  rw [moveRow, if_neg (by omega), if_neg (by simpa using hnew), hm]

theorem moveRow_issues {m : MoveOp} (hm : moveOf s b x w = (r, .ok m)) {t : State} (ht : t = issuedPieces b ch x m r) :
    moveRow b ch x w s
      = if m.len ≤ (chanGet t b ch).issued then settle (chanPut t b ch
          { chanGet t b ch with pc := (chanGet t b ch).pc + 1, moves := (chanGet t b ch).moves + 1, issued := 0 }) b
        else if (blockGet t b).stops then t
        else if 16 ≤ windowUsed t b ch then chanPut t b ch { chanGet t b ch with state := chWaiting, wait := 4 }
        else t := by
  subst ht
  rw [moveRow, if_neg (by omega), if_neg (by simpa using hnew), hm]
  rfl

end Move

/-- Settles O34: MOVE and ADD are one row, which holds, passes over, fails or issues. -/
theorem moveAndAddIssue : Obligations.MoveAndAddIssue := by
  intro s b ch op x w i h hi
  have hexec : exec i s = .next (moveRow b ch x w s) := by
    obtain ⟨rfl, rfl⟩ | ⟨rfl, rfl⟩ := hi
    · exact congrArg Host.Outcome.next (chanRow_at h _)
    · exact congrArg Host.Outcome.next (chanRow_at h _)
  rw [hexec]
  refine ⟨fun hcls hshed hfresh => congrArg _ (moveRow_held hcls hshed hfresh), fun hgo =>
    ⟨fun hdone => congrArg _ (moveRow_done hgo hdone), fun hnew =>
      ⟨fun r a hm => congrArg _ (moveRow_fault hgo hnew hm), fun r m hm => ?_⟩⟩⟩
  have hrow := moveRow_issues (ch := ch) hgo hnew hm rfl
  refine ⟨markedChan x, issuedPieces b ch x m r, fun hon => if_neg (Nat.ne_of_gt hon),
    fun hfresh => ⟨moveMark x, rfl, rfl, rfl, rfl, if_pos hfresh⟩, rfl, fun hall => ?all,
    fun hmore hstops hfull => ?full, fun hmore hstay => ?stay⟩
  case all => rw [hrow, if_pos hall]
  case full => rw [hrow, if_neg (Nat.not_le.2 hmore), hstops, if_neg Bool.false_ne_true, if_pos hfull]
  case stay =>
    rw [hrow, if_neg (Nat.not_le.2 hmore)]
    obtain hstops | hroom := hstay
    · rw [if_pos hstops]
    · rw [if_neg (Nat.not_le.2 hroom), ite_self]

end Sys2Proof.Machine
end

section
/-! PROOF. STENCIL_LOAD, STREAM_START, STREAM_STOP and STREAM_RESUME (R222, R226, R242). -/

namespace Sys2Proof.Machine

section Bodies

variable {s : State} {c : Cmd} {k : Nat} (hk : blockNo s (leAt c.body 0 1) = some k)
include hk

/-! STENCIL_LOAD (R226). -/

/-- A channel with an image loaded. -/
def loadedChan (x : Chan) (img : List Byte) : Chan :=
  { x with image := sliceB img 0 (16 + 8 * imageLen img), state := chLoaded, wait := 0, pc := 0 }

theorem bodyStencilLoad_loads {ch : Nat} {x : Chan} (hc : ch = leAt c.body 1 1) (hx : x = chanGet s k ch)
    (hgate : blockGated s k = false) (hch : ch < blockChans k) (hz : zeroAt c.body 2 14 = true)
    (himg : imageOk (c.body.drop 16) (decide (k = 32)) = true) (hstate : x.state ≤ chLoaded ∨ x.state = chAborted) :
    bodyStencilLoad c s = some (finish (chanPut s k ch (loadedChan x (c.body.drop 16))) c stOk) := by
  subst hc hx
  have hready : ¬((chanGet s k (leAt c.body 1 1)).state ≠ 0 ∧ (chanGet s k (leAt c.body 1 1)).state ≠ chLoaded
      ∧ (chanGet s k (leAt c.body 1 1)).state ≠ chAborted) := by
    rintro ⟨hidle, hloaded, haborted⟩
    obtain hlow | hab := hstate
    · unfold chLoaded at hlow hloaded
      omega
    · exact haborted hab
  unfold bodyStencilLoad
  simp only [hk, hz, himg, hgate, Bool.not_true, Bool.false_eq_true, or_false, if_neg (Nat.not_le.2 hch), if_false, if_neg hready]
  rfl

/-! STREAM_START (R222, R227). -/

/-- A channel started at the count `p` by a command. -/
def startedChan (c : Cmd) (p : Nat) (x : Chan) : Chan :=
  { chan0 with
    state := chRunning, image := x.image, anchor := if c.launched then c.launch else p, nextTag := x.nextTag, window := x.window
    cmd := some c }

def startChan (c : Cmd) (k : Nat) (t : State) (ch : Nat) : State := chanPut t k ch (startedChan c t.plumb (chanGet t k ch))

theorem bodyStreamStart_starts (hgate : blockGated s k = false) (hz : zeroAt c.body 1 3 = true) (hne : leAt c.body 4 4 ≠ 0)
    (hlt : leAt c.body 4 4 < 2 ^ blockChans k)
    (hready : ∀ ch ∈ maskChans (leAt c.body 4 4), (chanGet s k ch).state = chLoaded ∨ (chanGet s k ch).state = chAborted) :
    bodyStreamStart c s = some ((maskChans (leAt c.body 4 4)).foldl (startChan c k) (fly s c)) := by
  have hall : (maskChans (leAt c.body 4 4)).all
      (fun ch => (chanGet s k ch).state == chLoaded || (chanGet s k ch).state == chAborted) = true := by
    simpa using hready
  unfold bodyStreamStart
  simp only [hk, hz, hgate, hne, hall, Bool.not_true, Bool.false_eq_true, false_or, or_false, if_neg (Nat.not_le.2 hlt), if_false]
  rfl

/-! STREAM_STOP (R222). -/

/-- A channel told to stop, where it works. -/
def stoppedChan (x : Chan) : Chan :=
  if x.state = chRunning ∨ x.state = chWaiting ∨ x.state = chHeld then { x with stopping := true } else x

def stopChan (k : Nat) (t : State) (ch : Nat) : State :=
  let x := chanGet t k ch
  if x.state = chRunning ∨ x.state = chWaiting ∨ x.state = chHeld then chanPut t k ch { x with stopping := true } else t

theorem bodyStreamStop_stops (hz : zeroAt c.body 1 3 = true) (hne : leAt c.body 4 4 ≠ 0) (hlt : leAt c.body 4 4 < 2 ^ blockChans k) :
    bodyStreamStop c s = some (finish (settle ((maskChans (leAt c.body 4 4)).foldl (stopChan k) s) k) c stOk) := by
  unfold bodyStreamStop
  simp only [hk, hz, hne, Bool.not_true, Bool.false_eq_true, false_or, if_neg (Nat.not_le.2 hlt)]
  rfl

/-! STREAM_RESUME (R242). -/

/-- The HALTED channels of a block. -/
def haltedChans (s : State) (k : Nat) : List Nat := (List.range (blockChans k)).filter (fun ch => (chanGet s k ch).state == chHalted)

/-- A channel that runs on by a command. -/
def resumedChan (c : Cmd) (x : Chan) : Chan := { x with state := chRunning, cmd := some c }

def resumeChan (c : Cmd) (k : Nat) (t : State) (ch : Nat) : State := chanPut t k ch (resumedChan c (chanGet t k ch))

theorem bodyStreamResume_resumes (hne : haltedChans s k ≠ []) :
    bodyStreamResume c s = some ((haltedChans s k).foldl (resumeChan c k) (fly s c)) := by
  unfold bodyStreamResume
  simp only [hk]
  exact if_neg fun h => hne (List.isEmpty_iff.1 h)

end Bodies

theorem mem_haltedChans {s : State} {k ch : Nat} : ch ∈ haltedChans s k ↔ ch < blockChans k ∧ (chanGet s k ch).state = chHalted := by
  simp [haltedChans]

/-! The runs over channels. -/

section Runs

variable {s : State} {k p : Nat} (hs : ChansStand k (blockChans k) p s)
include hs

theorem chanGet_startChans (c : Cmd) {m : Nat} (hm : m < 2 ^ blockChans k) (j : Nat) :
    chanGet ((maskChans m).foldl (startChan c k) s) k j = if j ∈ maskChans m then startedChan c p (chanGet s k j) else chanGet s k j :=
  chanGet_foldl (I := ChansStand k (blockChans k) p) (F := fun _ x => startedChan c p x) (fun _ _ _ ht => ht.chanPut ..)
    (fun t i hi ht j => by
      have hread := ht.chanGet_put (maskChans_lt hm hi) (startedChan c t.plumb (chanGet t k i)) j
      obtain ⟨-, rfl⟩ := ht
      exact hread) (maskChans_nodup m) hs j

omit hs in
theorem ChansStand.stopChan {t : State} (ht : ChansStand k (blockChans k) p t) (i : Nat) :
    ChansStand k (blockChans k) p (stopChan k t i) := by
  unfold Machine.stopChan
  dsimp only
  split
  · exact ht.chanPut ..
  · exact ht

omit hs in
theorem chanGet_stopChan {t : State} {i : Nat} (ht : ChansStand k (blockChans k) p t) (hi : i < blockChans k) (j : Nat) :
    chanGet (stopChan k t i) k j = if j = i then stoppedChan (chanGet t k i) else chanGet t k j := by
  unfold stopChan stoppedChan
  dsimp only
  split
  · exact ht.chanGet_put hi ..
  · split
    · next hj => rw [hj]
    · rfl

theorem chanGet_stopChans {m : Nat} (hm : m < 2 ^ blockChans k) (j : Nat) :
    chanGet ((maskChans m).foldl (stopChan k) s) k j = if j ∈ maskChans m then stoppedChan (chanGet s k j) else chanGet s k j :=
  chanGet_foldl (F := fun _ => stoppedChan) (fun _ _ _ ht => ht.stopChan _)
    (fun _ _ hi ht => chanGet_stopChan ht (maskChans_lt hm hi)) (maskChans_nodup m) hs j

theorem chanGet_resumeChans (c : Cmd) (d : State) (j : Nat) : chanGet ((haltedChans d k).foldl (resumeChan c k) s) k j
    = if j ∈ haltedChans d k then resumedChan c (chanGet s k j) else chanGet s k j :=
  chanGet_foldl (I := ChansStand k (blockChans k) p) (F := fun _ => resumedChan c) (fun _ _ _ ht => ht.chanPut ..)
    (fun _ _ hi ht => ht.chanGet_put (mem_haltedChans.1 hi).1 _) (List.nodup_range.filter _) hs j

end Runs

theorem stopChan_mem (k : Nat) (t : State) (i : Nat) : (stopChan k t i).mem = t.mem := by
  unfold stopChan
  dsimp only
  split
  · exact chanPut_mem ..
  · rfl

/-- A host command's row where it begins comes to what its body makes of the state begun. -/
theorem hostRow_of_body {s d t : State} {q qseq opcode : Nat} {c : Cmd} (h : Begins s q qseq opcode c) (hd : markBegun s q qseq = d)
    {body : Cmd → State → Option State} (hbody : body c d = some t) : hostRow s q qseq (fun c => c.opcode == opcode) body = t := by
  have ⟨_, hop, _⟩ := h
  rw [hostRow_begins (sel := fun c => c.opcode == opcode) h (beq_iff_eq.2 hop), hd, hbody, Option.getD_some]

/-- Settles O32: each command by its body, and the channels it leaves by the run over them. -/
theorem streamCommands : Obligations.StreamCommands := by
  intro s q qseq k c hk hlen
  generalize hd : markBegun s q qseq = d at hk hlen
  have hs : ChansStand k (blockChans k) d.plumb d := ⟨hlen, rfl⟩
  refine ⟨fun hgate h hch hz himg hstate => ?load, fun hgate h hz hne hlt hready => ?start, fun h hz hne hlt => ?stop,
    fun h ⟨ch, hch, hhalted⟩ => ?resume⟩
  case load =>
    have hbody := bodyStencilLoad_loads hk rfl rfl hgate hch hz himg hstate
    have hread := hs.chanGet_put hch (loadedChan (chanGet d k (leAt c.body 1 1)) (c.body.drop 16))
    refine ⟨_, congrArg Host.Outcome.next (hostRow_of_body h hd hbody), ?_, ?_,
      fun ch hne => (hread ch).trans (if_neg hne), chanPut_mem ..⟩
    · rw [hread, if_pos rfl]; rfl
    · rw [hread, if_pos rfl]; rfl
  case start =>
    have hread := chanGet_startChans (s := fly d c) hs c hlt
    refine ⟨_, congrArg Host.Outcome.next (hostRow_of_body h hd (bodyStreamStart_starts hk hgate hz hne hlt hready)),
      fun ch hm => ?_, fun ch hm => (hread ch).trans (if_neg hm), foldl_part (g := State.flights) (fun _ _ => chanPut_flights ..) ..,
      foldl_part (g := State.mem) (fun _ _ => chanPut_mem ..) ..⟩
    rw [hread, if_pos hm]
    exact ⟨rfl, rfl, rfl, rfl, rfl, rfl⟩
  case stop =>
    have hread := chanGet_stopChans hs hlt
    refine ⟨_, congrArg Host.Outcome.next (hostRow_of_body h hd (bodyStreamStop_stops hk hz hne hlt)),
      fun ch hm hworks => ?_, fun ch hm => (hread ch).trans (if_neg hm), foldl_part (g := State.mem) (stopChan_mem k) ..⟩
    rw [hread, if_pos hm, stoppedChan, if_pos hworks]
  case resume =>
    have hread := chanGet_resumeChans (s := fly d c) hs c d
    refine ⟨_, congrArg Host.Outcome.next (hostRow_of_body h hd (bodyStreamResume_resumes hk
        (List.ne_nil_of_mem (mem_haltedChans.2 ⟨hch, hhalted⟩)))),
      fun ch hlt hst => ?_, fun ch hst => (hread ch).trans (if_neg fun hm => hst (mem_haltedChans.1 hm).2),
      foldl_part (g := State.mem) (fun _ _ => chanPut_mem ..) ..⟩
    rw [hread, if_pos (mem_haltedChans.2 ⟨hlt, hst⟩)]
    exact ⟨rfl, rfl⟩

end Sys2Proof.Machine
end

section
/-! PROOF. The owner's side of the Lath (R229, R231, R239, R240), a router's lone cell and an assembly's time-out (R235, R237,
R238). -/

namespace Sys2Proof.Machine

/-! Answers (R229, R238, R239). -/

section Answers

variable {s t : State} {k : Nat} {c : Cell} {p : Parcel}

theorem cellAckState_done (ht : takeInbox s k 5 = some (c, t)) (hp : parcelFor t k c = some p) (hkind : p.kind ≠ 2) :
    cellAckState k s = parcelDone t k (c.src % 32) p := by
  unfold cellAckState
  simp only [ht, hp, if_neg hkind]

theorem cellAckState_late (ht : takeInbox s k 5 = some (c, t)) (hp : parcelFor t k c = none) :
    cellAckState k s = lathCount t (blockNode k).1 5 1 := by
  unfold cellAckState
  simp only [ht, hp]

theorem cellNackState_fails (ht : takeInbox s k 6 = some (c, t)) (hp : parcelFor t k c = some p) : cellNackState k s
    = parcelFail t k (c.src % 32) p (leAt c.payload 6 1 == 4) (leAt c.payload 6 1) (leAt c.payload 0 6 % 2 ^ 42) := by
  unfold cellNackState
  simp only [ht, hp]
  rfl

/-- Whether a reply cell through a slot has come before, or belongs to a tag the slot has left behind (R238). -/
def replyRepeated (x : Slot) (c : Cell) : Prop :=
  ((x.tag + 4096 - c.tag) % 4096 = 0 ∧ bitOf x.mask c.seq = true)
    ∨ (16 ≤ (x.tag + 4096 - c.tag) % 4096 ∧ (x.tag + 4096 - c.tag) % 4096 ≤ 2047)

/-- The slot once a reply cell has come through it. -/
def slotNoted (x : Slot) (c : Cell) : Slot :=
  let y := if (x.tag + 4096 - c.tag) % 4096 = 0 then x else { slot0 with tag := c.tag }
  { y with mask := y.mask ||| 2 ^ c.seq }

/-- A parcel with a reply cell's bytes: those of a read that goes on stay with it. -/
def replyKept (p : Parcel) (c : Cell) : Parcel := if p.onward.isNone then p else { p with data := placeReply p c }

/-- A reply cell taken at its owner. -/
def replyPlaced (t : State) (k n : Nat) (y : Slot) (c : Cell) (p : Parcel) : State :=
  parcelMap (if p.onward.isNone then ownStore (slotPut t n y) k c.addr c.payload else slotPut t n y) c.src c.tag
    (fun _ => replyKept p c)

section Reply

variable {slot : Slot} {n : Nat} (ht : takeInbox s k 3 = some (c, t)) (hslot : slot = slotGet t n)
  (hn : n = slotKey (blockNode k).1 (blockNode k).2 c.src c.tag)
include ht hslot hn

theorem cellReplyState_repeated (h : replyRepeated slot c) : cellReplyState k s = lathCount t (blockNode k).1 4 1 := by
  subst hslot hn
  unfold cellReplyState
  rw [ht]
  exact if_pos h

variable (hnew : ¬ replyRepeated slot c)
include hnew

theorem cellReplyState_late (hp : parcelFor t k c = none) : cellReplyState k s = lathCount t (blockNode k).1 5 1 := by
  subst hslot hn
  unfold cellReplyState
  rw [ht]
  refine (if_neg hnew).trans ?_
  rw [hp]

theorem cellReplyState_takes (hp : parcelFor t k c = some p) {u : State} (hu : u = replyPlaced t k n (slotNoted slot c) c p) :
    cellReplyState k s = if (slotNoted slot c).whole c.ncell then readDone u k (c.src % 32) (replyKept p c) else u := by
  subst hslot hn hu
  unfold cellReplyState
  rw [ht]
  refine (if_neg hnew).trans ?_
  rw [hp]
  rfl

end Reply

end Answers

/-! Parcels sent again, and the held one (R231, R239). -/

section Retry

variable {s : State} {k win at' : Nat} {p : Parcel} (hk : k < 33)
  (hfind : (chanGet s k (win / 16)).window.find? (fun p => p.tag % 16 == win % 16 && !p.peer) = some p) (hsent : p.sentAt = some at')
include hfind hsent

theorem lathParcelRetryState_waits (hsoon : s.plumb < at' + p.interval) : lathParcelRetryState k win s = s := by
  unfold lathParcelRetryState
  simp only [hfind, hsent]
  exact if_pos (.inl hsoon)

variable (hdue : at' + p.interval ≤ s.plumb)
include hk hdue

theorem lathParcelRetryState_again (hmore : p.attempts < p.retries) : ∃ u, lathParcelRetryState k win s
    = injectCells (lathCount u (blockNode k).1 3 1) (blockNode k).1 (blockNode k).2
        (parcelCells u k (win / 16) { p with attempts := p.attempts + 1, sentAt := none }) ∧ u.mem = s.mem := by
  unfold lathParcelRetryState
  simp only [hfind, hsent]
  rw [if_neg (by omega), if_pos hmore]
  exact ⟨_, rfl, chanPut_mem ..⟩

theorem lathParcelRetryState_fails (hused : p.retries ≤ p.attempts) (hopen : windowOpen s (ownerSrc s k (win / 16)) p.tag = false) :
    lathParcelRetryState k win s = parcelFail s k (win / 16) p false 0 (if p.kind = 2 then p.src else p.addr) := by
  unfold lathParcelRetryState
  simp only [hfind, hsent]
  rw [if_neg (by omega), if_neg (Nat.not_lt.2 hused), hopen]
  rfl

end Retry

section Held

variable {s : State} {k win since : Nat} {p : Parcel} (hheld : (blockGet s k).held = some (win / 16, since, p))
include hheld

theorem flushHeld_sends : flushHeld s k = sendParcel (blockPut s k { blockGet s k with held := none }) k (win / 16) p := by
  unfold flushHeld
  simp only [hheld]

theorem mergeHoldExpiryState_sends (hr : released s = true) (hdue : since + 5 ≤ s.plumb) :
    mergeHoldExpiryState k win s = sendParcel (blockPut s k { blockGet s k with held := none }) k (win / 16) p := by
  rw [← flushHeld_sends hheld]
  unfold mergeHoldExpiryState
  simp only [hheld]
  exact if_pos ⟨trivial, hdue, hr⟩

theorem mergeHoldExpiryState_waits (hsoon : s.plumb < since + 5) : mergeHoldExpiryState k win s = s := by
  unfold mergeHoldExpiryState
  simp only [hheld]
  exact if_neg fun ⟨_, hdue, _⟩ => Nat.not_le.2 hsoon hdue

end Held

/-! The all-stop after page errors alone (R240). -/

/-- The MOVEs of a channel that failed. -/
def failedMoves (errs : List BusErr) (ch : Nat) : List Nat :=
  (errs.flatMap (·.marks)).filterMap (fun m => if m.1 = ch then some m.2 else none)

/-- A channel that worked stands HALTED at the place it will run on from. -/
def haltedChan (errs : List BusErr) (ch : Nat) (x : Chan) : Chan :=
  if x.state = chRunning ∨ x.state = chWaiting ∨ x.state = chHeld then
    endedChan { savedChan x (failedMoves errs ch) with marks := [] } chHalted
  else x

def haltChan (k : Nat) (errs : List BusErr) (t : State) (ch : Nat) : State :=
  let x := chanGet t k ch
  if x.state = chRunning ∨ x.state = chWaiting ∨ x.state = chHeld then
    chanEnd (chanPut t k ch { savedChan x (failedMoves errs ch) with marks := [] }) k ch chHalted stHaltedPage false
  else t

/-- What the run over the channels of an all-stop keeps: how many there are, and no error left. -/
structure StopCleared (k n : Nat) (t : State) : Prop where
  length : (blockGet t k).chans.length = n
  stops : (blockGet t k).stops = false
  errs : (blockGet t k).errs = []

section Halt

variable {k n ch : Nat} {t : State} (errs : List BusErr) (h : StopCleared k n t)
include h

theorem haltChan_cleared : StopCleared k n (haltChan k errs t ch) := by
  obtain ⟨hlen, hstops, herrs⟩ := h
  unfold haltChan
  dsimp only
  split
  · refine ⟨?_, ?_, ?_⟩ <;> simpa [blockGet_chanEnd]
  · exact ⟨hlen, hstops, herrs⟩

theorem chanGet_haltChan (hch : ch < n) (j : Nat) :
    chanGet (haltChan k errs t ch) k j = if j = ch then haltedChan errs ch (chanGet t k ch) else chanGet t k j := by
  have hlt : ch < (blockGet t k).chans.length := h.length ▸ hch
  unfold haltChan haltedChan
  dsimp only
  split
  · rw [chanGet_chanEnd, chanGet_chanPut, chanGet_chanPut, blockGet_chanPut, List.length_set]
    by_cases hj : j = ch
    · simp only [hj, hlt, and_self, if_true]
    · simp only [hj, false_and, if_false]
  · split
    · next hj => rw [hj]
    · rfl

end Halt

section AllStop

variable {s : State} {k : Nat} (hk : k < 33) (hstops : (blockGet s k).stops = true) (hheld : (blockGet s k).held = none)
  (hempty : (blockGet s k).chans.all (fun x => x.window.isEmpty) = true) {e : BusErr} (herr : (blockGet s k).errs.head? = some e)
  (hpage : (blockGet s k).errs.all (·.page) = true)
include hk hstops hheld hempty herr hpage

/-- Registers are written, the errors cleared, every channel halted in turn, and the block's record pushed. -/
theorem allStopState_page : ∃ t r, SameUnits s t ∧ allStopState k s = snagRecord ((List.range (blockChans k)).foldl
    (haltChan k (blockGet s k).errs) (blockPut t k { blockGet t k with errs := [], stops := false })) r := by
  have hsettled : (blockGet s k).chans.any (fun x => !x.window.isEmpty) = false := by
    rw [← Bool.not_eq_true', List.not_any_eq_all_not]
    simpa using hempty
  unfold allStopState
  dsimp only
  rw [if_neg (by simp [hk, hstops, hheld, hsettled])]
  simp only [hpage, if_true, herr]
  exact ⟨_, _, csrPut_units (csrPut_units (csrPut_units (csrPut_units (csrPut_units (csrPut_units (.refl s) ..) ..) ..) ..) ..) .., rfl⟩

theorem allStopState_halts (hlen : (blockGet s k).chans.length = blockChans k) :
    StopCleared k (blockChans k) (allStopState k s) ∧ ∀ ch, ch < blockChans k →
      chanGet (allStopState k s) k ch = haltedChan (blockGet s k).errs ch (chanGet s k ch) := by
  obtain ⟨t, r, ht, hall⟩ := allStopState_page hk hstops hheld hempty herr hpage
  generalize (blockGet s k).errs = errs at hall ⊢
  have hblock := ht.blockGet_eq k
  have hclear : StopCleared k (blockChans k) (blockPut t k { blockGet t k with errs := [], stops := false }) := by
    refine ⟨?_, ?_, ?_⟩ <;> simp [hblock, hlen]
  have hrun := List.foldlRecOn (motive := StopCleared k (blockChans k)) (List.range (blockChans k)) (haltChan k errs) hclear
    fun u hu ch _ => haltChan_cleared errs hu
  have hrec := (snagRecord_books ((List.range (blockChans k)).foldl (haltChan k errs)
    (blockPut t k { blockGet t k with errs := [], stops := false })) r).1.blockGet_eq k
  rw [hall]
  refine ⟨⟨hrec ▸ hrun.length, hrec ▸ hrun.stops, hrec ▸ hrun.errs⟩, fun ch hch => ?_⟩
  rw [chanGet, hrec]
  refine (chanGet_foldl (F := haltedChan errs) (fun _ _ _ hu => haltChan_cleared errs hu)
    (fun _ i hi hu => chanGet_haltChan errs hu (List.mem_range.1 hi)) List.nodup_range hclear ch).trans ?_
  rw [if_pos (List.mem_range.2 hch), chanGet_blockPut, hblock]
  rfl

end AllStop

/-! A lone cell at a router (R235, R237). -/

theorem arrivals_lone {c : Cell} (h : c.way < 3) : arrivals [c] = [c] := by
  obtain h | h | h : c.way = 0 ∨ c.way = 1 ∨ c.way = 2 := by omega
  all_goals simp [arrivals, h]

@[simp] theorem reachInter_way (s : State) (die node : Nat) (c : Cell) : (reachInter s die node c).way = c.way := by
  unfold reachInter
  split <;> rfl

@[simp] theorem reachInter_cls (s : State) (die node : Nat) (c : Cell) : (reachInter s die node c).cls = c.cls := by
  unfold reachInter
  split <;> rfl

theorem linkDrops_zero (s : State) (die node : Nat) : linkDrops s die node 0 = s := if_pos rfl

/-- With no cell to go on every output stays free. -/
theorem placeCells_nil (plane die node base fuel : Nat) (free : List Nat) (s : State) :
    placeCells plane die node base fuel [] free s = (s, free) := by
  cases fuel <;> rfl

/-- The end of a router's cycle with no cell to go on: a node without a link injects. -/
def thenInjects (s : State) (plane die node : Nat) : State :=
  if (linkOf die node).isSome then s else injectOne s plane die node [0, 1]

theorem placeNone_thenInjects (plane die node base : Nat) (s : State) :
    (let r := placeCells plane die node base 3 [] (if (linkOf die node).isSome then [0, 1, 2] else [0, 1]) s
     if (linkOf die node).isSome then r.1 else injectOne r.1 plane die node r.2) = thenInjects s plane die node := by
  rw [placeCells_nil]
  unfold thenInjects
  split <;> rfl

section Lone

variable {s s1 : State} {plane die node : Nat} {c : Cell} (hplane : plane < 72) (hdie : die < 5)
  (hnode : (ringOf die).contains node = true) (hr : released s = true)
  (hring : stGet [] s.lath.rings (ringKey plane die node) = [c]) (hway : c.way < 3)
  (hs1 : s1 = { s with lath := { s.lath with rings := stSet [] s.lath.rings (ringKey plane die node) [] } })
include hplane hdie hnode hr hring hway hs1

omit hring hway hs1 in
/-- The router of a node on its ring, the device released, works its cycle. -/
theorem routerWorks : ¬(72 ≤ plane ∨ 5 ≤ die ∨ (!(ringOf die).contains node) = true ∨ (!released s) = true) := by
  rw [hnode, hr]
  simp only [Bool.not_true, Bool.false_eq_true, or_false, not_or, Nat.not_le]
  exact ⟨hplane, hdie⟩

theorem lathCellArrivalState_damaged (hbad : cellSound c = false) : lathCellArrivalState plane die node [] s
    = thenInjects (linkDrops (lathCount s1 die 0 1) die node (if c.way = 2 then 1 else 0)) plane die node := by
  subst hs1
  have hdrops : ([c].filter (fun c => c.way == 2 && !cellSound c)).length = if c.way = 2 then 1 else 0 := by
    by_cases h2 : c.way = 2 <;> simp [h2, hbad]
  unfold lathCellArrivalState
  rw [if_neg (routerWorks hplane hdie hnode hr)]
  simp only [hring, arrivals_lone hway, List.foldl_cons, List.foldl_nil, List.erase_cons_head, List.contains_nil, Bool.false_eq_true,
    if_false, List.map_cons, List.map_nil, hdrops]
  simp only [List.filter_cons, hbad, Bool.false_eq_true, if_false, List.filter_nil, List.map_nil, grant_nil]
  exact placeNone_thenInjects ..

theorem lathCellArrivalState_ejects (hsound : cellSound c = true) {s0 t : State} (hs0 : s0 = lathCount s1 die 0 0)
    (hpref : preferred s0 die node (reachInter s1 die node c) = none) (htake : canEject s0 die node (reachInter s1 die node c) = true)
    (hgrant : grant s0 (0x10000 + 2 * ringKey plane die node) 3 [(c.way, c.cls)] = some (c.way, t)) :
    lathCellArrivalState plane die node [] s = thenInjects (ejectCell t die node (reachInter s1 die node c)) plane die node := by
  subst hs0 hs1
  unfold lathCellArrivalState
  rw [if_neg (routerWorks hplane hdie hnode hr)]
  simp only [hring, arrivals_lone hway, List.foldl_cons, List.foldl_nil, List.erase_cons_head, List.contains_nil, Bool.false_eq_true,
    if_false, List.map_cons, List.map_nil, List.filter_cons, hsound, if_true, List.filter_nil, Bool.not_true, Bool.and_false,
    List.length_nil, List.length_cons, Nat.sub_self, linkDrops_zero, hpref, htake, Option.isNone_none, Bool.and_self, reachInter_way,
    reachInter_cls, hgrant, List.find?_cons, beq_self_eq_true, bne_self_eq_false]
  exact placeNone_thenInjects ..

end Lone

/-! An ADD parcel's assembly (R238). -/

section Assembly

variable {s : State} {node src win : Nat} {a : Assembly}
  (hfind : (assemblyAt s node).find? (fun a => a.src == src && a.win == win) = some a)
include hfind

theorem addAssemblyTimeoutState_waits (hsoon : s.plumb < a.since + a.limit) : addAssemblyTimeoutState node src win s = s := by
  rw [addAssemblyTimeoutState, hfind]
  exact if_pos hsoon

theorem addAssemblyTimeoutState_frees (hdue : a.since + a.limit ≤ s.plumb) {t : State} {n : Nat}
    (ht : t = assemblyPut s node ((assemblyAt s node).filter (fun x => x != a))) (hn : n = slotKey (node / 16) (node % 16) src win) :
    addAssemblyTimeoutState node src win s = slotPut t n { slotGet t n with mask := 0 } := by
  subst ht hn
  rw [addAssemblyTimeoutState, hfind]
  exact if_neg (Nat.not_lt.2 hdue)

end Assembly

/-- Settles O36: each event at an owner, a router or an assembly by what its row does there. -/
theorem lathOwnersAndNodes : Obligations.LathOwnersAndNodes := by
  refine ⟨fun s t k c p => ⟨fun ht => ?ack, fun ht hp => ?nack, fun ht slot n d hslot hn hd => ?reply,
      fun win at' hk hfind hsent => ?retry, fun ch win since hheld hch hr => ?held,
      fun e hk hstops hheld hempty hlen herr hpage => ?allStop⟩,
    fun s s1 plane die node c hplane hdie hnode hr hring hway hs1 => ⟨fun hsound s0 t hs0 hpref htake hgrant => ?ejected,
      fun hbad u hu => ?damaged⟩,
    fun s node src win a hfind => ⟨fun hsoon => ?waits, fun hdue => ?freed⟩⟩
  case ack =>
    exact ⟨fun hp hkind => congrArg Host.Outcome.next (cellAckState_done ht hp hkind),
      fun hp => congrArg Host.Outcome.next (cellAckState_late ht hp)⟩
  case nack => exact congrArg Host.Outcome.next (cellNackState_fails ht hp)
  case reply =>
    subst hd
    refine ⟨fun h => congrArg Host.Outcome.next (cellReplyState_repeated ht hslot hn h), fun hnew =>
      ⟨fun hp => congrArg Host.Outcome.next (cellReplyState_late ht hslot hn hnew hp), ?_⟩⟩
    rintro hp y u q rfl rfl rfl
    exact congrArg Host.Outcome.next (cellReplyState_takes ht hslot hn hnew hp rfl)
  case retry =>
    refine ⟨fun hsoon => congrArg Host.Outcome.next (lathParcelRetryState_waits hfind hsent hsoon), fun hdue hmore => ?_,
      fun hdue hused hopen => congrArg Host.Outcome.next (lathParcelRetryState_fails hk hfind hsent hdue hused hopen)⟩
    obtain ⟨u, hu, hmem⟩ := lathParcelRetryState_again hk hfind hsent hdue hmore
    exact ⟨u, congrArg Host.Outcome.next hu, hmem⟩
  case held =>
    subst hch
    exact ⟨fun hdue => congrArg Host.Outcome.next (mergeHoldExpiryState_sends hheld hr hdue),
      fun hsoon => congrArg Host.Outcome.next (mergeHoldExpiryState_waits hheld hsoon)⟩
  case allStop =>
    obtain ⟨hclear, hhalts⟩ := allStopState_halts hk hstops hheld hempty herr hpage hlen
    refine ⟨_, rfl, hclear.stops, hclear.errs, fun ch hch hworks => ?_⟩
    rw [hhalts ch hch, haltedChan, if_pos (hworks.imp_right .inl)]
    rfl
  case ejected =>
    exact congrArg Host.Outcome.next (lathCellArrivalState_ejects hplane hdie hnode hr hring hway hs1 hsound hs0 hpref htake hgrant)
  case damaged =>
    subst hu
    exact congrArg Host.Outcome.next (lathCellArrivalState_damaged hplane hdie hnode hr hring hway hs1 hbad)
  case waits => exact congrArg Host.Outcome.next (addAssemblyTimeoutState_waits hfind hsoon)
  case freed =>
    refine ⟨_, congrArg Host.Outcome.next (addAssemblyTimeoutState_frees hfind hdue rfl rfl), stGet_set_self .., ?_, rfl, rfl, rfl⟩
    rw [slotGet, slotPut, stGet_set_self]

end Sys2Proof.Machine
end

section
/-! PROOF. A collective's packets and its inactivity window (R256, R281–R283, R285). -/

namespace Sys2Proof.Machine

section Accepted

variable {s t : State} {p : Packet} {h : ScHdr} {data : List Byte} {kind agent : Nat}
  (hacc : acceptScrim s p 0x1 = (t, some (h, data)))
include hacc

/-- A packet of a row's own kind goes through the window to what takes it. -/
theorem collPacket_takes (hrel : released t = true) (hchan : isCollChan h = true) (hkind : packetKind t h data = kind) :
    collPacket kind agent p s = sequenced t p h (if kind = 0 then dataRun agent h data else recordRun h data) := by
  rw [collPacket, hacc]
  exact if_pos (by rw [hrel, hchan, hkind, beq_self_eq_true]; rfl)

theorem collPacket_otherKind (hkind : packetKind t h data ≠ kind) : collPacket kind agent p s = s := by
  rw [collPacket, hacc]
  exact if_neg fun hall => hkind (eq_of_beq (Bool.and_elim_right hall))

end Accepted

section Record

variable {s : State} {h : ScHdr} {data : List Byte}

theorem recordRun_oldEpoch (hold : epochDiff (leAt data 2 2) (epochOf s) < 0) : recordRun h data s = (colCount s 1 1, none) := by
  rw [recordRun]
  exact if_pos hold

/-- A record that no collective in flight waits for is kept for one to come. -/
theorem recordRun_keeps (hnew : 0 ≤ epochDiff (leAt data 2 2) (epochOf s))
    (hmove : isMoveRec s { addr := h.addr, src := h.src, body := data } = false)
    (hnone : s.coll.running.find? (fun c => c.recAt s h.addr) = none) :
    recordRun h data s
      = ({ s with coll := { s.coll with kept := s.coll.kept ++ [{ addr := h.addr, src := h.src, body := data }] } }, none) := by
  simp only [recordRun, if_neg (Int.not_lt.2 hnew), hmove, Bool.false_eq_true, if_false, hnone]

end Record

section Window

variable {s : State} {op : Nat} {c : Coll} (hc : collOf s op = some c)
include hc

theorem collectiveTimeoutState_ends (hdue : c.lastAt + collWindow s ≤ s.plumb) :
    collectiveTimeoutState op s = collEnd (colCount s 3 1) c stTimeout 0x0B := by
  rw [collectiveTimeoutState, hc]
  exact if_pos hdue

theorem collectiveTimeoutState_waits (hsoon : s.plumb < c.lastAt + collWindow s) : collectiveTimeoutState op s = s := by
  rw [collectiveTimeoutState, hc]
  exact if_neg (Nat.not_le.2 hsoon)

end Window

/-- R285: the window outlasts the operation timeout by 40 µs at least. -/
theorem opTimeout_le_collWindow (s : State) : 1000 * (fieldOf (settingGet s rScrOpTimeout) 15 0 + 40) ≤ collWindow s :=
  Nat.mul_le_mul_left 1000 (Nat.le_max_right ..)

/-- Settles O24: each row by the kind of its packet, a record by its epoch and its collective, and the window by R285. -/
theorem collectivePacketsAndTimeout : Obligations.CollectivePacketsAndTimeout := by
  refine ⟨fun s t p h data hacc hrel hchan => ⟨fun hk => ?ready, fun hk => ?go, fun hk => ?done, fun agent hk => ?data,
      fun hk => ?notReady, fun hk => ?notGo, fun hk => ?notDone, fun agent hk => ?notData,
      fun u => recordRun_oldEpoch, fun u => recordRun_keeps⟩,
    fun s op c hc => ⟨fun hdue => ?ends, fun hsoon => ?waits, opTimeout_le_collWindow s⟩⟩
  case ready => exact congrArg Host.Outcome.next (collPacket_takes hacc hrel hchan hk)
  case go => exact congrArg Host.Outcome.next (collPacket_takes hacc hrel hchan hk)
  case done => exact congrArg Host.Outcome.next (collPacket_takes hacc hrel hchan hk)
  case data => exact congrArg Host.Outcome.next (collPacket_takes hacc hrel hchan hk)
  case notReady => exact congrArg Host.Outcome.next (collPacket_otherKind hacc hk)
  case notGo => exact congrArg Host.Outcome.next (collPacket_otherKind hacc hk)
  case notDone => exact congrArg Host.Outcome.next (collPacket_otherKind hacc hk)
  case notData => exact congrArg Host.Outcome.next (collPacket_otherKind hacc hk)
  case ends => exact congrArg Host.Outcome.next (collectiveTimeoutState_ends hc hdue)
  case waits => exact congrArg Host.Outcome.next (collectiveTimeoutState_waits hc hsoon)

end Sys2Proof.Machine
end

section
/-! PROOF. Requests from outside under the duplicate window: CMD, PUT, GET and ACC (R252, R256, R261, R264, R327). -/

namespace Sys2Proof.Machine

/-! A packet by what the window says of its number (R256). -/

section Window

variable {s w : State} {p : Packet} {h : ScHdr} {run : State → State × Option Nat}

theorem sequenced_acks (hrx : rxCase s h.src h.chan h.seq = .fresh) (hrun : run s = (w, none)) :
    sequenced s p h run = sendAck (rxMark w h.src h.chan h.seq 2) p h false := by
  simp only [sequenced, hrx, hrun]

theorem sequenced_nacks {r : Nat} (hrx : rxCase s h.src h.chan h.seq = .fresh) (hrun : run s = (w, some r)) :
    sequenced s p h run = sendNack (rxMark w h.src h.chan h.seq (16 + r)) p h false r := by
  simp only [sequenced, hrx, hrun]

/-- A number already acknowledged is counted and acknowledged again. -/
theorem sequenced_acksAgain (hrx : rxCase s h.src h.chan h.seq = .answered 2) :
    sequenced s p h run = sendAck (scrCount (rxTouch s h.src h.chan) 3 1) p h true := by
  simp only [sequenced, hrx, Nat.reduceLT, if_true]

theorem sequenced_noChannel (hrx : rxCase s h.src h.chan h.seq = .noChannel) : sequenced s p h run = scrCount s 7 1 := by
  simp only [sequenced, hrx]

end Window

/-! CMD (R261, R327). -/

section Command

variable {s t : State} {p : Packet} {h : ScHdr} {d : List Byte}

/-- What CMD does with a number not seen before. -/
def cmdRun (p : Packet) (h : ScHdr) (d : List Byte) (s : State) : State × Option Nat :=
  if d.length ≠ 512 ∨ h.len ≠ 512 ∨ 7 < h.queue ∨ (inSafe s ∧ h.queue ≠ 0) then (s, some 6)
  else (placeEntry s h.queue d (originOf p h), none)

theorem cmdState_accepted (hacc : acceptScrim s p 0x5 = (t, some (h, d))) : cmdState p s = sequenced t p h (cmdRun p h d) := by
  rw [cmdState, hacc]
  rfl

theorem cmdRun_places (hd : d.length = 512) (hlen : h.len = 512) (hq : h.queue ≤ 7) (hsafe : inSafe s = false) :
    cmdRun p h d s = (placeEntry s h.queue d (originOf p h), none) := by
  refine if_neg ?_
  rw [hsafe]
  simp [hd, hlen, hq]

theorem cmdRun_malformed (hbad : d.length ≠ 512 ∨ h.len ≠ 512 ∨ 7 < h.queue) : cmdRun p h d s = (s, some 6) :=
  if_pos (hbad.imp_right fun hbad => hbad.imp_right .inl)

end Command

/-! PUT (R252). -/

section Put

variable {s t : State} {p : Packet} {h : ScHdr} {d : List Byte}

theorem putState_accepted (hacc : acceptScrim s p 0x1 = (t, some (h, d))) (htake : taking t = true) (hchan : isCollChan h = false) :
    putState p s = sequenced t p h (putRun h d) := by
  rw [putState, hacc]
  exact if_pos (by rw [htake, hchan]; rfl)

variable (haddr : h.addr % 32 = 0) (hlen : h.len % 32 = 0) (hd : h.len = d.length) (hsafe : inSafe s = false)
  (hmax : h.len ≤ 4096) (hcoll : inCollRegion s h.addr h.len = false)
include haddr hlen hd hsafe hmax hcoll

theorem putRun_writes (hfault : accessFault s h.addr h.len = none) (hclean : CleanMem s) :
    putRun h d s = (memStore s h.addr d, none) := by
  have hform : ¬(h.addr % 32 ≠ 0 ∨ h.len % 32 ≠ 0 ∨ h.len ≠ d.length ∨ 4096 < h.len) := by omega
  simp only [putRun, if_neg hform, hsafe, hcoll, Bool.false_eq_true, if_false, hfault, writeMem_clean hclean, if_true]

theorem putRun_faults {r : Nat} (hfault : accessFault s h.addr h.len = some r) : putRun h d s = (s, some r) := by
  have hform : ¬(h.addr % 32 ≠ 0 ∨ h.len % 32 ≠ 0 ∨ h.len ≠ d.length ∨ 4096 < h.len) := by omega
  simp only [putRun, if_neg hform, hsafe, hcoll, Bool.false_eq_true, if_false, hfault]

end Put

/-! GET (R252, R264). -/

section Get

variable {s t : State} {p : Packet} {h : ScHdr} {d : List Byte}

/-- A GET of a new number that was read is answered with what it read. -/
theorem getState_replies {w : State} {bs : List Byte} (hacc : acceptScrim s p 0x2 = (t, some (h, d))) (htake : taking t = true)
    (hrx : rxCase t h.src h.chan h.seq = .fresh) (hrun : getRun t h = (w, .ok bs)) :
    getState p s = sendAnswer (rxMark w h.src h.chan h.seq 3) (originOf p h) 0x3 h.last h.pkt h.npkt 0 bs := by
  simp only [getState, hacc, htake, Bool.not_true, Bool.false_eq_true, if_false, hrx, answerGet, hrun, if_true]
  rfl

theorem getRun_converts {c : ConvertRegion} (hsafe : inSafe s = false) (hat : convertAt s h.addr = some c) :
    getRun s h = getConverted s c h.addr h.len := by
  simp only [getRun, hsafe, Bool.false_eq_true, if_false, hat]

theorem getRun_reads (hsafe : inSafe s = false) (hat : convertAt s h.addr = none) (haddr : h.addr % 32 = 0) (hlen : h.len % 32 = 0)
    (hmax : h.len ≤ 4096) (hcoll : inCollRegion s h.addr h.len = false) (hfault : accessFault s h.addr h.len = none)
    (hclean : CleanMem s) : getRun s h = (s, .ok (memBytes s h.addr h.len)) := by
  have hform : ¬(h.addr % 32 ≠ 0 ∨ h.len % 32 ≠ 0 ∨ 4096 < h.len) := by omega
  simp only [getRun, hsafe, Bool.false_eq_true, if_false, hat, if_neg hform, hcoll, hfault, readMem_clean hclean]

end Get

/-! ACC (R252, R264). -/

section Acc

variable {s t : State} {p : Packet} {h : ScHdr} {d : List Byte}

theorem accState_accepted (hacc : acceptScrim s p 0x4 = (t, some (h, d))) (htake : taking t = true) :
    accState p s = sequenced t p h (accRun h d) := by
  rw [accState, hacc]
  exact if_pos htake

theorem accRun_malformed (hbad : h.len ≠ d.length ∨ d.length < 16) : accRun h d s = (s, some 6) := by
  rw [accRun]
  exact if_pos (hbad.imp_right .inl)

end Acc

/-- Settles O57: each request by what its row runs, under the window that runs it once. -/
theorem requestsExecutedOnce : Obligations.RequestsExecutedOnce := by
  refine ⟨fun s t p h d hacc => ⟨fun hrx hd hlen hq hsafe => ?cmdPlaces, fun hrx hbad => ?cmdMalformed, fun hrx => ?cmdAgain⟩,
    fun s t p h d hacc htake hchan => ⟨fun hrx haddr hlen hd hsafe hmax hcoll hfault hclean => ?putWrites,
      fun r hrx haddr hlen hd hsafe hmax hcoll hfault => ?putFaults, fun hrx => ?putAgain⟩,
    fun s t p h d hacc htake hsafe => ⟨fun hrx hat haddr hlen hmax hcoll hfault hclean => ?getReads,
      fun c bs w hrx hat hread => ?getConverts⟩,
    fun s t p h d hacc htake => ⟨fun w hrx hrun => ?accAdds, fun hrx hbad => ?accMalformed, fun hrx => ?accAgain⟩⟩
  case cmdPlaces =>
    exact congrArg Host.Outcome.next ((cmdState_accepted hacc).trans (sequenced_acks hrx (cmdRun_places hd hlen hq hsafe)))
  case cmdMalformed =>
    exact ⟨_, congrArg Host.Outcome.next ((cmdState_accepted hacc).trans (sequenced_nacks hrx (cmdRun_malformed hbad))), rfl, rfl⟩
  case cmdAgain =>
    exact ⟨_, congrArg Host.Outcome.next ((cmdState_accepted hacc).trans (sequenced_acksAgain hrx)), rfl, rfl⟩
  case putWrites =>
    have hrun := putRun_writes haddr hlen hd hsafe hmax hcoll hfault hclean
    refine ⟨_, congrArg Host.Outcome.next ((putState_accepted hacc htake hchan).trans (sequenced_acks hrx hrun)), ?_, fun a ha => ?_, rfl, rfl⟩
    · rw [hd]
      exact memBytes_store ..
    · rw [memByte_store]
      exact if_neg (by omega)
  case putFaults =>
    have hrun := putRun_faults haddr hlen hd hsafe hmax hcoll hfault
    exact congrArg Host.Outcome.next ((putState_accepted hacc htake hchan).trans (sequenced_nacks hrx hrun))
  case putAgain =>
    exact ⟨_, congrArg Host.Outcome.next ((putState_accepted hacc htake hchan).trans (sequenced_acksAgain hrx)), rfl⟩
  case getReads =>
    have hrun := getRun_reads hsafe hat haddr hlen hmax hcoll hfault hclean
    exact ⟨t, congrArg Host.Outcome.next (getState_replies hacc htake hrx hrun), rfl, rfl⟩
  case getConverts =>
    exact congrArg Host.Outcome.next (getState_replies hacc htake hrx ((getRun_converts hsafe hat).trans hread))
  case accAdds => exact congrArg Host.Outcome.next ((accState_accepted hacc htake).trans (sequenced_acks hrx hrun))
  case accMalformed =>
    exact ⟨_, congrArg Host.Outcome.next ((accState_accepted hacc htake).trans (sequenced_nacks hrx (accRun_malformed hbad))), rfl⟩
  case accAgain =>
    exact ⟨_, congrArg Host.Outcome.next ((accState_accepted hacc htake).trans (sequenced_acksAgain hrx)), rfl⟩

end Sys2Proof.Machine
end

section
/-! PROOF. Answers to the device's own operations, their timers, and the table of receive channels (R257–R259). -/

namespace Sys2Proof.Machine

/-! Answers (R258). -/

section Answered

variable {s t : State} {p : Packet} {h : ScHdr} {d : List Byte} {o n : ScrimOp} {k : TxPkt}

/-- While a packet is open the operation is not yet acknowledged whole. -/
theorem all_acked_eq_false {l : List TxPkt} (hopen : ∃ x ∈ l, x.acked = false) : l.all (·.acked) = false := by
  obtain ⟨x, hx, hacked⟩ := hopen
  exact List.all_eq_false.2 ⟨x, hx, by simp [hacked]⟩

theorem ackState_late (hacc : acceptScrim s p 0x8 = (t, some (h, d))) (hnone : answered t h = none) : ackState p s = scrCount t 2 1 := by
  simp only [ackState, hacc, hnone]

theorem nackState_late (hacc : acceptScrim s p 0x9 = (t, some (h, d))) (hnone : answered t h = none) : nackState p s = scrCount t 2 1 := by
  simp only [nackState, hacc, hnone]

theorem getReplyState_late (hacc : acceptScrim s p 0x3 = (t, some (h, d))) (hnone : answered t h = none) :
    getReplyState p s = scrCount t 2 1 := by
  simp only [getReplyState, hacc, hnone]

theorem nackState_decides (hacc : acceptScrim s p 0x9 = (t, some (h, d))) (hans : answered t h = some (o, k)) :
    nackState p s = decideOp t o (.failed h.reason) := by
  simp only [nackState, hacc, hans]

/-- An ACK is noted; where every packet then has one, the operation is decided. -/
theorem ackState_notes (hacc : acceptScrim s p 0x8 = (t, some (h, d))) (hans : answered t h = some (o, k)) (hkind : o.kind ≠ 2)
    (hn : n = { o with pkts := o.pkts.set h.pkt { k with acked := true } }) :
    ackState p s = if n.pkts.all (·.acked) then decideOp t o (.ok []) else putOp t o n := by
  subst hn
  simp only [ackState, hacc, hans, if_neg hkind]

/-- A reply of its packet's length is noted; where every packet then has one, the GET is decided with their bytes. -/
theorem getReplyState_notes (hacc : acceptScrim s p 0x3 = (t, some (h, d))) (hans : answered t h = some (o, k)) (hkind : o.kind = 2)
    (hlen : d.length = k.len) (hnew : k.acked = false)
    (hn : n = { o with pkts := o.pkts.set h.pkt { k with acked := true }, reply := o.reply ++ [(h.pkt, d)] }) :
    getReplyState p s = if n.pkts.all (·.acked) then decideOp t o (.ok (replyBytes n)) else putOp t o n := by
  subst hn
  have htaken : ¬(o.kind ≠ 2 ∨ d.length ≠ k.len ∨ k.acked = true) := by simp [hkind, hlen, hnew]
  simp only [getReplyState, hacc, hans, if_neg htaken]

end Answered

/-! Timers (R257–R259). -/

section Timers

variable {s : State} {op idx src : Nat} {o : ScrimOp} {k : TxPkt}

theorem operationTimeoutState_waits (hsoon : ∀ o ∈ s.net.ops, o.id = op → s.plumb < o.limit) : operationTimeoutState op s = s := by
  have hnone : s.net.ops.find? (fun o => o.id == op && decide (o.limit ≤ s.plumb)) = none := by
    refine List.find?_eq_none.2 fun o ho hdue => ?_
    simp only [Bool.and_eq_true, beq_iff_eq, decide_eq_true_eq] at hdue
    exact Nat.not_le.2 (hsoon o ho hdue.1) hdue.2
  simp only [operationTimeoutState, hnone]

theorem operationTimeoutState_decides (hfind : s.net.ops.find? (fun o => o.id == op && decide (o.limit ≤ s.plumb)) = some o) :
    operationTimeoutState op s = decideOp (scrCount s 1 1) o .timeout := by
  simp only [operationTimeoutState, hfind]

/-- The packet that is due goes again with ATTEMPT one higher. -/
theorem packetRetryState_sends (hfind : s.net.ops.find? (fun o => o.id == op && (o.pkts[idx]?).any (fun k => pktDue s o k)) = some o)
    (hk : o.pkts[idx]? = some k) :
    packetRetryState op idx s = sendPkt (scrCount (putOp s o
        { o with pkts := o.pkts.set idx { k with attempt := k.attempt + 1, sentAt := s.plumb } }) 0 1)
      { o with pkts := o.pkts.set idx { k with attempt := k.attempt + 1, sentAt := s.plumb } }
      { k with attempt := k.attempt + 1, sentAt := s.plumb } idx := by
  have hany (x : ScrimOp) : (x.pkts[idx]?).any (fun k => pktDue s x k) = (match x.pkts[idx]? with
      | some k => pktDue s x k
      | none => false) := by
    cases x.pkts[idx]? <;> rfl
  simp only [hany] at hfind
  unfold packetRetryState
  split
  next hnone => cases hnone.symm.trans hfind
  next x hsome =>
    cases Option.some.inj (hsome.symm.trans hfind)
    rw [hk]

theorem mem_channelEvictionState_rx (c : RxChan) :
    c ∈ (channelEvictionState src s).net.rx ↔ c ∈ s.net.rx ∧ ¬(c.src = src ∧ c.lastAt + 150000000 ≤ s.plumb) := by
  refine List.mem_filter.trans (and_congr_right fun _ => ?_)
  rw [Bool.not_eq_true', ← Bool.not_eq_true, Bool.and_eq_true, beq_iff_eq, decide_eq_true_eq]

end Timers

/-! The table of receive channels (R257). -/

section Table

variable {s : State} {src chan seq : Nat}

/-- A packet of a pair the table does not hold is new while there is room for the pair. -/
theorem rxCase_newPair (hnew : ∀ c ∈ s.net.rx, ¬(c.src = src ∧ c.chan = chan)) :
    rxCase s src chan seq = if s.net.rx.length < 16384 then .fresh else .noChannel := by
  have hnone : s.net.rx.find? (fun c => c.src == src && c.chan == chan) = none :=
    List.find?_eq_none.2 fun c hc hpair => hnew c hc (by simpa using hpair)
  rw [rxCase, hnone]

/-- A further pair enters the table only where there is room for it. -/
theorem rxMark_bounded (code : Nat) (hroom : rxCase s src chan seq ≠ .noChannel) (hle : s.net.rx.length ≤ 16384) :
    (rxMark s src chan seq code).net.rx.length ≤ 16384 := by
  unfold rxMark
  dsimp only
  split
  · rwa [List.length_map]
  next hnew =>
    have hnew : ∀ c ∈ s.net.rx, ¬(c.src = src ∧ c.chan = chan) := by simpa using hnew
    rw [rxCase_newPair hnew] at hroom
    have hlt : s.net.rx.length < 16384 := by
      by_contra hfull
      exact hroom (if_neg hfull)
    rw [List.length_append]
    exact hlt

end Table

/-- Settles O58: an answer by the packet it belongs to, a timer by what is due, and the table by the room in it. -/
theorem answersDecideOnce : Obligations.AnswersDecideOnce := by
  refine ⟨fun s t p h d hacc => ⟨fun hnone => ?ackLate, fun o k n hans hkind hn => ⟨fun hopen => ?ackNotes, fun hall => ?ackDecides⟩⟩,
    fun s t p h d hacc => ⟨fun hnone => ?nackLate, fun o k hans => ?nackDecides⟩,
    fun s t p h d hacc => ⟨fun hnone => ?replyLate,
      fun o k n hans hkind hlen hnew hn => ⟨fun hopen => ?replyNotes, fun hall => ?replyDecides⟩⟩,
    fun s op => ⟨fun hsoon => ?waits, fun o hfind => ?timesOut⟩,
    fun s op idx o k hfind hk => ⟨_, _, congrArg Host.Outcome.next (packetRetryState_sends hfind hk), rfl, rfl⟩,
    fun s src => ⟨_, rfl, mem_channelEvictionState_rx, rfl⟩,
    fun s src chan seq hnew => ⟨rxCase_newPair hnew, ?full⟩,
    fun s src chan seq code => rxMark_bounded code, rfl⟩
  case ackLate => exact congrArg Host.Outcome.next (ackState_late hacc hnone)
  case ackNotes =>
    exact congrArg Host.Outcome.next ((ackState_notes hacc hans hkind hn).trans (if_neg (Bool.eq_false_iff.1 (all_acked_eq_false hopen))))
  case ackDecides =>
    exact congrArg Host.Outcome.next ((ackState_notes hacc hans hkind hn).trans (if_pos (List.all_eq_true.2 hall)))
  case nackLate => exact congrArg Host.Outcome.next (nackState_late hacc hnone)
  case nackDecides => exact congrArg Host.Outcome.next (nackState_decides hacc hans)
  case replyLate => exact congrArg Host.Outcome.next (getReplyState_late hacc hnone)
  case replyNotes =>
    exact congrArg Host.Outcome.next
      ((getReplyState_notes hacc hans hkind hlen hnew hn).trans (if_neg (Bool.eq_false_iff.1 (all_acked_eq_false hopen))))
  case replyDecides =>
    exact congrArg Host.Outcome.next ((getReplyState_notes hacc hans hkind hlen hnew hn).trans (if_pos (List.all_eq_true.2 hall)))
  case waits => exact congrArg Host.Outcome.next (operationTimeoutState_waits hsoon)
  case timesOut => exact congrArg Host.Outcome.next (operationTimeoutState_decides hfind)
  case full =>
    rintro p h run rfl rfl rfl hfull
    exact sequenced_noChannel ((rxCase_newPair hnew).trans (if_neg (Nat.not_lt.2 hfull)))

end Sys2Proof.Machine
end

section
/-! PROOF. Frames of layer 2 and ICMP: ARP, neighbour solicitation, echoes and unsupported frames (R246, R248). -/

namespace Sys2Proof.Machine

/-! Bytes of a packet put together from parts. -/

theorem beBytes_length (n v : Nat) : (beBytes n v).length = n := by rw [beBytes, List.length_reverse, leBytes_length]

/-- A part of a byte string stands after the parts before it. -/
theorem sliceB_part {a b r : List Byte} {k n : Nat} (hk : a.length = k) (hn : b.length = n) : sliceB (a ++ b ++ r) k n = b := by
  subst hk hn
  exact sliceB_append_self a b r

theorem sliceB_drop (l : List Byte) (k j n : Nat) : sliceB (l.drop k) j n = sliceB l (k + j) n := by
  rw [sliceB, sliceB, List.drop_drop]

theorem leAt_drop (l : List Byte) (k j n : Nat) : leAt (l.drop k) j n = leAt l (k + j) n := by rw [leAt, leAt, sliceB_drop]

/-- A source, a destination and a body after a header of `k` bytes. -/
theorem headed_parts {l pre src dst body : List Byte} {k n : Nat} (hl : l = pre ++ src ++ dst ++ body) (hpre : pre.length = k)
    (hsrc : src.length = n) (hdst : dst.length = n) :
    sliceB l k n = src ∧ sliceB l (k + n) n = dst ∧ l.drop (k + n + n) = body := by
  subst hl
  refine ⟨?_, sliceB_part (by rw [List.length_append, hpre, hsrc]) hdst, ?_⟩
  · rw [List.append_assoc]
    exact sliceB_part hpre hsrc
  · exact List.drop_left' (by rw [List.length_append, List.length_append, hpre, hsrc, hdst])

/-! The packets the ports make of their own (R248). -/

theorem ip4Packet_parts (s : State) {src dst : List Byte} (proto : Nat) (body : List Byte) (hsrc : src.length = 4) (hdst : dst.length = 4) :
    sliceB (ip4Packet s src dst proto body) 12 4 = src ∧ sliceB (ip4Packet s src dst proto body) 16 4 = dst
      ∧ (ip4Packet s src dst proto body).drop 20 = body :=
  headed_parts rfl (by simp [beBytes_length]) hsrc hdst

theorem ip6Packet_parts (s : State) {src dst : List Byte} (next : Nat) (body : List Byte) (hsrc : src.length = 16) (hdst : dst.length = 16) :
    sliceB (ip6Packet s src dst next body) 8 16 = src ∧ sliceB (ip6Packet s src dst next body) 24 16 = dst
      ∧ (ip6Packet s src dst next body).drop 40 = body :=
  headed_parts rfl (by simp [beBytes_length]) hsrc hdst

/-- An ICMPv6 message: its type, and what stands after its checksum. -/
theorem icmp6_parts (src dst : List Byte) {typ : Nat} (htyp : typ < 256) (rest : List Byte) :
    leAt (icmp6 src dst typ rest) 0 1 = typ ∧ (icmp6 src dst typ rest).drop 4 = rest := by
  refine ⟨?_, List.drop_left' (by simp [beBytes_length])⟩
  refine (leAt_head ..).trans ?_
  rw [byteOf, BitVec.toNat_ofNat, Nat.mod_eq_of_lt htyp]

/-- An ICMPv6 message in a packet of the port's own. -/
theorem icmp6Packet_parts (s : State) {src dst : List Byte} {typ : Nat} (htyp : typ < 256) (rest : List Byte)
    (hsrc : src.length = 16) (hdst : dst.length = 16) {a : List Byte} (ha : a = ip6Packet s src dst 58 (icmp6 src dst typ rest)) :
    sliceB a 8 16 = src ∧ sliceB a 24 16 = dst ∧ leAt a 40 1 = typ ∧ a.drop 44 = rest := by
  subst ha
  obtain ⟨hs, hd, hbody⟩ := ip6Packet_parts s 58 (icmp6 src dst typ rest) hsrc hdst
  obtain ⟨ht, hrest⟩ := icmp6_parts src dst htyp rest
  refine ⟨hs, hd, ?_, ?_⟩
  · rw [← leAt_drop _ 40 0, hbody, ht]
  · rw [← List.drop_drop (i := 4) (j := 40), hbody, hrest]

section Frames

variable {s : State} {port : Nat} {frame b : List Byte} (hport : portUsable s port = true)
include hport

/-! ARP. -/

/-- The answer to an ARP request. -/
def arpAnswer (s : State) (port : Nat) (b : List Byte) : List Byte :=
  beBytes 8 0x0001080006040002 ++ sliceB (nthD s.net.ports port port0).mac 0 6 ++ ip4Of s port ++ sliceB b 8 10

theorem arpRequestState_eq (hb : frameBody frame = (0x0806, b)) (hform : beAt b 0 8 = 0x0001080006040001) (hown : ip4Of s port ≠ []) :
    arpRequestState port frame s = if sliceB b 24 4 = ip4Of s port then sendRaw s port 0x0806 (arpAnswer s port b) else s := by
  have hown' : (ip4Of s port).isEmpty = false := List.isEmpty_eq_false_iff.2 hown
  by_cases hip : sliceB b 24 4 = ip4Of s port <;> simp [arpRequestState, arpAnswer, hb, hport, hform, hown', hip]

omit hport in
theorem arpAnswer_parts (hlen : (ip4Of s port).length = 4) :
    beAt (arpAnswer s port b) 6 2 = 2 ∧ sliceB (arpAnswer s port b) 8 6 = sliceB (nthD s.net.ports port port0).mac 0 6
      ∧ sliceB (arpAnswer s port b) 14 4 = ip4Of s port ∧ sliceB (arpAnswer s port b) 18 10 = sliceB b 8 10 := by
  have hhead : beBytes 8 0x0001080006040002 = beBytes 6 0x000108000604 ++ [0, 2] := by decide
  refine ⟨?_, ?_, sliceB_part ?_ hlen, ?_⟩
  · rw [arpAnswer, hhead, beAt, List.append_assoc, List.append_assoc, sliceB_part (b := [0, 2]) (n := 2) (beBytes_length ..) rfl]
    rfl
  · rw [arpAnswer, List.append_assoc (_ ++ _)]
    exact sliceB_part (beBytes_length ..) (sliceB_length ..)
  · rw [List.length_append, beBytes_length, sliceB_length]
  · rw [← List.append_nil (arpAnswer s port b)]
    exact sliceB_part (by simp only [List.length_append, beBytes_length, sliceB_length, hlen]) (sliceB_length ..)

/-! Neighbour solicitation. -/

/-- What the advertisement of the port's address says after its checksum: solicited, the address and the MAC address. -/
def advertised (s : State) (port : Nat) : List Byte :=
  beBytes 4 0x60000000 ++ ip6Of s port ++ [2, 1] ++ sliceB (nthD s.net.ports port port0).mac 0 6

theorem neighbourSolicitationState_eq (hb : frameBody frame = (0x86DD, b)) (hnext : leAt b 6 1 = 58) (htype : leAt b 40 1 = 135)
    (hown : ip6Of s port ≠ []) :
    neighbourSolicitationState port frame s = if sliceB b 48 16 = ip6Of s port then
        sendRaw s port 0x86DD (ip6Packet s (ip6Of s port) (sliceB b 8 16) 58 (icmp6 (ip6Of s port) (sliceB b 8 16) 136 (advertised s port)))
      else s := by
  have hown' : (ip6Of s port).isEmpty = false := List.isEmpty_eq_false_iff.2 hown
  by_cases hip : sliceB b 48 16 = ip6Of s port <;>
    simp [neighbourSolicitationState, advertised, hb, hport, hnext, htype, hown', hip]

omit hport in
theorem advertised_parts (hlen : (ip6Of s port).length = 16) :
    sliceB (advertised s port) 4 16 = ip6Of s port
      ∧ sliceB (advertised s port) 22 6 = sliceB (nthD s.net.ports port port0).mac 0 6 := by
  constructor
  · rw [advertised, List.append_assoc (_ ++ _)]
    exact sliceB_part (beBytes_length ..) hlen
  · rw [← List.append_nil (advertised s port)]
    exact sliceB_part (by simp [beBytes_length, hlen]) (sliceB_length ..)

/-! Echoes. -/

/-- An echo reply under IPv4 with the data `rest` of its request. -/
def echoReply (rest : List Byte) : List Byte := [0, 0] ++ beBytes 2 (inetSum ([0, 0, 0, 0] ++ rest)) ++ rest

theorem icmpEchoRequestState_replies4 {m : List Byte} (hb : frameBody frame = (0x0800, b)) (hm : m = sliceB b 20 (beAt b 2 2 - 20))
    (hown : ip4Of s port ≠ []) (hip : sliceB b 16 4 = ip4Of s port) (hplain : leAt b 0 1 = 0x45) (hwhole : beAt b 6 2 % 0x4000 = 0)
    (hproto : leAt b 9 1 = 1) (htype : leAt m 0 1 = 8) :
    icmpEchoRequestState port frame s
      = sendRaw s port 0x0800 (ip4Packet s (ip4Of s port) (sliceB b 12 4) 1 (echoReply (m.drop 4))) := by
  have hown' : (ip4Of s port).isEmpty = false := List.isEmpty_eq_false_iff.2 hown
  subst hm
  simp [icmpEchoRequestState, echoReply, hb, hport, hown', hip, hplain, hwhole, hproto, htype]

theorem icmpEchoRequestState_replies6 {m : List Byte} (hb : frameBody frame = (0x86DD, b)) (hm : m = sliceB b 40 (beAt b 4 2))
    (hown : ip6Of s port ≠ []) (hip : sliceB b 24 16 = ip6Of s port) (hnext : leAt b 6 1 = 58) (htype : leAt m 0 1 = 128) :
    icmpEchoRequestState port frame s
      = sendRaw s port 0x86DD (ip6Packet s (ip6Of s port) (sliceB b 8 16) 58 (icmp6 (ip6Of s port) (sliceB b 8 16) 129 (m.drop 4))) := by
  have hown' : (ip6Of s port).isEmpty = false := List.isEmpty_eq_false_iff.2 hown
  subst hm
  simp [icmpEchoRequestState, hb, hport, hown', hip, hnext, htype]

end Frames

/-- Settles O59: each frame by what its row answers, and the answer's fields by where its parts stand. -/
theorem framesAnswered : Obligations.FramesAnswered := by
  intro s port frame hport
  refine ⟨fun b hb hform hown => ⟨fun hip => ?arpOther, fun hip => ?arpOwn⟩,
    fun b hb hnext htype hown => ⟨fun hip => ?neighbourOther, fun hip => ?neighbourOwn⟩,
    fun b m hb hm hown hip hplain hwhole hproto htype => ?echo4, fun b m hb hm hown hip hnext htype => ?echo6,
    congrArg Host.Outcome.next (if_pos hport)⟩
  case arpOther => exact congrArg Host.Outcome.next ((arpRequestState_eq hport hb hform hown).trans (if_neg hip))
  case arpOwn =>
    exact ⟨_, congrArg Host.Outcome.next ((arpRequestState_eq hport hb hform hown).trans (if_pos hip)),
      arpAnswer_parts (hip ▸ sliceB_length ..)⟩
  case neighbourOther =>
    exact congrArg Host.Outcome.next ((neighbourSolicitationState_eq hport hb hnext htype hown).trans (if_neg hip))
  case neighbourOwn =>
    have hlen : (ip6Of s port).length = 16 := hip ▸ sliceB_length ..
    obtain ⟨hsrc, hdst, htyp, hrest⟩ := icmp6Packet_parts s (typ := 136) (by decide) (advertised s port) hlen (sliceB_length b 8 16) rfl
    obtain ⟨haddr, hmac⟩ := advertised_parts hlen
    refine ⟨_, congrArg Host.Outcome.next ((neighbourSolicitationState_eq hport hb hnext htype hown).trans (if_pos hip)),
      hsrc, hdst, htyp, ?_, ?_⟩
    · rw [← sliceB_drop _ 44 4, hrest, haddr]
    · rw [← sliceB_drop _ 44 22, hrest, hmac]
  case echo4 =>
    have hlen : (ip4Of s port).length = 4 := hip ▸ sliceB_length ..
    obtain ⟨hsrc, hdst, hbody⟩ := ip4Packet_parts s 1 (echoReply (m.drop 4)) hlen (sliceB_length b 12 4)
    refine ⟨_, congrArg Host.Outcome.next (icmpEchoRequestState_replies4 hport hb hm hown hip hplain hwhole hproto htype), hsrc, hdst, ?_, ?_⟩
    · rw [← leAt_drop _ 20 0, hbody]
      exact leAt_head ..
    · rw [← List.drop_drop (i := 4) (j := 20), hbody]
      exact List.drop_left' (by simp [beBytes_length])
  case echo6 =>
    have hlen : (ip6Of s port).length = 16 := hip ▸ sliceB_length ..
    exact ⟨_, congrArg Host.Outcome.next (icmpEchoRequestState_replies6 hport hb hm hown hip hnext htype),
      icmp6Packet_parts s (by decide) (m.drop 4) hlen (sliceB_length b 8 16) rfl⟩

end Sys2Proof.Machine
end

section
/-! PROOF. The RoCEv2 responder: the PSN check, SEND, RDMA WRITE, RDMA READ and atomics (R265–R267). -/

namespace Sys2Proof.Machine

/-! What an arriving packet's link and a CNP leave (R265, R270). -/

/-- From `s` to `t` memory and the queues stand as they stood. -/
structure DataKept (s t : State) : Prop where
  mem : t.mem = s.mem
  queues : t.queues = s.queues

theorem DataKept.refl (s : State) : DataKept s s := ⟨rfl, rfl⟩

theorem DataKept.trans {s t u : State} (h : DataKept s t) (k : DataKept t u) : DataKept s u :=
  ⟨k.mem.trans h.mem, k.queues.trans h.queues⟩

theorem reportEvent_dataKept (s : State) (r : ErrRec) : DataKept s (reportEvent s r) :=
  ⟨(reportEvent_booked s r).mem, (reportEvent_books s r).2.1⟩

theorem linkErrors_dataKept (s : State) (port : Nat) (e : LinkErrs) : DataKept s (linkErrors s port e) := by
  have bumped (t : State) (a n : Nat) : DataKept t (csrBump t a 31 0 n) := ⟨rfl, rfl⟩
  have noted (l : List Nat) (u : Nat) (t : State) : DataKept t (l.foldl (fun t _ => noteCorr t 3 u 0) t) :=
    foldl_related .refl .trans (fun _ _ _ => ⟨rfl, rfl⟩) t
  have forgot (t : State) (full : Bool) (u : Nat) : DataKept t (if full then forgetCorr t 3 u else t) := by
    cases full <;> exact ⟨rfl, rfl⟩
  have reported (t : State) (due : Bool) (r : ErrRec) : DataKept t (if due then reportEvent t r else t) := by
    cases due
    · exact .refl t
    · exact reportEvent_dataKept ..
  unfold linkErrors
  split
  · exact .refl s
  · exact ((((bumped ..).trans (bumped ..)).trans (bumped ..)).trans (noted ..)).trans ((forgot ..).trans (reported ..))

theorem sendRoce_dataKept (s : State) (p : Packet) (q : Qp) (op psn flags : Nat) (b : List Byte) :
    DataKept s (sendRoce s p q op psn flags b) := by
  unfold sendRoce
  split <;> exact ⟨rfl, rfl⟩

theorem congest_dataKept (s : State) (p : Packet) (qpn : Nat) (q : Qp) : DataKept s (congest s p qpn q).1 := by
  unfold congest
  extract_lets due
  split
  · refine .trans ?_ (sendRoce_dataKept ..)
    exact ⟨rfl, rfl⟩
  · exact ⟨rfl, rfl⟩

/-! The PSN check (R265). -/

/-- The QP once `k` PSNs are taken. -/
def Qp.took (q : Qp) (k : Nat) : Qp := { q with epsn := (q.epsn + k) % 2 ^ 24 }

section Row

variable {s u : State} {p : Packet} {h : Bth} {q x : Qp} {body : List Byte} {c : State × Qp} {ops : List Nat} {k : Nat}
  {run : Bth → List Byte → Qp → State → State × Qp × Nat × Option Nat} {again : Bth → List Byte → Qp → State → State}
  (hacc : acceptRoce s p ops = some (h, q, body)) (hc : c = congest (linkErrors s p.port p.link) p h.qpn q)
include hacc hc

section Expected

variable (hpsn : h.psn = c.2.epsn)
include hpsn

/-- A request of the expected PSN takes its PSNs and is answered with its syndrome. -/
theorem roceRow_answers {syn : Nat} (hrun : run h body c.2 c.1 = (u, x, k, some syn)) :
    roceRow ops p s run again = sendAeth (qpPut u h.qpn (x.took k)) p (x.took k) h.psn syn := by
  subst hc
  simp only [roceRow, hacc, hpsn, Nat.add_sub_cancel_left, Nat.mod_self, if_true, hrun, Qp.took]

theorem roceRow_silent (hrun : run h body c.2 c.1 = (u, x, k, none)) : roceRow ops p s run again = qpPut u h.qpn (x.took k) := by
  subst hc
  simp only [roceRow, hacc, hpsn, Nat.add_sub_cancel_left, Nat.mod_self, if_true, hrun, Qp.took]

/-- A request that is acknowledged where `asked`. -/
theorem roceRow_acksAsked {asked : Bool} (hrun : run h body c.2 c.1 = (u, x, k, if asked then some aethAck else none)) :
    roceRow ops p s run again
      = if asked then sendAeth (qpPut u h.qpn (x.took k)) p (x.took k) h.psn aethAck else qpPut u h.qpn (x.took k) := by
  cases asked with
  | true => exact roceRow_answers hacc hc hpsn hrun
  | false => exact roceRow_silent hacc hc hpsn hrun

end Expected

/-- A PSN behind the expected one is a duplicate. -/
theorem roceRow_earlier (hback : 2 ^ 23 ≤ (h.psn + 2 ^ 24 - c.2.epsn) % 2 ^ 24) : roceRow ops p s run again = again h body c.2 c.1 := by
  subst hc
  have hne : (h.psn + 2 ^ 24 - (congest (linkErrors s p.port p.link) p h.qpn q).2.epsn) % 2 ^ 24 ≠ 0 := by omega
  simp only [roceRow, hacc, if_neg hne, if_pos hback]

/-- A PSN ahead of the expected one is NAKed with the one expected. -/
theorem roceRow_later (hne : (h.psn + 2 ^ 24 - c.2.epsn) % 2 ^ 24 ≠ 0) (hahead : (h.psn + 2 ^ 24 - c.2.epsn) % 2 ^ 24 < 2 ^ 23) :
    roceRow ops p s run again = sendAeth c.1 p c.2 c.2.epsn nakSeq := by
  subst hc
  simp only [roceRow, hacc, if_neg hne, if_neg (Nat.not_le.2 hahead)]

end Row

/-! SEND (R266). -/

theorem beq_or_beq (n a b : Nat) : (n == a || n == b) = decide (n = a ∨ n = b) := Bool.eq_iff_iff.2 (by simp)

section Send

variable {s : State} {p : Packet} {h : Bth} {q : Qp} {body buf : List Byte} {last : Bool}
  (hop : h.op ∈ [0x00, 0x01, 0x02, 0x04]) (hfirst : h.op = 0x00 ∨ h.op = 0x04 ↔ q.sending = false) (hwriting : q.writing = false)
  (hlast : last = decide (h.op = 0x02 ∨ h.op = 0x04)) (hbuf : buf = if h.op = 0x00 ∨ h.op = 0x04 then body else q.send ++ body)
  (hmtu : body.length ≤ q.mtu) (hmax : buf.length ≤ 4096)
include hop hfirst hwriting hlast hbuf hmtu hmax

/-- A packet that keeps R266's form adds to its message, and the last of a whole number of entries places them. -/
theorem sendRun_wellFormed (hfull : last = false → body.length = q.mtu)
    (hwhole : last = true → buf.length ≠ 0 ∧ buf.length % 512 = 0) :
    sendRun p h body q s = if last then ((chunksOf 512 8 buf).foldl (fun s e => placeEntry s q.queue e (qpOrigin p h.qpn)) s,
        { q with sending := false, send := [], msn := (q.msn + 1) % 2 ^ 24 }, 1, some aethAck)
      else (s, { q with sending := true, send := buf }, 1, if h.ackReq then some aethAck else none) := by
  have hknown : [0x00, 0x01, 0x02, 0x04].contains h.op = true := List.contains_iff_mem.2 hop
  have hends : (h.op == 0x02 || h.op == 0x04) = last := (beq_or_beq ..).trans hlast.symm
  have hstart : (h.op == 0x00 || h.op == 0x04) = !q.sending := by
    rw [beq_or_beq, Bool.eq_iff_iff, decide_eq_true_iff, hfirst, Bool.not_eq_true']
  have hgather : (if (!q.sending) = true then body else q.send ++ body) = buf := by
    rw [hbuf]
    exact if_congr (by rw [Bool.not_eq_true', hfirst]) rfl rfl
  have hform : (!last && body.length != q.mtu) = false := by
    cases hl : last with
    | true => rfl
    | false => simpa using hfull hl
  have hpacket : decide (q.mtu < body.length) = false := decide_eq_false (Nat.not_lt.2 hmtu)
  have hmessage : decide (4096 < buf.length) = false := decide_eq_false (Nat.not_lt.2 hmax)
  simp only [sendRun, hknown, hends, hstart, Bool.not_beq_self, hgather, hwriting, hform, hpacket, hmessage]
  cases hl : last with
  | false => simp
  | true =>
    obtain ⟨hne, hmod⟩ := hwhole hl
    simp [hne, hmod]

end Send

/-! RDMA WRITE (R266). -/

section Write

variable {s : State} {h : Bth} {q : Qp} {body data : List Byte} {first last : Bool} {a n : Nat}

/-- The QP after a WRITE packet of `len` bytes, by whether it is its request's last. -/
def Qp.wrote (q : Qp) (last : Bool) (a n len : Nat) : Qp :=
  if last then { q with writing := false, writeLeft := 0, msn := (q.msn + 1) % 2 ^ 24 }
  else { q with writing := true, writeAt := a + len, writeLeft := n - len }

@[simp] theorem Qp.wrote_epsn (q : Qp) (last : Bool) (a n len : Nat) : (q.wrote last a n len).epsn = q.epsn := by
  cases last <;> rfl

@[simp] theorem Qp.wrote_writing (q : Qp) (last : Bool) (a n len : Nat) : (q.wrote last a n len).writing = !last := by
  cases last <;> rfl

theorem writeRun_writes (hop : h.op ∈ [0x06, 0x07, 0x08, 0x0A]) (hfirst : first = decide (h.op = 0x06 ∨ h.op = 0x0A))
    (hlast : last = decide (h.op = 0x08 ∨ h.op = 0x0A)) (hsending : q.sending = false) (hwriting : q.writing = !first)
    (hdata : data = if first then body.drop 16 else body) (ha : a = if first then beAt body 0 8 else q.writeAt)
    (hn : n = if first then beAt body 12 4 else q.writeLeft) (hhead : first = true → 16 ≤ body.length) (hle : data.length ≤ n)
    (hends : last = true → data.length = n ∧ n ≤ q.mtu) (hfull : last = false → data.length = q.mtu)
    (hkey : first = true → keyOk s (beAt body 8 4) a n true = true) (hclean : CleanMem s) :
    writeRun h body q s
      = (memStore s a data, q.wrote last a n data.length, 1, if last || h.ackReq then some aethAck else none) := by
  have hknown : [0x06, 0x07, 0x08, 0x0A].contains h.op = true := List.contains_iff_mem.2 hop
  have hopFirst : (h.op == 0x06 || h.op == 0x0A) = first := (beq_or_beq ..).trans hfirst.symm
  have hopLast : (h.op == 0x08 || h.op == 0x0A) = last := (beq_or_beq ..).trans hlast.symm
  have hshort : (first && decide (body.length < 16)) = false := by
    cases hf : first with
    | false => rfl
    | true => exact decide_eq_false (Nat.not_lt.2 (hhead hf))
  have hlen : (if last = true then data.length != n || decide (q.mtu < n) else data.length != q.mtu) = false := by
    cases hl : last with
    | true => simpa using hends hl
    | false => simpa using hfull hl
  have hallowed : (first && !keyOk s (beAt body 8 4) a n true) = false := by
    cases hf : first with
    | false => rfl
    | true => rw [hkey hf]; rfl
  have hover : decide (n < data.length) = false := decide_eq_false (Nat.not_lt.2 hle)
  simp only [writeRun, hknown, hopFirst, hopLast, ← hdata, ← ha, ← hn, hwriting, Bool.beq_not_self, hsending, hshort, hover, hlen,
    hallowed, writeMem_clean hclean]
  cases last <;> simp [Qp.wrote, hsending]

end Write

/-! RDMA READ (R265, R266). -/

section Read

variable {s : State} {p : Packet} {h : Bth} {q : Qp} {body : List Byte} (hlen : body.length = 16) (hsending : q.sending = false)
  (hwriting : q.writing = false)
include hlen hsending hwriting

theorem readRun_denied (hkey : keyOk s (beAt body 8 4) (beAt body 0 8) (beAt body 12 4) false = false) :
    readRun p h body q s = (s, q, 0, some nakAccess) := by
  simp [readRun, hlen, hsending, hwriting, hkey]

/-- A READ under its R_Key answers the bytes of its range and takes a PSN for each response. -/
theorem readRun_reads (hkey : keyOk s (beAt body 8 4) (beAt body 0 8) (beAt body 12 4) false = true) (hclean : CleanMem s)
    {r : State × Nat}
    (hr : r = readResponses p { q with msn := (q.msn + 1) % 2 ^ 24 } h.psn (memBytes s (beAt body 0 8) (beAt body 12 4)) s) :
    readRun p h body q s = (r.1, { q with msn := (q.msn + 1) % 2 ^ 24 }, r.2, none) := by
  subst hr
  simp [readRun, hlen, hsending, hwriting, hkey, readMem_clean hclean]

end Read

theorem readResponses_count (p : Packet) (q : Qp) (psn : Nat) (b : List Byte) (s : State) :
    (readResponses p q psn b s).2 = max 1 (ceilDiv b.length q.mtu) := rfl

/-- Settles O60: the PSN check decides, and a request of the expected PSN does what its row runs. -/
theorem roceResponder : Obligations.RoceResponder := by
  intro s p h q body c hc
  have hkept : DataKept s c.1 := hc ▸ (linkErrors_dataKept s p.port p.link).trans (congest_dataKept ..)
  have hcleanAt (hclean : CleanMem s) : CleanMem c.1 := by rwa [CleanMem, hkept.mem]
  refine ⟨fun hacc => ⟨fun hpsn buf last hop hfirst hwriting hlast hbuf hmtu hmax =>
        ⟨fun hmore hfull => ?sendMore, fun hl hne hwhole => ?sendLast⟩,
      fun hpsn hepsn hne => ⟨fun hback => ?earlier, fun hahead => ?later⟩⟩,
    fun hacc hpsn hclean first last a n data hop hfirst hlast hsending hwriting hdata ha hn hhead hle hends hfull hkey => ?write,
    fun hacc hpsn hlen hsending hwriting => ⟨fun hkey => ?denied, fun hkey hclean => ?read⟩,
    fun hacc hpsn => ?atomic⟩
  case sendMore =>
    have hnot := ne_true_of_eq_false hmore
    have hrun := (sendRun_wellFormed (s := c.1) (p := p) hop hfirst hwriting hlast hbuf hmtu hmax (fun _ => hfull)
      fun hl => absurd hl hnot).trans (if_neg hnot)
    exact ⟨_, _, rfl, rfl, rfl, rfl, congrArg Host.Outcome.next (roceRow_acksAsked hacc hc hpsn hrun)⟩
  case sendLast =>
    have hrun := (sendRun_wellFormed (s := c.1) (p := p) hop hfirst hwriting hlast hbuf hmtu hmax
      (fun hmore => absurd hl (ne_true_of_eq_false hmore)) fun _ => ⟨hne, hwhole⟩).trans (if_pos hl)
    exact ⟨_, rfl, rfl, rfl, rfl, congrArg Host.Outcome.next (roceRow_answers hacc hc hpsn hrun)⟩
  case earlier => exact congrArg Host.Outcome.next (roceRow_earlier hacc hc hback)
  case later => exact congrArg Host.Outcome.next (roceRow_later hacc hc (by omega) hahead)
  case write =>
    have hrun := writeRun_writes hop hfirst hlast hsending hwriting hdata ha hn hhead hle hends hfull hkey (hcleanAt hclean)
    refine ⟨_, _, congrArg Host.Outcome.next (roceRow_acksAsked hacc hc hpsn hrun), memBytes_store .., fun k hk => ?_, ?_, ?_, ?_⟩
    · exact (memByte_store ..).trans ((if_neg (by omega)).trans (memByte_of_mem hkept.mem k))
    · simp [Qp.took]
    · simp [Qp.took]
    · rintro rfl
      exact ⟨rfl, rfl⟩
  case denied =>
    exact ⟨_, _, congrArg Host.Outcome.next (roceRow_answers hacc hc hpsn (readRun_denied hlen hsending hwriting hkey)), hkept.mem⟩
  case read =>
    have hrun := readRun_reads (p := p) (h := h) hlen hsending hwriting hkey (hcleanAt hclean) rfl
    rw [memBytes_of_mem hkept.mem] at hrun
    refine ⟨_, _, rfl, congrArg Host.Outcome.next (roceRow_silent hacc hc hpsn hrun), rfl, ?_⟩
    rw [readResponses_count, memBytes_length]
  case atomic =>
    exact ⟨_, _, congrArg Host.Outcome.next (roceRow_answers hacc hc hpsn rfl), hkept.mem, hkept.queues⟩

end Sys2Proof.Machine
end

section
/-! PROOF. The five collectives begin, are refused or wait (R280, R284, R293, R375). -/

namespace Sys2Proof.Machine

/-- A collective begun on its channel, before its first phase. -/
def collBegun (s : State) (c : Cmd) (ch : Nat) : State :=
  let t := fly s c
  { t with coll := { t.coll with running := t.coll.running ++ [collOfCmd s c ch] }, step := { t.step with colStarted := true } }

/-- The five collectives have one row, told apart by its opcode. -/
theorem exec_collective {s : State} {q qseq op : Nat} {i : Instr}
    (hi : (op = 0x0701 ∧ i = .reduceScatter q qseq) ∨ (op = 0x0702 ∧ i = .allGather q qseq) ∨ (op = 0x0703 ∧ i = .allReduce q qseq)
      ∨ (op = 0x0704 ∧ i = .broadcast q qseq) ∨ (op = 0x0705 ∧ i = .allToAll q qseq)) :
    exec i s = .next (collRow op q qseq s) := by
  obtain ⟨rfl, rfl⟩ | ⟨rfl, rfl⟩ | ⟨rfl, rfl⟩ | ⟨rfl, rfl⟩ | ⟨rfl, rfl⟩ := hi <;> rfl

theorem Begins.opcode_beq {s : State} {q qseq op : Nat} {c : Cmd} (h : Begins s q qseq op c) : (c.opcode == op) = true :=
  have ⟨_, hop, _⟩ := h
  beq_iff_eq.2 hop

section Row

variable {s : State} {q qseq op : Nat} {c : Cmd} (h : Begins s q qseq op c)
include h

theorem collRow_waits (hcheck : collCheck s c = none) (hwait : freeChannel s = none ∨ 4 ≤ shedLevel s) : collRow op q qseq s = s := by
  rw [collRow, waitRow_begins h h.opcode_beq]
  simp [hcheck, hwait]

variable (hshed : shedLevel s < 4) (hfree : freeChannel s ≠ none)
include hshed hfree

theorem collRow_refused {st : Nat} (hcheck : collCheck (markBegun s q qseq) c = some st) :
    collRow op q qseq s = finish (markBegun s q qseq) c st := by
  rw [collRow, waitRow_begins h h.opcode_beq]
  simp [hcheck, hfree, Nat.not_le.2 hshed]

theorem collRow_starts {ch : Nat} (hcheck : collCheck (markBegun s q qseq) c = none)
    (hch : freeChannel (markBegun s q qseq) = some ch) :
    collRow op q qseq s = collAdvance (startPhase (collBegun (markBegun s q qseq) c ch) c.op) c.op := by
  rw [collRow, waitRow_begins h h.opcode_beq]
  simp only [hcheck, hch, hfree, Nat.not_le.2 hshed, Option.isNone_iff_eq_none, decide_false, Bool.or_false, Bool.and_eq_true,
    and_false, if_false]
  rfl

end Row

/-- Settles O23: the row's wait at the queue's head, its refusal, and its start. -/
theorem collectivesStart : Obligations.CollectivesStart := by
  intro s q qseq op c i h hi
  rw [exec_collective hi]
  refine ⟨fun hcheck hwait => ?waits, fun hshed hfree => ⟨fun st hcheck => ?refused, fun ch hcheck hch => ?starts⟩⟩
  case waits => exact congrArg _ (collRow_waits h hcheck hwait)
  case refused => exact congrArg _ (collRow_refused h hshed hfree hcheck)
  case starts => exact ⟨_, congrArg _ (collRow_starts h hshed hfree hcheck hch), rfl, rfl, rfl, rfl, rfl⟩

end Sys2Proof.Machine
end

section
/-! PROOF. MAP_SET in its two forms, and PERMUTE held (R275–R277, R294). -/

namespace Sys2Proof.Machine

/-! The registers of the coordinate (R297) and the peer table (R276). -/

theorem csrGet_setCoordinate_epoch (s : State) (shape : Nat × Nat × Nat) (id : Nat) (map : List Nat) :
    csrGet (setCoordinate s shape id map) rColEpoch = csrGet s rColEpoch := by
  have put (t : State) {a : Nat} (v : Nat) (ha : rColEpoch ≠ a) : csrGet (csrPut t a v) rColEpoch = csrGet t rColEpoch :=
    csrGet_put_other _ _ _ _ ha
  unfold setCoordinate
  rw [put _ _ (by decide), put _ _ (by decide), put _ _ (by decide), put _ _ (by decide), put _ _ (by decide)]

/-- COL_ID says that an ID is assigned, which one, and in bit 31 whether the table leaves it out. -/
theorem csrGet_setCoordinate_id (s : State) (shape : Nat × Nat × Nat) {id : Nat} (hid : id < 4096) (map : List Nat) :
    ∃ out < 2, csrGet (setCoordinate s shape id map) rColId = 2 ^ 31 * out + 2 ^ 30 + id := by
  unfold setCoordinate
  rw [csrGet_put_other _ _ _ _ (by decide), csrGet_put_other _ _ _ _ (by decide), csrGet_put_self]
  split
  · exact ⟨1, by omega, by omega⟩
  · exact ⟨0, by omega, by omega⟩

theorem csrField_setCoordinate_id (s : State) (shape : Nat × Nat × Nat) {id : Nat} (hid : id < 4096) (map : List Nat) :
    csrField (setCoordinate s shape id map) rColId 11 0 = id ∧ csrField (setCoordinate s shape id map) rColId 30 30 = 1 := by
  obtain ⟨out, hout, hget⟩ := csrGet_setCoordinate_id s shape hid map
  simp only [csrField, fieldOf, hget, Nat.shiftRight_eq_div_pow]
  omega

theorem loadPeers_net (s : State) (ps : Option (List (List Byte))) : ∃ n, loadPeers s ps = { s with net := n } := by
  cases ps with
  | none => exact ⟨s.net, rfl⟩
  | some l => exact ⟨_, rfl⟩

/-! MAP_SET with INITIAL (R275, R276). -/

/-- The tables and the collective region that a body with INITIAL names, the registers still as they were. -/
def mappingPut (r : State) (b : List Byte) (map spares : List Nat) : State :=
  { r with coll := { r.coll with map := map, spares := spares, base := leAt b 40 8, len := 2 ^ 21 * leAt b 48 4, kept := [] } }

/-- The mapping that INITIAL brings in force. -/
def mappingSet (r : State) (b : List Byte) (map spares : List Nat) (peers : Option (List (List Byte))) : State :=
  loadPeers (csrSetField (setCoordinate (mappingPut r b map spares) (msShape b) (msSelf b) map) rColEpoch 15 0 (leAt b 8 2)) peers

theorem msSelf_lt_of_mapSetCheck {s : State} {b : List Byte} (h : mapSetCheck s b = none) : msSelf b < 4096 := by
  by_contra hself
  have hbody : msBodyOk s b = false := by simp [msBodyOk, hself]
  unfold mapSetCheck at h
  rw [hbody] at h
  split at h
  · split at h <;> cases h
  · split at h <;> cases h

/-! MAP_SET with REMAP (R277). -/

/-- The ID that stands after a REMAP where `id` stood before. -/
def idNow (s : State) (map : List Nat) (id : Nat) : Nat :=
  (((List.zip s.coll.map map).find? (fun p => p.1 == id)).map (·.2)).getD id

/-- The tables of a REMAP, the groups of the collectives in flight with them, the registers still as they were. -/
def remapPut (r : State) (map spares : List Nat) : State :=
  { r with coll := { r.coll with
      map := map, spares := spares, running := r.coll.running.map (fun k => { k with group := k.group.map (idNow r map) }) } }

/-- The mapping that REMAP brings in force. -/
def mappingRemapped (r : State) (b : List Byte) (map spares : List Nat) (peers : Option (List (List Byte))) : State :=
  loadPeers (setCoordinate (remapPut r map spares) (msShape b) (msSelf b) map) peers

section Commands

variable {s r : State} {c : Cmd} {map spares : List Nat} {peers : Option (List (List Byte))}
  (hread : readMapping s c.body = (r, some (map, spares, peers))) (hids : idsOk (msSelf c.body) map spares = true)
  (hpeers : peersOk peers (map ++ spares) = true)
include hread hids hpeers

theorem bodyMapSet_sets (hcheck : mapSetCheck s c.body = none) :
    bodyMapSet c s = some (finish (mappingSet r c.body map spares peers) c stOk) := by
  simp only [bodyMapSet, hcheck, hread, hids, hpeers]
  rfl

theorem bodyMapSetRemap_sets (hid : csrField s rColId 30 30 = 1) (hbody : msBodyOk s c.body = true)
    (hkeeps : remapKeeps s c.body = true) (hlists : remapLists s map spares = true) :
    bodyMapSetRemap c s = some (finish (mappingRemapped r c.body map spares peers) c stOk) := by
  simp only [bodyMapSetRemap, hid, hbody, hkeeps, hread, hids, hlists, hpeers]
  rfl

end Commands

/-! What the two forms leave. -/

theorem mappingSet_sets {r u : State} {b : List Byte} (hself : msSelf b < 4096) {map spares : List Nat}
    {peers : Option (List (List Byte))} (hu : mappingSet r b map spares peers = u) : u.coll.map = map ∧ u.coll.spares = spares
      ∧ u.coll.base = leAt b 40 8 ∧ u.coll.len = 2 ^ 21 * leAt b 48 4 ∧ epochOf u = leAt b 8 2
      ∧ csrField u rColId 11 0 = msSelf b ∧ csrField u rColId 30 30 = 1 ∧ u.mem = r.mem ∧ u.chip = r.chip := by
  obtain ⟨hid, hset⟩ := csrField_setCoordinate_id (mappingPut r b map spares) (msShape b) hself map
  obtain ⟨l, hl⟩ := setCoordinate_csrOnly (mappingPut r b map spares) (msShape b) (msSelf b) map
  rw [hl] at hid hset
  obtain ⟨n, hn⟩ := loadPeers_net (csrSetField (withCsr (mappingPut r b map spares) l) rColEpoch 15 0 (leAt b 8 2)) peers
  rw [mappingSet, hl, hn] at hu
  subst hu
  have hepoch := (csrField_setField_self (withCsr (mappingPut r b map spares) l) rColEpoch 15 0 (leAt b 8 2)
    (by decide) (by decide)).trans (Nat.mod_eq_of_lt (leAt_lt ..))
  have hother (hi lo : Nat) := csrField_congr (csrGet_setField_other (withCsr (mappingPut r b map spares) l) 15 0 (leAt b 8 2)
    (show rColId ≠ rColEpoch by decide)) hi lo
  exact ⟨rfl, rfl, rfl, rfl, hepoch, (hother 11 0).trans hid, (hother 30 30).trans hset, rfl, rfl⟩

theorem mappingRemapped_sets {r u : State} {b : List Byte} {map spares : List Nat} {peers : Option (List (List Byte))}
    (hu : mappingRemapped r b map spares peers = u) : u.coll.map = map ∧ u.coll.spares = spares ∧ epochOf u = epochOf r
      ∧ u.coll.base = r.coll.base ∧ u.mem = r.mem ∧ u.chip = r.chip := by
  have hepoch := csrGet_setCoordinate_epoch (remapPut r map spares) (msShape b) (msSelf b) map
  obtain ⟨l, hl⟩ := setCoordinate_csrOnly (remapPut r map spares) (msShape b) (msSelf b) map
  rw [hl] at hepoch
  obtain ⟨n, hn⟩ := loadPeers_net (withCsr (remapPut r map spares) l) peers
  rw [mappingRemapped, hl, hn] at hu
  subst hu
  exact ⟨rfl, rfl, csrField_congr hepoch _ _, rfl, rfl, rfl⟩

/-! PERMUTE (R294). -/

/-- A PERMUTE as it is admitted: none of its moves made. -/
def permuteAdmitted (s : State) (c : Cmd) : Permute :=
  { cmd := c, stage := 0, ready := [], done := [], sent := [], closed := [], failed := false, lastAt := s.plumb, seam := none }

/-- A PERMUTE held, its command in flight. -/
def permuteHeld (r : State) (p : Permute) : State :=
  let t := fly r p.cmd
  csrSetField { t with coll := { t.coll with permute := some p } } rColEpoch 16 16 1

theorem bodyPermute_holds {s r : State} {c : Cmd} {x : List Nat × List Tensor} (hnone : s.coll.permute = none)
    (hplaced : placed? s = true) (hbody : permuteBodyOk s c.body = true) (htables : permuteTables s c.body = (r, some x)) :
    bodyPermute c s = some (permuteHeld r (permuteAdmitted s c)) := by
  simp only [bodyPermute, hnone, hplaced, hbody, htables]
  rfl

/-- HELD rises, and the epoch beside it stays. -/
theorem permuteHeld_epoch (r : State) (p : Permute) :
    csrField (permuteHeld r p) rColEpoch 16 16 = 1 ∧ epochOf (permuteHeld r p) = epochOf r :=
  ⟨csrField_setField_self _ _ _ _ _ (by decide) (by decide),
    csrField_setField_disjoint _ _ _ _ _ _ _ (by decide) (.inl (by decide)) (by decide)⟩

/-- Settles O25: the two forms by the mapping they bring in force, PERMUTE by the one held. -/
theorem mappingCommandsSet : Obligations.MappingCommandsSet := by
  intro s r q qseq c map spares peers
  refine ⟨fun h hform hcheck hread hids hpeers => ?initial, fun h hform hid hbody hkeeps hread hids hlists hpeers => ?remap,
    fun x h hnone hplaced hbody htables => ?permute⟩
  case initial =>
    have ⟨_, hop, _⟩ := h
    have hrow : mapSetState q qseq s = finish (mappingSet r c.body map spares peers) c stOk := by
      rw [mapSetState, hostRow_begins h (by simp [hop, hform]), bodyMapSet_sets hread hids hpeers hcheck, Option.getD_some]
    exact ⟨_, congrArg Host.Outcome.next hrow, mappingSet_sets (msSelf_lt_of_mapSetCheck hcheck) rfl⟩
  case remap =>
    have ⟨_, hop, _⟩ := h
    have hrow : mapSetRemapState q qseq s = finish (mappingRemapped r c.body map spares peers) c stOk := by
      rw [mapSetRemapState, hostRow_begins h (by simp [hop, hform]),
        bodyMapSetRemap_sets hread hids hpeers hid hbody hkeeps hlists, Option.getD_some]
    exact ⟨_, congrArg Host.Outcome.next hrow, mappingRemapped_sets rfl⟩
  case permute =>
    obtain ⟨hheld, hepoch⟩ := permuteHeld_epoch r (permuteAdmitted (markBegun s q qseq) c)
    have hrow := hostRow_of_body h rfl (bodyPermute_holds hnone hplaced hbody htables)
    exact ⟨_, _, congrArg Host.Outcome.next hrow, rfl, rfl, rfl, hheld, hepoch, rfl, rfl, rfl⟩

end Sys2Proof.Machine
end

section
/-! PROOF. PLUMB_SYNC_CFG and PLUMB_READ (R304, R306, R309, R335). -/

namespace Sys2Proof.Machine

/-! A host command's row. -/

theorem refuseOr_passed (s : State) (c : Cmd) (go : State) {chk : Option Nat} (h : chk = none) : refuseOr s c chk go = some go := by
  rw [h, refuseOr]

theorem refuseOr_refused (s : State) (c : Cmd) (go : State) {chk : Option Nat} {st : Nat} (h : chk = some st) :
    refuseOr s c chk go = some (finish s c st) := by
  rw [h, refuseOr]

/-- A row that selects more than an opcode comes to what its body makes of the state begun. -/
theorem hostRow_of_selected {s t : State} {q qseq opcode : Nat} {c : Cmd} (h : Begins s q qseq opcode c) {sel : Cmd → Bool}
    (hsel : sel c = true) {body : Cmd → State → Option State} (hbody : body c (markBegun s q qseq) = some t) :
    hostRow s q qseq sel body = t := by
  rw [hostRow_begins h hsel, hbody, Option.getD_some]

/-! The fields of PLB_STATUS (R304). -/

/-- STATE, DEPTH and PARENT put into PLB_STATUS. -/
def plbPlaced (s : State) (st depth parent : Nat) : State :=
  csrSetField (csrSetField (setPlbState s st) rPlbStatus 23 22 depth) rPlbStatus 11 0 parent

theorem plbState_setPlbState (s : State) {st : Nat} (h : st < 16) : plbState (setPlbState s st) = st :=
  (csrField_setField_self _ _ _ _ _ (by decide) (by decide)).trans (Nat.mod_eq_of_lt h)

theorem plbParent_put (s : State) {parent : Nat} (h : parent < 4096) : plbParent (csrSetField s rPlbStatus 11 0 parent) = parent :=
  (csrField_setField_self _ _ _ _ _ (by decide) (by decide)).trans (Nat.mod_eq_of_lt h)

/-- A parent put into PLB_STATUS leaves the fields above it. -/
theorem plbFields_putParent (s : State) (parent : Nat) {hi lo : Nat} (hhi : hi < 32) (hlo : 11 < lo) :
    csrField (csrSetField s rPlbStatus 11 0 parent) rPlbStatus hi lo = csrField s rPlbStatus hi lo :=
  csrField_setField_disjoint _ _ _ _ _ _ _ (by decide) (.inr hlo) hhi

theorem plbPlaced_plumb (s : State) (st depth parent : Nat) : (plbPlaced s st depth parent).plumb = s.plumb := by
  rw [plbPlaced, setPlbState, csrSetField_plumb, csrSetField_plumb, csrSetField_plumb]

theorem plbPlaced_mem (s : State) (st depth parent : Nat) : (plbPlaced s st depth parent).mem = s.mem := by
  rw [plbPlaced, setPlbState, csrSetField_mem, csrSetField_mem, csrSetField_mem]

theorem plbState_placed (s : State) {st : Nat} (depth parent : Nat) (h : st < 16) : plbState (plbPlaced s st depth parent) = st := by
  refine (plbFields_putParent _ _ (by decide) (by decide)).trans ?_
  exact (csrField_setField_disjoint _ _ _ _ _ _ _ (by decide) (by decide) (by decide)).trans (plbState_setPlbState s h)

theorem plbDepth_placed (s : State) (st parent : Nat) {depth : Nat} (h : depth < 4) : plbDepth (plbPlaced s st depth parent) = depth := by
  refine (plbFields_putParent _ _ (by decide) (by decide)).trans ?_
  exact (csrField_setField_self _ _ _ _ _ (by decide) (by decide)).trans (Nat.mod_eq_of_lt h)

theorem plbParent_placed (s : State) (st depth : Nat) {parent : Nat} (h : parent < 4096) :
    plbParent (plbPlaced s st depth parent) = parent := plbParent_put _ h

/-- Of PLB_STATUS a source selected is bits 27 to 24 alone. -/
theorem selectSource_fields (s : State) (b : List Byte) {hi lo : Nat} (hhi : hi < 32) (h : hi < 24 ∨ 27 < lo) :
    csrField (selectSource s b) rPlbStatus hi lo = csrField s rPlbStatus hi lo := by
  unfold selectSource
  rw [csrField_setField_disjoint _ _ _ _ _ _ _ (by decide) (by omega) hhi,
    csrField_setField_disjoint _ _ _ _ _ _ _ (by decide) (by omega) hhi, csrField_congr (time_csrGet ..)]

@[simp] theorem selectSource_plumb (s : State) (b : List Byte) : (selectSource s b).plumb = s.plumb := by
  simp only [selectSource, csrSetField_plumb]

@[simp] theorem selectSource_mem (s : State) (b : List Byte) : (selectSource s b).mem = s.mem := by
  simp only [selectSource, csrSetField_mem]

/-- The root followed is kept beside the registers, the count and memory. -/
theorem followRoot_kept (s : State) (depth parent : Nat) :
    (followRoot s depth parent).csr = s.csr ∧ (followRoot s depth parent).plumb = s.plumb ∧ (followRoot s depth parent).mem = s.mem := by
  unfold followRoot
  dsimp only
  split
  · exact ⟨rfl, rfl, rfl⟩
  · exact ⟨rfl, rfl, rfl⟩

/-! The three modes (R304, R306). -/

/-- A check that answers nothing has passed its first test. -/
theorem not_of_ite_some_eq_none {α : Type} {p : Prop} [Decidable p] {x : α} {y : Option α} (h : (if p then some x else y) = none) : ¬p := by
  rintro hp
  simp [hp] at h

/-- What the checks of R306 say of the operands once they are passed. -/
theorem syncCfgCheck_passed {s : State} {b : List Byte} (h : syncCfgCheck s b = none) :
    leAt b 4 2 < 4096 ∧ (leAt b 0 1 ≠ 3 → leAt b 6 1 ≤ 2) := by
  unfold syncCfgCheck at h
  have hgood := not_of_ite_some_eq_none h
  simp only [not_or] at hgood
  obtain ⟨-, -, -, -, -, -, hparent, -, hdepth⟩ := hgood
  refine ⟨Nat.not_le.1 hparent, fun hmode => ?_⟩
  simp only [if_neg hmode, not_or] at hdepth
  omega

/-- The exchanges dropped with the request that stands unanswered; whether an acquisition has stepped, and the θ still to be
slewed away, as given. -/
def exchangesDropped (s : State) (stepped : Bool) (slew : Int) : State :=
  { s with time := { s.time with exchanges := [], request := none, stepped := stepped, slew := slew } }

@[simp] theorem exchangesDropped_plumb (s : State) (x : Bool) (v : Int) : (exchangesDropped s x v).plumb = s.plumb := rfl

@[simp] theorem exchangesDropped_mem (s : State) (x : Bool) (v : Int) : (exchangesDropped s x v).mem = s.mem := rfl

@[simp] theorem exchangesDropped_exchanges (s : State) (x : Bool) (v : Int) : (exchangesDropped s x v).time.exchanges = [] := rfl

@[simp] theorem exchangesDropped_stepped (s : State) (x : Bool) (v : Int) : (exchangesDropped s x v).time.stepped = x := rfl

@[simp] theorem exchangesDropped_slew (s : State) (x : Bool) (v : Int) : (exchangesDropped s x v).time.slew = v := rfl

@[simp] theorem exchangesDropped_plbState (s : State) (x : Bool) (v : Int) : plbState (exchangesDropped s x v) = plbState s := rfl

@[simp] theorem exchangesDropped_plbDepth (s : State) (x : Bool) (v : Int) : plbDepth (exchangesDropped s x v) = plbDepth s := rfl

@[simp] theorem exchangesDropped_plbParent (s : State) (x : Bool) (v : Int) : plbParent (exchangesDropped s x v) = plbParent s := rfl

/-- The device under its parent as ACQUIRE puts it, its exchanges not yet dropped. -/
def acquiring (d : State) (b : List Byte) : State :=
  plbPlaced (followRoot (selectSource d b) (leAt b 6 1) (leAt b 4 2)) plAcquiring (leAt b 6 1) (leAt b 4 2)

/-- The source selected, and the root that a REPARENT follows: the new parent at depth 1, else the root as it was. -/
def reparentRoot (d : State) (b : List Byte) : State :=
  if plbDepth d = 1 then followRoot (selectSource d b) 1 (leAt b 4 2) else selectSource d b

/-- The device under its new parent as REPARENT puts it, its exchanges not yet dropped. -/
def reparented (d : State) (b : List Byte) : State := csrSetField (reparentRoot d b) rPlbStatus 11 0 (leAt b 4 2)

/-- The device as ROOT puts it, its exchanges not yet dropped. -/
def rooted (d : State) (b : List Byte) : State := plbPlaced (selectSource d b) plRoot 0 0

section Passed

variable {c : Cmd} {d : State} (h : syncCfgCheck d c.body = none)
include h

theorem bodyAcquire_passed : bodyAcquire c d = some (finish (exchangesDropped (acquiring d c.body) false 0) c stOk) :=
  refuseOr_passed _ _ _ h

theorem bodyReparent_passed : bodyReparent c d = some (finish (exchangesDropped (reparented d c.body)
    (reparented d c.body).time.stepped (reparented d c.body).time.slew) c stOk) := refuseOr_passed _ _ _ h

theorem bodyRoot_passed :
    bodyRoot c d = some (finish (exchangesDropped (rooted d c.body) (rooted d c.body).time.stepped 0) c stOk) :=
  refuseOr_passed _ _ _ h

end Passed

section Rows

variable {s : State} {q qseq : Nat} {c : Cmd} (h : Begins s q qseq 0x0801 c)
include h

theorem acquireState_passed (hmode : leAt c.body 0 1 = 1) (hpass : syncCfgCheck (markBegun s q qseq) c.body = none) :
    acquireState q qseq s = finish (exchangesDropped (acquiring (markBegun s q qseq) c.body) false 0) c stOk :=
  have ⟨_, hop, _⟩ := h
  hostRow_of_selected h (by simp [hop, hmode]) (bodyAcquire_passed hpass)

theorem reparentState_passed (hmode : leAt c.body 0 1 = 2) (hpass : syncCfgCheck (markBegun s q qseq) c.body = none) :
    reparentState q qseq s = finish (exchangesDropped (reparented (markBegun s q qseq) c.body)
      (reparented (markBegun s q qseq) c.body).time.stepped (reparented (markBegun s q qseq) c.body).time.slew) c stOk :=
  have ⟨_, hop, _⟩ := h
  hostRow_of_selected h (by simp [hop, hmode]) (bodyReparent_passed hpass)

theorem rootState_passed (hmode : leAt c.body 0 1 = 3) (hpass : syncCfgCheck (markBegun s q qseq) c.body = none) :
    rootState q qseq s = finish (exchangesDropped (rooted (markBegun s q qseq) c.body)
      (rooted (markBegun s q qseq) c.body).time.stepped 0) c stOk :=
  have ⟨_, hop, _⟩ := h
  hostRow_of_selected h (by simp [hop, hmode]) (bodyRoot_passed hpass)

end Rows

theorem acquiring_books (d : State) (b : List Byte) : (acquiring d b).plumb = d.plumb ∧ (acquiring d b).mem = d.mem := by
  obtain ⟨-, hplumb, hmem⟩ := followRoot_kept (selectSource d b) (leAt b 6 1) (leAt b 4 2)
  rw [acquiring, plbPlaced_plumb, plbPlaced_mem, hplumb, hmem, selectSource_plumb, selectSource_mem]
  exact ⟨rfl, rfl⟩

theorem reparentRoot_kept (d : State) (b : List Byte) :
    (reparentRoot d b).csr = (selectSource d b).csr ∧ (reparentRoot d b).plumb = d.plumb := by
  unfold reparentRoot
  split
  · obtain ⟨hcsr, hplumb, -⟩ := followRoot_kept (selectSource d b) 1 (leAt b 4 2)
    exact ⟨hcsr, hplumb.trans (selectSource_plumb ..)⟩
  · exact ⟨rfl, selectSource_plumb ..⟩

/-- REPARENT changes of PLB_STATUS the source and PARENT alone; STATE and DEPTH stay. -/
theorem reparented_fields (d : State) (b : List Byte) {hi lo : Nat} (hhi : hi < 32) (hlo : 11 < lo) (hsrc : hi < 24 ∨ 27 < lo) :
    csrField (reparented d b) rPlbStatus hi lo = csrField d rPlbStatus hi lo := by
  obtain ⟨hcsr, -⟩ := reparentRoot_kept d b
  calc csrField (reparented d b) rPlbStatus hi lo
      = csrField (reparentRoot d b) rPlbStatus hi lo := plbFields_putParent _ (leAt b 4 2) hhi hlo
    _ = csrField (selectSource d b) rPlbStatus hi lo := by rw [csrField, csrField, csrGet, csrGet, hcsr]
    _ = csrField d rPlbStatus hi lo := selectSource_fields d b hhi hsrc

theorem reparented_plumb (d : State) (b : List Byte) : (reparented d b).plumb = d.plumb := by
  obtain ⟨-, hplumb⟩ := reparentRoot_kept d b
  rw [reparented, csrSetField_plumb, hplumb]

theorem rooted_plumb (d : State) (b : List Byte) : (rooted d b).plumb = d.plumb := by
  rw [rooted, plbPlaced_plumb, selectSource_plumb]

/-- Settles O42: each mode by its body once the checks of R306 are passed, and PLB_STATUS by the fields put into it. -/
theorem plumbCommands : Obligations.PlumbCommands := by
  intro s q qseq c
  refine ⟨fun h hpass => ⟨?acquire, ?reparent, ?root⟩, ?refused, fun h => congrArg Host.Outcome.next (hostRow_of_body h rfl rfl)⟩
  case acquire =>
    intro hmode
    obtain ⟨hparent, hdepth⟩ := syncCfgCheck_passed hpass
    obtain ⟨hplumb, hmem⟩ := acquiring_books (markBegun s q qseq) c.body
    have hdepth4 : leAt c.body 6 1 < 4 := Nat.lt_of_le_of_lt (hdepth (by rw [hmode]; decide)) (by decide)
    refine ⟨_, congrArg Host.Outcome.next (acquireState_passed h hmode hpass), ?_⟩
    rw [exchangesDropped_plbState, exchangesDropped_plbParent, exchangesDropped_plbDepth, exchangesDropped_plumb, exchangesDropped_mem]
    exact ⟨plbState_placed _ _ _ (by decide), plbParent_placed _ _ _ hparent, plbDepth_placed _ _ _ hdepth4,
      exchangesDropped_exchanges .., exchangesDropped_stepped .., exchangesDropped_slew .., hplumb, hmem⟩
  case reparent =>
    intro hmode
    obtain ⟨hparent, -⟩ := syncCfgCheck_passed hpass
    refine ⟨_, congrArg Host.Outcome.next (reparentState_passed h hmode hpass), ?_⟩
    rw [exchangesDropped_plbState, exchangesDropped_plbParent, exchangesDropped_plbDepth, exchangesDropped_plumb]
    exact ⟨reparented_fields _ _ (by decide) (by decide) (by decide), plbParent_put _ hparent,
      reparented_fields _ _ (by decide) (by decide) (by decide), exchangesDropped_exchanges .., reparented_plumb ..⟩
  case root =>
    intro hmode
    refine ⟨_, congrArg Host.Outcome.next (rootState_passed h hmode hpass), ?_⟩
    rw [exchangesDropped_plbState, exchangesDropped_plbParent, exchangesDropped_plbDepth, exchangesDropped_plumb]
    exact ⟨plbState_placed _ _ _ (by decide), plbParent_placed _ _ _ (by decide), plbDepth_placed _ _ _ (by decide),
      exchangesDropped_slew .., rooted_plumb ..⟩
  case refused =>
    intro h st i hfail hi
    have ⟨_, hop, _⟩ := h
    simp only [List.mem_cons, Prod.mk.injEq, List.not_mem_nil, or_false] at hi
    rcases hi with ⟨hmode, rfl⟩ | ⟨hmode, rfl⟩ | ⟨hmode, rfl⟩
    · exact congrArg Host.Outcome.next (hostRow_of_selected h (by simp [hop, hmode]) (refuseOr_refused _ _ _ hfail))
    · exact congrArg Host.Outcome.next (hostRow_of_selected h (by simp [hop, hmode]) (refuseOr_refused _ _ _ hfail))
    · exact congrArg Host.Outcome.next (hostRow_of_selected h (by simp [hop, hmode]) (refuseOr_refused _ _ _ hfail))

end Sys2Proof.Machine
end

section
/-! PROOF. Launched commands and LAUNCH_AT (R308). -/

namespace Sys2Proof.Machine

/-! Queues replaced one by one. -/

/-- A queue of the list reads as its own update; a number past the list still reads as the default. -/
theorem queueAt_mapIdx (s : State) (f : Nat → Queue → Queue) (q : Nat) :
    queueAt { s with queues := s.queues.mapIdx f } q = if q < s.queues.length then f q (queueAt s q) else queueAt s q := by
  unfold queueAt nthD
  rw [List.getElem?_mapIdx]
  split
  · next h => simp [h]
  · next h => simp [h]

theorem queueAt_map (s : State) {f : Queue → Queue} (hf : f queue0 = queue0) (q : Nat) :
    queueAt { s with queues := s.queues.map f } q = f (queueAt s q) := by
  unfold queueAt nthD
  rw [List.getElem?_map]
  cases s.queues[q]? with
  | none => exact hf.symm
  | some x => rfl

/-! LAUNCH. -/

/-- The slot of a number marked as launched, late or in time. -/
def launchSlot (x : Queue) (qseq : Nat) (late : Bool) : Queue :=
  { x with slots := x.slots.map (fun t => if t.qseq = qseq then { t with launched := true, late := late } else t) }

theorem slotOf_launchSlot {x : Queue} {qseq : Nat} {sl : QSlot} (late : Bool) (h : slotOf x qseq = some sl) :
    slotOf (launchSlot x qseq late) qseq = some { sl with launched := true, late := late } := by
  have hsl : sl.qseq = qseq := by simpa using List.find?_some h
  have hkept (t : QSlot) : ((if t.qseq = qseq then { t with launched := true, late := late } else t).qseq == qseq) = (t.qseq == qseq) := by
    split <;> rfl
  unfold slotOf at h ⊢
  rw [launchSlot, find?_map_kept hkept, h, Option.map_some, if_pos hsl]

section Head

variable {s : State} {q qseq : Nat} {sl : QSlot}

/-- A launched command stays where it is before its tick. -/
theorem launchState_early (hslot : slotOf (queueAt s q) qseq = some sl) (hnear : (cmdOf q sl).launch ≤ (cmdOf q sl).arrived + 2 ^ 36)
    (hearly : s.plumb < (cmdOf q sl).launch) : launchState q qseq s = s := by
  have hfar : decide ((cmdOf q sl).arrived + 2 ^ 36 < (cmdOf q sl).launch) = false := decide_eq_false (Nat.not_lt.2 hnear)
  simp only [launchState, hslot, hfar]
  exact if_pos (by simp [hearly])

/-- At its queue's head a launched command is launched from its tick on, and counted where it is late. -/
theorem launchState_launches (hslot : slotOf (queueAt s q) qseq = some sl) (hq : q < 8) (hbegun : sl.begun = false)
    (hnew : sl.launched = false) (hlaunched : (cmdOf q sl).launched = true) (hr : released s = true) (hheld : launchHeld s q = false)
    (hhead : mayBegin s (cmdOf q sl) = true) (hdue : (cmdOf q sl).launch ≤ s.plumb) {late : Bool}
    (hlate : late = (decide ((cmdOf q sl).launch < s.plumb) && !sl.timely)) :
    launchState q qseq s = if late then csrBump (queuePut s q (launchSlot (queueAt s q) qseq late)) rPlbLateLaunch 31 0 1
      else queuePut s q (launchSlot (queueAt s q) qseq late) := by
  subst hlate
  simp only [launchState, hslot]
  refine if_neg ?_
  simp only [hbegun, hnew, hlaunched, hr, hheld, hhead, Bool.true_or, Bool.not_true, Bool.false_eq_true, false_or]
  omega

end Head

/-! LAUNCH_AT. -/

/-- Queue `q` held by the LAUNCH_AT of operation `op` until `t`, unless it is outside the mask or held longer already. -/
def holdUntil (mask t op q : Nat) (x : Queue) : Queue :=
  if !bitOf mask q then x
  else match x.launchHold with
    | some (u, _) => if u < t then { x with launchHold := some (t, op) } else x
    | none => { x with launchHold := some (t, op) }

theorem holdUntil_unmasked {mask q : Nat} (t op : Nat) (x : Queue) (h : bitOf mask q = false) : holdUntil mask t op q x = x :=
  if_pos (by simp [h])

/-- A queue of the mask is held at least until the count asked for. -/
theorem holdUntil_masked {mask q : Nat} (t op : Nat) (x : Queue) (h : bitOf mask q = true) :
    ∃ u o, (holdUntil mask t op q x).launchHold = some (u, o) ∧ t ≤ u := by
  rw [holdUntil, if_neg (by simp [h])]
  split
  · next u o hold =>
    split
    · exact ⟨t, op, rfl, Nat.le_refl t⟩
    · next hlonger => exact ⟨u, o, hold, Nat.not_lt.1 hlonger⟩
  · exact ⟨t, op, rfl, Nat.le_refl t⟩

/-- The queues of a LAUNCH_AT's mask held, with the command in flight. -/
def launchHolds (d : State) (c : Cmd) : State :=
  fly { d with queues := d.queues.mapIdx (holdUntil (leAt c.body 8 1) (leAt c.body 0 8) c.op) } c

section Body

variable {d : State} {c : Cmd} (hz : zeroAt c.body 9 7 = true) (hnear : leAt c.body 0 8 ≤ c.arrived + 2 ^ 36)

include hz hnear

/-- With reserved bytes 0 and a count near enough, LAUNCH_AT completes or holds its queues. -/
theorem bodyLaunchAt_good : bodyLaunchAt c d = if leAt c.body 0 8 ≤ d.plumb then some (finish d c stOk) else some (launchHolds d c) :=
  if_neg (not_or.2 ⟨by simp [hz], Nat.not_lt.2 hnear⟩)

theorem bodyLaunchAt_passed (hpast : leAt c.body 0 8 ≤ d.plumb) : bodyLaunchAt c d = some (finish d c stOk) :=
  (bodyLaunchAt_good hz hnear).trans (if_pos hpast)

theorem bodyLaunchAt_holds (hahead : d.plumb < leAt c.body 0 8) : bodyLaunchAt c d = some (launchHolds d c) :=
  (bodyLaunchAt_good hz hnear).trans (if_neg (Nat.not_le.2 hahead))

omit hz hnear

theorem queueAt_launchHolds (d : State) (c : Cmd) (p : Nat) :
    queueAt (launchHolds d c) p
      = if p < d.queues.length then holdUntil (leAt c.body 8 1) (leAt c.body 0 8) c.op p (queueAt d p) else queueAt d p :=
  queueAt_mapIdx d _ p

/-- A queue of the mask is held while the count lies ahead. -/
theorem launchHeld_launchHolds {p : Nat} (hp : p < d.queues.length) (hmask : bitOf (leAt c.body 8 1) p = true)
    (hahead : d.plumb < leAt c.body 0 8) : launchHeld (launchHolds d c) p = true := by
  obtain ⟨u, o, hold, hle⟩ := holdUntil_masked (leAt c.body 0 8) c.op (queueAt d p) hmask
  have hcount : (launchHolds d c).plumb = d.plumb := rfl
  rw [launchHeld, queueAt_launchHolds, if_pos hp, hold]
  exact decide_eq_true (hcount ▸ Nat.lt_of_lt_of_le hahead hle)

end Body

/-! LAUNCH_AT_DUE. -/

/-- A queue whose count has come by tick `p` goes on. -/
def releaseHold (p : Nat) (x : Queue) : Queue :=
  match x.launchHold with
  | some (t, _) => if t ≤ p then { x with launchHold := none } else x
  | none => x

theorem releaseHold_slots (p : Nat) (x : Queue) : (releaseHold p x).slots = x.slots := by
  unfold releaseHold
  split
  · split <;> rfl
  · rfl

theorem releaseHold_due {p t o : Nat} {x : Queue} (h : x.launchHold = some (t, o)) (hdue : t ≤ p) : (releaseHold p x).launchHold = none := by
  simp [releaseHold, h, hdue]

/-- The queues whose counts have come released. -/
def holdsReleased (s : State) : State := { s with queues := s.queues.map (releaseHold s.plumb) }

theorem queueAt_holdsReleased (s : State) (q : Nat) : queueAt (holdsReleased s) q = releaseHold s.plumb (queueAt s q) :=
  queueAt_map s rfl q

section Due

variable {s : State} {op : Nat} {f : Flight}

theorem launchAtDueState_early (hf : s.flights.find? (fun f => f.cmd.op == op && f.cmd.opcode == 0x0802) = some f)
    (hearly : s.plumb < leAt f.cmd.body 0 8) : launchAtDueState op s = s := by
  simp only [launchAtDueState, hf, if_pos hearly]

theorem launchAtDueState_due (hf : s.flights.find? (fun f => f.cmd.op == op && f.cmd.opcode == 0x0802) = some f)
    (hdue : leAt f.cmd.body 0 8 ≤ s.plumb) : launchAtDueState op s = finish (holdsReleased s) f.cmd stOk := by
  simp only [launchAtDueState, hf, if_neg (Nat.not_lt.2 hdue)]
  rfl

end Due

/-- Settles O43: LAUNCH marks the slot it finds, LAUNCH_AT and its end work queue by queue. -/
theorem launchesOnTheirTick : Obligations.LaunchesOnTheirTick := by
  refine ⟨?launch, fun s q qseq c h hz hnear => ⟨fun hpast => ?passed, fun hahead hlen => ?holds⟩,
    fun s op f hf => ⟨fun hearly => ?early, fun hdue => ?due⟩⟩
  case launch =>
    intro s q qseq sl hslot hq hlen hbegun hnew hlaunched hr hheld hhead hnear
    refine ⟨fun hearly => congrArg Host.Outcome.next (launchState_early hslot hnear hearly), fun late hlate hdue => ?_⟩
    have hrow := launchState_launches hslot hq hbegun hnew hlaunched hr hheld hhead hdue hlate
    refine ⟨_, congrArg Host.Outcome.next hrow, ?_, fun p hp => ?_, rfl⟩
    · rw [queueAt_put, if_pos ⟨rfl, hlen ▸ hq⟩]
      exact slotOf_launchSlot late hslot
    · rw [queueAt_put, if_neg fun h => hp h.1]
  case passed => exact congrArg Host.Outcome.next (hostRow_of_body h rfl (bodyLaunchAt_passed hz hnear hpast))
  case holds =>
    refine ⟨_, congrArg Host.Outcome.next (hostRow_of_body h rfl (bodyLaunchAt_holds hz hnear hahead)),
      fun p hp hmask => launchHeld_launchHolds (hlen ▸ hp) hmask hahead, fun p hmask => ?_, rfl, rfl⟩
    rw [queueAt_launchHolds, holdUntil_unmasked _ _ _ hmask, ite_self]
  case early => exact congrArg Host.Outcome.next (launchAtDueState_early hf hearly)
  case due =>
    refine ⟨_, congrArg Host.Outcome.next (launchAtDueState_due hf hdue), fun q t o hold hcome _ => ?_, fun q => ?_, rfl⟩
    · rw [queueAt_holdsReleased]
      exact releaseHold_due hold hcome
    · rw [queueAt_holdsReleased]
      exact releaseHold_slots ..

end Sys2Proof.Machine
end

section
/-! PROOF. The plumb exchange between parent and child, and the state of the count (R302–R304). -/

namespace Sys2Proof.Machine

/-! The parent's side (R302). -/

/-- The child's entry kept as of this tick, at the end of the table. -/
def childNoted (s : State) (dev : Nat) : State :=
  { s with time := { s.time with children := s.time.children.filter (fun c => c.dev != dev) ++ [{ dev := dev, lastAt := s.plumb }] } }

/-- A REQUEST in order, from a child that has an entry or finds room for one, is answered with the parent's state. -/
theorem syncRequestState_answers {s t : State} {p : Packet} {h : ScHdr} {b : List Byte} (t2 : Int) (hacc : acceptScrim s p 0x7 = (t, some (h, b)))
    (hlen : b.length = 64) (hkind : beAt b 0 1 = 1) (hshed : shedLevel t ≠ 5) (hfree : plbState t ≠ plFree) (hroot : beAt b 4 2 % 4096 = rootOf t)
    (hdepth : beAt b 6 1 = plbDepth t + 1) (hdepth2 : beAt b 6 1 ≤ 2) (hsrc : h.src < 0x1000) (hpeer : peerValid t h.src = true)
    (hroom : t.time.children.any (fun c => c.dev == h.src) = true ∨ t.time.children.length < 64) :
    syncRequestState p t2 s = sendAnswer (stampNow (childNoted t h.src)).2 (originOf p h) 0x7 1 0 0 0
      (syncBytes 2 (boolNat (plbState t == plRoot || plbState t == plLocked)) (beAt b 2 2) (rootOf t) (plbDepth t) (beAt b 8 10)
        (t2 % 2 ^ 80).toNat (stampNow (childNoted t h.src)).1) := by
  have hrequest : ¬((b.length = 64 ∧ beAt b 0 1 = 2) ∨ shedLevel t = 5) := by simp [hkind, hshed]
  have hgood : ¬(b.length ≠ 64 ∨ beAt b 0 1 ≠ 1 ∨ plbState t = plFree ∨ beAt b 4 2 % 4096 ≠ rootOf t ∨ beAt b 6 1 ≠ plbDepth t + 1
      ∨ 2 < beAt b 6 1) := by
    simp only [hlen, hkind, hroot, ← hdepth, hfree, ne_eq, not_true, false_or]
    omega
  have hknown : ¬(0x1000 ≤ h.src ∨ (!peerValid t h.src) = true) := by simp [hpeer, hsrc]
  have htable : ¬((!t.time.children.any (fun c => c.dev == h.src)) = true ∧ 64 ≤ t.time.children.length) := by
    rintro ⟨hnew, hfull⟩
    rcases hroom with hold | hshort
    · simp [hold] at hnew
    · omega
  simp only [syncRequestState, hacc, if_neg hrequest, if_neg hgood, if_neg hknown, if_neg htable]
  rfl

/-! The child's side (R302, R303). -/

/-- A RESPONSE to the request outstanding names the root, and answers the request. -/
def rootNamed (s : State) (root : Nat) : State :=
  { s with time := { s.time with request := none, rootId := root, rootSeen := true } }

section Response

variable {s t : State} {p : Packet} {h : ScHdr} {b : List Byte} {t4 : Int} {x sent : Nat} (hacc : acceptScrim s p 0x7 = (t, some (h, b)))
  (hlen : b.length = 64) (hkind : beAt b 0 1 = 2) (hchild : 2 ≤ plbState t) (hsrc : h.src = plbParent t)
  (hroot : t.time.rootSeen = false ∨ beAt b 4 2 % 4096 = t.time.rootId) (hdepth : beAt b 6 1 + 1 = plbDepth t)
  (hreq : t.time.request = some (x, sent)) (hx : beAt b 2 2 = x)

include hacc hlen hkind hchild hsrc hroot hdepth hreq hx

/-- A RESPONSE in order is used where it is GOOD, in time and the count is not UNLOCKED. -/
theorem syncResponseState_takes :
    syncResponseState p t4 s
      = if beAt b 1 1 % 2 = 0 ∨ sent + 100000 < t.plumb ∨ plbState t = plUnlocked then rootNamed t (beAt b 4 2 % 4096)
        else useExchange (rootNamed t (beAt b 4 2 % 4096)) ((beAt b 18 10 : Int) - beAt b 8 10 - (t4 - beAt b 28 10))
          (t4 - beAt b 8 10 - ((beAt b 28 10 : Int) - beAt b 18 10)) := by
  have hresponse : ¬(b.length ≠ 64 ∨ beAt b 0 1 ≠ 2) := by simp [hlen, hkind]
  have hparent : ¬(plbState t < 2 ∨ h.src ≠ plbParent t ∨ (t.time.rootSeen = true ∧ beAt b 4 2 % 4096 ≠ t.time.rootId)
      ∨ beAt b 6 1 + 1 ≠ plbDepth t) := by
    rintro (hlow | hother | ⟨hseen, hnot⟩ | hdeep)
    · omega
    · exact hother hsrc
    · rcases hroot with hnew | hsame
      · simp [hnew] at hseen
      · exact hnot hsame
    · exact hdeep hdepth
  have hlast : ¬ x ≠ beAt b 2 2 := by simp [hx]
  simp only [syncResponseState, hacc, if_neg hresponse, if_neg hparent, hreq, if_neg hlast]
  rfl

end Response

/-- The request a child sends next, outstanding from now on. -/
def requestNoted (s : State) : State :=
  { (stampNow s).2 with time := { s.time with xseq := (s.time.xseq + 1) % 65536, request := some ((s.time.xseq + 1) % 65536, s.plumb) } }

/-- On its own tick a child sends a frame to its parent, through a port its parent's peer entry allows. -/
theorem sendSyncRequestState_sends {s : State} {port : Nat} (hchild : 2 ≤ plbState s) (hr : released s = true) (hshed : shedLevel s ≠ 5)
    (hid : ownId s ≠ 0x8000) (hnone : s.time.request = none) (htick : s.plumb % 100000 = ownId s % 64 * 1000)
    (hport : pickPort (usablePorts s (leAt (peerEntry s (plbParent s)) 16 1)) 0 = some port) :
    ∃ sport dport bs, sendSyncRequestState s = sendFrame (requestNoted s) port (peerIp (peerEntry s (plbParent s))) sport dport 1 bs := by
  have hdue : ¬(plbState s < 2 ∨ (!released s) = true ∨ shedLevel s = 5 ∨ ownId s = 0x8000 ∨ false = true
      ∨ s.plumb % 100000 ≠ ownId s % 64 * 1000) := by
    simp [hr, hshed, hid, htick, Nat.not_lt.2 hchild]
  simp only [sendSyncRequestState, hnone, if_neg hdue, hport]
  exact ⟨_, _, _, rfl⟩

/-! The child table's entries in time (R302). -/

theorem mem_childEntryExpiry (s : State) (dev : Nat) (c : Child) :
    c ∈ (childEntryExpiryState dev s).time.children ↔ c ∈ s.time.children ∧ (c.dev ≠ dev ∨ s.plumb < c.lastAt + 10 ^ 7) := by
  simp [childEntryExpiryState, List.mem_filter]

/-! The count without exchanges (R304). -/

/-- UNLOCKED is put into PLB_STATUS with nothing left to slew, and one record tells it. -/
theorem enterUnlocked_recorded (s : State) :
    Recorded (setPlbState { s with time := { s.time with slew := 0 } } plUnlocked) (enterUnlocked s) := by
  rw [enterUnlocked]
  exact snagRecord_recorded ..

/-- A record leaves PLB_STATUS. -/
theorem Recorded.plbState_eq {s t : State} (h : Recorded s t) : plbState t = plbState s :=
  csrField_congr (h.csrGet_eq rPlbStatus (by decide)) ..

theorem enterHoldover_plumb (s : State) : (enterHoldover s).plumb = s.plumb := by
  rw [enterHoldover, (snagRecord_books ..).1.plumb_eq, setPlbState, csrSetField_plumb]

theorem enterUnlocked_plumb (s : State) : (enterUnlocked s).plumb = s.plumb := by
  rw [enterUnlocked, (snagRecord_books ..).1.plumb_eq, setPlbState, csrSetField_plumb]

theorem holdoverEntryState_enters {s : State} (hlocked : plbState s = plLocked) (hsilent : s.time.lastUsable + 10 ^ 6 ≤ s.plumb) :
    holdoverEntryState s = enterHoldover s := if_pos ⟨hlocked, .inl hsilent⟩

theorem unlockedEntryState_enters {s : State} (hholdover : plbState s = plHoldover) (hlong : s.time.holdover + 10 ^ 10 ≤ s.plumb) :
    unlockedEntryState s = enterUnlocked s := if_pos ⟨hholdover, hlong⟩

/-- Settles O44: each row by its guards, the table by what it keeps, and the two losses by the record each writes. -/
theorem plumbExchanges : Obligations.PlumbExchanges := by
  refine ⟨?request, ?response, ?send, ?expiry, ?holdover, ?unlocked⟩
  case request =>
    intro s t p h b t2 hacc hlen hkind hshed hfree hroot hdepth hdepth2 hsrc hpeer hroom
    have hrow := syncRequestState_answers t2 hacc hlen hkind hshed hfree hroot hdepth hdepth2 hsrc hpeer hroom
    exact ⟨_, _, congrArg Host.Outcome.next hrow, rfl, rfl, rfl⟩
  case response =>
    intro s t p h b t4 x sent hacc hlen hkind hchild hsrc hroot hdepth hreq hx
    have htakes := syncResponseState_takes (t4 := t4) hacc hlen hkind hchild hsrc hroot hdepth hreq hx
    refine ⟨_, rfl, fun hgood hintime hstate => ?_, fun hbad => ?_⟩
    · exact congrArg Host.Outcome.next (htakes.trans (if_neg (by simp [hgood, hstate, Nat.not_lt.2 hintime])))
    · exact congrArg Host.Outcome.next (htakes.trans (if_pos (.inl hbad)))
  case send =>
    intro s port hchild hr hshed hid hnone htick hport
    obtain ⟨sport, dport, bs, hrow⟩ := sendSyncRequestState_sends hchild hr hshed hid hnone htick hport
    exact ⟨_, sport, dport, bs, congrArg Host.Outcome.next hrow, rfl, rfl, rfl⟩
  case expiry =>
    intro s dev
    refine ⟨_, rfl, fun c _ hdev hold hin => ?_, fun c hc hkept => (mem_childEntryExpiry ..).2 ⟨hc, hkept⟩, rfl⟩
    obtain ⟨-, hother | hyoung⟩ := (mem_childEntryExpiry ..).1 hin
    · exact hother hdev
    · omega
  case holdover =>
    intro s hlocked hsilent
    have hrec := enterHoldover_recorded s
    refine ⟨_, congrArg Host.Outcome.next (holdoverEntryState_enters hlocked hsilent), ?_, ?_, ?_, enterHoldover_plumb s⟩
    · exact hrec.plbState_eq.trans (plbState_setPlbState _ (by decide))
    · rw [hrec.time]; rfl
    · rw [hrec.time]; rfl
  case unlocked =>
    intro s hholdover hlong
    have hrec := enterUnlocked_recorded s
    refine ⟨_, congrArg Host.Outcome.next (unlockedEntryState_enters hholdover hlong), ?_, ?_, enterUnlocked_plumb s⟩
    · exact hrec.plbState_eq.trans (plbState_setPlbState _ (by decide))
    · rw [hrec.time]; rfl

end Sys2Proof.Machine
end

section
/-! PROOF. A step with no command waiting (R298). -/

namespace Sys2Proof.Machine

/-- A row whose commands mean nothing more than their refusal touches the books of completions alone. -/
theorem hostRow_refused_units (s : State) (q qseq : Nat) (sel : Cmd → Bool) : SameUnits s (hostRow s q qseq sel (fun _ _ => none)) := by
  have refused (c : Cmd) (st : Nat) : SameUnits s (finish (markBegun s q qseq) c st) := complete_units (markBegun_units (.refl s) q qseq) c st 0 []
  unfold hostRow
  split
  · exact .refl s
  · dsimp only
    split
    · exact .refl s
    split
    · exact refused ..
    split
    · exact refused ..
    split
    · exact refused ..
    · exact .refl s

/-- Refusing the reserved opcodes of the eight queues runs no unit and moves no count (R331). -/
theorem refuseReserved_units (s : State) : SameUnits s (refuseReserved s) := by
  unfold refuseReserved
  refine SameUnits.foldl _ (fun t q => ?_) _ s
  exact SameUnits.foldl _ (fun u sl => hostRow_refused_units ..) _ t

theorem SameUnits.pending_eq {s t : State} (h : SameUnits s t) : t.pending = s.pending := by
  obtain ⟨hpending, -⟩ := h
  exact hpending

/-- While the device runs a tick moves the count by one and leaves the waiting commands. -/
theorem tick_running {s : State} (hp : s.boot.pwrgd = true) (hr : s.boot.resetN = true) :
    (tick s).pending = s.pending ∧ (tick s).plumb = (s.plumb + 1) % 2 ^ 64 := by
  have hunits := refuseReserved_units s
  have hrun : ¬((!s.boot.pwrgd || !s.boot.resetN) = true) := by simp [hp, hr]
  rw [tick, if_neg hrun]
  simp only [markTimely, hunits.pending_eq, hunits.plumb_eq, and_self]

/-- Settles O2: with nothing waiting the step is the tick. -/
theorem idleStepTicks : Obligations.IdleStepTicks := by
  intro s hidle hp hr
  obtain ⟨hpending, hplumb⟩ := tick_running hp hr
  have hstep : step s = .next (tick s) := by rw [step, hidle]
  exact ⟨tick s, hstep, hpending.trans hidle, hplumb⟩

end Sys2Proof.Machine
end

section
/-! PROOF. Placing, beginning and completing commands: the front of the queue (R297), free slots and repeated numbers (R327,
R328), what a completion leaves (R322, R326), refusals and early skips (R166, R325, R331, R334). -/

namespace Sys2Proof.Machine

/-- Settles O1: the first waiting command is the one `step` hands to `exec`. -/
theorem stepRunsFront : Obligations.StepRunsFront := by
  intro c rest s
  rfl

/-! Queues whose placed commands stand. -/

/-- The queue holds the same slots, the same N and the same history. -/
def PlacesKept (x y : Queue) : Prop := y.slots = x.slots ∧ y.n = x.n ∧ y.history = x.history

theorem PlacesKept.refl (x : Queue) : PlacesKept x x := ⟨rfl, rfl, rfl⟩

theorem PlacesKept.trans {x y z : Queue} (h : PlacesKept x y) (k : PlacesKept y z) : PlacesKept x z := by
  obtain ⟨hslots, hn, hhistory⟩ := h
  obtain ⟨kslots, kn, khistory⟩ := k
  exact ⟨kslots.trans hslots, kn.trans hn, khistory.trans hhistory⟩

/-- A queue replaced by one whose placed commands are its own. -/
theorem queuePut_placesKept {s t : State} (ht : t.queues = s.queues) (q : Nat) {x : Queue} (hx : PlacesKept (queueAt s q) x) (p : Nat) :
    PlacesKept (queueAt s p) (queueAt (queuePut t q x) p) := by
  have hat (p : Nat) : queueAt t p = queueAt s p := by rw [queueAt, queueAt, ht]
  rw [queueAt_put, hat]
  split
  case isTrue h => rw [h.1]; exact hx
  case isFalse => exact .refl _

theorem queueAt_of_queues {s t : State} (h : t.queues = s.queues) (q : Nat) : queueAt t q = queueAt s q := by rw [queueAt, queueAt, h]

theorem writeMem_queues (s : State) (a : Nat) (bs : List Byte) : (writeMem s a bs).1.queues = s.queues := by
  obtain ⟨-, hqueues, -⟩ := writeMem_books s a bs
  exact hqueues

theorem writeMem_flights (s : State) (a : Nat) (bs : List Byte) : (writeMem s a bs).1.flights = s.flights := by
  obtain ⟨-, -, hflights, -⟩ := writeMem_books s a bs
  exact hflights

theorem ringWrite_placesKept (s : State) (q : Nat) (refusal : Bool) (e : List Byte) (p : Nat) :
    PlacesKept (queueAt s p) (queueAt (ringWrite s q refusal e) p) := by
  unfold ringWrite
  dsimp only
  split
  · refine queuePut_placesKept rfl q ?_ p
    exact ⟨rfl, rfl, rfl⟩
  split
  · have hqueues := queueAt_of_queues (t := csrBump _ (rHubQueue + 8 * q) 15 0 1) (writeMem_queues s
      ((queueAt s q).cq + 64 + 32 * ((queueAt s q).tail % ((queueAt s q).depth + 64))) e) p
    rw [hqueues]
    exact .refl _
  · refine queuePut_placesKept ((writeMem_queues ..).trans (writeMem_queues ..)) q ?_ p
    exact ⟨rfl, rfl, rfl⟩

theorem ringWrite_flights (s : State) (q : Nat) (refusal : Bool) (e : List Byte) : (ringWrite s q refusal e).flights = s.flights := by
  unfold ringWrite
  dsimp only
  split
  · rfl
  split
  · exact writeMem_flights ..
  · exact (writeMem_flights ..).trans (writeMem_flights ..)

theorem cmdReply_queues (s : State) (o : Origin) (quiet : Bool) (e : List Byte) : (cmdReply s o quiet e).queues = s.queues := by
  unfold cmdReply sendAnswer
  dsimp only
  repeat' split
  all_goals rfl

theorem cmdReply_flights (s : State) (o : Origin) (quiet : Bool) (e : List Byte) : (cmdReply s o quiet e).flights = s.flights := by
  unfold cmdReply sendAnswer
  dsimp only
  repeat' split
  all_goals rfl

theorem noteOp_queues (s : State) (c : Cmd) (st : Nat) : (noteOp s c st).queues = s.queues := by
  unfold noteOp
  split <;> rfl

theorem noteOp_flights (s : State) (c : Cmd) (st : Nat) : (noteOp s c st).flights = s.flights := by
  unfold noteOp
  split <;> rfl

/-! Placing (R327, R328). -/

theorem syncHead_hub {s : State} {q : Nat} (h : (queueAt s q).inHub = true) : syncHead s q = s := by simp [syncHead, h]

/-- The slot an arriving entry takes. -/
def slotFor (s : State) (entry : List Byte) (o : Origin) : QSlot :=
  { qseq := leAt entry 4 4, begun := false, entry := entry, origin := o, arrived := s.plumb, launched := false, late := false
    timely := false }

/-- The queue with an arriving entry in its slot. -/
def withSlot (x : Queue) (q : Nat) (sl : QSlot) : Queue :=
  { x with slots := x.slots ++ [sl], reserved := x.reserved + slotsNeeded (cmdOf q sl), history := stErase x.history sl.qseq }

theorem placeEntry_places {s : State} {q : Nat} {entry : List Byte} {o : Origin} (hsafe : inSafe s = false)
    (hhub : (queueAt s q).inHub = true) (hnear : qdist (queueAt s q) (leAt entry 4 4) < (queueAt s q).depth)
    (hfree : slotOf (queueAt s q) (leAt entry 4 4) = none) :
    placeEntry s q entry o = queuePut s q (withSlot (queueAt s q) q (slotFor s entry o)) := by
  have hroom (k : Nat) : canReserve (queueAt s q) k = true := by simp [canReserve, hhub]
  simp only [placeEntry, syncHead_hub hhub, hsafe, Bool.false_eq_true, if_false, if_pos hnear, hfree, hroom, hhub, if_true, withSlot, slotFor]

theorem slotOf_withSlot {x : Queue} {sl : QSlot} (q : Nat) (hfree : slotOf x sl.qseq = none) :
    slotOf (withSlot x q sl) sl.qseq = some sl := by
  unfold slotOf at hfree
  simp [slotOf, withSlot, List.find?_append, hfree]

/-- A duplicate is answered from the history, which leaves the placed commands of every queue. -/
theorem resend_placesKept (s : State) (c : Cmd) (e : List Byte) (p : Nat) : PlacesKept (queueAt s p) (queueAt (resend s c e) p) := by
  unfold resend
  dsimp only
  rw [queueAt_of_queues (cmdReply_queues ..)]
  split
  · exact ringWrite_placesKept ..
  · exact .refl _

theorem resends_placesKept (c : Cmd) (es : List (List Byte)) (s : State) (p : Nat) :
    PlacesKept (queueAt s p) (queueAt (es.foldl (fun t e => resend t c e) s) p) := by
  induction es generalizing s with
  | nil => exact .refl _
  | cons e es ih => exact (resend_placesKept s c e p).trans (ih _)

/-- Settles O9: a free slot by what placing puts into its queue, a repeated number by the resent completions. -/
theorem placingTakesFreeSlotsOnly : Obligations.PlacingTakesFreeSlotsOnly := by
  refine ⟨?free, ?repeated⟩
  case free =>
    intro s q entry o hsafe hq hhub hnear hfree
    rw [placeEntry_places hsafe hhub hnear hfree]
    have hself : queueAt (queuePut s q (withSlot (queueAt s q) q (slotFor s entry o))) q
        = withSlot (queueAt s q) q (slotFor s entry o) := by rw [queueAt_put, if_pos ⟨rfl, hq⟩]
    refine ⟨slotFor s entry o, ?_, rfl, rfl, rfl, ?_, fun p hp => ?_, rfl⟩
    · rw [hself]
      exact slotOf_withSlot q hfree
    · rw [hself]; rfl
    · rw [queueAt_put, if_neg (fun h => hp h.1)]
  case repeated =>
    intro s q entry o sl hhub hheld hnear p
    have hplace : placeEntry s q entry o
        = (completedOf s q (leAt entry 4 4)).foldl (fun t e => resend t (cmdOf q (slotFor s entry o)) e) s := by
      simp only [placeEntry, syncHead_hub hhub, if_pos hnear, hheld]
      rfl
    rw [hplace]
    obtain ⟨hslots, hn, -⟩ := resends_placesKept (cmdOf q (slotFor s entry o)) (completedOf s q (leAt entry 4 4)) s p
    exact ⟨hslots, hn⟩

/-! A completion in its queue's history (R326). -/

/-- The queue that remembers one more completion of a command. -/
def remembers (x : Queue) (qseq : Nat) (e : List Byte) : Queue :=
  { x with history := stSet [] x.history qseq (stGet [] x.history qseq ++ [e]), reserved := x.reserved - 1 }

/-- A completion that is not a silent one: remembered, written to the ring, noted, and answered. -/
theorem report_remembers {s : State} {c : Cmd} {st flags : Nat} {result : List Byte} (htold : channelTold s c flags result = false)
    (hsilent : s.step.silent.contains (c.queue, c.qseq) = false) :
    report s c st flags result = cmdReply (noteOp (ringWrite
      (queuePut s c.queue (remembers (queueAt s c.queue) c.qseq (compEntry s c st st flags result))) c.queue false
      (compEntry s c st st flags result)) c st) c.origin c.noReply (compEntry s c st st flags result) := by
  simp only [report, htold, hsilent, Bool.false_eq_true, if_false]
  rfl

theorem channelTold_plain (s : State) (c : Cmd) (result : List Byte) : channelTold s c 0 result = false := by
  simp [channelTold, bitOf]

theorem report_flights (s : State) (c : Cmd) (st flags : Nat) (result : List Byte) : (report s c st flags result).flights = s.flights := by
  unfold report
  dsimp only
  repeat' split
  · exact noteOp_flights ..
  · exact noteOp_flights ..
  · exact noteOp_flights ..
  · rw [cmdReply_flights, noteOp_flights, ringWrite_flights]; rfl

theorem complete_flights (s : State) (c : Cmd) (st flags : Nat) (result : List Byte) :
    (complete s c st flags result).flights = s.flights.filter (fun f => !(f.cmd.queue == c.queue && f.cmd.qseq == c.qseq)) := by
  unfold complete
  dsimp only
  split
  · rw [report_flights]
  · simp only [queuePut_flights, report_flights]

/-- What ends a command beside its completion leaves the placed commands of every queue. -/
theorem complete_placesKept (s : State) (c : Cmd) (st flags : Nat) (result : List Byte) (p : Nat) :
    PlacesKept (queueAt (report s c st flags result) p) (queueAt (complete s c st flags result) p) := by
  unfold complete
  dsimp only
  split
  · exact .refl _
  · refine queuePut_placesKept (s := report s c st flags result) rfl c.queue ?_ p
    exact ⟨rfl, rfl, rfl⟩

theorem finish_remembers {s : State} {c : Cmd} {st : Nat} (hq : c.queue < s.queues.length)
    (hsilent : s.step.silent.contains (c.queue, c.qseq) = false) :
    PlacesKept (remembers (queueAt s c.queue) c.qseq (compEntry s c st st 0 [])) (queueAt (finish s c st) c.queue) := by
  have hreport := report_remembers (st := st) (channelTold_plain s c []) hsilent
  have hring := ringWrite_placesKept (queuePut s c.queue (remembers (queueAt s c.queue) c.qseq (compEntry s c st st 0 []))) c.queue
    false (compEntry s c st st 0 []) c.queue
  rw [queueAt_put, if_pos ⟨rfl, hq⟩] at hring
  refine PlacesKept.trans ?_ (complete_placesKept s c st 0 [] c.queue)
  rw [hreport, queueAt_of_queues (cmdReply_queues ..), queueAt_of_queues (noteOp_queues ..)]
  exact hring

theorem compEntry_status (s : State) (c : Cmd) (st orig flags : Nat) (result : List Byte) :
    leAt (compEntry s c st orig flags result) 0 2 = st % 2 ^ 16 := by
  simpa [compEntry] using leAt_leBytes [] (leBytes 2 orig ++ leBytes 2 c.opcode ++ leBytes 2 (flags + (if c.late then cfLate else 0))
    ++ leBytes 4 c.qseq ++ leBytes 4 (c.op + c.queue <<< 18) ++ leBytes 8 s.plumb ++ sliceB result 0 8) 2 st

theorem compEntry_opcode (s : State) (c : Cmd) (st orig flags : Nat) (result : List Byte) :
    leAt (compEntry s c st orig flags result) 4 2 = c.opcode % 2 ^ 16 := by
  have h := leAt_leBytes (leBytes 2 st ++ leBytes 2 orig) (leBytes 2 (flags + (if c.late then cfLate else 0))
    ++ leBytes 4 c.qseq ++ leBytes 4 (c.op + c.queue <<< 18) ++ leBytes 8 s.plumb ++ sliceB result 0 8) 2 c.opcode
  simpa [compEntry, leBytes_length] using h

theorem compEntry_qseq (s : State) (c : Cmd) (st orig flags : Nat) (result : List Byte) :
    leAt (compEntry s c st orig flags result) 8 4 = c.qseq % 2 ^ 32 := by
  have h := leAt_leBytes (leBytes 2 st ++ leBytes 2 orig ++ leBytes 2 c.opcode ++ leBytes 2 (flags + (if c.late then cfLate else 0)))
    (leBytes 4 (c.op + c.queue <<< 18) ++ leBytes 8 s.plumb ++ sliceB result 0 8) 4 c.qseq
  simpa [compEntry, leBytes_length] using h

theorem compEntry_length (s : State) (c : Cmd) (st orig flags : Nat) (result : List Byte) :
    (compEntry s c st orig flags result).length = 32 := by
  simp [compEntry, leBytes_length, sliceB_length]

/-- Settles O10: what the queue holds by `finish_remembers`, the flights by `complete_flights`. -/
theorem finishRemembers : Obligations.FinishRemembers := by
  intro s c st hq hsilent
  obtain ⟨hslots, hn, hhistory⟩ := finish_remembers (st := st) hq hsilent
  refine ⟨⟨compEntry s c st st 0 [], ?_, compEntry_status .., compEntry_opcode .., compEntry_qseq ..⟩, complete_flights .., hslots, hn⟩
  rw [hhistory]
  exact stGet_set_self ..

/-! The bytes a completion writes (R322). -/

/-- Whether a byte lies outside what the next completion of a queue writes: the entry and TAIL, while the ring is in memory. -/
def OutsideRing (x : Queue) (a : Nat) : Prop :=
  x.inHub = true
    ∨ (a < x.cq + 64 + 32 * (x.tail % (x.depth + 64)) ∨ x.cq + 64 + 32 * (x.tail % (x.depth + 64)) + 32 ≤ a)
      ∧ (a < x.cq + 4 ∨ x.cq + 8 ≤ a)

theorem memByte_store_outside (s : State) {a x : Nat} {bs : List Byte} (h : x < a ∨ a + bs.length ≤ x) :
    memByte (memStore s a bs) x = memByte s x := by
  rw [memByte_store, if_neg (by omega)]

theorem ringWrite_memByte {s : State} (hclean : CleanMem s) {q a : Nat} (refusal : Bool) {e : List Byte} (he : e.length = 32)
    (hout : OutsideRing (queueAt s q) a) : memByte (ringWrite s q refusal e) a = memByte s a := by
  unfold ringWrite
  dsimp only
  split
  case isTrue => rfl
  case isFalse hring =>
    obtain hhub | ⟨hentry, htail⟩ := hout
    · exact absurd hhub hring
    rw [writeMem_clean hclean, if_neg (by simp), writeMem_clean (s := memStore s _ e) hclean]
    refine (memByte_store_outside _ ?_).trans (memByte_store_outside s ?_)
    · rw [leBytes_length]; omega
    · rw [he]; exact hentry

theorem cmdReply_mem (s : State) (o : Origin) (quiet : Bool) (e : List Byte) : (cmdReply s o quiet e).mem = s.mem := by
  unfold cmdReply sendAnswer
  dsimp only
  repeat' split
  all_goals rfl

theorem noteOp_mem (s : State) (c : Cmd) (st : Nat) : (noteOp s c st).mem = s.mem := by
  unfold noteOp
  split <;> rfl

/-- What a command's queue remembers of it leaves the ring's place. -/
theorem OutsideRing.remembers {s : State} {q a : Nat} (h : OutsideRing (queueAt s q) a) (qseq : Nat) (e : List Byte) :
    OutsideRing (queueAt (queuePut s q (remembers (queueAt s q) qseq e)) q) a := by
  rw [queueAt_put]
  split <;> exact h

theorem report_memByte {s : State} (hclean : CleanMem s) (c : Cmd) (st flags : Nat) (result : List Byte) {a : Nat}
    (hout : OutsideRing (queueAt s c.queue) a) : memByte (report s c st flags result) a = memByte s a := by
  unfold report
  dsimp only
  split
  · exact memByte_of_mem (noteOp_mem ..) a
  split
  · split
    · exact memByte_of_mem (noteOp_mem { s with step := _ } ..) a
    · exact memByte_of_mem (noteOp_mem { s with step := _ } ..) a
  · rw [memByte_of_mem (cmdReply_mem ..), memByte_of_mem (noteOp_mem ..)]
    exact ringWrite_memByte (s := queuePut s _ _) hclean false (compEntry_length ..) (hout.remembers ..)

theorem complete_memByte {s : State} (hclean : CleanMem s) (c : Cmd) (st flags : Nat) (result : List Byte) {a : Nat}
    (hout : OutsideRing (queueAt s c.queue) a) : memByte (complete s c st flags result) a = memByte s a := by
  have hreport := report_memByte hclean c st flags result hout
  unfold complete
  dsimp only
  split <;> exact hreport

/-- Settles O11: the units by what beginning and completing are made of, the bytes by the ring's place. -/
theorem beginAndFinishFrames : Obligations.BeginAndFinishFrames := by
  refine ⟨fun s q qseq c st flags result => ⟨markBegun_units (.refl s) q qseq, complete_units (.refl s) c st flags result⟩, ?_⟩
  intro s c st flags result a hclean hout
  exact complete_memByte hclean c st flags result hout

/-! An early skip (R166). -/

/-- A released device with a job open and its step OPEN, where a STEP_SKIP with EARLY covers the UPDATE that is placed as the
first command of queue 0. -/
def skippedUpdate : State :=
  { State.reset with
    csr := [(rHubJob, 0x80000000), (rHubStepState, 1)]
    boot := { boot0 with pwrgd := true, resetN := true, loaded := true, ready := true }
    queues := { queue0 with slots := [skippedSlot] } :: List.replicate 7 queue0
    step := { step0 with fence := some (skippingFence) } }
where
  /-- An UPDATE of operation ID 5 with a body of 176 bytes. -/
  skippedSlot : QSlot :=
    { qseq := 0, begun := false, entry := leBytes 2 0x0602 ++ [2, 11] ++ leBytes 4 0 ++ leBytes 4 5, origin := nobody, arrived := 0
      launched := false, late := false, timely := false }
  nobody : Origin := { port := 0, mac := [], ip := [], sport := 0, dev := 0, chan := 0, seq := 0, qpn := 0, opid := 0 }
  skippingFence : Fence :=
    { cmd := cmdOf 1 skippedSlot, seqs := List.replicate 8 9, mask := 1, carry := 0, skip := true, reason := 0, early := true }

/-- The UPDATE of `skippedUpdate`. -/
def skippedCmd : Cmd := cmdOf 0 skippedUpdate.skippedSlot

theorem skippedUpdate_covered : readyCmd skippedUpdate 0 0 = some skippedCmd ∧ earlySkip skippedUpdate 0 0 = true
    ∧ skippedCmd.opcode = 0x0602 := by decide +kernel

/-- The skipped UPDATE leaves its tensor named in the step. -/
theorem skippedUpdate_names : (updateState 0 0 skippedUpdate).topcoat.named.length = 1 := by decide +kernel

/-- Refutes O12: a skipped UPDATE does more than complete. While the step is OPEN its end is noted under its tensor's name, for a
weight UPDATE that waits for it (R186), so that Topcoat does not stand as it stood. -/
theorem not_refusedOrSkippedHasNoEffect : ¬ Obligations.RefusedOrSkippedHasNoEffect := by
  rintro ⟨-, hskipped⟩
  obtain ⟨hready, hearly, hopcode⟩ := skippedUpdate_covered
  obtain ⟨-, -, -, -, hupdate⟩ := hskipped skippedUpdate 0 0 skippedCmd hready hearly
  have hends : updateState 0 0 skippedUpdate = finish (markBegun skippedUpdate 0 0) skippedCmd stSkipped :=
    Host.Outcome.next.inj (hupdate hopcode)
  have hunits : SameUnits skippedUpdate (finish (markBegun skippedUpdate 0 0) skippedCmd stSkipped) :=
    complete_units (markBegun_units (.refl _) 0 0) skippedCmd stSkipped 0 []
  obtain ⟨-, -, -, -, -, -, htopcoat, -⟩ := hunits
  have hnamed := skippedUpdate_names
  rw [hends, htopcoat] at hnamed
  exact absurd hnamed (by decide)

end Sys2Proof.Machine
end

section
/-! SUPPORT. The invariant kept through branches, runs over lists, pairs and answers that may be missing. -/

namespace Sys2Proof.Machine

theorem BlockInv.bytes {s : State} (h : BlockInv s) : Store.wf 0 s.mem.bytes = true := by
  obtain ⟨hbytes, -⟩ := h
  exact hbytes

theorem BlockInv.csr {s : State} (h : BlockInv s) : Store.wf 0 s.csr = true := by
  obtain ⟨-, hcsr, -⟩ := h
  exact hcsr

theorem BlockInv.queues {s : State} (h : BlockInv s) : s.queues.length = 8 := by
  obtain ⟨-, -, hqueues, -⟩ := h
  exact hqueues

theorem BlockInv.children {s : State} (h : BlockInv s) : s.time.children.length ≤ 64 := by
  obtain ⟨-, -, -, hchildren⟩ := h
  exact hchildren

/-- A change beside the registers, the queues, memory and time. -/
theorem upd_keeps {s : State} (h : BlockInv s) {pending flights job hawk step chip runs held topcoat blocks hubBlock lath net coll snag
    power boot plumb settings free} :
    BlockInv { csr := s.csr, queues := s.queues, mem := s.mem, time := s.time, pending, flights, job, hawk, step, chip, runs, held, topcoat, blocks
               hubBlock, lath, net, coll, snag, power, boot, plumb, settings, free } :=
  ⟨h.bytes, h.csr, h.queues, h.children⟩

/-- A change that leaves memory's bytes and the child table. -/
theorem beside_keeps {s : State} (h : BlockInv s) {pending flights job hawk step chip runs held mem topcoat blocks hubBlock lath net coll snag time
    power boot plumb settings free} (hmem : mem.bytes = s.mem.bytes) (htime : time.children = s.time.children) :
    BlockInv { csr := s.csr, queues := s.queues, pending, flights, job, hawk, step, chip, runs, held, mem, topcoat, blocks, hubBlock
               lath, net, coll, snag, time, power, boot, plumb, settings, free } :=
  ⟨hmem ▸ h.bytes, h.csr, h.queues, htime ▸ h.children⟩

theorem queues_keeps {s : State} (h : BlockInv s) {qs : List Queue} (hlength : qs.length = s.queues.length) : BlockInv { s with queues := qs } :=
  ⟨h.bytes, h.csr, hlength.trans h.queues, h.children⟩

theorem time_keeps {s : State} (h : BlockInv s) {x : TimeSt} (hchildren : x.children.length ≤ 64) : BlockInv { s with time := x } :=
  ⟨h.bytes, h.csr, h.queues, hchildren⟩

theorem reset_keeps : BlockInv State.reset := resetHoldsInv

theorem keeps_ite {p : Prop} [Decidable p] {a b : State} (ha : BlockInv a) (hb : BlockInv b) : BlockInv (if p then a else b) := by
  split
  · exact ha
  · exact hb

section Pairs
variable {α β : Type} {p : Prop} [Decidable p] {t : State} {x : α}

theorem keeps_ite_fst {a b : State × α} (ha : BlockInv a.1) (hb : BlockInv b.1) : BlockInv (if p then a else b).1 := by
  split
  · exact ha
  · exact hb

theorem keeps_ite_snd {a b : α × State} (ha : BlockInv a.2) (hb : BlockInv b.2) : BlockInv (if p then a else b).2 := by
  split
  · exact ha
  · exact hb

theorem keeps_ite_pair {a b : State} {y : α} (ha : BlockInv a) (hb : BlockInv b) : BlockInv (if p then (a, x) else (b, y)).1 := keeps_ite_fst ha hb

theorem keeps_fst {r : State × α} (h : BlockInv r.1) (e : r = (t, x)) : BlockInv t := by rwa [e] at h

/-- A run that carries an answer beside the state keeps the invariant if each of its steps does. -/
theorem keeps_foldl_fst {f : State × α → β → State × α} {l : List β} {r : State × α} (hf : ∀ r b, BlockInv r.1 → BlockInv (f r b).1)
    (h : BlockInv r.1) : BlockInv (l.foldl f r).1 := by
  induction l generalizing r with
  | nil => exact h
  | cons b l ih => exact ih (hf r b h)

theorem keeps_foldl_snd {f : α × State → β → α × State} {l : List β} {r : α × State} (hf : ∀ r b, BlockInv r.2 → BlockInv (f r b).2)
    (h : BlockInv r.2) : BlockInv (l.foldl f r).2 := by
  induction l generalizing r with
  | nil => exact h
  | cons b l ih => exact ih (hf r b h)

theorem keeps_foldl_pair {f : State × α → β → State × α} {l : List β} {s : State} (hf : ∀ r b, BlockInv r.1 → BlockInv (f r b).1)
    (h : BlockInv s) : BlockInv (l.foldl f (s, x)).1 := keeps_foldl_fst hf h

end Pairs

/-- A state that may be missing has the invariant where there is one. -/
def KeepsOpt (o : Option State) : Prop := ∀ t, o = some t → BlockInv t

theorem keepsOpt_none : KeepsOpt none := fun _ h => nomatch h

theorem keepsOpt_some {s : State} (h : BlockInv s) : KeepsOpt (some s) := fun _ e => Option.some.inj e ▸ h

theorem keepsOpt_ite {p : Prop} [Decidable p] {a b : Option State} (ha : KeepsOpt a) (hb : KeepsOpt b) :
    KeepsOpt (if p then a else b) := by
  split
  · exact ha
  · exact hb

theorem keeps_getD {o : Option State} {d : State} (ho : KeepsOpt o) (hd : BlockInv d) : BlockInv (o.getD d) := by
  cases o with
  | none => exact hd
  | some t => exact ho t rfl

/-- A state that may be refused with a status has the invariant where it is not. -/
def KeepsOk (r : Except Nat State) : Prop := ∀ t, r = .ok t → BlockInv t

theorem keepsOk_error (st : Nat) : KeepsOk (.error st) := fun _ h => nomatch h

theorem keepsOk_ok {s : State} (h : BlockInv s) : KeepsOk (.ok s) := fun _ e => Except.ok.inj e ▸ h

theorem keepsOk_ite {p : Prop} [Decidable p] {a b : Except Nat State} (ha : KeepsOk a) (hb : KeepsOk b) : KeepsOk (if p then a else b) := by
  split
  · exact ha
  · exact hb

theorem refuseOr_keeps {s go : State} (hs : BlockInv s) (hgo : BlockInv go) (c : Cmd) (chk : Option Nat) :
    KeepsOpt (refuseOr s c chk go) := by
  unfold refuseOr
  split
  · exact keepsOpt_some (finish_keeps hs ..)
  · exact keepsOpt_some hgo

end Sys2Proof.Machine
end

section
/-! SUPPORT. The invariant through the work of commands, memory, the network and tables. -/

namespace Sys2Proof.Machine

theorem settingNote_keeps {s : State} (h : BlockInv s) (a : Nat) : BlockInv (settingNote s a) :=
  upd_keeps h

theorem takeFree_keeps {s : State} (h : BlockInv s) : BlockInv (takeFree s).2 :=
  upd_keeps h

theorem flashWrite_keeps {s : State} (h : BlockInv s) (a : Nat) (bs : List Byte) : BlockInv (flashWrite s a bs) := by
  unfold flashWrite
  dsimp only
  exact upd_keeps h

theorem markPort_keeps {s : State} (h : BlockInv s) (unit : Nat) : BlockInv (markPort s unit) :=
  keeps_ite h (csrSetField_keeps h ..)

theorem requestTakeover_keeps {s : State} (h : BlockInv s) (unit check : Nat) : BlockInv (requestTakeover s unit check) := by
  unfold requestTakeover
  dsimp only
  exact upd_keeps (csrSetField_keeps (snagRecord_keeps h ..) ..)

theorem noteCorr_keeps {s : State} (h : BlockInv s) (kind unit pos : Nat) : BlockInv (noteCorr s kind unit pos) := by
  unfold noteCorr
  dsimp only
  exact upd_keeps h

theorem forgetCorr_keeps {s : State} (h : BlockInv s) (kind unit : Nat) : BlockInv (forgetCorr s kind unit) := by
  unfold forgetCorr
  dsimp only
  exact upd_keeps h

theorem touchAll_keeps {s : State} (h : BlockInv s) (l : List (Nat × Nat)) : BlockInv (touchAll l s).1 := by
  unfold touchAll
  exact keeps_foldl_pair (fun _ _ hr => touchMem_keeps hr ..) h

theorem portGrant_keeps {s : State} (h : BlockInv s) (a port tport cls : Nat) : BlockInv (portGrant s a port tport cls) := by
  unfold portGrant
  dsimp only
  split
  · exact upd_keeps h
  · exact upd_keeps h
  · exact h

theorem coreWrite_keeps {s : State} (h : BlockInv s) (pc off : Nat) (bs : List Byte) : BlockInv (coreWrite s pc off bs) := by
  unfold coreWrite
  dsimp only
  exact upd_keeps h

theorem tilePut_keeps {s : State} (h : BlockInv s) (pe t : Nat) (x : Tile) : BlockInv (tilePut s pe t x) := by
  unfold tilePut
  dsimp only
  exact upd_keeps h

theorem spaceRead_keeps {s : State} (h : BlockInv s) (c : IoCtx) (space a n : Nat) : BlockInv (spaceRead s c space a n).1 := by
  unfold spaceRead
  dsimp only
  split
  · exact readMem_keeps h ..
  · exact h
  · exact keeps_foldl_pair (fun _ _ hr => readMem_keeps hr ..) h

theorem spaceWrite_keeps {s : State} (h : BlockInv s) (c : IoCtx) (space a : Nat) (bs : List Byte) : BlockInv (spaceWrite s c space a bs).1 := by
  unfold spaceWrite
  dsimp only
  split
  · exact writeMem_keeps h ..
  · exact coreWrite_keeps h ..
  · exact keeps_foldl_pair (fun _ _ hr => writeMem_keeps hr ..) h

theorem readCodes_keeps {s : State} (h : BlockInv s) (c : IoCtx) (d : Desc) : BlockInv (readCodes s c d).1 := by
  unfold readCodes
  dsimp only
  exact spaceRead_keeps h ..

theorem readExps_keeps {s : State} (h : BlockInv s) (c : IoCtx) (d : Desc) : BlockInv (readExps s c d).1 := by
  unfold readExps
  dsimp only
  exact keeps_ite_pair (spaceRead_keeps h ..) h

theorem readVals_keeps {s : State} (h : BlockInv s) (c : IoCtx) (d : Desc) : BlockInv (readVals s c d).1 := by
  unfold readVals
  dsimp only
  exact readExps_keeps (readCodes_keeps h ..) ..

theorem writeFloats_keeps {s : State} (h : BlockInv s) (c : IoCtx) (d : Desc) (f : Fmt) (rows : List (List FV)) : BlockInv
    (writeFloats s c d f rows).1 :=
  spaceWrite_keeps h ..

theorem writeBlocks_keeps {s : State} (h : BlockInv s) (c : IoCtx) (d : Desc) (codes exps : List (List Nat)) : BlockInv
    (writeBlocks s c d codes exps).1 := by
  unfold writeBlocks
  dsimp only
  exact spaceWrite_keeps (spaceWrite_keeps h ..) ..

theorem corePutFloats_keeps {s : State} (h : BlockInv s) (pc off : Nat) (vs : List FV) : BlockInv (corePutFloats s pc off vs) :=
  coreWrite_keeps h ..

theorem sendFrame_keeps {s : State} (h : BlockInv s) (port : Nat) (ip : List Byte) (sport dport cls : Nat) (payload : List Byte) : BlockInv
    (sendFrame s port ip sport dport cls payload) := by
  unfold sendFrame
  dsimp only
  exact upd_keeps h

theorem rxMark_keeps {s : State} (h : BlockInv s) (src chan seq code : Nat) : BlockInv (rxMark s src chan seq code) := by
  unfold rxMark
  dsimp only
  exact upd_keeps h

theorem rxTouch_keeps {s : State} (h : BlockInv s) (src chan : Nat) : BlockInv (rxTouch s src chan) := by
  unfold rxTouch
  dsimp only
  exact upd_keeps h

theorem issueNow_keeps {s : State} (h : BlockInv s) (r : OpReq) : BlockInv (issueNow s r) := by
  unfold issueNow
  dsimp only
  exact keeps_foldl _ (fun _ _ ht => sendPkt_keeps ht ..) _ (upd_keeps h)

theorem issueOrWait_keeps {s : State} (h : BlockInv s) (r : OpReq) : BlockInv (issueOrWait s r) := by
  unfold issueOrWait
  dsimp only
  exact keeps_ite (upd_keeps h) (issueNow_keeps h ..)

theorem issueOp_keeps {s : State} (h : BlockInv s) (owner : OpOwner) (id kind peer chan cls addr : Nat) (data : List Byte) (len : Nat) : BlockInv
    (issueOp s owner id kind peer chan cls addr data len).1 :=
  keeps_ite_pair h (issueOrWait_keeps h ..)

theorem pumpOps_keeps {s : State} (h : BlockInv s) : BlockInv (pumpOps s) := by
  unfold pumpOps
  dsimp only
  exact keeps_foldl _ (fun _ _ ht => issueOrWait_keeps ht ..) _ (upd_keeps h)

theorem dropOp_keeps {s : State} (h : BlockInv s) (o : ScrimOp) : BlockInv (dropOp s o) := by
  unfold dropOp
  dsimp only
  exact pumpOps_keeps (upd_keeps h)

theorem putOp_keeps {s : State} (h : BlockInv s) (old new : ScrimOp) : BlockInv (putOp s old new) := by
  unfold putOp
  dsimp only
  exact upd_keeps h

theorem fly_keeps {s : State} (h : BlockInv s) (c : Cmd) : BlockInv (fly s c) := by
  unfold fly
  dsimp only
  exact upd_keeps h

theorem markTimely_keeps {s : State} (h : BlockInv s) : BlockInv (markTimely s) :=
  queues_keeps h List.length_mapIdx

theorem cmdAnswer_keeps {s : State} (h : BlockInv s) (c : Cmd) (a : Nat) (bs result : List Byte) : BlockInv (cmdAnswer s c a bs result) := by
  unfold cmdAnswer
  dsimp only
  exact keeps_ite (complete_keeps (cmdWrite_keeps h ..) ..) (finish_keeps (cmdWrite_keeps h ..) ..)

theorem cmdState_keeps {s : State} (h : BlockInv s) (p : Packet) : BlockInv (cmdState p s) := by
  unfold cmdState
  split
  next t e0 =>
    have ht : BlockInv t := keeps_fst (acceptScrim_keeps h ..) e0
    exact ht
  next t _ _ e0 =>
    have ht : BlockInv t := keeps_fst (acceptScrim_keeps h ..) e0
    exact sequenced_keeps ht _ _ _ (fun hs => keeps_ite_pair hs (placeEntry_keeps hs ..))

theorem blockPut_keeps {s : State} (h : BlockInv s) (b : Nat) (x : Block) : BlockInv (blockPut s b x) :=
  keeps_ite (upd_keeps h) (upd_keeps h)

theorem chanPut_keeps {s : State} (h : BlockInv s) (b c : Nat) (x : Chan) : BlockInv (chanPut s b c x) := by
  unfold chanPut
  dsimp only
  exact blockPut_keeps h ..

theorem tallyBump_keeps {s : State} (h : BlockInv s) (b t n : Nat) : BlockInv (tallyBump s b t n) := by
  unfold tallyBump
  dsimp only
  exact keeps_ite h (blockPut_keeps h ..)

theorem csrRead_keeps {s : State} (h : BlockInv s) (f : RegFam) (a : Nat) : BlockInv (csrRead s f a).2 := by
  unfold csrRead
  dsimp only
  exact keeps_ite h (csrPut_keeps h ..)

theorem csrReads_keeps {s : State} (h : BlockInv s) (a n : Nat) : BlockInv (csrReads s a n).2 := by
  unfold csrReads
  dsimp only
  exact keeps_foldl_snd (fun _ _ hr => (by
    split
    · exact csrRead_keeps hr ..
    · exact hr)) h

theorem csrWrite_keeps {s : State} (h : BlockInv s) (a v : Nat) : BlockInv (csrWrite s a v).2 := by
  unfold csrWrite
  dsimp only
  split
  · exact h
  · exact keeps_ite_snd h (by
      split
      · exact h
      · exact keeps_ite_snd (upd_keeps (csrPut_keeps (keeps_ite (settingNote_keeps h ..) h) ..)) (csrPut_keeps (keeps_ite
          (settingNote_keeps h ..) h) ..))

theorem bodyIdentify_keeps {s : State} (h : BlockInv s) (c : Cmd) : KeepsOpt (bodyIdentify c s) :=
  keepsOpt_some (complete_keeps h ..)

theorem bodyReadCsr_keeps {s : State} (h : BlockInv s) (c : Cmd) : KeepsOpt (bodyReadCsr c s) := by
  unfold bodyReadCsr
  dsimp only
  split
  · exact keepsOpt_some (finish_keeps h ..)
  · exact keepsOpt_ite (keepsOpt_some (finish_keeps h ..)) (keepsOpt_ite (keepsOpt_some (finish_keeps h ..)) (keepsOpt_ite (keepsOpt_some
      (finish_keeps h ..)) (keepsOpt_ite (keepsOpt_some (complete_keeps (csrReads_keeps h ..) ..)) (keepsOpt_some (cmdAnswer_keeps
      (csrReads_keeps h ..) ..)))))

theorem bodyWriteCsr_keeps {s : State} (h : BlockInv s) (c : Cmd) : KeepsOpt (bodyWriteCsr c s) := by
  unfold bodyWriteCsr
  dsimp only
  exact keepsOpt_some (finish_keeps (csrWrite_keeps h ..) ..)

theorem identifyState_keeps {s : State} (h : BlockInv s) (q qseq : Nat) : BlockInv (identifyState q qseq s) :=
  hostRow_keeps h _ _ _ _ (fun _ _ t ht => bodyIdentify_keeps ht _ t)

theorem readCsrState_keeps {s : State} (h : BlockInv s) (q qseq : Nat) : BlockInv (readCsrState q qseq s) :=
  hostRow_keeps h _ _ _ _ (fun _ _ t ht => bodyReadCsr_keeps ht _ t)

theorem writeCsrState_keeps {s : State} (h : BlockInv s) (q qseq : Nat) : BlockInv (writeCsrState q qseq s) :=
  hostRow_keeps h _ _ _ _ (fun _ _ t ht => bodyWriteCsr_keeps ht _ t)

theorem setStepState_keeps {s : State} (h : BlockInv s) (v : Nat) : BlockInv (setStepState s v) :=
  csrSetField_keeps h ..

theorem setPhase_keeps {s : State} (h : BlockInv s) (v : Nat) : BlockInv (setPhase s v) := by
  unfold setPhase
  dsimp only
  exact keeps_ite (upd_keeps h) (setStepState_keeps h ..)

theorem readTable_keeps {s : State} (h : BlockInv s) (a n : Nat) : BlockInv (readTable s a n).1 := by
  unfold readTable
  dsimp only
  exact readMem_keeps h ..

theorem tensorPut_keeps {s : State} (h : BlockInv s) (i : Nat) (t : Tensor) : BlockInv (tensorPut s i t) := by
  unfold tensorPut
  dsimp only
  exact upd_keeps h

theorem setPreg_keeps {s : State} (h : BlockInv s) (n valid b base len : Nat) : BlockInv (setPreg s n valid b base len) :=
  csrPut_keeps (csrPut_keeps h ..) ..

theorem applyRegion_keeps {s : State} (h : BlockInv s) (b : List Byte) : KeepsOk (applyRegion s b) := by
  have hjob (j : JobSt) : BlockInv { s with job := j } := upd_keeps h
  unfold applyRegion
  dsimp only
  refine keepsOk_ite (keepsOk_error _) (keepsOk_ite (keepsOk_error _) ?_)
  split
  · exact keepsOk_ite (keepsOk_error _) (keepsOk_ite (keepsOk_error _) (keepsOk_ok (csrSetField_keeps h ..)))
  · exact keepsOk_ite (keepsOk_error _) (keepsOk_ite (keepsOk_ok (setPreg_keeps h ..)) (keepsOk_ite (keepsOk_error _) (keepsOk_ok
      (setPreg_keeps h ..))))
  · exact keepsOk_ite (keepsOk_error _) (keepsOk_ok (hjob _))
  · exact keepsOk_ite (keepsOk_error _) (keepsOk_ok (hjob _))
  · exact keepsOk_ok (hjob _)
  · exact keepsOk_ite (keepsOk_ok (hjob _)) (keepsOk_ite (keepsOk_error _) (keepsOk_ok (csrPut64_keeps (csrPut_keeps (hjob _) ..) ..)))
  · exact keepsOk_ok (hjob _)
  · exact keepsOk_ok (csrPut_keeps (csrPut_keeps (upd_keeps h) ..) ..)
  · exact keepsOk_ite (keepsOk_ok (hjob _)) (keepsOk_ite (keepsOk_error _) (keepsOk_ok (hjob _)))
  · exact keepsOk_ite (keepsOk_error _) (keepsOk_ite (keepsOk_ok (hjob _)) (keepsOk_ok (hjob _)))
  · exact keepsOk_error _

theorem applyRegions_keeps {s : State} (h : BlockInv s) (l : List (List Byte)) : KeepsOk (applyRegions l s) := by
  induction l generalizing s with
  | nil => exact keepsOk_ok h
  | cons b r ih =>
    unfold applyRegions
    split
    next t e => exact ih (applyRegion_keeps h b t e)
    · exact keepsOk_error _

theorem readScales_keeps {s : State} (h : BlockInv s) (t j k : Nat) : BlockInv (readScales s t j k).1 := by
  unfold readScales
  dsimp only
  split
  · exact h
  · exact readMem_keeps h ..

theorem readFold_keeps {s : State} (h : BlockInv s) (a k : Nat) : BlockInv (readFold s a k).1 := by
  unfold readFold
  dsimp only
  exact readMem_keeps h ..

theorem orNone_keeps {s : State} (h : BlockInv s) (en : Bool) (r : State → State × Option (List FV))
    (hr : ∀ t, BlockInv t → BlockInv (r t).1) : BlockInv (orNone en s r).1 := keeps_ite_fst (hr s h) h

theorem readHi_keeps {s : State} (h : BlockInv s) (t : Tensor) (j g : Nat) : BlockInv (readHi s t j g).1 := by
  unfold readHi
  dsimp only
  split
  · exact h
  · exact readMem_keeps h ..

theorem levelGroup_keeps {s : State} (h : BlockInv s) (t : Tensor) (j g : Nat) : BlockInv (levelGroup s t j g).1 := by
  unfold levelGroup
  dsimp only
  exact orNone_keeps (orNone_keeps (readHi_keeps h ..) _ _ (fun _ ht => readScales_keeps ht ..)) _ _ (fun _ ht => readFold_keeps ht ..)

theorem levelGroups_keeps {s : State} (h : BlockInv s) (t : Tensor) (j n g : Nat) : BlockInv (levelGroups t j n g s).1 := by
  induction n generalizing s g with
  | zero => exact h
  | succ n ih => exact ih (levelGroup_keeps h ..) ..

theorem levelWeights_keeps {s : State} (h : BlockInv s) (t : Tensor) (j e n : Nat) : BlockInv (levelWeights s t j e n).1 := by
  unfold levelWeights
  dsimp only
  exact levelGroups_keeps h ..

theorem ownTiles_keeps {s : State} (hs : BlockInv s) (h : RunHead) (op : Nat) : BlockInv (ownTiles s h op) := by
  unfold ownTiles
  dsimp only
  exact keeps_foldl _ (fun _ _ ht => keeps_foldl _ (fun _ _ hu => keeps_foldl _ (fun _ _ hv => tilePut_keeps hv ..) _ hu) _ ht) _ hs

theorem releaseTiles_keeps {s : State} (hs : BlockInv s) (h : RunHead) (op : Nat) (fault : Bool) : BlockInv (releaseTiles s h op fault) := by
  unfold releaseTiles
  dsimp only
  exact keeps_foldl _ (fun _ _ ht => keeps_foldl _ (fun _ _ hu => keeps_foldl _ (fun _ _ hv => keeps_ite hv (keeps_ite (tilePut_keeps hv ..)
      (tilePut_keeps hv ..))) _ hu) _ ht) _ hs

theorem holdClocks_keeps {s : State} (h : BlockInv s) : BlockInv (holdClocks s) :=
  upd_keeps h

theorem unhold_keeps {s : State} (h : BlockInv s) (q qseq : Nat) : BlockInv (unhold s q qseq) :=
  upd_keeps h

theorem takeRun_keeps {s : State} (h : BlockInv s) (c : Cmd) : BlockInv (takeRun c s) := by
  unfold takeRun
  dsimp only
  exact keeps_ite (finish_keeps h ..) (by
    split
    · exact finish_keeps h ..
    · exact finish_keeps h ..
    · exact keeps_ite (finish_keeps h ..) (upd_keeps (fly_keeps (ownTiles_keeps h ..) ..)))

theorem runWait_keeps {s : State} (h : BlockInv s) (c : Cmd) : KeepsOpt (runWait c s) := by
  unfold runWait
  dsimp only
  exact keepsOpt_ite (keepsOpt_some h) (keepsOpt_ite keepsOpt_none (keepsOpt_ite keepsOpt_none (keepsOpt_some (holdClocks_keeps (upd_keeps h)))))

theorem readDescs_keeps {s : State} (hs : BlockInv s) (h : RunHead) : BlockInv (readDescs s h).1 := by
  unfold readDescs
  dsimp only
  exact touchAll_keeps hs ..

theorem runChecked_keeps {s : State} (h : BlockInv s) (c : Cmd) : BlockInv (runChecked c s) :=
  keeps_ite (finish_keeps h ..) (takeRun_keeps h ..)

theorem runBegin_keeps {s : State} (h : BlockInv s) (c : Cmd) : BlockInv (runBegin c s) := by
  unfold runBegin
  dsimp only
  exact keeps_ite (runChecked_keeps (readDescs_keeps h ..) ..) (finish_keeps (readDescs_keeps h ..) ..)

theorem runState_keeps {s : State} (h : BlockInv s) (q qseq : Nat) : BlockInv (runState q qseq s) :=
  waitRow_keeps h _ _ _ _ _ (fun _ _ t ht => runWait_keeps ht _ t) (fun _ _ ht => runBegin_keeps ht ..)

theorem runLevelState_keeps {s : State} (h : BlockInv s) (q qseq : Nat) : BlockInv (runLevelState q qseq s) :=
  waitRow_keeps h _ _ _ _ _ (fun _ _ t ht => runWait_keeps ht _ t) (fun _ _ ht => runBegin_keeps ht ..)

theorem takeTilesState_keeps {s : State} (h : BlockInv s) (core : Nat) : BlockInv (takeTilesState core s) := by
  unfold takeTilesState
  split
  · exact h
  · exact keeps_ite h (keeps_ite (finish_keeps (markBegun_keeps (unhold_keeps h ..) ..) ..) (holdClocks_keeps (runBegin_keeps (markBegun_keeps
      (unhold_keeps h ..) ..) ..)))

theorem tileConflictState_keeps {s : State} (h : BlockInv s) (q qseq : Nat) : BlockInv (tileConflictState q qseq s) := by
  unfold tileConflictState
  split
  · exact h
  · split
    · exact h
    · exact keeps_ite h (finish_keeps (markBegun_keeps (unhold_keeps h ..) ..) ..)

theorem setCause_keeps {s : State} (h : BlockInv s) (pc recipe causes : Nat) : BlockInv (setCause s pc recipe causes) := by
  unfold setCause
  dsimp only
  exact keeps_ite h (keeps_ite (csrSetField_keeps (csrSetField_keeps h ..) ..) (csrSetField_keeps h ..))

theorem runCompleteState_keeps {s : State} (h : BlockInv s) (op : Nat) : BlockInv (runCompleteState op s) := by
  unfold runCompleteState
  dsimp only
  split
  · exact h
  · exact keeps_ite h (complete_keeps (keeps_ite (upd_keeps (keeps_foldl _ (fun _ _ ht => setCause_keeps ht ..) _ (releaseTiles_keeps
      (upd_keeps h) ..))) (keeps_foldl _ (fun _ _ ht => setCause_keeps ht ..) _ (releaseTiles_keeps (upd_keeps h) ..))) ..)

theorem copyCore_keeps {s : State} (h : BlockInv s) (a b : Nat) : BlockInv (copyCore s a b) := by
  unfold copyCore
  dsimp only
  exact upd_keeps h

theorem exchangeCore_keeps {s : State} (h : BlockInv s) (n k : Nat) : BlockInv (exchangeCore s n k) := by
  unfold exchangeCore
  dsimp only
  exact csrSetField_keeps (copyCore_keeps h ..) ..

theorem markRetired_keeps {s : State} (h : BlockInv s) (unit : Nat) : BlockInv (markRetired s unit) := by
  unfold markRetired
  dsimp only
  exact upd_keeps h

theorem syncAvail_keeps {s : State} (h : BlockInv s) : BlockInv (syncAvail s) := by
  unfold syncAvail
  dsimp only
  exact csrSetField_keeps h ..

theorem discardPending_keeps {s : State} (h : BlockInv s) : BlockInv (discardPending s) := by
  unfold discardPending
  dsimp only
  exact upd_keeps h

theorem restoreHawk_keeps {s : State} (h : BlockInv s) : BlockInv (restoreHawk s) := by
  unfold restoreHawk
  dsimp only
  exact upd_keeps h

theorem dropStreams_keeps {s : State} (h : BlockInv s) : BlockInv (dropStreams s) := by
  unfold dropStreams
  dsimp only
  exact upd_keeps h

theorem dropTiles_keeps {s : State} (h : BlockInv s) (ops : List Nat) : BlockInv (dropTiles s ops) := by
  unfold dropTiles
  dsimp only
  exact upd_keeps h

theorem replayStep_keeps {s : State} (h : BlockInv s) : BlockInv (replayStep s) := by
  have hv (b : Bool) (l : List Nat) : BlockInv (if b = true then setStepState (dropStreams (restoreHawk (discardPending (dropTiles s l)))) sOpen
      else setStepState (dropStreams (restoreHawk (discardPending (dropTiles s l)))) sReplaying) :=
    have hu := dropStreams_keeps (restoreHawk_keeps (discardPending_keeps (dropTiles_keeps h l)))
    keeps_ite (setStepState_keeps hu _) (setStepState_keeps hu _)
  unfold replayStep
  dsimp only
  exact ⟨(hv _ _).bytes, (hv _ _).csr, by simp [h.queues], (hv _ _).children⟩

theorem abortOpen_keeps {s : State} (h : BlockInv s) : BlockInv (abortOpen s) := by
  unfold abortOpen
  dsimp only
  have hfinished (t : State) (ht : BlockInv t) (cs : List Cmd) : BlockInv (cs.foldl (fun s c => finish s c stFault) t) :=
    keeps_foldl _ (fun _ _ hu => finish_keeps hu ..) cs ht
  have hdropped := dropStreams_keeps (dropTiles_keeps (s := { s with runs := [], held := [] }) (upd_keeps h) ((s.flights.map (·.cmd)).map (·.op)))
  refine keeps_foldl _ (fun t x ht => ?_) _ (keeps_foldl _ (fun t x ht => ?_) _ (hfinished _ (csrSetField_keeps ?_ ..) _))
  · split
    · exact finish_keeps (markBegun_keeps ht ..) ..
    · exact ht
  · split
    · exact finish_keeps (markBegun_keeps ht ..) ..
    · exact ht
  · exact ⟨hdropped.bytes, hdropped.csr, by simpa using hdropped.queues, hdropped.children⟩

theorem readLog_keeps {s : State} (h : BlockInv s) : BlockInv (readLog s).1 := by
  unfold readLog
  dsimp only
  exact readMem_keeps h ..

theorem orderReplay_keeps {s : State} (h : BlockInv s) (unit check : Nat) : BlockInv (orderReplay s unit check) := by
  unfold orderReplay
  dsimp only
  exact keeps_ite (snagRecord_keeps h ..) (keeps_ite (abortOpen_keeps (snagRecord_keeps h ..)) (by
    split
    · exact abortOpen_keeps (readLog_keeps (snagRecord_keeps h ..))
    · exact replayStep_keeps (upd_keeps (readLog_keeps (snagRecord_keeps h ..)))))

theorem carryPrograms_keeps {s : State} (h : BlockInv s) (a b : Nat) : BlockInv (carryPrograms s a b) := by
  unfold carryPrograms
  dsimp only
  exact blockPut_keeps (blockPut_keeps h ..) ..

theorem clusterOut_keeps {s : State} (h : BlockInv s) (n check : Nat) : BlockInv (clusterOut s n check) := by
  unfold clusterOut
  dsimp only
  split
  · exact h
  · exact keeps_ite (syncAvail_keeps (csrSetField_keeps h ..)) (by
      split
      · exact keeps_ite (syncAvail_keeps (csrSetField_keeps h ..)) (orderReplay_keeps (carryPrograms_keeps (syncAvail_keeps (csrSetField_keeps
          (csrSetField_keeps h ..) ..)) ..) ..)
      · exact requestTakeover_keeps (syncAvail_keeps (csrSetField_keeps h ..)) ..)

theorem retireCluster_keeps {s : State} (h : BlockInv s) (n check : Nat) : BlockInv (retireCluster s n check) := by
  unfold retireCluster
  dsimp only
  exact keeps_ite (clusterOut_keeps (markRetired_keeps h ..) ..) (upd_keeps (markRetired_keeps h ..))

theorem mapChanges_keeps {s : State} (h : BlockInv s) : BlockInv (mapChanges s) := by
  unfold mapChanges
  dsimp only
  exact keeps_foldl _ (fun _ _ ht => clusterOut_keeps ht ..) _ (upd_keeps h)

theorem takeSpares_keeps {s : State} (h : BlockInv s) (n : Nat) : BlockInv (takeSpares s n) := by
  unfold takeSpares
  dsimp only
  exact keeps_foldl _ (fun _ _ ht => csrSetField_keeps (csrSetField_keeps ht ..) ..) _ (upd_keeps h)

theorem markCore_keeps {s : State} (h : BlockInv s) (n p : Nat) : BlockInv (markCore s n p) := by
  unfold markCore
  dsimp only
  exact markRetired_keeps (csrSetField_keeps h ..) ..

theorem saveFails_keeps {s : State} (h : BlockInv s) (n p : Nat) : BlockInv (saveFails s n p) := by
  unfold saveFails
  dsimp only
  exact orderReplay_keeps (snagRecord_keeps (upd_keeps h) ..) ..

theorem retireCore_keeps {s : State} (h : BlockInv s) (n p check : Nat) : BlockInv (retireCore s n p check) := by
  unfold retireCore
  dsimp only
  exact keeps_ite (takeSpares_keeps h ..) (by
    split
    · exact csrSetField_keeps (markCore_keeps (takeSpares_keeps h ..) ..) ..
    · exact keeps_ite (keeps_ite (retireCluster_keeps (csrSetField_keeps (markCore_keeps (markCore_keeps (upd_keeps
        (takeSpares_keeps h ..)) ..) ..) ..) ..) (saveFails_keeps (takeSpares_keeps h ..) ..)) (keeps_ite (csrSetField_keeps (exchangeCore_keeps
        (markCore_keeps (takeSpares_keeps h ..) ..) ..) ..) (retireCluster_keeps (markCore_keeps (takeSpares_keeps h ..) ..) ..)))

theorem remapChannel_keeps {s : State} (h : BlockInv s) (b p : Nat) : BlockInv (remapChannel s b p).1 := by
  unfold remapChannel
  dsimp only
  split
  · exact h
  · split
    · exact h
    · exact blockPut_keeps h ..

theorem retireChan_keeps {s : State} (h : BlockInv s) (unit b p check : Nat) : BlockInv (retireChan s unit b p check) := by
  unfold retireChan
  dsimp only
  exact keeps_ite (remapChannel_keeps h ..) (keeps_ite (requestTakeover_keeps (remapChannel_keeps h ..) ..) (retireCluster_keeps
      (remapChannel_keeps h ..) ..))

theorem retireUnit_keeps {s : State} (h : BlockInv s) (unit check : Nat) : BlockInv (retireUnit s unit check) := by
  unfold retireUnit
  dsimp only
  split
  · exact retireCore_keeps (markRetired_keeps h ..) ..
  · exact retireCore_keeps h ..
  · split
    · exact retireLater_keeps (markRetired_keeps h ..) ..
    · exact keeps_ite (requestTakeover_keeps (markRetired_keeps h ..) ..) (retireCluster_keeps h ..)
  · exact keeps_ite (requestTakeover_keeps (markRetired_keeps h ..) ..) (retireLater_keeps (markRetired_keeps h ..) ..)
  · exact markPort_keeps (markRetired_keeps h ..) ..
  · exact requestTakeover_keeps (markRetired_keeps (csrSetField_keeps h ..) ..) ..
  · split
    · exact retireLater_keeps (markRetired_keeps h ..) ..
    · exact requestTakeover_keeps (markRetired_keeps h ..) ..

theorem decideEvent_keeps {s : State} (h : BlockInv s) (r : ErrRec) (recurs : Bool) : BlockInv (decideEvent s r recurs) := by
  unfold decideEvent
  dsimp only
  exact keeps_ite (retireUnit_keeps (snagRecord_keeps (upd_keeps h) ..) ..) (snagRecord_keeps (upd_keeps h) ..)

theorem secdedCorrected_keeps {s : State} (h : BlockInv s) (unit word syn : Nat) : BlockInv (secdedCorrected s unit word syn) := by
  unfold secdedCorrected
  dsimp only
  exact keeps_ite (decideEvent_keeps (noteCorr_keeps (noteCorr_keeps (snagRecord_keeps (upd_keeps h) ..) ..) ..) ..) (keeps_ite (decideEvent_keeps
      (noteCorr_keeps (noteCorr_keeps (snagRecord_keeps (upd_keeps h) ..) ..) ..) ..) (noteCorr_keeps (noteCorr_keeps (snagRecord_keeps
      (upd_keeps h) ..) ..) ..))

theorem syncRecovering_keeps {s : State} (h : BlockInv s) : BlockInv (syncRecovering s) :=
  csrSetField_keeps h ..

theorem addSectors_keeps {s : State} (h : BlockInv s) (kind a : Nat) (data : List Byte) (l : List (Nat × Nat)) :
    BlockInv (addSectors kind a data l s).1 := by
  induction l generalizing s with
  | nil => exact h
  | cons p r ih =>
    unfold addSectors
    dsimp only
    split
    · exact ih (readMem_keeps h ..)
    · exact ih (writeMem_keeps (readMem_keeps h ..) ..)

theorem countAddMark_keeps {s : State} (h : BlockInv s) (a : Nat) : BlockInv (countAddMark s a) := by
  unfold countAddMark
  split
  · exact csrBump_keeps h ..
  · exact h

theorem addBlocks_keeps {s : State} (h : BlockInv s) (a e : Nat) (data : List Byte) (n left i : Nat) :
    BlockInv (addBlocks a e data n left i s).1 := by
  induction left generalizing s i with
  | zero => exact h
  | succ left ih =>
    have hread := readMem_keeps (readMem_keeps h (a + 64 * i) 64) (e + i) 1
    unfold addBlocks
    dsimp only
    split
    · have hwritten (bs x : List Byte) := writeMem_keeps (writeMem_keeps hread (a + 64 * i) bs) (e + i) x
      exact ih (keeps_ite (countAddMark_keeps (hwritten ..) ..) (hwritten ..)) ..
    · exact ih hread ..

theorem memAdd_keeps {s : State} (h : BlockInv s) (desc : List Byte) (a : Nat) (data : List Byte) : BlockInv (memAdd s desc a data).1 := by
  unfold memAdd
  dsimp only
  exact keeps_ite_fst h (keeps_ite_fst (keeps_ite_fst h (addBlocks_keeps h ..)) (keeps_ite_fst h (addSectors_keeps h ..)))

end Sys2Proof.Machine
end

section
/-! SUPPORT. The invariant through the Lath and the transport. -/

namespace Sys2Proof.Machine

theorem grant_keeps {s : State} (h : BlockInv s) (base n : Nat) (reqs : List (Nat × Nat)) {j : Nat} {t : State} (e : grant s base n reqs = some
    (j, t)) :
    BlockInv t := by
  unfold grant at e
  split at e
  · exact nomatch e
  · dsimp only at e
    split at e
    · exact nomatch e
    · obtain ⟨-, rfl⟩ := Prod.mk.inj (Option.some.inj e)
      exact upd_keeps h

theorem lathCount_keeps {s : State} (h : BlockInv s) (die k n : Nat) : BlockInv (lathCount s die k n) :=
  csrBump_keeps h ..

theorem injectCells_keeps {s : State} (h : BlockInv s) (die node : Nat) (cs : List Cell) : BlockInv (injectCells s die node cs) := by
  unfold injectCells
  dsimp only
  exact upd_keeps h

theorem lathAck_keeps {s : State} (h : BlockInv s) (die node src tag : Nat) : BlockInv (lathAck s die node src tag) :=
  injectCells_keeps h ..

theorem lathNack_keeps {s : State} (h : BlockInv s) (die node src tag reason addr : Nat) : BlockInv (lathNack s die node src tag reason addr) :=
  injectCells_keeps h ..

theorem lathReply_keeps {s : State} (h : BlockInv s) (die node src tag seq0 total dst tally : Nat) (b : List Byte) : BlockInv
    (lathReply s die node src tag seq0 total dst tally b) :=
  injectCells_keeps h ..

theorem slotPut_keeps {s : State} (h : BlockInv s) (k : Nat) (x : Slot) : BlockInv (slotPut s k x) := by
  unfold slotPut
  dsimp only
  exact upd_keeps h

theorem slotAnswer_keeps {s : State} (h : BlockInv s) (die node src tag ncell : Nat) : BlockInv (slotAnswer s die node src tag ncell) := by
  unfold slotAnswer
  dsimp only
  exact keeps_ite h (by
    split
    · exact lathAck_keeps h ..
    · exact lathNack_keeps h ..)

theorem slotFail_keeps {s : State} (h : BlockInv s) (k reason addr : Nat) : BlockInv (slotFail s k reason addr) := by
  unfold slotFail
  dsimp only
  exact keeps_ite (slotPut_keeps h ..) h

theorem enqueueMem_keeps {s : State} (h : BlockInv s) (r : MemReq) : BlockInv (enqueueMem s r).1 := by
  unfold enqueueMem
  dsimp only
  split
  · exact upd_keeps h
  · exact upd_keeps h
  · exact h

theorem parcelAccess_keeps {s : State} (h : BlockInv s) (die node : Nat) (c : Cell) (kind a n : Nat) (data : List Byte) :
    BlockInv (parcelAccess s die node c kind a n data) := by
  rw [show @parcelAccess = delta% @parcelAccess from rfl]
  beta_reduce
  generalize cellFault s a n = o
  cases o with
  | some r => exact slotFail_keeps h ..
  | none => exact keeps_ite (slotPut_keeps (enqueueMem_keeps h ..) ..) (slotFail_keeps h ..)

theorem writeCell_keeps {s : State} (h : BlockInv s) (die node : Nat) (c : Cell) : BlockInv (writeCell s die node c) := by
  unfold writeCell
  dsimp only
  exact keeps_ite (parcelAccess_keeps h ..) (by
    split
    · exact slotPut_keeps h ..
    · exact parcelAccess_keeps (slotPut_keeps h ..) ..)

theorem serveRead_keeps {s : State} (h : BlockInv s) (die node : Nat) (c : Cell) (a n dst tally : Nat) : BlockInv
    (serveRead s die node c a n dst tally) := by
  rw [show @serveRead = delta% @serveRead from rfl]
  beta_reduce
  generalize cellFault s a n = o
  cases o with
  | some r => exact lathNack_keeps h ..
  | none => exact keeps_foldl _ (fun _ _ ht => enqueueMem_keeps ht ..) _ h

theorem memServed_keeps {s : State} (h : BlockInv s) (r : MemReq) : BlockInv (memServed s r) := by
  unfold memServed
  dsimp only
  split
  · split
    · exact lathReply_keeps (readMem_keeps h ..) ..
    · exact lathNack_keeps (readMem_keeps h ..) ..
  · generalize hserved : (if r.kind = 1 then _ else memAdd _ _ _ _) = w
    have hw : BlockInv w.1 := hserved ▸ keeps_ite_fst (writeMem_keeps h ..) (memAdd_keeps h ..)
    refine keeps_ite hw (slotAnswer_keeps ?_ ..)
    split
    · exact slotFail_keeps (slotPut_keeps hw ..) ..
    · exact slotPut_keeps hw ..

theorem assemblyPut_keeps {s : State} (h : BlockInv s) (node : Nat) (l : List Assembly) : BlockInv (assemblyPut s node l) := by
  unfold assemblyPut
  dsimp only
  exact upd_keeps h

theorem holdCell_keeps {s : State} (h : BlockInv s) (node : Nat) (c : Cell) : BlockInv (holdCell s node c) := by
  unfold holdCell
  dsimp only
  exact keeps_ite (assemblyPut_keeps h ..) (assemblyPut_keeps h ..)

theorem takeAssembly_keeps {s : State} (h : BlockInv s) (node : Nat) (c : Cell) : BlockInv (takeAssembly s node c).1 := by
  unfold takeAssembly
  dsimp only
  exact assemblyPut_keeps h ..

theorem applyAdd_keeps {s : State} (h : BlockInv s) (die node : Nat) (c : Cell) : BlockInv (applyAdd s die node c) := by
  unfold applyAdd
  dsimp only
  exact keeps_ite (slotFail_keeps (takeAssembly_keeps h ..) ..) (keeps_foldl _ (fun _ _ ht => parcelAccess_keeps ht ..) _ (takeAssembly_keeps h ..))

theorem windowRefuse_keeps {s : State} (h : BlockInv s) (c : Cell) (write : Bool) (reason a : Nat) : BlockInv (windowRefuse s c write reason a) := by
  unfold windowRefuse
  dsimp only
  exact lathNack_keeps (keeps_ite (slotFail_keeps h ..) h) ..

theorem windowOp_keeps {s : State} (h : BlockInv s) (c : Cell) (write : Bool) (a n dst tally : Nat) (data : List Byte) : BlockInv
    (windowOp s c write a n dst tally data) := by
  unfold windowOp
  dsimp only
  split
  · exact windowRefuse_keeps h ..
  · split
    · exact issueOp_keeps h ..
    · exact windowRefuse_keeps (issueOp_keeps h ..) ..

theorem acceptCell_keeps {s : State} (h : BlockInv s) (die node : Nat) (c : Cell) : BlockInv (acceptCell s die node c) := by
  unfold acceptCell
  dsimp only
  exact keeps_ite (holdCell_keeps h ..) (keeps_ite (upd_keeps h) (keeps_ite (keeps_ite (upd_keeps h) (holdCell_keeps h ..)) (writeCell_keeps h ..)))

theorem parcelWhole_keeps {s : State} (h : BlockInv s) (die node : Nat) (c : Cell) : BlockInv (parcelWhole s die node c) := by
  unfold parcelWhole
  dsimp only
  exact keeps_ite (slotAnswer_keeps (applyAdd_keeps h ..) ..) (keeps_ite (windowOp_keeps (takeAssembly_keeps h ..) ..) (slotAnswer_keeps
      (keeps_ite (tallyBump_keeps h ..) h) ..))

theorem reassemble_keeps {s : State} (h : BlockInv s) (die node : Nat) (c : Cell) : BlockInv (reassemble s die node c) := by
  unfold reassemble
  dsimp only
  exact keeps_ite (keeps_ite (lathCount_keeps h ..) (slotAnswer_keeps (lathCount_keeps h ..) ..)) (keeps_ite (lathAck_keeps
      (lathCount_keeps h ..) ..) (keeps_ite (parcelWhole_keeps (acceptCell_keeps (slotPut_keeps h ..) ..) ..) (acceptCell_keeps
      (slotPut_keeps h ..) ..)))

theorem readRequest_keeps {s : State} (h : BlockInv s) (die node : Nat) (c : Cell) : BlockInv (readRequest s die node c) := by
  unfold readRequest
  dsimp only
  exact keeps_ite (lathReply_keeps h ..) (keeps_ite (keeps_ite h (windowOp_keeps h ..)) (serveRead_keeps h ..))

theorem ejectCell_keeps {s : State} (h : BlockInv s) (die node : Nat) (c : Cell) : BlockInv (ejectCell s die node c) := by
  unfold ejectCell
  dsimp only
  exact keeps_ite (upd_keeps h) (keeps_ite (readRequest_keeps h ..) (reassemble_keeps h ..))

theorem leaveBy_keeps {s : State} (h : BlockInv s) (plane die node out : Nat) (c : Cell) : BlockInv (leaveBy s plane die node out c) := by
  unfold leaveBy
  dsimp only
  exact upd_keeps h

theorem deflect_keeps {s : State} (h : BlockInv s) (die : Nat) (c : Cell) : BlockInv (deflect s die c).1 :=
  keeps_ite_pair (lathCount_keeps h ..) (lathCount_keeps h ..)

theorem placeCells_keeps {s : State} (h : BlockInv s) (plane die node base fuel : Nat) (cs : List Cell) (free : List Nat) :
    BlockInv (placeCells plane die node base fuel cs free s).1 := by
  induction fuel generalizing s cs free with
  | zero => exact h
  | succ fuel ih =>
    unfold placeCells
    split
    · exact h
    next w t e =>
      have ht : BlockInv t := grant_keeps h _ _ _ e
      split
      · exact ht
      next c _ =>
        have hdeflected : BlockInv (deflect t die c).1 := deflect_keeps ht ..
        dsimp only
        split
        · exact ih ht ..
        next o _ =>
          have hr : BlockInv (if preferred t die node c = some o then (t, some c) else deflect t die c).1 :=
            keeps_ite_fst ht hdeflected
          split
          · exact ih hr ..
          · exact ih (leaveBy_keeps hr ..) ..

theorem parcelMap_keeps {s : State} (h : BlockInv s) (src tag : Nat) (f : Parcel → Parcel) : BlockInv (parcelMap s src tag f) := by
  unfold parcelMap
  dsimp only
  exact chanPut_keeps h ..

theorem noteInjected_keeps {s : State} (h : BlockInv s) (left : List Cell) (c : Cell) : BlockInv (noteInjected s left c) := by
  unfold noteInjected
  dsimp only
  exact keeps_ite (parcelMap_keeps h ..) h

theorem injectOne_keeps {s : State} (h : BlockInv s) (plane die node : Nat) (free : List Nat) : BlockInv (injectOne s plane die node free) := by
  unfold injectOne
  dsimp only
  split
  · exact h
  · split
    · exact h
    next t e0 =>
      have ht : BlockInv t := grant_keeps h _ _ _ e0
      split
      · exact h
      · exact leaveBy_keeps (noteInjected_keeps (upd_keeps ht) ..) ..

theorem linkDrops_keeps {s : State} (h : BlockInv s) (die node n : Nat) : BlockInv (linkDrops s die node n) := by
  unfold linkDrops
  dsimp only
  exact keeps_ite h (keeps_ite (noteCorr_keeps h ..) (reportEvent_keeps (forgetCorr_keeps (noteCorr_keeps h ..) ..) ..))

theorem lathCellArrivalState_keeps {s : State} (h : BlockInv s) (plane die node : Nat) (bad : List Nat) : BlockInv
    (lathCellArrivalState plane die node bad s) := by
  unfold lathCellArrivalState
  dsimp only
  exact keeps_ite h (keeps_ite (placeCells_keeps (by
    split
    next t _ e0 _ =>
      have ht : BlockInv t := grant_keeps (linkDrops_keeps (lathCount_keeps (upd_keeps h) ..) ..) _ _ _ e0
      exact ejectCell_keeps ht ..
    · exact linkDrops_keeps (lathCount_keeps (upd_keeps h) ..) ..) ..) (injectOne_keeps (placeCells_keeps (by
    split
    next t _ e0 _ =>
      have ht : BlockInv t := grant_keeps (linkDrops_keeps (lathCount_keeps (upd_keeps h) ..) ..) _ _ _ e0
      exact ejectCell_keeps ht ..
    · exact linkDrops_keeps (lathCount_keeps (upd_keeps h) ..) ..) ..) ..))

theorem addAssemblyTimeoutState_keeps {s : State} (h : BlockInv s) (node src win : Nat) : BlockInv (addAssemblyTimeoutState node src win s) := by
  unfold addAssemblyTimeoutState
  dsimp only
  split
  · exact h
  · exact keeps_ite h (slotPut_keeps (assemblyPut_keeps h ..) ..)

theorem putRun_keeps {s : State} (hs : BlockInv s) (h : ScHdr) (data : List Byte) : BlockInv (putRun h data s).1 := by
  unfold putRun
  refine keeps_ite_fst hs (keeps_ite_fst (keeps_ite_pair (cmdWrite_keeps hs ..) hs) (keeps_ite_fst hs ?_))
  generalize accessFault s h.addr h.len = o
  cases o with
  | some r => exact hs
  | none => exact writeMem_keeps hs ..

theorem putState_keeps {s : State} (h : BlockInv s) (p : Packet) : BlockInv (putState p s) := by
  unfold putState
  split
  next t e0 =>
    have ht : BlockInv t := keeps_fst (acceptScrim_keeps h ..) e0
    exact ht
  next t _ _ e0 =>
    have ht : BlockInv t := keeps_fst (acceptScrim_keeps h ..) e0
    exact keeps_ite (sequenced_keeps ht _ _ _ (fun hs => putRun_keeps hs ..)) h

theorem accRun_keeps {s : State} (hs : BlockInv s) (h : ScHdr) (data : List Byte) : BlockInv (accRun h data s).1 := by
  unfold accRun
  dsimp only
  exact keeps_ite_fst hs (keeps_ite_fst hs (keeps_ite_fst hs (keeps_ite_fst hs (keeps_ite_fst hs (keeps_ite_fst hs (by
    split
    · exact hs
    · exact memAdd_keeps hs ..))))))

theorem accState_keeps {s : State} (h : BlockInv s) (p : Packet) : BlockInv (accState p s) := by
  unfold accState
  split
  next t e0 =>
    have ht : BlockInv t := keeps_fst (acceptScrim_keeps h ..) e0
    exact ht
  next t _ _ e0 =>
    have ht : BlockInv t := keeps_fst (acceptScrim_keeps h ..) e0
    exact keeps_ite (sequenced_keeps ht _ _ _ (fun hs => accRun_keeps hs ..)) h

theorem getConverted_keeps {s : State} (h : BlockInv s) (c : ConvertRegion) (a n : Nat) : BlockInv (getConverted s c a n).1 := by
  unfold getConverted
  dsimp only
  split
  · exact h
  · exact keeps_ite_fst h (by
      split
      · exact readMem_keeps (readMem_keeps h ..) ..
      · exact readMem_keeps (readMem_keeps h ..) ..)

theorem getRun_keeps {s : State} (hs : BlockInv s) (h : ScHdr) : BlockInv (getRun s h).1 := by
  unfold getRun
  generalize (if inSafe s then none else convertAt s h.addr) = conv
  cases conv with
  | some c => exact getConverted_keeps hs ..
  | none =>
    refine keeps_ite_fst hs (keeps_ite_fst (keeps_ite_pair hs hs) (keeps_ite_fst hs ?_))
    generalize accessFault s h.addr h.len = o
    cases o with
    | some r => exact hs
    | none => exact readMem_keeps hs ..

theorem answerGet_keeps {s : State} (hs : BlockInv s) (p : Packet) (h : ScHdr) (dup mark : Bool) : BlockInv (answerGet s p h dup mark) := by
  unfold answerGet
  dsimp only
  split
  next t _ e0 =>
    have ht : BlockInv t := keeps_fst (getRun_keeps hs ..) e0
    exact sendAnswer_keeps (keeps_ite (rxMark_keeps ht ..) ht) ..
  next t _ e0 =>
    have ht : BlockInv t := keeps_fst (getRun_keeps hs ..) e0
    exact sendNack_keeps (keeps_ite (rxMark_keeps ht ..) ht) ..

theorem getState_keeps {s : State} (h : BlockInv s) (p : Packet) : BlockInv (getState p s) := by
  unfold getState
  dsimp only
  split
  next t e0 =>
    have ht : BlockInv t := keeps_fst (acceptScrim_keeps h ..) e0
    exact ht
  next t _ _ e0 =>
    have ht : BlockInv t := keeps_fst (acceptScrim_keeps h ..) e0
    exact keeps_ite h (by
      split
      · exact answerGet_keeps ht ..
      · exact scrCount_keeps (rxTouch_keeps ht ..) ..
      · exact keeps_ite (answerGet_keeps (scrCount_keeps (rxTouch_keeps ht ..) ..) ..) (sendNack_keeps (scrCount_keeps (rxTouch_keeps ht ..) ..) ..)
      · exact scrCount_keeps (rxTouch_keeps ht ..) ..
      · exact scrCount_keeps ht ..)

theorem packetRetryState_keeps {s : State} (h : BlockInv s) (op idx : Nat) : BlockInv (packetRetryState op idx s) := by
  unfold packetRetryState
  dsimp only
  split
  · exact h
  · split
    · exact h
    · exact sendPkt_keeps (scrCount_keeps (putOp_keeps h ..) ..) ..

theorem channelEvictionState_keeps {s : State} (h : BlockInv s) (src : Nat) : BlockInv (channelEvictionState src s) := by
  unfold channelEvictionState
  dsimp only
  exact upd_keeps h

theorem sendRaw_keeps {s : State} (h : BlockInv s) (port etype : Nat) (body : List Byte) : BlockInv (sendRaw s port etype body) := by
  unfold sendRaw
  dsimp only
  exact upd_keeps h

theorem arpRequestState_keeps {s : State} (h : BlockInv s) (port : Nat) (frame : List Byte) : BlockInv (arpRequestState port frame s) := by
  unfold arpRequestState
  dsimp only
  exact keeps_ite h (keeps_ite h (sendRaw_keeps h ..))

theorem neighbourSolicitationState_keeps {s : State} (h : BlockInv s) (port : Nat) (frame : List Byte) : BlockInv
    (neighbourSolicitationState port frame s) := by
  unfold neighbourSolicitationState
  dsimp only
  exact keeps_ite h (keeps_ite h (sendRaw_keeps h ..))

theorem icmpEchoRequestState_keeps {s : State} (h : BlockInv s) (port : Nat) (frame : List Byte) : BlockInv (icmpEchoRequestState port frame s) := by
  unfold icmpEchoRequestState
  dsimp only
  exact keeps_ite h (keeps_ite (keeps_ite h (keeps_ite (scrCount_keeps h ..) (keeps_ite h (sendRaw_keeps h ..)))) (keeps_ite (keeps_ite h
      (keeps_ite (scrCount_keeps h ..) (keeps_ite h (sendRaw_keeps h ..)))) h))

theorem pauseFrameState_keeps {s : State} (h : BlockInv s) (port : Nat) (_frame : List Byte) : BlockInv (pauseFrameState port _frame s) :=
  keeps_ite (scrCount_keeps h ..) h

end Sys2Proof.Machine
end

section
/-! SUPPORT. The invariant through collectives. -/

namespace Sys2Proof.Machine

theorem setNf_keeps {s : State} (h : BlockInv s) : BlockInv (setNf s) := by
  unfold setNf
  dsimp only
  exact upd_keeps h

theorem colCount_keeps {s : State} (h : BlockInv s) (i n : Nat) : BlockInv (colCount s i n) :=
  csrBump_keeps h ..

theorem collSet_keeps {s : State} (h : BlockInv s) (op : Nat) (f : Coll → Coll) : BlockInv (collSet s op f) := by
  unfold collSet
  dsimp only
  exact upd_keeps h

theorem memberSet_keeps {s : State} (h : BlockInv s) (op j : Nat) (f : Member → Member) : BlockInv (memberSet s op j f) :=
  collSet_keeps h ..

theorem syncVoting_keeps {s : State} (h : BlockInv s) : BlockInv (syncVoting s) :=
  csrSetField_keeps h ..

theorem permuteVoted_keeps {s : State} (h : BlockInv s) (fail : Bool) : BlockInv (permuteVoted s fail) := by
  unfold permuteVoted
  dsimp only
  exact upd_keeps h

theorem collEnd_keeps {s : State} (h : BlockInv s) (c : Coll) (status check : Nat) : BlockInv (collEnd s c status check) := by
  unfold collEnd
  dsimp only
  split
  · split
    · exact orderReplay_keeps (finish_keeps (syncVoting_keeps (upd_keeps h)) ..) ..
    · exact syncVoting_keeps (upd_keeps h)
  · split
    · exact finish_keeps (upd_keeps (syncVoting_keeps (upd_keeps h))) ..
    · exact upd_keeps (syncVoting_keeps (upd_keeps h))
  · exact permuteVoted_keeps (syncVoting_keeps (upd_keeps h)) ..

theorem collFail_keeps {s : State} (h : BlockInv s) (op : Nat) : BlockInv (collFail s op) := by
  unfold collFail
  split
  · exact collEnd_keeps h ..
  · exact h

theorem collWrite_keeps {s : State} (h : BlockInv s) (op a : Nat) (b : List Byte) : BlockInv (collWrite s op a b) := by
  unfold collWrite
  dsimp only
  exact keeps_ite (writeMem_keeps h ..) (collFail_keeps (writeMem_keeps h ..) ..)

theorem collPiece_keeps {s : State} (h : BlockInv s) (op j step cls a : Nat) (data : List Byte) : BlockInv (collPiece s op j step cls a data) := by
  unfold collPiece
  dsimp only
  split
  · exact h
  · split
    · exact issueOp_keeps h ..
    · exact collFail_keeps (issueOp_keeps h ..) ..

theorem collPieces_keeps {s : State} (h : BlockInv s) (op j step cls fuel a : Nat) (d : List Byte) :
    BlockInv (collPieces op j step cls fuel a d s) := by
  induction fuel generalizing s a d with
  | zero => exact h
  | succ fuel ih => exact keeps_ite h (ih (collPiece_keeps h ..) ..)

theorem collSend_keeps {s : State} (h : BlockInv s) (op j step cls a : Nat) (d : List Byte) : BlockInv (collSend s op j step cls a d) :=
  collPieces_keeps h ..

theorem sendRecord_keeps {s : State} (h : BlockInv s) (op j step kind : Nat) : BlockInv (sendRecord s op j step kind) := by
  unfold sendRecord
  split
  · exact h
  · exact collSend_keeps h ..

theorem addContribution_keeps {s : State} (h : BlockInv s) (c : Coll) (r k : Nat) (ms : List Int) : BlockInv (addContribution s c r k ms).1 := by
  unfold addContribution
  dsimp only
  exact keeps_ite_fst (touchMem_keeps h ..) (keeps_ite_fst (touchMem_keeps h ..) (by
    split
    · exact readMem_keeps (touchMem_keeps h ..) ..
    · exact keeps_ite (colCount_keeps (writeMem_keeps (readMem_keeps (touchMem_keeps h ..) ..) ..) ..) (writeMem_keeps (readMem_keeps
        (touchMem_keeps h ..) ..) ..)))

theorem addContributions_keeps {s : State} (h : BlockInv s) (c : Coll) (r : Nat) (l : List (List Byte)) (k : Nat) :
    BlockInv (addContributions c r l k s).1 := by
  induction l generalizing s k with
  | nil => exact h
  | cons b rest ih =>
    have hx := addContribution_keeps h c r k (wireDigits c b)
    exact keeps_ite_fst h (keeps_ite_fst (ih hx ..) hx)

theorem g4Input_keeps {s : State} (h : BlockInv s) (c : Coll) (gs : List (Nat × List Int)) : BlockInv (g4Input s c gs).1 := by
  unfold g4Input
  dsimp only
  exact keeps_ite_fst (colCount_keeps h ..) (by
    split
    · exact h
    · split
      · split
        · exact colCount_keeps (tensorPut_keeps (writeMem_keeps (writeMem_keeps (readMem_keeps (readMem_keeps h ..) ..) ..) ..) ..) ..
        · exact readMem_keeps (readMem_keeps h ..) ..
      · exact h)

theorem readTwo_keeps {s : State} (h : BlockInv s) (a n b m : Nat) : BlockInv (readTwo s a n b m).1 := by
  unfold readTwo
  dsimp only
  exact readMem_keeps (readMem_keeps h ..) ..

theorem phaseInput_keeps {s : State} (h : BlockInv s) (c : Coll) : BlockInv (phaseInput s c).1 := by
  unfold phaseInput
  dsimp only
  exact keeps_ite_fst (by
    split
    · exact readTwo_keeps h ..
    · exact keeps_ite_pair (g4Input_keeps (readTwo_keeps h ..) ..) (readTwo_keeps h ..)) (keeps_ite_fst (by
    split
    · exact readTwo_keeps h ..
    · exact colCount_keeps (readTwo_keeps h ..) ..) (keeps_ite_fst h (keeps_ite_pair h (readMem_keeps h ..))))

theorem collExps_keeps {s : State} (h : BlockInv s) (op j : Nat) : BlockInv (collExps op s j) := by
  unfold collExps
  dsimp only
  split
  · exact h
  · exact keeps_ite h (collSend_keeps (memberSet_keeps h ..) ..)

theorem collGo_keeps {s : State} (h : BlockInv s) (op : Nat) : BlockInv (collGo op s) := by
  unfold collGo
  dsimp only
  split
  · exact h
  · exact keeps_ite h (keeps_foldl _ (fun _ _ ht => keeps_ite ht (sendRecord_keeps ht ..)) _ (memberSet_keeps (collSet_keeps h ..) ..))

theorem ownData_keeps {s : State} (h : BlockInv s) (c : Coll) : BlockInv (ownData s c) := by
  unfold ownData
  dsimp only
  exact keeps_ite (keeps_ite (addContributions_keeps h ..) (collFail_keeps (addContributions_keeps h ..) ..)) (collWrite_keeps h ..)

theorem collData_keeps {s : State} (h : BlockInv s) (op j : Nat) : BlockInv (collData op s j) := by
  unfold collData
  dsimp only
  split
  · exact h
  · exact keeps_ite h (keeps_ite (ownData_keeps (memberSet_keeps h ..) ..) (collSend_keeps (memberSet_keeps h ..) ..))

theorem collDone_keeps {s : State} (h : BlockInv s) (op j : Nat) : BlockInv (collDone op s j) := by
  unfold collDone
  dsimp only
  split
  · exact h
  · exact keeps_ite h (keeps_ite (memberSet_keeps (memberSet_keeps h ..) ..) (sendRecord_keeps (memberSet_keeps h ..) ..))

theorem formShare_keeps {s : State} (h : BlockInv s) (c : Coll) : BlockInv (formShare s c).1 := by
  unfold formShare
  dsimp only
  exact keeps_ite_pair (keeps_ite (setNf_keeps h) h) h

theorem slotReads_keeps {s : State} (h : BlockInv s) (c : Coll) : BlockInv (slotReads s c).1 :=
  keeps_ite_fst (touchAll_keeps h ..) (keeps_ite_fst (touchMem_keeps h ..) h)

theorem collForm_keeps {s : State} (h : BlockInv s) (op : Nat) : BlockInv (collForm op s) := by
  unfold collForm
  dsimp only
  split
  · exact h
  · exact keeps_ite h (keeps_ite (collFail_keeps (slotReads_keeps h ..) ..) (by
      split
      · exact keeps_foldl _ (fun _ _ ht => collWrite_keeps ht ..) _ (formShare_keeps (collSet_keeps (slotReads_keeps h ..) ..) ..)
      · exact keeps_foldl _ (fun _ _ ht => keeps_ite ht (keeps_foldl _ (fun _ _ hu => collSend_keeps hu ..) _ ht)) _ (memberSet_keeps
          (keeps_foldl _ (fun _ _ ht => collWrite_keeps ht ..) _ (formShare_keeps (collSet_keeps (slotReads_keeps h ..) ..) ..)) ..)
      · exact collWrite_keeps (collSet_keeps (slotReads_keeps h ..) ..) ..
      · exact collSet_keeps (slotReads_keeps h ..) ..))

theorem startPhase_keeps {s : State} (h : BlockInv s) (op : Nat) : BlockInv (startPhase s op) := by
  unfold startPhase
  dsimp only
  split
  · exact h
  · split
    · exact collFail_keeps (phaseInput_keeps h ..) ..
    · exact keeps_foldl _ (fun _ _ ht => keeps_ite ht (sendRecord_keeps ht ..)) _ (keeps_ite (collWrite_keeps (memberSet_keeps (keeps_ite
        (clearMem_keeps (clearMem_keeps (collSet_keeps (phaseInput_keeps h ..) ..) ..) ..) (collSet_keeps (phaseInput_keeps h ..) ..)) ..) ..)
        (memberSet_keeps (keeps_ite (clearMem_keeps (clearMem_keeps (collSet_keeps (phaseInput_keeps h ..) ..) ..) ..) (collSet_keeps
        (phaseInput_keeps h ..) ..)) ..))

theorem collFinish_keeps {s : State} (h : BlockInv s) (c : Coll) : BlockInv (collFinish s c) := by
  unfold collFinish
  dsimp only
  split
  · exact collFail_keeps (keeps_ite_fst h (readMem_keeps h ..)) ..
  · split
    · split
      · exact keeps_ite (complete_keeps (tallyBump_keeps (syncVoting_keeps (upd_keeps (keeps_ite_fst h (readMem_keeps h ..)))) ..) ..)
          (finish_keeps (tallyBump_keeps (syncVoting_keeps (upd_keeps (keeps_ite_fst h (readMem_keeps h ..)))) ..) ..)
      · exact syncVoting_keeps (upd_keeps (keeps_ite_fst h (readMem_keeps h ..)))
    · exact upd_keeps (syncVoting_keeps (upd_keeps (keeps_ite_fst h (readMem_keeps h ..))))
    · exact permuteVoted_keeps (syncVoting_keeps (upd_keeps (keeps_ite_fst h (readMem_keeps h ..)))) ..

theorem collNext_keeps {s : State} (h : BlockInv s) (op : Nat) : BlockInv (collNext op s) := by
  unfold collNext
  dsimp only
  split
  · exact h
  · exact keeps_ite h (by
      split
      · exact collFinish_keeps h ..
      · exact startPhase_keeps (collSet_keeps h ..) ..)

theorem collOnce_keeps {s : State} (h : BlockInv s) (op : Nat) : BlockInv (collOnce op s) := by
  unfold collOnce
  dsimp only
  split
  · exact h
  · exact keeps_ite h (collNext_keeps (collForm_keeps (keeps_foldl _ (fun _ _ ht => collDone_keeps ht ..) _ (keeps_foldl _
      (fun _ _ ht => collData_keeps ht ..) _ (collGo_keeps (keeps_foldl _ (fun _ _ ht => collExps_keeps ht ..) _ h) ..))) ..) ..)

theorem takeRecord_keeps {s : State} (h : BlockInv s) (op r src : Nat) (b : List Byte) : BlockInv (takeRecord s op r src b) := by
  unfold takeRecord
  dsimp only
  split
  · exact h
  · exact keeps_ite h (keeps_ite (collEnd_keeps (decideEvent_keeps (keeps_ite (upd_keeps (keeps_ite (setNf_keeps h) h)) (keeps_ite
      (setNf_keeps h) h)) ..) ..) (memberSet_keeps (collSet_keeps (keeps_ite (upd_keeps (keeps_ite (setNf_keeps h) h)) (keeps_ite
      (setNf_keeps h) h)) ..) ..))

theorem takeKept_keeps {s : State} (h : BlockInv s) (op : Nat) : BlockInv (takeKept op s) := by
  unfold takeKept
  dsimp only
  split
  · exact h
  · exact keeps_foldl _ (fun _ _ ht => takeRecord_keeps ht ..) _ (upd_keeps h)

theorem collRounds_keeps {s : State} (h : BlockInv s) (op fuel : Nat) : BlockInv (collRounds op fuel s) := by
  induction fuel generalizing s with
  | zero => exact h
  | succ fuel ih => exact keeps_ite h (ih (collOnce_keeps (takeKept_keeps h ..) ..))

theorem collAdvance_keeps {s : State} (h : BlockInv s) (op : Nat) : BlockInv (collAdvance s op) :=
  collRounds_keeps h ..

theorem collAdvanceAll_keeps {s : State} (h : BlockInv s) : BlockInv (collAdvanceAll s) :=
  keeps_foldl _ (fun _ _ ht => collAdvance_keeps ht ..) _ h

theorem collStart_keeps {s : State} (h : BlockInv s) (c : Cmd) (chan : Nat) : BlockInv (collStart s c chan) := by
  unfold collStart
  dsimp only
  exact collAdvance_keeps (startPhase_keeps (upd_keeps (fly_keeps h ..)) ..) ..

theorem collRow_keeps {s : State} (h : BlockInv s) (op q qseq : Nat) : BlockInv (collRow op q qseq s) := by
  unfold collRow
  exact waitRow_keeps h _ _ _ _ _ (fun _ _ t ht => keepsOpt_ite (keepsOpt_some ht) keepsOpt_none t) (fun _ _ ht => (by
    split
    · exact finish_keeps ht ..
    · exact collStart_keeps ht ..
    · exact ht))

theorem reduceScatterState_keeps {s : State} (h : BlockInv s) (q qseq : Nat) : BlockInv (reduceScatterState q qseq s) :=
  collRow_keeps h ..

theorem allGatherState_keeps {s : State} (h : BlockInv s) (q qseq : Nat) : BlockInv (allGatherState q qseq s) :=
  collRow_keeps h ..

theorem allReduceState_keeps {s : State} (h : BlockInv s) (q qseq : Nat) : BlockInv (allReduceState q qseq s) :=
  collRow_keeps h ..

theorem broadcastState_keeps {s : State} (h : BlockInv s) (q qseq : Nat) : BlockInv (broadcastState q qseq s) :=
  collRow_keeps h ..

theorem allToAllState_keeps {s : State} (h : BlockInv s) (q qseq : Nat) : BlockInv (allToAllState q qseq s) :=
  collRow_keeps h ..

theorem startVote_keeps {s : State} (h : BlockInv s) (kind : Nat) (word : List Byte) : BlockInv (startVote s kind word) := by
  unfold startVote
  dsimp only
  exact collAdvance_keeps (startPhase_keeps (syncVoting_keeps (upd_keeps h)) ..) ..

theorem clearVotes_keeps {s : State} (h : BlockInv s) : BlockInv (clearVotes s) := by
  unfold clearVotes
  dsimp only
  exact upd_keeps (clearMem_keeps h ..)

theorem moveList_keeps {s : State} (h : BlockInv s) (c : Cmd) : BlockInv (moveList s c).1 := by
  unfold moveList
  dsimp only
  exact readMem_keeps h ..

theorem permuteSet_keeps {s : State} (h : BlockInv s) (f : Permute → Permute) : BlockInv (permuteSet s f) := by
  unfold permuteSet
  dsimp only
  exact upd_keeps h

theorem permuteFail_keeps {s : State} (h : BlockInv s) : BlockInv (permuteFail s) :=
  permuteSet_keeps h ..

theorem movePieces_keeps {s : State} (h : BlockInv s) (op i dev step cls fuel a : Nat) (d : List Byte) :
    BlockInv (movePieces op i dev step cls fuel a d s) := by
  induction fuel generalizing s a d with
  | zero => exact h
  | succ fuel ih =>
    unfold movePieces
    refine keeps_ite h (ih ?_ ..)
    split
    · exact issueOp_keeps h ..
    · exact permuteFail_keeps (issueOp_keeps h ..)

theorem moveRecord_keeps {s : State} (h : BlockInv s) (op i kind step : Nat) : BlockInv (moveRecord s op i kind step) := by
  unfold moveRecord
  dsimp only
  exact movePieces_keeps h ..

theorem sendMoves_keeps {s : State} (h : BlockInv s) (c : Cmd) (i : Nat) : BlockInv (sendMoves s c i) := by
  unfold sendMoves
  dsimp only
  split
  · exact permuteFail_keeps (moveList_keeps h ..)
  · exact keeps_foldl _ (fun _ _ ht => (by
      split
      · exact permuteFail_keeps (readMem_keeps ht ..)
      · exact keeps_ite (keeps_ite (writeMem_keeps (readMem_keeps ht ..) ..) (permuteFail_keeps (writeMem_keeps (readMem_keeps ht ..) ..)))
          (movePieces_keeps (readMem_keeps ht ..) ..))) _ (moveList_keeps h ..)

theorem moveStep_keeps {s : State} (h : BlockInv s) (c : Cmd) (i : Nat) : BlockInv (moveStep c s i) := by
  unfold moveStep
  dsimp only
  split
  · exact h
  · exact keeps_ite (sendMoves_keeps (permuteSet_keeps h ..) ..) (keeps_ite (keeps_ite (permuteSet_keeps (permuteSet_keeps h ..) ..)
      (moveRecord_keeps (permuteSet_keeps h ..) ..)) h)

theorem permuteToVote_keeps {s : State} (h : BlockInv s) : BlockInv (permuteToVote s) := by
  unfold permuteToVote
  dsimp only
  split
  · exact h
  · exact keeps_ite h (startVote_keeps (permuteSet_keeps h ..) ..)

theorem takeMoveRecord_keeps {s : State} (h : BlockInv s) (k : KeptRec) : BlockInv (takeMoveRecord s k) := by
  unfold takeMoveRecord
  dsimp only
  exact keeps_ite h (permuteSet_keeps (keeps_ite (setNf_keeps h) h) ..)

theorem permuteAdvance_keeps {s : State} (h : BlockInv s) : BlockInv (permuteAdvance s) := by
  unfold permuteAdvance
  dsimp only
  split
  · exact h
  · exact keeps_ite h (permuteToVote_keeps (keeps_foldl _ (fun _ _ ht => moveStep_keeps ht ..) _ (keeps_foldl _
      (fun _ _ ht => moveStep_keeps ht ..) _ (keeps_foldl _ (fun _ _ ht => takeMoveRecord_keeps ht ..) _ (upd_keeps h)))))

theorem permuteStart_keeps {s : State} (h : BlockInv s) (seam : Cmd) : BlockInv (permuteStart s seam) := by
  unfold permuteStart
  dsimp only
  split
  · exact h
  · exact permuteAdvance_keeps (keeps_foldl _ (fun _ _ ht => keeps_ite ht (moveRecord_keeps ht ..)) _ (permuteSet_keeps h ..))

theorem recordRun_keepsInv {s : State} (hs : BlockInv s) (h : ScHdr) (data : List Byte) : BlockInv (recordRun h data s).1 := by
  unfold recordRun
  dsimp only
  exact keeps_ite_fst (colCount_keeps hs ..) (keeps_ite_fst (permuteAdvance_keeps (upd_keeps hs)) (by
    split
    · exact upd_keeps hs
    · exact keeps_ite_fst (collAdvance_keeps (takeRecord_keeps hs ..) ..) (keeps_ite_pair (upd_keeps hs) hs)))

theorem agentError_keeps {s : State} (h : BlockInv s) (c : Coll) (agent : Nat) : BlockInv (agentError s c agent) := by
  unfold agentError
  dsimp only
  exact collEnd_keeps (decideEvent_keeps h ..) ..

theorem dataRun_keeps {s : State} (hs : BlockInv s) (agent : Nat) (h : ScHdr) (data : List Byte) : BlockInv (dataRun agent h data s).1 := by
  unfold dataRun
  dsimp only
  exact keeps_ite_fst hs (by
    split
    · exact keeps_ite_fst (putRun_keeps hs ..) hs
    · exact keeps_ite_fst (keeps_ite_fst (collSet_keeps hs ..) (keeps_ite_pair (agentError_keeps (collSet_keeps hs ..) ..) (collAdvance_keeps
        (addContributions_keeps (collSet_keeps hs ..) ..) ..))) (keeps_ite_pair (writeMem_keeps (collSet_keeps hs ..) ..) (collAdvance_keeps
        (memberSet_keeps (keeps_ite (setNf_keeps (writeMem_keeps (collSet_keeps hs ..) ..)) (writeMem_keeps (collSet_keeps hs ..) ..)) ..) ..)))

theorem collPacket_keeps {s : State} (h : BlockInv s) (kind agent : Nat) (p : Packet) : BlockInv (collPacket kind agent p s) := by
  unfold collPacket
  split
  next t e => exact keeps_fst (acceptScrim_keeps h ..) e
  next t x data e =>
    have ht : BlockInv t := keeps_fst (acceptScrim_keeps h ..) e
    refine keeps_ite (sequenced_keeps ht _ _ _ fun ht => ?_) h
    split
    · exact dataRun_keeps ht ..
    · exact recordRun_keepsInv ht ..

theorem readyState_keeps {s : State} (h : BlockInv s) (p : Packet) : BlockInv (readyState p s) :=
  collPacket_keeps h ..

theorem goState_keeps {s : State} (h : BlockInv s) (p : Packet) : BlockInv (goState p s) :=
  collPacket_keeps h ..

theorem doneState_keeps {s : State} (h : BlockInv s) (p : Packet) : BlockInv (doneState p s) :=
  collPacket_keeps h ..

theorem collectiveDataState_keeps {s : State} (h : BlockInv s) (p : Packet) (agent : Nat) : BlockInv (collectiveDataState p agent s) :=
  collPacket_keeps h ..

theorem collDecided_keeps {s : State} (h : BlockInv s) (op : Nat) (ok late : Bool) : BlockInv (collDecided s op ok late) := by
  unfold collDecided
  dsimp only
  split
  · exact keeps_ite (collAdvance_keeps (collSet_keeps h ..) ..) (keeps_ite h (collFail_keeps h ..))
  · split
    · exact keeps_ite h (permuteAdvance_keeps (permuteSet_keeps h ..))
    · exact h

theorem collectiveTimeoutState_keeps {s : State} (h : BlockInv s) (op : Nat) : BlockInv (collectiveTimeoutState op s) := by
  unfold collectiveTimeoutState
  split
  · exact keeps_ite (collEnd_keeps (colCount_keeps h ..) ..) h
  · split
    · exact keeps_ite (startVote_keeps (permuteSet_keeps h ..) ..) h
    · exact h

end Sys2Proof.Machine
end

section
/-! SUPPORT. The invariant through maps, patches, the mirror and the step. -/

namespace Sys2Proof.Machine

theorem readIds_keeps {s : State} (h : BlockInv s) (a n : Nat) : BlockInv (readIds s a n).1 := by
  unfold readIds
  dsimp only
  exact readMem_keeps h ..

theorem readPeers_keeps {s : State} (h : BlockInv s) (a : Nat) : BlockInv (readPeers s a).1 := by
  unfold readPeers
  dsimp only
  exact readMem_keeps h ..

theorem readMapping_keeps {s : State} (h : BlockInv s) (b : List Byte) : BlockInv (readMapping s b).1 := by
  unfold readMapping
  dsimp only
  exact keeps_ite_pair (readPeers_keeps (readIds_keeps (readIds_keeps h ..) ..) ..) (readIds_keeps (readIds_keeps h ..) ..)

theorem loadPeers_keeps {s : State} (h : BlockInv s) (ps : Option (List (List Byte))) : BlockInv (loadPeers s ps) := by
  unfold loadPeers
  dsimp only
  split
  · exact h
  · exact upd_keeps h

theorem setCoordinate_keeps {s : State} (h : BlockInv s) (shape : Nat × Nat × Nat) (id : Nat) (map : List Nat) : BlockInv
    (setCoordinate s shape id map) := by
  unfold setCoordinate
  dsimp only
  exact csrPut_keeps (csrPut_keeps (csrPut_keeps (csrPut_keeps (csrPut_keeps h ..) ..) ..) ..) ..

theorem bodyMapSet_keeps {s : State} (h : BlockInv s) (c : Cmd) : KeepsOpt (bodyMapSet c s) := by
  unfold bodyMapSet
  dsimp only
  split
  · exact keepsOpt_some (finish_keeps h ..)
  · split
    · exact keepsOpt_some (finish_keeps (readMapping_keeps h ..) ..)
    · exact keepsOpt_ite (keepsOpt_some (finish_keeps (readMapping_keeps h ..) ..)) (keepsOpt_some (finish_keeps (loadPeers_keeps
        (csrSetField_keeps (setCoordinate_keeps (upd_keeps (readMapping_keeps h ..)) ..) ..) ..) ..))

theorem bodyMapSetRemap_keeps {s : State} (h : BlockInv s) (c : Cmd) : KeepsOpt (bodyMapSetRemap c s) := by
  unfold bodyMapSetRemap
  dsimp only
  exact keepsOpt_ite (keepsOpt_some (finish_keeps h ..)) (keepsOpt_ite (keepsOpt_some (finish_keeps h ..)) (by
    split
    · exact keepsOpt_some (finish_keeps (readMapping_keeps h ..) ..)
    · exact keepsOpt_ite (keepsOpt_some (finish_keeps (readMapping_keeps h ..) ..)) (keepsOpt_some (finish_keeps (loadPeers_keeps
        (setCoordinate_keeps (upd_keeps (readMapping_keeps h ..)) ..) ..) ..))))

theorem mapSetState_keeps {s : State} (h : BlockInv s) (q qseq : Nat) : BlockInv (mapSetState q qseq s) :=
  hostRow_keeps h _ _ _ _ (fun _ _ t ht => bodyMapSet_keeps ht _ t)

theorem mapSetRemapState_keeps {s : State} (h : BlockInv s) (q qseq : Nat) : BlockInv (mapSetRemapState q qseq s) :=
  hostRow_keeps h _ _ _ _ (fun _ _ t ht => bodyMapSetRemap_keeps ht _ t)

theorem permuteTables_keeps {s : State} (h : BlockInv s) (b : List Byte) : BlockInv (permuteTables s b).1 := by
  unfold permuteTables
  dsimp only
  exact readTable_keeps (readIds_keeps h ..) ..

theorem bodyPermute_keeps {s : State} (h : BlockInv s) (c : Cmd) : KeepsOpt (bodyPermute c s) := by
  unfold bodyPermute
  dsimp only
  exact keepsOpt_ite (keepsOpt_some (finish_keeps h ..)) (keepsOpt_ite (keepsOpt_some (finish_keeps h ..)) (by
    split
    · exact keepsOpt_some (finish_keeps (permuteTables_keeps h ..) ..)
    · exact keepsOpt_some (csrSetField_keeps (upd_keeps (fly_keeps (permuteTables_keeps h ..) ..)) ..)))

theorem permuteState_keeps {s : State} (h : BlockInv s) (q qseq : Nat) : BlockInv (permuteState q qseq s) :=
  hostRow_keeps h _ _ _ _ (fun _ _ t ht => bodyPermute_keeps ht _ t)

theorem permuteBegin_keeps {s : State} (h : BlockInv s) (seam : Cmd) : BlockInv (permuteBegin s seam) := by
  unfold permuteBegin
  dsimp only
  split
  · exact h
  · exact permuteStart_keeps (keeps_ite (moveList_keeps (permuteTables_keeps h ..) ..) (permuteFail_keeps (moveList_keeps
      (permuteTables_keeps h ..) ..))) ..

theorem permuteInstall_keeps {s : State} (h : BlockInv s) (p : Permute) : BlockInv (permuteInstall s p).1 := by
  unfold permuteInstall
  dsimp only
  split
  · exact permuteTables_keeps h ..
  · exact csrSetField_keeps (setCoordinate_keeps (upd_keeps (permuteTables_keeps h ..)) ..) ..

theorem retirePc_keeps {s : State} (h : BlockInv s) (st pc : Nat) : BlockInv (retirePc s st pc) := by
  unfold retirePc
  dsimp only
  exact keeps_ite h (keeps_ite (requestTakeover_keeps (csrSetField_keeps h ..) ..) (csrSetField_keeps (keeps_foldl _
      (fun _ _ ht => meetSector_keeps ht ..) _ h) ..))

theorem retireAtSeam_keeps {s : State} (h : BlockInv s) (unit : Nat) : BlockInv (retireAtSeam s unit) := by
  unfold retireAtSeam
  exact keeps_ite (retirePc_keeps (markRetired_keeps h ..) ..) (by
    split
    · exact retireChan_keeps (markRetired_keeps h ..) ..
    · exact retireUnit_keeps h ..)

theorem seamRetires_keeps {s : State} (h : BlockInv s) : BlockInv (seamRetires s) := by
  unfold seamRetires
  dsimp only
  exact mapChanges_keeps (keeps_foldl _ (fun _ _ ht => retireAtSeam_keeps ht ..) _ (upd_keeps h))

theorem syncPatch_keeps {s : State} (h : BlockInv s) : BlockInv (syncPatch s) := by
  unfold syncPatch
  dsimp only
  exact csrSetField_keeps (csrSetField_keeps h ..) ..

theorem makeDue_keeps {s : State} (h : BlockInv s) (unit : Nat) : BlockInv (makeDue s unit) := by
  unfold makeDue
  dsimp only
  exact keeps_ite h (syncPatch_keeps (upd_keeps h))

theorem patchTestDueState_keeps {s : State} (h : BlockInv s) (unit : Nat) : BlockInv (patchTestDueState unit s) :=
  keeps_ite (makeDue_keeps h ..) h

theorem takeTest_keeps {r : State × Nat × Bool} (h : BlockInv r.1) (d : Nat × Nat × Nat) : BlockInv (takeTest r d).1 := by
  obtain ⟨s, cores, other⟩ := r
  unfold takeTest
  dsimp only
  refine keeps_ite_fst (keeps_ite_fst h (keeps_ite_fst (upd_keeps h) ?_)) (keeps_ite_fst h (upd_keeps h))
  split
  · exact upd_keeps h
  · exact upd_keeps (csrSetField_keeps (exchangeCore_keeps h ..) ..)

theorem seamTests_keeps {s : State} (h : BlockInv s) : BlockInv (seamTests s) := by
  unfold seamTests
  dsimp only
  exact syncPatch_keeps (upd_keeps (keeps_ite_fst (keeps_foldl _ (fun _ _ ht => takeSpares_keeps ht ..) _ h) (keeps_foldl_pair
      (fun _ _ hr => takeTest_keeps hr ..) (keeps_foldl _ (fun _ _ ht => takeSpares_keeps ht ..) _ h))))

theorem becomeSpare_keeps {s : State} (h : BlockInv s) (unit mode : Nat) : BlockInv (becomeSpare s unit mode) := by
  unfold becomeSpare
  dsimp only
  exact keeps_ite (upd_keeps h) h

theorem endTestCmds_keeps {s : State} (h : BlockInv s) (unit result kernel : Nat) : BlockInv (endTestCmds s unit result kernel) := by
  unfold endTestCmds
  dsimp only
  exact keeps_foldl _ (fun _ _ ht => complete_keeps ht ..) _ (upd_keeps h)

theorem patchTestEnd_keeps {s : State} (h : BlockInv s) (unit result kernel pass : Nat) : BlockInv (patchTestEnd unit result kernel pass s) := by
  unfold patchTestEnd
  dsimp only
  split
  · exact h
  · exact keeps_ite (syncPatch_keeps (endTestCmds_keeps (becomeSpare_keeps (upd_keeps h) ..) ..)) (syncPatch_keeps (endTestCmds_keeps (keeps_ite
      (retireUnit_keeps (snagRecord_keeps (upd_keeps (csrBump_keeps (upd_keeps h) ..)) ..) ..) (becomeSpare_keeps (upd_keeps (snagRecord_keeps
      (upd_keeps (csrBump_keeps (upd_keeps h) ..)) ..)) ..)) ..))

theorem bodyPatchTest_keeps {s : State} (h : BlockInv s) (c : Cmd) : KeepsOpt (bodyPatchTest c s) := by
  unfold bodyPatchTest
  dsimp only
  exact keepsOpt_ite (keepsOpt_some (finish_keeps h ..)) (keepsOpt_some (keeps_ite (makeDue_keeps (upd_keeps (fly_keeps h ..)) ..) (upd_keeps
      (fly_keeps h ..))))

theorem patchTestState_keeps {s : State} (h : BlockInv s) (q qseq : Nat) : BlockInv (patchTestState q qseq s) :=
  hostRow_keeps h _ _ _ _ (fun _ _ t ht => bodyPatchTest_keeps ht _ t)

theorem pieceBytes_keeps {s : State} (h : BlockInv s) (a n : Nat) : BlockInv (pieceBytes s a n).1 :=
  keeps_ite_fst h (readMem_keeps h ..)

theorem mirrorStop_keeps {s : State} (h : BlockInv s) : BlockInv (mirrorStop s) := by
  unfold mirrorStop
  dsimp only
  exact csrSetField_keeps (upd_keeps h) ..

theorem mirrorPump_keeps {s : State} (h : BlockInv s) : BlockInv (mirrorPump s) := by
  unfold mirrorPump
  dsimp only
  split
  · exact keeps_ite h (by
      split
      · exact mirrorStop_keeps (pieceBytes_keeps h ..)
      · split
        · exact issueOp_keeps (upd_keeps (pieceBytes_keeps h ..)) ..
        · exact mirrorStop_keeps (issueOp_keeps (upd_keeps (pieceBytes_keeps h ..)) ..))
  · exact h

theorem startMirror_keeps {s : State} (h : BlockInv s) (committed : Bool) : BlockInv (startMirror s committed) := by
  unfold startMirror
  dsimp only
  exact keeps_ite h (keeps_ite (csrBump_keeps h ..) (mirrorPump_keeps (csrSetField_keeps (upd_keeps h) ..)))

theorem mirrorCompleteState_keeps {s : State} (h : BlockInv s) : BlockInv (mirrorCompleteState s) := by
  unfold mirrorCompleteState
  dsimp only
  split
  · exact h
  · exact keeps_ite h (keeps_ite (by
      split
      · exact issueOp_keeps (upd_keeps h) ..
      · exact mirrorStop_keeps (issueOp_keeps (upd_keeps h) ..)) h)

theorem mirrorDecided_keeps {s : State} (h : BlockInv s) (ok : Bool) : BlockInv (mirrorDecided s ok) := by
  unfold mirrorDecided
  dsimp only
  exact keeps_ite (mirrorStop_keeps h) (keeps_ite (mirrorStop_keeps (upd_keeps (csrPut64_keeps h ..))) (mirrorPump_keeps h))

theorem ledgerDecided_keeps {s : State} (h : BlockInv s) (ok : Bool) : BlockInv (ledgerDecided s ok) :=
  keeps_ite h (mirrorStop_keeps h)

theorem bodyMirrorCfg_keeps {s : State} (h : BlockInv s) (c : Cmd) : KeepsOpt (bodyMirrorCfg c s) := by
  unfold bodyMirrorCfg
  dsimp only
  exact keepsOpt_ite (keepsOpt_some (finish_keeps h ..)) (keepsOpt_ite (keepsOpt_some (finish_keeps h ..)) (keepsOpt_some (finish_keeps
      (csrSetField_keeps (csrSetField_keeps h ..) ..) ..)))

theorem mirrorCfgState_keeps {s : State} (h : BlockInv s) (q qseq : Nat) : BlockInv (mirrorCfgState q qseq s) :=
  hostRow_keeps h _ _ _ _ (fun _ _ t ht => bodyMirrorCfg_keeps ht _ t)

theorem copyLedger_keeps {s : State} (h : BlockInv s) (index : Nat) (entry : List Byte) (cls : Nat) : BlockInv (copyLedger s index entry cls) := by
  unfold copyLedger
  split
  · exact h
  · exact keeps_ite h (issueOp_keeps h ..)

theorem openStep_keeps {s : State} (h : BlockInv s) (attempt level mbs : Nat) : BlockInv (openStep s attempt level mbs) := by
  unfold openStep
  dsimp only
  exact keeps_ite (setStepState_keeps (upd_keeps (csrSetField_keeps (csrSetField_keeps (upd_keeps (keeps_ite_fst h
      (readMem_keeps h ..))) ..) ..)) ..) (setPhase_keeps (csrSetField_keeps (csrSetField_keeps (upd_keeps (keeps_ite_fst h
      (readMem_keeps h ..))) ..) ..) ..)

theorem bodyStepBegin_keeps {s : State} (h : BlockInv s) (c : Cmd) : KeepsOpt (bodyStepBegin c s) := by
  unfold bodyStepBegin
  dsimp only
  split
  · exact keepsOpt_some (finish_keeps (keeps_ite (upd_keeps h) h) ..)
  · exact keepsOpt_some (finish_keeps (openStep_keeps h ..) ..)

theorem stepBeginState_keeps {s : State} (h : BlockInv s) (q qseq : Nat) : BlockInv (stepBeginState q qseq s) :=
  hostRow_keeps h _ _ _ _ (fun _ _ t ht => bodyStepBegin_keeps ht _ t)

theorem sweepEarly_keeps {s : State} (h : BlockInv s) (f : Fence) : BlockInv (sweepEarly s f) := by
  unfold sweepEarly
  dsimp only
  exact keeps_foldl _ (fun _ _ ht => finish_keeps (markBegun_keeps ht ..) ..) _ (upd_keeps h)

theorem bodyFence_keeps {s : State} (h : BlockInv s) (c : Cmd) : KeepsOpt (bodyFence c s) := by
  unfold bodyFence
  dsimp only
  exact keepsOpt_ite (keepsOpt_some (finish_keeps h ..)) (keepsOpt_ite (keepsOpt_some (finish_keeps h ..)) (keepsOpt_some (keeps_ite
      (sweepEarly_keeps (fly_keeps (upd_keeps h) ..) ..) (fly_keeps (upd_keeps h) ..))))

theorem stepCommitState_keeps {s : State} (h : BlockInv s) (q qseq : Nat) : BlockInv (stepCommitState q qseq s) :=
  hostRow_keeps h _ _ _ _ (fun _ _ t ht => bodyFence_keeps ht _ t)

theorem stepSkipState_keeps {s : State} (h : BlockInv s) (q qseq : Nat) : BlockInv (stepSkipState q qseq s) :=
  hostRow_keeps h _ _ _ _ (fun _ _ t ht => bodyFence_keeps ht _ t)

theorem enterDeciding_keeps {s : State} (h : BlockInv s) : BlockInv (enterDeciding s) := by
  unfold enterDeciding
  dsimp only
  exact keeps_ite (setStepState_keeps (upd_keeps h) ..) (setPhase_keeps h ..)

theorem fenceReachedState_keeps {s : State} (h : BlockInv s) : BlockInv (fenceReachedState s) := by
  unfold fenceReachedState
  dsimp only
  split
  · exact h
  · exact keeps_ite h (keeps_ite (upd_keeps h) (keeps_ite (finish_keeps (upd_keeps h) ..) (startVote_keeps (enterDeciding_keeps (upd_keeps h)) ..)))

theorem commitNorms_keeps {s : State} (h : BlockInv s) : BlockInv (commitNorms s) := by
  unfold commitNorms
  dsimp only
  exact upd_keeps h

theorem commitStep_keeps {s : State} (h : BlockInv s) (f : Fence) : BlockInv (commitStep s f) := by
  unfold commitStep
  dsimp only
  exact setPhase_keeps (csrPut64_keeps (commitNorms_keeps (upd_keeps h)) ..) ..

theorem skipStep_keeps {s : State} (h : BlockInv s) : BlockInv (skipStep s) := by
  unfold skipStep
  dsimp only
  exact setPhase_keeps (upd_keeps h) ..

theorem commitVoteState_keeps {s : State} (h : BlockInv s) : BlockInv (commitVoteState s) := by
  unfold commitVoteState
  dsimp only
  split
  · exact keeps_ite h (by
      split
      · exact finish_keeps (commitStep_keeps (csrSetField_keeps (upd_keeps h) ..) ..) ..
      · exact finish_keeps (decideEvent_keeps (skipStep_keeps (csrSetField_keeps (upd_keeps h) ..)) ..) ..
      · exact finish_keeps (skipStep_keeps (csrSetField_keeps (upd_keeps h) ..)) ..)
  · exact h

theorem readPalettes_keeps {s : State} (h : BlockInv s) (a : Nat) (l : List Nat) : BlockInv (readPalettes a l s).1 := by
  induction l generalizing s with
  | nil => exact h
  | cons k r ih => exact ih (readMem_keeps h ..)

theorem loadSeam_keeps {s : State} (h : BlockInv s) (recs : List (Nat × List Byte)) (pals : List (Nat × List Nat)) : BlockInv
    (loadSeam s recs pals) := by
  unfold loadSeam
  dsimp only
  exact upd_keeps h

theorem seamHawk_keeps {s : State} (h : BlockInv s) : BlockInv (seamHawk s) := by
  unfold seamHawk
  dsimp only
  exact upd_keeps h

theorem coreSection_keeps {s : State} (h : BlockInv s) (pc : Nat) : BlockInv (coreSection s pc).1 := by
  unfold coreSection
  dsimp only
  exact keeps_foldl_pair (fun _ _ hr => takeFree_keeps hr) h

theorem coreSections_keeps {s : State} (h : BlockInv s) (l : List Nat) : BlockInv (coreSections l s).1 := by
  induction l generalizing s with
  | nil => exact h
  | cons k r ih => exact ih (coreSection_keeps h ..)

theorem telRecord_keeps {s : State} (h : BlockInv s) (outcome lost : Nat) : BlockInv (telRecord s outcome lost).1 := by
  unfold telRecord
  dsimp only
  exact coreSections_keeps h ..

theorem telWrite_keeps {s : State} (h : BlockInv s) (l : List (List Byte)) : BlockInv (telWrite l s) := by
  induction l generalizing s with
  | nil => exact upd_keeps h
  | cons d r ih =>
    unfold telWrite
    exact keeps_ite (upd_keeps h) (keeps_ite (ih (csrSetField_keeps (writeMem_keeps h ..) ..)) (ih (upd_keeps (writeMem_keeps h ..))))

theorem telFlush_keeps {s : State} (h : BlockInv s) : BlockInv (telFlush s) :=
  telWrite_keeps h ..

theorem writeTelemetry_keeps {s : State} (h : BlockInv s) (outcome : Nat) : BlockInv (writeTelemetry s outcome) := by
  unfold writeTelemetry
  dsimp only
  exact keeps_ite h (telFlush_keeps (upd_keeps (telRecord_keeps h ..)))

theorem clearRegs_keeps {s : State} (h : BlockInv s) (lo hi : Nat) : BlockInv (clearRegs s lo hi) :=
  ⟨h.bytes, wf_clear lo hi h.csr, h.queues, h.children⟩

theorem clearCounters_keeps {s : State} (h : BlockInv s) : BlockInv (clearCounters s) := by
  unfold clearCounters
  dsimp only
  exact csrPut_keeps (csrPut_keeps (clearRegs_keeps (clearRegs_keeps (keeps_foldl _ (fun _ _ ht => clearRegs_keeps ht ..) _ (keeps_foldl _
      (fun _ _ ht => clearRegs_keeps ht ..) _ (keeps_foldl _ (fun _ _ ht => clearRegs_keeps (clearRegs_keeps
      (clearRegs_keeps ht ..) ..) ..) _ h))) ..) ..) ..) ..

theorem bodyTelSample_keeps {s : State} (h : BlockInv s) (c : Cmd) : KeepsOpt (bodyTelSample c s) := by
  unfold bodyTelSample
  dsimp only
  exact keepsOpt_ite (keepsOpt_some (finish_keeps h ..)) (keepsOpt_ite (keepsOpt_some (finish_keeps h ..)) (keepsOpt_some (finish_keeps
      (writeMem_keeps (telRecord_keeps h ..) ..) ..)))

theorem telSampleState_keeps {s : State} (h : BlockInv s) (q qseq : Nat) : BlockInv (telSampleState q qseq s) :=
  hostRow_keeps h _ _ _ _ (fun _ _ t ht => bodyTelSample_keeps ht _ t)

theorem writeLedger_keeps {s : State} (h : BlockInv s) (outcome : Nat) : BlockInv (writeLedger s outcome) := by
  unfold writeLedger
  dsimp only
  exact keeps_ite h (copyLedger_keeps (csrSetField_keeps (csrSetField_keeps (writeMem_keeps h ..) ..) ..) ..)

theorem digestEvent_keeps {s : State} (h : BlockInv s) (k : Nat) : BlockInv (digestEvent s k) := by
  unfold digestEvent
  dsimp only
  exact keeps_ite (decideEvent_keeps h ..) (keeps_ite (requestTakeover_keeps h ..) (keeps_ite (snagRecord_keeps h ..) h))

theorem seamTail_keeps {s : State} (h : BlockInv s) (c : Cmd) : BlockInv (seamTail s c) := by
  unfold seamTail
  extract_lets outcome _ u k norm cleared digested mirrored fields _ closed
  have hu : BlockInv u := upd_keeps h
  have hdigested : BlockInv digested := digestEvent_keeps (clearCounters_keeps (writeTelemetry_keeps hu ..)) ..
  have hmirrored : BlockInv mirrored := keeps_ite hdigested (startMirror_keeps (writeLedger_keeps hdigested ..) ..)
  have hfields : BlockInv fields := csrSetField_keeps (csrSetField_keeps hmirrored ..) ..
  have hclosed : BlockInv closed := setPhase_keeps (upd_keeps hfields) ..
  exact finish_keeps hclosed ..

theorem seamRest_keeps {s : State} (h : BlockInv s) (c : Cmd) : BlockInv (seamRest s c) := by
  unfold seamRest
  dsimp only
  exact keeps_ite (upd_keeps (seamTests_keeps (seamRetires_keeps h))) (seamTail_keeps (seamTests_keeps (seamRetires_keeps h)) ..)

theorem patchTestCompleteState_keeps {s : State} (h : BlockInv s) (unit result kernel pass : Nat) : BlockInv
    (patchTestCompleteState unit result kernel pass s) := by
  unfold patchTestCompleteState
  dsimp only
  split
  · exact keeps_ite (patchTestEnd_keeps h ..) (seamTail_keeps (upd_keeps (patchTestEnd_keeps h ..)) ..)
  · exact patchTestEnd_keeps h ..

theorem bodyStepSeam_keeps {s : State} (h : BlockInv s) (c : Cmd) : KeepsOpt (bodyStepSeam c s) := by
  unfold bodyStepSeam
  dsimp only
  exact keepsOpt_ite (keepsOpt_some (finish_keeps h ..)) (keepsOpt_ite (keepsOpt_some (finish_keeps h ..)) (by
    split
    · exact keepsOpt_ite (keepsOpt_some (finish_keeps (readPalettes_keeps (readMem_keeps h ..) ..) ..)) (keepsOpt_some (keeps_ite
        (permuteBegin_keeps (loadSeam_keeps (seamHawk_keeps (fly_keeps (readPalettes_keeps (readMem_keeps h ..) ..) ..)) ..) ..) (seamRest_keeps
        (loadSeam_keeps (seamHawk_keeps (fly_keeps (readPalettes_keeps (readMem_keeps h ..) ..) ..)) ..) ..)))
    · exact keepsOpt_some (finish_keeps (readPalettes_keeps (readMem_keeps h ..) ..) ..)))

theorem stepSeamState_keeps {s : State} (h : BlockInv s) (q qseq : Nat) : BlockInv (stepSeamState q qseq s) :=
  hostRow_keeps h _ _ _ _ (fun _ _ t ht => bodyStepSeam_keeps ht _ t)

theorem permuteVoteState_keeps {s : State} (h : BlockInv s) : BlockInv (permuteVoteState s) := by
  unfold permuteVoteState
  dsimp only
  split
  · exact h
  · exact keeps_ite h (by
      split
      · exact seamRest_keeps (keeps_ite (finish_keeps (csrSetField_keeps (upd_keeps h) ..) ..) (finish_keeps (permuteInstall_keeps
          (csrSetField_keeps (upd_keeps h) ..) ..) ..)) ..
      · exact keeps_ite (finish_keeps (csrSetField_keeps (upd_keeps h) ..) ..) (finish_keeps (permuteInstall_keeps (csrSetField_keeps
          (upd_keeps h) ..) ..) ..))

end Sys2Proof.Machine
end

section
/-! SUPPORT. The invariant through streams, faults and stages. -/

namespace Sys2Proof.Machine

theorem bodyStencilLoad_keeps {s : State} (h : BlockInv s) (c : Cmd) : KeepsOpt (bodyStencilLoad c s) := by
  unfold bodyStencilLoad
  dsimp only
  split
  · exact keepsOpt_some (finish_keeps h ..)
  · exact keepsOpt_ite (keepsOpt_some (finish_keeps h ..)) (keepsOpt_ite (keepsOpt_some (finish_keeps h ..)) (keepsOpt_ite (keepsOpt_some
      (finish_keeps h ..)) (keepsOpt_some (finish_keeps (chanPut_keeps h ..) ..))))

theorem stencilLoadState_keeps {s : State} (h : BlockInv s) (q qseq : Nat) : BlockInv (stencilLoadState q qseq s) :=
  hostRow_keeps h _ _ _ _ (fun _ _ t ht => bodyStencilLoad_keeps ht _ t)

theorem chanEnd_keeps {s : State} (h : BlockInv s) (b ch next status : Nat) (stopped : Bool) : BlockInv (chanEnd s b ch next status stopped) := by
  unfold chanEnd
  dsimp only
  split
  · exact chanPut_keeps h ..
  · exact keeps_ite (report_keeps (chanPut_keeps h ..) ..) (complete_keeps (chanPut_keeps h ..) ..)

theorem bodyStreamStart_keeps {s : State} (h : BlockInv s) (c : Cmd) : KeepsOpt (bodyStreamStart c s) := by
  unfold bodyStreamStart
  dsimp only
  split
  · exact keepsOpt_some (finish_keeps h ..)
  · exact keepsOpt_ite (keepsOpt_some (finish_keeps h ..)) (keepsOpt_ite (keepsOpt_some (finish_keeps h ..)) (keepsOpt_some (keeps_foldl _
      (fun _ _ ht => chanPut_keeps ht ..) _ (fly_keeps h ..))))

theorem streamStartState_keeps {s : State} (h : BlockInv s) (q qseq : Nat) : BlockInv (streamStartState q qseq s) :=
  hostRow_keeps h _ _ _ _ (fun _ _ t ht => bodyStreamStart_keeps ht _ t)

theorem settle_keeps {s : State} (h : BlockInv s) (b : Nat) : BlockInv (settle s b) := by
  unfold settle
  dsimp only
  exact keeps_foldl _ (fun _ _ ht => keeps_ite (chanEnd_keeps (keeps_ite ht (chanPut_keeps ht ..)) ..) (keeps_ite ht (chanPut_keeps ht ..))) _ h

theorem bodyStreamStop_keeps {s : State} (h : BlockInv s) (c : Cmd) : KeepsOpt (bodyStreamStop c s) := by
  unfold bodyStreamStop
  dsimp only
  split
  · exact keepsOpt_some (finish_keeps h ..)
  · exact keepsOpt_ite (keepsOpt_some (finish_keeps h ..)) (keepsOpt_some (finish_keeps (settle_keeps (keeps_foldl _ (fun _ _ ht => keeps_ite
      (chanPut_keeps ht ..) ht) _ h) ..) ..))

theorem streamStopState_keeps {s : State} (h : BlockInv s) (q qseq : Nat) : BlockInv (streamStopState q qseq s) :=
  hostRow_keeps h _ _ _ _ (fun _ _ t ht => bodyStreamStop_keeps ht _ t)

theorem bodyStreamResume_keeps {s : State} (h : BlockInv s) (c : Cmd) : KeepsOpt (bodyStreamResume c s) := by
  unfold bodyStreamResume
  dsimp only
  split
  · exact keepsOpt_some (finish_keeps h ..)
  · exact keepsOpt_ite (keepsOpt_some (finish_keeps h ..)) (keepsOpt_some (keeps_foldl _ (fun _ _ ht => chanPut_keeps ht ..) _ (fly_keeps h ..)))

theorem streamResumeState_keeps {s : State} (h : BlockInv s) (q qseq : Nat) : BlockInv (streamResumeState q qseq s) :=
  hostRow_keeps h _ _ _ _ (fun _ _ t ht => bodyStreamResume_keeps ht _ t)

theorem ownStore_keeps {s : State} (h : BlockInv s) (b off : Nat) (d : List Byte) : BlockInv (ownStore s b off d) := by
  unfold ownStore
  dsimp only
  exact keeps_ite (upd_keeps h) (upd_keeps h)

theorem busError_keeps {s : State} (h : BlockInv s) (b : Nat) (e : BusErr) : BlockInv (busError s b e) := by
  unfold busError
  dsimp only
  exact blockPut_keeps h ..

theorem parcelFail_keeps {s : State} (h : BlockInv s) (b ch : Nat) (p : Parcel) (page : Bool) (reason addr : Nat) : BlockInv
    (parcelFail s b ch p page reason addr) := by
  unfold parcelFail
  dsimp only
  exact settle_keeps (busError_keeps (chanPut_keeps h ..) ..) ..

theorem sendParcel_keeps {s : State} (h : BlockInv s) (b ch : Nat) (p : Parcel) : BlockInv (sendParcel s b ch p) := by
  unfold sendParcel
  dsimp only
  exact keeps_ite (by
    split
    · exact issueOp_keeps (chanPut_keeps h ..) ..
    · exact parcelFail_keeps (issueOp_keeps (chanPut_keeps h ..) ..) ..) (injectCells_keeps (chanPut_keeps h ..) ..)

theorem flushHeld_keeps {s : State} (h : BlockInv s) (b : Nat) : BlockInv (flushHeld s b) := by
  unfold flushHeld
  dsimp only
  split
  · exact h
  · exact sendParcel_keeps (blockPut_keeps h ..) ..

theorem mergeParcel_keeps {s : State} (h : BlockInv s) (b ch : Nat) (p : Parcel) : BlockInv (mergeParcel s b ch p) := by
  unfold mergeParcel
  dsimp only
  exact keeps_ite (sendParcel_keeps h ..) (by
    split
    · exact keeps_ite (blockPut_keeps h ..) (blockPut_keeps (flushHeld_keeps h ..) ..)
    · exact blockPut_keeps h ..)

theorem mergeHoldExpiryState_keeps {s : State} (h : BlockInv s) (block win : Nat) : BlockInv (mergeHoldExpiryState block win s) := by
  unfold mergeHoldExpiryState
  split
  · exact keeps_ite (flushHeld_keeps h ..) h
  · exact h

theorem issuePiece_keeps {s : State} (h : BlockInv s) (b ch id : Nat) (m : MoveOp) (off n : Nat) : BlockInv (issuePiece s b ch id m off n) := by
  unfold issuePiece
  dsimp only
  split
  · exact mergeParcel_keeps h ..
  · exact mergeParcel_keeps h ..

theorem issuePieces_keeps {s : State} (h : BlockInv s) (b ch id : Nat) (m : MoveOp) (fuel : Nat) : BlockInv (issuePieces b ch id m fuel s) := by
  induction fuel generalizing s with
  | zero => exact h
  | succ fuel ih => exact keeps_ite h (keeps_ite h (ih (issuePiece_keeps (chanPut_keeps h ..) ..)))

theorem chanRow_keeps {s : State} (h : BlockInv s) (b ch op : Nat) (f : Chan → Nat → State → State)
    (hf : ∀ x w t, BlockInv t → BlockInv (f x w t)) : BlockInv (chanRow b ch op f s) :=
  keeps_ite h (keeps_ite (hf _ _ _ h) (keeps_ite (hf _ _ _ h) h))

theorem stepChan_keeps {s : State} (h : BlockInv s) (b ch : Nat) (x : Chan) : BlockInv (stepChan s b ch x) :=
  settle_keeps (chanPut_keeps h ..) ..

theorem baseOpState_keeps {s : State} (h : BlockInv s) (block chan : Nat) : BlockInv (baseOpState block chan s) := by
  unfold baseOpState
  dsimp only
  exact chanRow_keeps h _ _ _ _ (fun _ _ _ ht => stepChan_keeps ht ..)

theorem strideState_keeps {s : State} (h : BlockInv s) (block chan : Nat) : BlockInv (strideState block chan s) :=
  chanRow_keeps h _ _ _ _ (fun _ _ _ ht => stepChan_keeps ht ..)

theorem loopOpState_keeps {s : State} (h : BlockInv s) (block chan : Nat) : BlockInv (loopOpState block chan s) := by
  unfold loopOpState
  dsimp only
  exact chanRow_keeps h _ _ _ _ (fun _ _ _ ht => stepChan_keeps ht ..)

theorem endlState_keeps {s : State} (h : BlockInv s) (block chan : Nat) : BlockInv (endlState block chan s) := by
  unfold endlState
  dsimp only
  exact chanRow_keeps h _ _ _ _ (fun _ _ _ ht => (by
    split
    · exact stepChan_keeps ht ..
    · exact keeps_ite (settle_keeps (chanPut_keeps ht ..) ..) (stepChan_keeps ht ..)))

theorem indexWord_keeps {s : State} (h : BlockInv s) (b : Nat) (x : Chan) : BlockInv (indexWord s b x).1 := by
  unfold indexWord
  dsimp only
  exact keeps_ite_fst h (by
    split
    · exact h
    · exact h
    · exact keeps_ite_pair h (readMem_keeps h ..)
    · exact h)

theorem moveOf_keeps {s : State} (h : BlockInv s) (b : Nat) (x : Chan) (w : Nat) : BlockInv (moveOf s b x w).1 := by
  unfold moveOf
  dsimp only
  split
  · exact keeps_ite_fst (indexWord_keeps h ..) h
  · split
    · exact keeps_ite_fst (indexWord_keeps h ..) h
    · exact keeps_ite_fst (indexWord_keeps h ..) h
    · exact keeps_ite_fst (keeps_ite_fst (indexWord_keeps h ..) h) (keeps_ite_pair (keeps_ite_fst (indexWord_keeps h ..) h) (keeps_ite_fst
        (indexWord_keeps h ..) h))

theorem moveRow_keeps {s : State} (h : BlockInv s) (b ch : Nat) (x : Chan) (w : Nat) : BlockInv (moveRow b ch x w s) := by
  unfold moveRow
  dsimp only
  exact keeps_ite (settle_keeps (chanPut_keeps h ..) ..) (keeps_ite (settle_keeps (chanPut_keeps h ..) ..) (by
    split
    · exact busError_keeps (chanPut_keeps (moveOf_keeps h ..) ..) ..
    · exact keeps_ite (settle_keeps (chanPut_keeps (issuePieces_keeps (chanPut_keeps (moveOf_keeps h ..) ..) ..) ..) ..) (keeps_ite
        (issuePieces_keeps (chanPut_keeps (moveOf_keeps h ..) ..) ..) (keeps_ite (chanPut_keeps (issuePieces_keeps (chanPut_keeps
        (moveOf_keeps h ..) ..) ..) ..) (issuePieces_keeps (chanPut_keeps (moveOf_keeps h ..) ..) ..)))))

theorem moveState_keeps {s : State} (h : BlockInv s) (block chan : Nat) : BlockInv (moveState block chan s) :=
  chanRow_keeps h _ _ _ _ (fun _ _ _ ht => moveRow_keeps ht ..)

theorem scatterAddState_keeps {s : State} (h : BlockInv s) (block chan : Nat) : BlockInv (scatterAddState block chan s) :=
  chanRow_keeps h _ _ _ _ (fun _ _ _ ht => moveRow_keeps ht ..)

theorem waitChan_keeps {s : State} (h : BlockInv s) (b ch : Nat) (x : Chan) (kind id for_ : Nat) : BlockInv (waitChan s b ch x kind id for_) :=
  chanPut_keeps h ..

theorem waitpState_keeps {s : State} (h : BlockInv s) (block chan : Nat) : BlockInv (waitpState block chan s) := by
  unfold waitpState
  dsimp only
  exact chanRow_keeps h _ _ _ _ (fun _ _ _ ht => keeps_ite (stepChan_keeps ht ..) (waitChan_keeps ht ..))

theorem waittState_keeps {s : State} (h : BlockInv s) (block chan : Nat) : BlockInv (waittState block chan s) := by
  unfold waittState
  dsimp only
  exact chanRow_keeps h _ _ _ _ (fun _ _ _ ht => keeps_ite (stepChan_keeps ht ..) (waitChan_keeps ht ..))

theorem waitcState_keeps {s : State} (h : BlockInv s) (block chan : Nat) : BlockInv (waitcState block chan s) := by
  unfold waitcState
  dsimp only
  exact chanRow_keeps h _ _ _ _ (fun _ _ _ ht => keeps_ite (stepChan_keeps ht ..) (waitChan_keeps ht ..))

theorem signalState_keeps {s : State} (h : BlockInv s) (block chan : Nat) : BlockInv (signalState block chan s) :=
  chanRow_keeps h _ _ _ _ (fun _ _ _ ht => stepChan_keeps ht ..)

theorem settState_keeps {s : State} (h : BlockInv s) (block chan : Nat) : BlockInv (settState block chan s) := by
  unfold settState
  dsimp only
  exact chanRow_keeps h _ _ _ _ (fun _ _ _ ht => stepChan_keeps (blockPut_keeps ht ..) ..)

theorem peerState_keeps {s : State} (h : BlockInv s) (block chan : Nat) : BlockInv (peerState block chan s) :=
  chanRow_keeps h _ _ _ _ (fun _ _ _ ht => stepChan_keeps ht ..)

theorem endChanState_keeps {s : State} (h : BlockInv s) (block chan : Nat) : BlockInv (endChanState block chan s) :=
  chanRow_keeps h _ _ _ _ (fun _ _ _ ht => settle_keeps (chanEnd_keeps (chanPut_keeps ht ..) ..) ..)

theorem waitpDueState_keeps {s : State} (h : BlockInv s) (block chan : Nat) : BlockInv (waitpDueState block chan s) := by
  unfold waitpDueState
  split
  · exact h
  · exact keeps_ite h (stepChan_keeps h ..)

theorem waitSatisfiedState_keeps {s : State} (h : BlockInv s) (block chan : Nat) : BlockInv (waitSatisfiedState block chan s) := by
  unfold waitSatisfiedState
  split
  · exact h
  · exact keeps_ite h (stepChan_keeps h ..)

theorem waitTimeoutState_keeps {s : State} (h : BlockInv s) (block chan : Nat) : BlockInv (waitTimeoutState block chan s) := by
  unfold waitTimeoutState
  split
  · exact h
  · exact keeps_ite h (chanEnd_keeps h ..)

theorem takeInbox_keeps {s : State} (h : BlockInv s) (b kind : Nat) {c : Cell} {t : State} (e : takeInbox s b kind = some (c, t)) : BlockInv t := by
  obtain ⟨c', -, e'⟩ := Option.map_eq_some_iff.mp e
  obtain ⟨-, rfl⟩ := Prod.mk.inj e'
  exact upd_keeps h

theorem dropParcel_keeps {s : State} (h : BlockInv s) (b ch : Nat) (p : Parcel) : BlockInv (dropParcel s b ch p) := by
  unfold dropParcel
  dsimp only
  exact chanPut_keeps h ..

theorem parcelDone_keeps {s : State} (h : BlockInv s) (b ch : Nat) (p : Parcel) : BlockInv (parcelDone s b ch p) := by
  unfold parcelDone
  dsimp only
  exact settle_keeps (keeps_ite (tallyBump_keeps (dropParcel_keeps h ..) ..) (dropParcel_keeps h ..)) ..

theorem readDone_keeps {s : State} (h : BlockInv s) (b ch : Nat) (p : Parcel) : BlockInv (readDone s b ch p) := by
  unfold readDone
  dsimp only
  split
  · exact settle_keeps (tallyBump_keeps (dropParcel_keeps h ..) ..) ..
  · split
    · exact settle_keeps (sendParcel_keeps (dropParcel_keeps h ..) ..) ..
    · exact settle_keeps (sendParcel_keeps (dropParcel_keeps h ..) ..) ..

theorem cellAckState_keeps {s : State} (h : BlockInv s) (block : Nat) : BlockInv (cellAckState block s) := by
  unfold cellAckState
  split
  · exact h
  next t e0 =>
    have ht : BlockInv t := takeInbox_keeps h _ _ e0
    split
    · exact lathCount_keeps ht ..
    · exact keeps_ite (lathCount_keeps ht ..) (parcelDone_keeps ht ..)

theorem cellReplyState_keeps {s : State} (h : BlockInv s) (block : Nat) : BlockInv (cellReplyState block s) := by
  unfold cellReplyState
  dsimp only
  split
  · exact h
  next t e0 =>
    have ht : BlockInv t := takeInbox_keeps h _ _ e0
    exact keeps_ite (lathCount_keeps ht ..) (by
      split
      · exact lathCount_keeps ht ..
      · exact keeps_ite (readDone_keeps (parcelMap_keeps (keeps_ite (ownStore_keeps (slotPut_keeps ht ..) ..) (slotPut_keeps ht ..)) ..) ..)
          (parcelMap_keeps (keeps_ite (ownStore_keeps (slotPut_keeps ht ..) ..) (slotPut_keeps ht ..)) ..))

theorem cellNackState_keeps {s : State} (h : BlockInv s) (block : Nat) : BlockInv (cellNackState block s) := by
  unfold cellNackState
  split
  · exact h
  next t e0 =>
    have ht : BlockInv t := takeInbox_keeps h _ _ e0
    split
    · exact lathCount_keeps ht ..
    · exact parcelFail_keeps ht ..

theorem lathParcelRetryState_keeps {s : State} (h : BlockInv s) (block win : Nat) : BlockInv (lathParcelRetryState block win s) := by
  unfold lathParcelRetryState
  dsimp only
  split
  · exact h
  · split
    · exact h
    · exact keeps_ite h (keeps_ite (injectCells_keeps (lathCount_keeps (chanPut_keeps h ..) ..) ..) (keeps_ite h (parcelFail_keeps h ..)))

theorem allStopState_keeps {s : State} (h : BlockInv s) (block : Nat) : BlockInv (allStopState block s) := by
  unfold allStopState
  dsimp only
  exact keeps_ite h (by
    split
    · exact h
    · exact keeps_ite (snagRecord_keeps (keeps_foldl _ (fun _ _ ht => keeps_ite (keeps_ite (chanEnd_keeps (chanPut_keeps ht ..) ..) (chanEnd_keeps
        (chanPut_keeps ht ..) ..)) ht) _ (blockPut_keeps (csrPut_keeps (csrPut64_keeps (csrBump_keeps (csrSetField_keeps
        (csrSetField_keeps h ..) ..) ..) ..) ..) ..)) ..) (keeps_ite (orderReplay_keeps (decideEvent_keeps (keeps_foldl _ (fun _ _ ht => keeps_ite
        (keeps_ite (chanEnd_keeps (chanPut_keeps ht ..) ..) (chanEnd_keeps (chanPut_keeps ht ..) ..)) ht) _ (blockPut_keeps (csrPut_keeps
        (csrPut64_keeps (csrBump_keeps (csrSetField_keeps (csrSetField_keeps h ..) ..) ..) ..) ..) ..)) ..) ..) (decideEvent_keeps (keeps_foldl _
        (fun _ _ ht => keeps_ite (keeps_ite (chanEnd_keeps (chanPut_keeps ht ..) ..) (chanEnd_keeps (chanPut_keeps ht ..) ..)) ht) _
        (blockPut_keeps (csrPut_keeps (csrPut64_keeps (csrBump_keeps (csrSetField_keeps (csrSetField_keeps h ..) ..) ..) ..) ..) ..)) ..)))

theorem bodySnagRead_keeps {s : State} (h : BlockInv s) (c : Cmd) : KeepsOpt (bodySnagRead c s) := by
  unfold bodySnagRead
  dsimp only
  exact keepsOpt_ite (keepsOpt_some (finish_keeps h ..)) (keepsOpt_ite (keepsOpt_some (finish_keeps h ..)) (keepsOpt_some (cmdAnswer_keeps h ..)))

theorem snagReadState_keeps {s : State} (h : BlockInv s) (q qseq : Nat) : BlockInv (snagReadState q qseq s) :=
  hostRow_keeps h _ _ _ _ (fun _ _ t ht => bodySnagRead_keeps ht _ t)

theorem bodyRetire_keeps {s : State} (h : BlockInv s) (c : Cmd) : KeepsOpt (bodyRetire c s) := by
  unfold bodyRetire
  dsimp only
  exact keepsOpt_ite (keepsOpt_some (finish_keeps h ..)) (keepsOpt_some (finish_keeps (upd_keeps (snagRecord_keeps h ..)) ..))

theorem retireState_keeps {s : State} (h : BlockInv s) (q qseq : Nat) : BlockInv (retireState q qseq s) :=
  hostRow_keeps h _ _ _ _ (fun _ _ t ht => bodyRetire_keeps ht _ t)

theorem snagFlashCommitState_keeps {s : State} (h : BlockInv s) (ok : Bool) : BlockInv (snagFlashCommitState ok s) := by
  unfold snagFlashCommitState
  dsimp only
  exact keeps_ite h (keeps_ite (commitSnag_keeps h) (csrSetField_keeps (upd_keeps h) ..))

theorem runPut_keeps {s : State} (h : BlockInv s) (r : Run) : BlockInv (runPut s r) :=
  upd_keeps h

theorem coreUpd_keeps {s : State} (h : BlockInv s) (op core : Nat) (f : CoreRun → CoreRun) : BlockInv (coreUpd s op core f) :=
  upd_keeps h

theorem StCtx.done_keeps {s : State} (h : BlockInv s) (x : StCtx) : BlockInv (StCtx.done x s) :=
  coreUpd_keeps h ..

theorem StCtx.fail_keeps {s : State} (h : BlockInv s) (x : StCtx) (status : Nat) : BlockInv (StCtx.fail x s status) :=
  coreUpd_keeps h ..

theorem StCtx.upset_keeps {s : State} (h : BlockInv s) (x : StCtx) (u : Upset) : BlockInv (StCtx.upset x s u).1 := by
  unfold StCtx.upset
  dsimp only
  split
  · exact keeps_ite_pair (orderReplay_keeps (decideEvent_keeps (StCtx.fail_keeps h ..) ..) ..) (secdedCorrected_keeps h ..)
  · exact keeps_ite_pair (orderReplay_keeps (decideEvent_keeps (StCtx.fail_keeps h ..) ..) ..) (secdedCorrected_keeps h ..)
  · exact secdedCorrected_keeps h ..
  · exact keeps_ite_pair (upd_keeps h) (orderReplay_keeps (decideEvent_keeps (StCtx.fail_keeps h ..) ..) ..)

theorem StCtx.upsets_keeps {s : State} (h : BlockInv s) (x : StCtx) (l : List Upset) : BlockInv (x.upsets l s).1 := by
  induction l generalizing s with
  | nil => exact h
  | cons u r ih => exact keeps_ite_fst (ih (StCtx.upset_keeps h ..)) (StCtx.upset_keeps h ..)

theorem stageRow_keeps {s : State} (h : BlockInv s) (op core : Nat) (ev : StageEvents) (sel : StageRec → Bool) (f : StCtx → State → State)
    (hf : ∀ y t, BlockInv t → BlockInv (f y t)) : BlockInv (stageRow op core ev sel f s) := by
  unfold stageRow
  split
  · exact h
  next x _ =>
    have hr := StCtx.upsets_keeps h x ev.upsets
    refine keeps_ite hr ?_
    split
    · exact hr
    · exact hf _ _ hr

theorem coreBump_keeps {s : State} (h : BlockInv s) (pc off n : Nat) : BlockInv (coreBump s pc off n) :=
  csrBump_keeps h ..

theorem latchOrigin_keeps {s : State} (h : BlockInv s) (pc op stage unit func sub eng elem cause : Nat) : BlockInv
    (latchOrigin s pc op stage unit func sub eng elem cause) := by
  unfold latchOrigin
  dsimp only
  exact csrPut64_keeps (csrPut64_keeps (csrPut_keeps (csrPut_keeps h ..) ..) ..) ..

theorem StCtx.origins_keeps {s : State} (h : BlockInv s) (x : StCtx) (unit func sub : Nat) (os : List (Nat × Nat × Nat)) : BlockInv
    (StCtx.origins x s unit func sub os) := by
  unfold StCtx.origins
  dsimp only
  split
  · exact h
  · exact coreUpd_keeps (coreBump_keeps (keeps_ite (latchOrigin_keeps h ..) h) ..) ..

theorem StCtx.propagated_keeps {s : State} (h : BlockInv s) (x : StCtx) (n : Nat) : BlockInv (StCtx.propagated x s n) :=
  coreBump_keeps h ..

theorem StCtx.spot_keeps {s : State} (h : BlockInv s) (x : StCtx) (sub : Nat) (c : SpotCheck) : BlockInv (StCtx.spot x s sub c).1 := by
  unfold StCtx.spot
  dsimp only
  split
  · exact h
  · exact keeps_ite_pair (decideEvent_keeps h ..) h
  · exact keeps_ite_pair (orderReplay_keeps (decideEvent_keeps h ..) ..) h

theorem StCtx.checked_keeps {s : State} (h : BlockInv s) (x : StCtx) (sub : Nat) (c : SpotCheck) (f : StCtx → State → State)
    (hf : ∀ y t, BlockInv t → BlockInv (f y t)) : BlockInv (x.checked s sub c f) :=
  keeps_ite (hf _ _ (StCtx.spot_keeps h ..)) (StCtx.spot_keeps h ..)

theorem moveBytes_keeps {s : State} (h : BlockInv s) (io : IoCtx) (sp a sp' b n : Nat) : BlockInv (moveBytes s io sp a sp' b n).1 := by
  unfold moveBytes
  dsimp only
  split
  · exact spaceRead_keeps h ..
  · exact spaceWrite_keeps (spaceRead_keeps h ..) ..

theorem moveOperand_keeps {s : State} (h : BlockInv s) (io : IoCtx) (a b : Desc) : BlockInv (moveOperand s io a b).1 := by
  unfold moveOperand
  dsimp only
  exact keeps_foldl_pair (fun _ _ hr => moveBytes_keeps hr ..) h

theorem StCtx.move_keeps {s : State} (h : BlockInv s) (x : StCtx) : BlockInv (StCtx.move x s).1 := by
  unfold StCtx.move
  split
  · exact moveOperand_keeps h ..
  · exact h

theorem loadBody_keeps {s : State} (h : BlockInv s) (x : StCtx) : BlockInv (loadBody x s) := by
  have hend {t : State} (ht : BlockInv t) {q : Prop} [Decidable q] : BlockInv (if q then x.done t else x.fail t stFault) :=
    keeps_ite (StCtx.done_keeps ht ..) (StCtx.fail_keeps ht ..)
  unfold loadBody
  extract_lets m
  have hm : BlockInv m.1 := StCtx.move_keeps h x
  refine keeps_ite ?_ (hend hm)
  split
  next a b _ _ =>
    refine keeps_ite ?_ (hend hm)
    extract_lets w
    have hw : BlockInv w.1 := keeps_foldl_pair (fun _ _ hr => spaceWrite_keeps hr ..) h
    exact hend hw
  · exact StCtx.done_keeps h ..

theorem storeBody_keeps {s : State} (h : BlockInv s) (x : StCtx) : BlockInv (storeBody x s) := by
  unfold storeBody
  dsimp only
  exact keeps_ite (StCtx.done_keeps (tallyBump_keeps (StCtx.move_keeps h ..) ..) ..) (StCtx.fail_keeps (StCtx.move_keeps h ..) ..)

theorem hawkPut_keeps {s : State} (hs : BlockInv s) (m : Nat) (h : Hawk) : BlockInv (hawkPut s m h) :=
  upd_keeps hs

theorem StCtx.noteFrame_keeps {s : State} (h : BlockInv s) (x : StCtx) (f : Frame) : BlockInv (StCtx.noteFrame x s f).1 := by
  unfold StCtx.noteFrame
  dsimp only
  exact runPut_keeps h ..

theorem StCtx.reserve_keeps {s : State} (h : BlockInv s) (x : StCtx) {t : State} {y : StCtx} (e : x.reserve s = some (t, y)) : BlockInv t := by
  unfold StCtx.reserve at e
  split at e
  · obtain ⟨rfl, -⟩ := Prod.mk.inj (Option.some.inj e)
    exact h
  · dsimp only at e
    split at e
    · exact nomatch e
    · obtain ⟨rfl, -⟩ := Prod.mk.inj (Option.some.inj e)
      exact spaceWrite_keeps (StCtx.noteFrame_keeps (hawkPut_keeps h ..) ..) ..

theorem stashBody_keeps {s : State} (h : BlockInv s) (x : StCtx) : BlockInv (stashBody x s) := by
  unfold stashBody
  dsimp only
  split
  · exact StCtx.fail_keeps h ..
  next t _ e0 =>
    have ht : BlockInv t := StCtx.reserve_keeps h _ e0
    exact keeps_ite (StCtx.done_keeps (StCtx.move_keeps ht ..) ..) (StCtx.fail_keeps (StCtx.move_keeps ht ..) ..)

theorem StCtx.topFrame_keeps {s : State} (h : BlockInv s) (x : StCtx) {t : State} {y : StCtx} (e : x.topFrame s = some (t, y)) : BlockInv t := by
  unfold StCtx.topFrame at e
  split at e
  · obtain ⟨rfl, -⟩ := Prod.mk.inj (Option.some.inj e)
    exact h
  · split at e
    · exact nomatch e
    · split at e
      · have hnoted := StCtx.noteFrame_keeps h x (by assumption)
        rw [Option.some.inj e] at hnoted
        exact hnoted
      · exact nomatch e

theorem StCtx.pop_keeps {s : State} (h : BlockInv s) (x : StCtx) : BlockInv (StCtx.pop x s) := by
  unfold StCtx.pop
  dsimp only
  split
  · exact h
  · exact keeps_ite (hawkPut_keeps h ..) h

theorem unstashBody_keeps {s : State} (h : BlockInv s) (x : StCtx) : BlockInv (unstashBody x s) := by
  unfold unstashBody
  dsimp only
  split
  · exact StCtx.fail_keeps h ..
  next t _ e0 =>
    have ht : BlockInv t := StCtx.topFrame_keeps h _ e0
    exact keeps_ite (StCtx.pop_keeps (StCtx.done_keeps (StCtx.move_keeps ht ..) ..) ..) (StCtx.pop_keeps (StCtx.fail_keeps
        (StCtx.move_keeps ht ..) ..) ..)

theorem loadStageState_keeps {s : State} (h : BlockInv s) (op core : Nat) (ev : StageEvents) : BlockInv (loadStageState op core ev s) :=
  stageRow_keeps h _ _ _ _ _ (fun _ _ ht => loadBody_keeps ht ..)

theorem storeStageState_keeps {s : State} (h : BlockInv s) (op core : Nat) (ev : StageEvents) : BlockInv (storeStageState op core ev s) :=
  stageRow_keeps h _ _ _ _ _ (fun _ _ ht => storeBody_keeps ht ..)

theorem stashState_keeps {s : State} (h : BlockInv s) (op core : Nat) (ev : StageEvents) : BlockInv (stashState op core ev s) :=
  stageRow_keeps h _ _ _ _ _ (fun _ _ ht => stashBody_keeps ht ..)

theorem unstashState_keeps {s : State} (h : BlockInv s) (op core : Nat) (ev : StageEvents) : BlockInv (unstashState op core ev s) :=
  stageRow_keeps h _ _ _ _ _ (fun _ _ ht => unstashBody_keeps ht ..)

end Sys2Proof.Machine
end

section
/-! SUPPORT. The invariant through Topcoat, takeover and answers. -/

namespace Sys2Proof.Machine

theorem bodyTopcoatLoad_keeps {s : State} (h : BlockInv s) (c : Cmd) : KeepsOpt (bodyTopcoatLoad c s) := by
  unfold bodyTopcoatLoad
  dsimp only
  exact keepsOpt_ite (keepsOpt_some (finish_keeps h ..)) (keepsOpt_ite (keepsOpt_some (finish_keeps h ..)) (keepsOpt_some (finish_keeps
      (csrPut_keeps (upd_keeps h) ..) ..)))

theorem topcoatLoadState_keeps {s : State} (h : BlockInv s) (q qseq : Nat) : BlockInv (topcoatLoadState q qseq s) :=
  hostRow_keeps h _ _ _ _ (fun _ _ t ht => bodyTopcoatLoad_keeps ht _ t)

theorem nameTensor_keeps {s : State} (h : BlockInv s) (c : Cmd) (refused : Bool) : BlockInv (nameTensor s c refused) := by
  unfold nameTensor
  dsimp only
  exact keeps_ite h (upd_keeps h)

theorem updNote_keeps {s : State} (h : BlockInv s) (c : Cmd) (status : Nat) : BlockInv (updNote s c status) := by
  unfold updNote
  dsimp only
  exact upd_keeps h

theorem updWait_keeps {s : State} (h : BlockInv s) (c : Cmd) : KeepsOpt (updWait c s) := by
  unfold updWait
  dsimp only
  exact keepsOpt_ite (keepsOpt_some h) (keepsOpt_ite (keepsOpt_some (upd_keeps (nameTensor_keeps h ..))) keepsOpt_none)

theorem updRefuse_keeps {s : State} (h : BlockInv s) (c : Cmd) : BlockInv (updRefuse c s) :=
  finish_keeps (nameTensor_keeps h ..) ..

theorem updNoted_keeps {s : State} (h : BlockInv s) (q qseq : Nat) : BlockInv (updNoted s q qseq) := by
  unfold updNoted
  split
  · exact keeps_ite (nameTensor_keeps h ..) h
  · exact h

theorem updateState_keeps {s : State} (h : BlockInv s) (q qseq : Nat) : BlockInv (updateState q qseq s) :=
  waitRow_keeps (updNoted_keeps h ..) _ _ _ _ _ (fun _ _ t ht => updWait_keeps ht _ t) (fun _ _ ht => updRefuse_keeps ht ..)

theorem modRun_keeps {s : State} (h : BlockInv s) (f : UpdateRun → UpdateRun) : BlockInv (modRun s f) := by
  unfold modRun
  dsimp only
  exact upd_keeps h

theorem modTop_keeps {s : State} (h : BlockInv s) (st : Nat) (f : TopStack → TopStack) : BlockInv (modTop s st f) := by
  unfold modTop
  dsimp only
  exact upd_keeps h

theorem planeRead_keeps {s : State} (h : BlockInv s) (t : Tensor) (i off n : Nat) : BlockInv (planeRead s t i off n).1 := by
  unfold planeRead
  split
  · exact h
  · exact readMem_keeps (portGrant_keeps h ..) ..

theorem planeWrite_keeps {s : State} (h : BlockInv s) (t : Tensor) (i off : Nat) (bs : List Byte) : BlockInv (planeWrite s t i off bs).1 := by
  unfold planeWrite
  split
  · exact h
  · exact writeMem_keeps (portGrant_keeps h ..) ..

theorem planeTaken_keeps {s : State} (h : BlockInv s) (t : Tensor) (g : Nat) (p : Nat × Nat) : BlockInv (planeTaken t g s p) := by
  unfold planeTaken
  dsimp only
  split
  · exact h
  · exact upd_keeps h

theorem copyPlane_keeps {r : State × Bool} (h : BlockInv r.1) (t : Tensor) (g i j n : Nat) : BlockInv (copyPlane t g r i j n).1 := by
  unfold copyPlane
  dsimp only
  split
  · exact planeRead_keeps h ..
  · exact planeWrite_keeps (planeRead_keeps h ..) ..

theorem loadRegs_keeps {s : State} (h : BlockInv s) (t : Tensor) (p : TopProg) (g i : Nat) : BlockInv (loadRegs s t p g i).1 := by
  have hread {u : State} (hu : BlockInv u) (i off n : Nat) : BlockInv (planeRead u t i off n).1 := planeRead_keeps hu ..
  have hmoments {u : State} (hu : BlockInv u) {q : Prop} [Decidable q] (i off n : Nat) :
      BlockInv (if q then planeRead u t i off n else (u, some [])).1 := keeps_ite_fst (hread hu ..) hu
  unfold loadRegs
  extract_lets m1 m2 hi lo d e a b
  have hb : BlockInv b.1 := hmoments (hmoments (hread (hread (hread (hread h ..) ..) ..) ..) ..) ..
  split
  · exact hb
  · exact hb

theorem formCopy_keeps {s : State} (h : BlockInv s) (t : Tensor) (j g : Nat) (rc : Recipe) (floor offMax : Nat) (fold : Option Nat)
    (scale : Option (Nat × Nat)) : BlockInv (formCopy s t j g rc floor offMax fold scale).1 := by
  unfold formCopy
  dsimp only
  split
  · exact planeWrite_keeps (planeWrite_keeps (readHi_keeps (orNone_keeps (orNone_keeps h _ _ (fun _ ht => readScales_keeps ht ..)) _ _
      (fun _ ht => readFold_keeps ht ..)) ..) ..) ..
  · exact readHi_keeps (orNone_keeps (orNone_keeps h _ _ (fun _ ht => readScales_keeps ht ..)) _ _ (fun _ ht => readFold_keeps ht ..)) ..

theorem groupCopy_keeps {s : State} (h : BlockInv s) (c : Cmd) (t : Tensor) (g : Nat) (ran : Bool) : BlockInv (groupCopy s c t g ran).1 := by
  unfold groupCopy
  dsimp only
  exact keeps_ite_fst (formCopy_keeps h ..) (keeps_ite_pair (copyPlane_keeps (copyPlane_keeps h ..) ..) h)

theorem groupS16_keeps {s : State} (h : BlockInv s) (t : Tensor) (g : Nat) (ran : Bool) : BlockInv (groupS16 s t g ran).1 := by
  unfold groupS16
  dsimp only
  exact keeps_ite_pair (copyPlane_keeps h ..) (planeWrite_keeps h ..)

theorem endGroup_keeps {s : State} (h : BlockInv s) (st : Nat) (c : Cmd) (t : Tensor) (p : TopProg) (g : Nat) (ran : Bool) : BlockInv
    (endGroup s st c t p g ran).1 := by
  unfold endGroup
  dsimp only
  split
  · exact modRun_keeps (keeps_ite (keeps_ite (csrPut64_keeps (csrBump_keeps (csrBump_keeps (csrBump_keeps (csrBump_keeps (keeps_ite_fst
      (groupS16_keeps (groupCopy_keeps h ..) ..) (groupCopy_keeps h ..)) ..) ..) ..) ..) ..) (csrBump_keeps (csrBump_keeps (csrBump_keeps
      (csrBump_keeps (keeps_ite_fst (groupS16_keeps (groupCopy_keeps h ..) ..) (groupCopy_keeps h ..)) ..) ..) ..) ..)) (setNf_keeps (keeps_ite
      (csrPut64_keeps (csrBump_keeps (csrBump_keeps (csrBump_keeps (csrBump_keeps (keeps_ite_fst (groupS16_keeps (groupCopy_keeps h ..) ..)
      (groupCopy_keeps h ..)) ..) ..) ..) ..) ..) (csrBump_keeps (csrBump_keeps (csrBump_keeps (csrBump_keeps (keeps_ite_fst (groupS16_keeps
      (groupCopy_keeps h ..) ..) (groupCopy_keeps h ..)) ..) ..) ..) ..)))) ..
  · exact keeps_ite_fst (groupS16_keeps (groupCopy_keeps h ..) ..) (groupCopy_keeps h ..)

theorem copyGroup_keeps {s : State} (h : BlockInv s) (st : Nat) (c : Cmd) (t : Tensor) (p : TopProg) (g : Nat) : BlockInv
    (copyGroup s st c t p g).1 := by
  unfold copyGroup
  dsimp only
  exact keeps_ite_fst (endGroup_keeps (keeps_foldl_pair (fun _ _ hr => copyPlane_keeps hr ..) (keeps_foldl _
      (fun _ _ hu => planeTaken_keeps hu ..) _ h)) ..) (keeps_foldl_pair (fun _ _ hr => copyPlane_keeps hr ..) (keeps_foldl _
      (fun _ _ hu => planeTaken_keeps hu ..) _ h))

theorem skipGroups_keeps {s : State} (h : BlockInv s) (st : Nat) (u : UpdateRun) (t : Tensor) (p : TopProg) (l : List Nat) :
    BlockInv (skipGroups st u t p l s).1 := by
  induction l generalizing s with
  | nil => exact h
  | cons g r ih =>
    have hx := copyGroup_keeps h st u.cmd t p g
    exact keeps_ite_fst h (keeps_ite_fst (ih hx) hx)

theorem setBusy_keeps {s : State} (h : BlockInv s) (st v : Nat) : BlockInv (setBusy s st v) :=
  csrSetField_keeps h ..

theorem topLoad_keeps {s : State} (h : BlockInv s) (st : Nat) (u : UpdateRun) (t : Tensor) (p : TopProg) (gs : List Nat) (i : Nat) : BlockInv
    (topLoad s st u t p gs i).1 := by
  unfold topLoad
  dsimp only
  split
  · exact keeps_ite (modTop_keeps h ..) (setBusy_keeps (modTop_keeps h ..) ..)
  · split
    · exact loadRegs_keeps (keeps_ite (keeps_foldl _ (fun _ _ hv => planeTaken_keeps hv ..) _ h) h) ..
    · exact modTop_keeps (loadRegs_keeps (keeps_ite (keeps_foldl _ (fun _ _ hv => planeTaken_keeps hv ..) _ h) h) ..) ..

theorem topEnter_keeps {s : State} (h : BlockInv s) (st : Nat) (u : UpdateRun) (t : Tensor) (p : TopProg) (gs : List Nat) : BlockInv
    (topEnter s st u t p gs).1 := by
  unfold topEnter
  dsimp only
  exact keeps_ite_fst (modTop_keeps h ..) (keeps_ite_fst (topLoad_keeps (skipGroups_keeps h ..) ..) (skipGroups_keeps h ..))

theorem startPass_keeps {s : State} (h : BlockInv s) : BlockInv (startPass s).1 := by
  unfold startPass
  generalize s.topcoat.running = running
  cases running with
  | none => exact h
  | some u =>
    dsimp only
    generalize tensorAt s u.cmd.uTensor = tensor
    generalize topProg s u.cmd.uProg = prog
    cases tensor with
    | none => exact h
    | some t =>
      cases prog with
      | none => exact h
      | some p =>
        refine keeps_foldl_pair (fun r _ hr => ?_) h
        exact keeps_ite_fst hr (topEnter_keeps (modTop_keeps (setBusy_keeps hr ..) ..) ..)

theorem endUpdate_keeps {s : State} (h : BlockInv s) (c : Cmd) (status flags : Nat) : BlockInv (endUpdate s c status flags) := by
  unfold endUpdate
  dsimp only
  exact complete_keeps (updNote_keeps (keeps_foldl _ (fun _ _ ht => setBusy_keeps ht ..) _ (upd_keeps h)) ..) ..

theorem topRecurs_keeps {s : State} (h : BlockInv s) : BlockInv (topRecurs s) := by
  unfold topRecurs
  split
  · exact decideEvent_keeps h ..
  · exact h

theorem restartUpdate_keeps {s : State} (h : BlockInv s) : BlockInv (restartUpdate s) :=
  modRun_keeps h ..

theorem topRetry_keeps {s : State} (h : BlockInv s) (fuel : Nat) : BlockInv (topRetry fuel s) := by
  induction fuel generalizing s with
  | zero =>
    unfold topRetry
    split
    · exact h
    · exact endUpdate_keeps (topRecurs_keeps h) ..
  | succ fuel ih =>
    unfold topRetry
    split
    · exact h
    · have hr := startPass_keeps (restartUpdate_keeps h)
      exact keeps_ite (endUpdate_keeps (topRecurs_keeps h) ..) (keeps_ite hr (ih hr))

theorem topFault_keeps {s : State} (h : BlockInv s) : BlockInv (topFault s) :=
  topRetry_keeps h ..

theorem goOn_keeps {r : State × Bool} (h : BlockInv r.1) : BlockInv (goOn r) := keeps_ite h (topFault_keeps h)

theorem topSpot_keeps {s : State} (h : BlockInv s) (c : Cmd) (t : Tensor) (k : SpotCheck) : BlockInv (topSpot s c t k) := by
  unfold topSpot
  dsimp only
  split
  · exact h
  · exact keeps_ite (decideEvent_keeps h ..) h
  · exact keeps_ite (decideEvent_keeps h ..) h

theorem topParity_keeps {s : State} (h : BlockInv s) (c : Cmd) (t : Tensor) (k : Option TopParity) : BlockInv (topParity s c t k).1 := by
  unfold topParity
  split
  · exact h
  · exact keeps_ite_pair h (decideEvent_keeps h ..)

theorem readRows_keeps {s : State} (h : BlockInv s) (c : Cmd) (t : Tensor) : BlockInv (readRows s c t).1 := by
  unfold readRows
  dsimp only
  exact readMem_keeps h ..

theorem claimTensor_keeps {s : State} (h : BlockInv s) (c : Cmd) (t : Tensor) : BlockInv (claimTensor s c t) := by
  unfold claimTensor
  dsimp only
  exact keeps_ite h (tensorPut_keeps (upd_keeps h) ..)

theorem unclaimTensor_keeps {s : State} (h : BlockInv s) (c : Cmd) (t : Tensor) : BlockInv (unclaimTensor s c t) := by
  unfold unclaimTensor
  split
  · exact tensorPut_keeps h ..
  · exact h

theorem takeTensor_keeps {s : State} (h : BlockInv s) (c : Cmd) (t : Tensor) (rows : Option (List Nat)) (ev : TopEvents) : BlockInv
    (takeTensor s c t rows ev) := by
  unfold takeTensor
  dsimp only
  exact keeps_ite (endUpdate_keeps (topParity_keeps (tensorPut_keeps (upd_keeps (fly_keeps (markBegun_keeps
      (topSpot_keeps h ..) ..) ..)) ..) ..) ..) (goOn_keeps (startPass_keeps (upd_keeps (keeps_foldl _ (fun _ _ hu => csrSetField_keeps
      (csrSetField_keeps hu ..) ..) _ (topParity_keeps (tensorPut_keeps (upd_keeps (fly_keeps (markBegun_keeps
      (topSpot_keeps h ..) ..) ..)) ..) ..)))))

theorem updQuit_keeps {s : State} (h : BlockInv s) (c : Cmd) (status : Nat) : BlockInv (updQuit s c status) :=
  finish_keeps (updNote_keeps (markBegun_keeps h ..) ..) ..

theorem updDrop_keeps {s : State} (h : BlockInv s) (c : Cmd) : BlockInv (updDrop s c) := by
  unfold updDrop
  dsimp only
  exact upd_keeps (updQuit_keeps h ..)

theorem updateTakesTensorState_keeps {s : State} (h : BlockInv s) (op : Nat) (ev : TopEvents) : BlockInv (updateTakesTensorState op ev s) := by
  unfold updateTakesTensorState
  dsimp only
  split
  · exact h
  · exact keeps_ite h (by
      split
      · exact updQuit_keeps h ..
      · exact h
      · exact updQuit_keeps h ..
      · split
        · exact h
        · exact updQuit_keeps h ..
        · exact keeps_ite (claimTensor_keeps h ..) (by
            split
            · exact updQuit_keeps (unclaimTensor_keeps (topRecurs_keeps (keeps_ite_fst (readRows_keeps (claimTensor_keeps h ..) ..)
                (claimTensor_keeps h ..))) ..) ..
            · exact updDrop_keeps (unclaimTensor_keeps (keeps_ite_fst (readRows_keeps (claimTensor_keeps h ..) ..) (claimTensor_keeps h ..)) ..) ..
            · exact takeTensor_keeps (keeps_ite_fst (readRows_keeps (claimTensor_keeps h ..) ..) (claimTensor_keeps h ..)) ..))

theorem scaleSatCause_keeps {s : State} (h : BlockInv s) (recipe : Nat) : BlockInv (scaleSatCause s recipe) :=
  keeps_foldl _ (fun _ _ ht => setCause_keeps ht ..) _ h

theorem topResume_keeps {s : State} (h : BlockInv s) : BlockInv (topResume s) := by
  unfold topResume
  split
  · exact h
  · split
    · exact goOn_keeps (keeps_foldl_pair (fun _ _ hr => (by
        split
        · exact keeps_ite_fst (topEnter_keeps hr ..) hr
        · exact hr)) h)
    · exact h

theorem updateCompleteState_keeps {s : State} (h : BlockInv s) (op : Nat) : BlockInv (updateCompleteState op s) := by
  unfold updateCompleteState
  dsimp only
  split
  · exact h
  · exact keeps_ite h (endUpdate_keeps (keeps_ite (scaleSatCause_keeps (upd_keeps h) ..) (upd_keeps h)) ..)

theorem topRow_keeps {s : State} (h : BlockInv s) (st op : Nat) (f : TopCtx → State → State) (hf : ∀ c t, BlockInv t → BlockInv (f c t)) :
    BlockInv (topRow st op f s) := by
  unfold topRow
  split
  · split
    · split
      · exact keeps_ite h (keeps_ite h (hf _ _ h))
      · exact h
    · exact h
  · exact h

theorem TopCtx.pass_keeps {s : State} (h : BlockInv s) (c : TopCtx) : BlockInv (TopCtx.pass c s) :=
  modTop_keeps h ..

theorem TopCtx.put_keeps {s : State} (h : BlockInv s) (c : TopCtx) (code : Nat) : BlockInv (TopCtx.put c s code) :=
  modTop_keeps h ..

theorem topAlu_keeps {s : State} (h : BlockInv s) (st op : Nat) (f : TopCtx → FV) : BlockInv (topAlu st op f s) :=
  topRow_keeps h _ _ _ (fun _ _ ht => TopCtx.put_keeps ht ..)

theorem topcoatAddState_keeps {s : State} (h : BlockInv s) (stack : Nat) : BlockInv (topcoatAddState stack s) :=
  topAlu_keeps h ..

theorem topcoatSubState_keeps {s : State} (h : BlockInv s) (stack : Nat) : BlockInv (topcoatSubState stack s) :=
  topAlu_keeps h ..

theorem topcoatMulState_keeps {s : State} (h : BlockInv s) (stack : Nat) : BlockInv (topcoatMulState stack s) :=
  topAlu_keeps h ..

theorem topcoatFmaState_keeps {s : State} (h : BlockInv s) (stack : Nat) : BlockInv (topcoatFmaState stack s) :=
  topAlu_keeps h ..

theorem topcoatDivState_keeps {s : State} (h : BlockInv s) (stack : Nat) : BlockInv (topcoatDivState stack s) :=
  topAlu_keeps h ..

theorem topcoatSqrtState_keeps {s : State} (h : BlockInv s) (stack : Nat) : BlockInv (topcoatSqrtState stack s) :=
  topAlu_keeps h ..

theorem topcoatRsqrtState_keeps {s : State} (h : BlockInv s) (stack : Nat) : BlockInv (topcoatRsqrtState stack s) :=
  topAlu_keeps h ..

theorem topcoatMaxState_keeps {s : State} (h : BlockInv s) (stack : Nat) : BlockInv (topcoatMaxState stack s) :=
  topAlu_keeps h ..

theorem topcoatMinState_keeps {s : State} (h : BlockInv s) (stack : Nat) : BlockInv (topcoatMinState stack s) :=
  topAlu_keeps h ..

theorem topcoatAbsState_keeps {s : State} (h : BlockInv s) (stack : Nat) : BlockInv (topcoatAbsState stack s) :=
  topAlu_keeps h ..

theorem topcoatNegState_keeps {s : State} (h : BlockInv s) (stack : Nat) : BlockInv (topcoatNegState stack s) :=
  topAlu_keeps h ..

theorem topcoatSignState_keeps {s : State} (h : BlockInv s) (stack : Nat) : BlockInv (topcoatSignState stack s) :=
  topAlu_keeps h ..

theorem topcoatClampState_keeps {s : State} (h : BlockInv s) (stack : Nat) : BlockInv (topcoatClampState stack s) :=
  topAlu_keeps h ..

theorem topcoatLdkState_keeps {s : State} (h : BlockInv s) (stack : Nat) : BlockInv (topcoatLdkState stack s) :=
  topAlu_keeps h ..

theorem topcoatMulkState_keeps {s : State} (h : BlockInv s) (stack : Nat) : BlockInv (topcoatMulkState stack s) :=
  topAlu_keeps h ..

theorem topcoatAddkState_keeps {s : State} (h : BlockInv s) (stack : Nat) : BlockInv (topcoatAddkState stack s) :=
  topAlu_keeps h ..

theorem topcoatFmakState_keeps {s : State} (h : BlockInv s) (stack : Nat) : BlockInv (topcoatFmakState stack s) :=
  topAlu_keeps h ..

theorem topcoatRowaccState_keeps {s : State} (h : BlockInv s) (stack : Nat) : BlockInv (topcoatRowaccState stack s) :=
  topRow_keeps h _ _ _ (fun _ _ ht => TopCtx.pass_keeps (modRun_keeps ht ..) ..)

theorem topcoatColaccState_keeps {s : State} (h : BlockInv s) (stack : Nat) : BlockInv (topcoatColaccState stack s) :=
  topRow_keeps h _ _ _ (fun _ _ ht => TopCtx.pass_keeps (modRun_keeps ht ..) ..)

theorem topFactor_keeps {s : State} (h : BlockInv s) (c : TopCtx) (code : Nat) : BlockInv (topFactor c code s) := by
  unfold topFactor
  dsimp only
  exact keeps_ite (TopCtx.put_keeps h ..) (TopCtx.put_keeps (takeFree_keeps h) ..)

theorem topcoatLdrowState_keeps {s : State} (h : BlockInv s) (stack : Nat) : BlockInv (topcoatLdrowState stack s) :=
  topRow_keeps h _ _ _ (fun _ _ ht => topFactor_keeps ht ..)

theorem topcoatLdcolState_keeps {s : State} (h : BlockInv s) (stack : Nat) : BlockInv (topcoatLdcolState stack s) :=
  topRow_keeps h _ _ _ (fun _ _ ht => topFactor_keeps ht ..)

theorem topcoatLdrsumState_keeps {s : State} (h : BlockInv s) (stack : Nat) : BlockInv (topcoatLdrsumState stack s) :=
  topRow_keeps h _ _ _ (fun _ _ ht => topFactor_keeps ht ..)

theorem updFactors_keeps {s : State} (h : BlockInv s) (t : Tensor) (i j n count : Nat) (beta : FV) (sums : Store ExSum) : BlockInv
    (updFactors s t i j n count beta sums).1 := by
  unfold updFactors
  dsimp only
  split
  · exact planeRead_keeps h ..
  · exact keeps_ite (csrBump_keeps (planeWrite_keeps (planeRead_keeps h ..) ..) ..) (modRun_keeps (setNf_keeps (csrBump_keeps (planeWrite_keeps
      (planeRead_keeps h ..) ..) ..)) ..)

theorem endPhase_keeps {s : State} (h : BlockInv s) (u : UpdateRun) (t : Tensor) (p : TopProg) : BlockInv (endPhase s u t p) := by
  unfold endPhase
  dsimp only
  exact keeps_ite h (by
    split
    · exact goOn_keeps (startPass_keeps (modRun_keeps (updFactors_keeps (updFactors_keeps h ..) ..) ..))
    · exact topFault_keeps (updFactors_keeps (updFactors_keeps h ..) ..))

theorem TopCtx.next_keeps {s : State} (h : BlockInv s) (c : TopCtx) (done : State → State × Bool) (hd : ∀ t, BlockInv t → BlockInv (done t).1) :
    BlockInv (c.next s done).1 :=
  keeps_ite_fst (topLoad_keeps h ..) (keeps_ite_fst (topEnter_keeps (hd s h) ..) (hd s h))

theorem topcoatPhaseState_keeps {s : State} (h : BlockInv s) (stack : Nat) : BlockInv (topcoatPhaseState stack s) := by
  unfold topcoatPhaseState
  dsimp only
  exact topRow_keeps h _ _ _ (fun _ _ ht => keeps_ite (endPhase_keeps (TopCtx.next_keeps ht _ _ (fun _ hu => hu)) ..) (topFault_keeps
      (TopCtx.next_keeps ht _ _ (fun _ hu => hu))))

theorem TopCtx.writeBack_keeps {s : State} (h : BlockInv s) (c : TopCtx) : BlockInv (c.writeBack s).1 := by
  unfold TopCtx.writeBack
  extract_lets j g i reg mom put r r'
  have hput (x : State × Bool) (hx : BlockInv x.1) (pl off : Nat) (bs : List Byte) : BlockInv (put x pl off bs).1 := planeWrite_keeps hx ..
  have hr : BlockInv r.1 := hput _ (hput _ h ..) ..
  have hr' : BlockInv r'.1 := keeps_ite_fst (hput _ hr ..) hr
  exact keeps_ite_fst (hput _ hr' ..) hr'

theorem topcoatEndState_keeps {s : State} (h : BlockInv s) (stack : Nat) : BlockInv (topcoatEndState stack s) := by
  unfold topcoatEndState
  dsimp only
  exact topRow_keeps h _ _ _ (fun _ _ ht => keeps_ite (topFault_keeps (TopCtx.writeBack_keeps ht ..)) (goOn_keeps (TopCtx.next_keeps
      (TopCtx.writeBack_keeps ht ..) _ _ (fun _ hu => endGroup_keeps hu ..))))

theorem copyRecipe_keeps {s : State} (h : BlockInv s) (r : List Byte) : BlockInv (copyRecipe s r).2 := by
  unfold copyRecipe
  dsimp only
  split
  · exact h
  · exact takeFree_keeps h

theorem regenCopy_keeps {s : State} (h : BlockInv s) (t : Tensor) (j : Nat) : BlockInv (regenCopy s t j) := by
  unfold regenCopy
  dsimp only
  exact keeps_foldl _ (fun _ _ hu => formCopy_keeps hu ..) _ (copyRecipe_keeps h ..)

theorem regenCopies_keeps {s : State} (h : BlockInv s) (prev : Bool) : BlockInv (regenCopies s prev) := by
  unfold regenCopies
  dsimp only
  exact keeps_foldl _ (fun _ _ ht => keeps_ite ht (keeps_ite (regenCopy_keeps (regenCopy_keeps ht ..) ..) (regenCopy_keeps ht ..))) _ h

theorem enterReplay_keeps {s : State} (h : BlockInv s) (c : Cmd) (last : Nat × Nat) : BlockInv (enterReplay s c last) := by
  unfold enterReplay
  dsimp only
  exact upd_keeps (setStepState_keeps (upd_keeps (mirrorStop_keeps (discardPending_keeps (abortOpen_keeps (upd_keeps h))))) ..)

theorem resetQueues_keeps {s : State} (h : BlockInv s) (b : List Byte) : BlockInv (resetQueues s b) :=
  queues_keeps h List.length_mapIdx

theorem endReplay_keeps {s : State} (h : BlockInv s) (c : Cmd) (m : Nat) (flagged : Bool) : BlockInv (endReplay s c m flagged) := by
  unfold endReplay
  dsimp only
  exact resetQueues_keeps (finish_keeps (upd_keeps (csrPut64_keeps (csrSetField_keeps (clearVotes_keeps h) ..) ..)) ..) ..

theorem missingPlanes_keeps {s : State} (h : BlockInv s) (dev m : Nat) : BlockInv (missingPlanes s dev m) := by
  unfold missingPlanes
  dsimp only
  exact snagRecord_keeps h ..

theorem pullFail_keeps {s : State} (h : BlockInv s) (st : Nat) : BlockInv (pullFail s st) := by
  unfold pullFail
  dsimp only
  split
  · exact h
  · exact finish_keeps (upd_keeps h) ..

theorem pullNext_keeps {s : State} (h : BlockInv s) (p : Pull) : BlockInv (pullNext s p) := by
  unfold pullNext
  dsimp only
  split
  · exact upd_keeps h
  · split
    · exact issueOp_keeps (upd_keeps h) ..
    · exact pullFail_keeps (issueOp_keeps (upd_keeps h) ..) ..

theorem pullEnd_keeps {s : State} (h : BlockInv s) (p : Pull) : BlockInv (pullEnd s p) := by
  unfold pullEnd
  dsimp only
  exact endReplay_keeps (keeps_ite (missingPlanes_keeps (regenCopies_keeps (keeps_ite (keeps_ite (keeps_foldl _ (fun _ _ ht => keeps_foldl _
      (fun _ _ hu => clearMem_keeps hu ..) _ ht) _ h) h) (upd_keeps (keeps_ite (keeps_foldl _ (fun _ _ ht => keeps_foldl _
      (fun _ _ hu => clearMem_keeps hu ..) _ ht) _ h) h))) ..) ..) (regenCopies_keeps (keeps_ite (keeps_ite (keeps_foldl _
      (fun _ _ ht => keeps_foldl _ (fun _ _ hu => clearMem_keeps hu ..) _ ht) _ h) h) (upd_keeps (keeps_ite (keeps_foldl _
      (fun _ _ ht => keeps_foldl _ (fun _ _ hu => clearMem_keeps hu ..) _ ht) _ h) h))) ..)) ..

theorem adoptLedger_keeps {s : State} (h : BlockInv s) : BlockInv (adoptLedger s) := by
  unfold adoptLedger
  dsimp only
  split
  · exact h
  · exact upd_keeps (csrSetField_keeps h ..)

theorem pullStage_keeps {s : State} (h : BlockInv s) (p : Pull) : BlockInv (pullStage s p) := by
  unfold pullStage
  dsimp only
  split
  · split
    · exact pullFail_keeps h ..
    · exact keeps_ite (pullEnd_keeps (upd_keeps (enterReplay_keeps h ..)) ..) (pullNext_keeps (upd_keeps (enterReplay_keeps h ..)) ..)
  · exact keeps_ite (pullNext_keeps h ..) (pullEnd_keeps h ..)
  · exact pullEnd_keeps (adoptLedger_keeps h) ..

theorem pullGot_keeps {s : State} (h : BlockInv s) (data : List Byte) : BlockInv (pullGot s data) := by
  unfold pullGot
  dsimp only
  split
  · exact h
  · split
    · exact keeps_ite (pullNext_keeps h ..) (pullNext_keeps h ..)
    · exact keeps_ite (pullNext_keeps h ..) (pullFail_keeps h ..)
    · exact keeps_ite (pullStage_keeps h ..) (pullNext_keeps h ..)
    · exact keeps_ite (pullFail_keeps (writeMem_keeps h ..) ..) (keeps_ite (pullStage_keeps (writeMem_keeps h ..) ..) (pullNext_keeps
        (writeMem_keeps h ..) ..))
    · exact h

theorem startPull_keeps {s : State} (h : BlockInv s) (c : Cmd) (peer : Nat) : BlockInv (startPull s c peer) := by
  unfold startPull
  dsimp only
  exact pullNext_keeps (upd_keeps (fly_keeps h ..)) ..

theorem bodyReplay_keeps {s : State} (h : BlockInv s) (c : Cmd) : KeepsOpt (bodyReplay c s) := by
  unfold bodyReplay
  dsimp only
  exact keepsOpt_ite (keepsOpt_some (finish_keeps h ..)) (keepsOpt_ite (keepsOpt_ite (keepsOpt_some (finish_keeps h ..)) (keepsOpt_some
      (endReplay_keeps (regenCopies_keeps (enterReplay_keeps h ..) ..) ..))) (by
    split
    · exact keepsOpt_some (finish_keeps h ..)
    · exact keepsOpt_ite (keepsOpt_some (finish_keeps h ..)) (keepsOpt_some (startPull_keeps h ..))))

theorem bodyTakeover_keeps {s : State} (h : BlockInv s) (c : Cmd) : KeepsOpt (bodyTakeover c s) := by
  unfold bodyTakeover
  dsimp only
  exact keepsOpt_ite (keepsOpt_some (finish_keeps h ..)) (keepsOpt_ite (keepsOpt_some (finish_keeps h ..)) (keepsOpt_some (startPull_keeps h ..)))

theorem replayState_keeps {s : State} (h : BlockInv s) (q qseq : Nat) : BlockInv (replayState q qseq s) :=
  hostRow_keeps h _ _ _ _ (fun _ _ t ht => bodyReplay_keeps ht _ t)

theorem takeoverState_keeps {s : State} (h : BlockInv s) (q qseq : Nat) : BlockInv (takeoverState q qseq s) :=
  hostRow_keeps h _ _ _ _ (fun _ _ t ht => bodyTakeover_keeps ht _ t)

theorem parcelFate_keeps {s : State} (h : BlockInv s) (b ch tag : Nat) (f : Fate) : BlockInv (parcelFate s b ch tag f) := by
  unfold parcelFate
  dsimp only
  split
  · exact h
  · split
    · exact keeps_ite (readDone_keeps (keeps_ite (ownStore_keeps h ..) h) ..) (parcelDone_keeps h ..)
    · exact parcelFail_keeps h ..
    · exact parcelFail_keeps h ..

theorem windowFate_keeps {s : State} (h : BlockInv s) (o : ScrimOp) (src tag dst ncell tally : Nat) (f : Fate) : BlockInv
    (windowFate s o src tag dst ncell tally f) := by
  unfold windowFate
  dsimp only
  split
  · exact keeps_ite (lathReply_keeps h ..) (lathAck_keeps h ..)
  · exact lathNack_keeps (keeps_ite h (slotFail_keeps h ..)) ..

theorem decideOp_keeps {s : State} (h : BlockInv s) (o : ScrimOp) (f : Fate) : BlockInv (decideOp s o f) := by
  unfold decideOp
  dsimp only
  split
  · exact parcelFate_keeps (dropOp_keeps h ..) ..
  · exact windowFate_keeps (dropOp_keeps h ..) ..
  · exact collDecided_keeps (dropOp_keeps h ..) ..
  · exact mirrorDecided_keeps (dropOp_keeps h ..) ..
  · exact ledgerDecided_keeps (dropOp_keeps h ..) ..
  · split
    · exact pullGot_keeps (dropOp_keeps h ..) ..
    · exact pullFail_keeps (dropOp_keeps h ..) ..
    · exact pullFail_keeps (dropOp_keeps h ..) ..

theorem ackState_keeps {s : State} (h : BlockInv s) (p : Packet) : BlockInv (ackState p s) := by
  unfold ackState
  dsimp only
  split
  next t e0 =>
    have ht : BlockInv t := keeps_fst (acceptScrim_keeps h ..) e0
    exact ht
  next t _ _ e0 =>
    have ht : BlockInv t := keeps_fst (acceptScrim_keeps h ..) e0
    split
    · exact scrCount_keeps ht ..
    · exact keeps_ite ht (keeps_ite (decideOp_keeps ht ..) (putOp_keeps ht ..))

theorem nackState_keeps {s : State} (h : BlockInv s) (p : Packet) : BlockInv (nackState p s) := by
  unfold nackState
  split
  next t e0 =>
    have ht : BlockInv t := keeps_fst (acceptScrim_keeps h ..) e0
    exact ht
  next t _ _ e0 =>
    have ht : BlockInv t := keeps_fst (acceptScrim_keeps h ..) e0
    split
    · exact scrCount_keeps ht ..
    · exact decideOp_keeps ht ..

theorem getReplyState_keeps {s : State} (h : BlockInv s) (p : Packet) : BlockInv (getReplyState p s) := by
  unfold getReplyState
  dsimp only
  split
  next t e0 =>
    have ht : BlockInv t := keeps_fst (acceptScrim_keeps h ..) e0
    exact ht
  next t _ _ e0 =>
    have ht : BlockInv t := keeps_fst (acceptScrim_keeps h ..) e0
    split
    · exact scrCount_keeps ht ..
    · exact keeps_ite ht (keeps_ite (decideOp_keeps ht ..) (putOp_keeps ht ..))

theorem operationTimeoutState_keeps {s : State} (h : BlockInv s) (op : Nat) : BlockInv (operationTimeoutState op s) := by
  unfold operationTimeoutState
  split
  · exact h
  · exact decideOp_keeps (scrCount_keeps h ..) ..

end Sys2Proof.Machine
end

section
/-! SUPPORT. The invariant through time and power. -/

namespace Sys2Proof.Machine

theorem setPlbState_keeps {s : State} (h : BlockInv s) (v : Nat) : BlockInv (setPlbState s v) :=
  csrSetField_keeps h ..

theorem enterHoldover_keeps {s : State} (h : BlockInv s) : BlockInv (enterHoldover s) := by
  unfold enterHoldover
  dsimp only
  exact snagRecord_keeps (setPlbState_keeps (beside_keeps h (by rfl) (by rfl)) ..) ..

theorem enterUnlocked_keeps {s : State} (h : BlockInv s) : BlockInv (enterUnlocked s) := by
  unfold enterUnlocked
  dsimp only
  exact snagRecord_keeps (setPlbState_keeps (beside_keeps h (by rfl) (by rfl)) ..) ..

theorem refuseReserved_keeps {s : State} (h : BlockInv s) : BlockInv (refuseReserved s) :=
  keeps_foldl _ (fun _ _ ht => keeps_foldl _ (fun _ _ hu => hostRow_keeps hu _ _ _ _ (fun _ _ t _ => keepsOpt_none t)) _ ht) _ h

theorem tick_keeps {s : State} (h : BlockInv s) : BlockInv (tick s) := by
  have ht := markTimely_keeps (refuseReserved_keeps h)
  unfold tick
  generalize markTimely (refuseReserved s) = t at ht
  exact keeps_ite h (upd_keeps ht)

theorem stampNow_keeps {s : State} (h : BlockInv s) : BlockInv (stampNow s).2 := by
  unfold stampNow
  dsimp only
  exact takeFree_keeps h

/-- A child noted anew takes no more room than the table has. -/
theorem noteChild_length {cs : List Child} (dev : Nat) (hroom : cs.any (fun c => c.dev == dev) = true ∨ cs.length < 64) (hlen : cs.length ≤ 64)
    (x : Child) : (cs.filter (fun c => c.dev != dev) ++ [x]).length ≤ 64 := by
  rw [List.length_append, List.length_singleton]
  obtain hknown | hnew := hroom
  · obtain ⟨c, hc, hdev⟩ := List.any_eq_true.mp hknown
    have hless := List.length_filter_lt_length_iff_exists (p := fun c : Child => c.dev != dev).mpr ⟨c, hc, by simpa using hdev⟩
    omega
  · have hless := List.length_filter_le (fun c : Child => c.dev != dev) cs
    omega

theorem syncRequestState_keeps {s : State} (h : BlockInv s) (p : Packet) (t2 : Int) : BlockInv (syncRequestState p t2 s) := by
  unfold syncRequestState
  split
  next t e => exact keeps_fst (acceptScrim_keeps h ..) e
  next t x b e =>
    have ht : BlockInv t := keeps_fst (acceptScrim_keeps h ..) e
    dsimp only
    refine keeps_ite ht (keeps_ite (scrCount_keeps ht ..) (keeps_ite ht ?_))
    split
    · exact scrCount_keeps ht ..
    next hroom =>
      refine sendAnswer_keeps (stampNow_keeps (time_keeps ht (noteChild_length x.src ?_ ht.children _))) ..
      by_cases hknown : t.time.children.any (fun c => c.dev == x.src) = true
      · exact .inl hknown
      · exact .inr (by simpa [hknown] using hroom)

theorem sendSyncRequestState_keeps {s : State} (h : BlockInv s) : BlockInv (sendSyncRequestState s) := by
  have ht := stampNow_keeps h
  unfold sendSyncRequestState
  generalize stampNow s = t at ht
  extract_lets st sent parent entry stamp x hdr _ _ u
  have hu : BlockInv u := time_keeps ht h.children
  refine keeps_ite h ?_
  split
  · exact h
  · exact sendFrame_keeps hu ..

theorem shiftTicks_keeps {s : State} (h : BlockInv s) (d : Int) : BlockInv (shiftTicks s d) :=
  ⟨h.bytes, h.csr, h.queues, by simpa [shiftTicks] using h.children⟩

theorem acquireStep_keeps {s : State} (h : BlockInv s) (theta : Int) : BlockInv (acquireStep s theta) := by
  unfold acquireStep
  dsimp only
  exact beside_keeps (shiftTicks_keeps h ..) (by rfl) (by rfl)

theorem useExchange_keeps {s : State} (h : BlockInv s) (theta delta : Int) : BlockInv (useExchange s theta delta) := by
  unfold useExchange
  dsimp only
  split
  · exact h
  · exact keeps_ite (keeps_ite (keeps_ite (acquireStep_keeps (csrPut_keeps (csrPut_keeps (beside_keeps (keeps_ite_snd (takeFree_keeps h) h)
      (by rfl) (by rfl)) ..) ..) ..) (csrPut_keeps (csrPut_keeps (beside_keeps (keeps_ite_snd (takeFree_keeps h) h) (by rfl) (by rfl)) ..) ..))
      (keeps_ite (beside_keeps (setPlbState_keeps (csrPut_keeps (csrPut_keeps (beside_keeps (keeps_ite_snd (takeFree_keeps h) h) (by rfl)
      (by rfl)) ..) ..) ..) (by rfl) (by rfl)) (beside_keeps (csrPut_keeps (csrPut_keeps (beside_keeps (keeps_ite_snd (takeFree_keeps h) h)
      (by rfl) (by rfl)) ..) ..) (by rfl) (by rfl)))) (keeps_ite (beside_keeps (csrPut_keeps (csrPut_keeps (beside_keeps (keeps_ite_snd
      (takeFree_keeps h) h) (by rfl) (by rfl)) ..) ..) (by rfl) (by rfl)) (keeps_ite (keeps_ite (enterUnlocked_keeps (csrPut_keeps (csrPut_keeps
      (beside_keeps (keeps_ite_snd (takeFree_keeps h) h) (by rfl) (by rfl)) ..) ..)) (keeps_ite (beside_keeps (setPlbState_keeps (csrPut_keeps
      (csrPut_keeps (beside_keeps (keeps_ite_snd (takeFree_keeps h) h) (by rfl) (by rfl)) ..) ..) ..) (by rfl) (by rfl)) (csrPut_keeps
      (csrPut_keeps (beside_keeps (keeps_ite_snd (takeFree_keeps h) h) (by rfl) (by rfl)) ..) ..))) (csrPut_keeps (csrPut_keeps (beside_keeps
      (keeps_ite_snd (takeFree_keeps h) h) (by rfl) (by rfl)) ..) ..)))

theorem syncResponseState_keeps {s : State} (h : BlockInv s) (p : Packet) (t4 : Int) : BlockInv (syncResponseState p t4 s) := by
  unfold syncResponseState
  dsimp only
  split
  next t e0 =>
    have ht : BlockInv t := keeps_fst (acceptScrim_keeps h ..) e0
    exact ht
  next t _ _ e0 =>
    have ht : BlockInv t := keeps_fst (acceptScrim_keeps h ..) e0
    exact keeps_ite ht (keeps_ite (scrCount_keeps ht ..) (by
      split
      · exact ht
      · exact keeps_ite ht (keeps_ite (beside_keeps ht (by rfl) (by rfl)) (useExchange_keeps (beside_keeps ht (by rfl) (by rfl)) ..))))

theorem childEntryExpiryState_keeps {s : State} (h : BlockInv s) (dev : Nat) : BlockInv (childEntryExpiryState dev s) :=
  ⟨h.bytes, h.csr, h.queues, (List.length_filter_le ..).trans h.children⟩

theorem holdoverEntryState_keeps {s : State} (h : BlockInv s) : BlockInv (holdoverEntryState s) :=
  keeps_ite (enterHoldover_keeps h) h

theorem unlockedEntryState_keeps {s : State} (h : BlockInv s) : BlockInv (unlockedEntryState s) :=
  keeps_ite (enterUnlocked_keeps h) h

theorem selectSource_keeps {s : State} (h : BlockInv s) (b : List Byte) : BlockInv (selectSource s b) := by
  unfold selectSource
  dsimp only
  exact csrSetField_keeps (csrSetField_keeps (beside_keeps h (by rfl) (by rfl)) ..) ..

theorem followRoot_keeps {s : State} (h : BlockInv s) (depth parent : Nat) : BlockInv (followRoot s depth parent) := by
  unfold followRoot
  dsimp only
  exact keeps_ite (upd_keeps h) (upd_keeps (takeFree_keeps h))

theorem bodyAcquire_keeps {s : State} (h : BlockInv s) (c : Cmd) : KeepsOpt (bodyAcquire c s) := by
  unfold bodyAcquire
  dsimp only
  exact refuseOr_keeps h (finish_keeps (beside_keeps (csrSetField_keeps (csrSetField_keeps (setPlbState_keeps (followRoot_keeps
      (selectSource_keeps h ..) ..) ..) ..) ..) (by rfl) (by rfl)) ..) _ _

theorem bodyReparent_keeps {s : State} (h : BlockInv s) (c : Cmd) : KeepsOpt (bodyReparent c s) := by
  unfold bodyReparent
  dsimp only
  exact refuseOr_keeps h (finish_keeps (beside_keeps (csrSetField_keeps (keeps_ite (followRoot_keeps (selectSource_keeps h ..) ..)
      (selectSource_keeps h ..)) ..) (by rfl) (by rfl)) ..) _ _

theorem bodyRoot_keeps {s : State} (h : BlockInv s) (c : Cmd) : KeepsOpt (bodyRoot c s) := by
  unfold bodyRoot
  dsimp only
  exact refuseOr_keeps h (finish_keeps (beside_keeps (csrSetField_keeps (csrSetField_keeps (setPlbState_keeps
      (selectSource_keeps h ..) ..) ..) ..) (by rfl) (by rfl)) ..) _ _

theorem acquireState_keeps {s : State} (h : BlockInv s) (q qseq : Nat) : BlockInv (acquireState q qseq s) :=
  hostRow_keeps h _ _ _ _ (fun _ _ t ht => bodyAcquire_keeps ht _ t)

theorem reparentState_keeps {s : State} (h : BlockInv s) (q qseq : Nat) : BlockInv (reparentState q qseq s) :=
  hostRow_keeps h _ _ _ _ (fun _ _ t ht => bodyReparent_keeps ht _ t)

theorem rootState_keeps {s : State} (h : BlockInv s) (q qseq : Nat) : BlockInv (rootState q qseq s) :=
  hostRow_keeps h _ _ _ _ (fun _ _ t ht => bodyRoot_keeps ht _ t)

theorem launchState_keeps {s : State} (h : BlockInv s) (q qseq : Nat) : BlockInv (launchState q qseq s) := by
  unfold launchState
  dsimp only
  split
  · exact h
  · exact keeps_ite h (keeps_ite (csrBump_keeps (queuePut_keeps h ..) ..) (queuePut_keeps h ..))

theorem bodyLaunchAt_keeps {s : State} (h : BlockInv s) (c : Cmd) : KeepsOpt (bodyLaunchAt c s) := by
  refine keepsOpt_ite (keepsOpt_some (finish_keeps h ..)) (keepsOpt_ite (keepsOpt_some (finish_keeps h ..)) (keepsOpt_some (fly_keeps ?_ ..)))
  exact queues_keeps h List.length_mapIdx

theorem launchAtState_keeps {s : State} (h : BlockInv s) (q qseq : Nat) : BlockInv (launchAtState q qseq s) :=
  hostRow_keeps h _ _ _ _ (fun _ _ t ht => bodyLaunchAt_keeps ht _ t)

theorem launchAtDueState_keeps {s : State} (h : BlockInv s) (op : Nat) : BlockInv (launchAtDueState op s) := by
  unfold launchAtDueState
  split
  · exact h
  · exact keeps_ite h (finish_keeps (queues_keeps h (List.length_map _)) ..)

theorem plumbReadState_keeps {s : State} (h : BlockInv s) (q qseq : Nat) : BlockInv (plumbReadState q qseq s) :=
  hostRow_keeps h _ _ _ _ (fun _ _ t ht => keepsOpt_some (complete_keeps ht ..) t)

theorem windowStartState_keeps {s : State} (h : BlockInv s) (w : Nat) : BlockInv (windowStartState w s) := by
  unfold windowStartState
  dsimp only
  exact keeps_ite h (pumpOps_keeps (mirrorPump_keeps (telFlush_keeps (upd_keeps h))))

theorem windowEndState_keeps {s : State} (h : BlockInv s) (w : Nat) : BlockInv (windowEndState w s) := by
  unfold windowEndState
  dsimp only
  exact keeps_ite h (upd_keeps h)

theorem sourceLost_keeps {s : State} (h : BlockInv s) (port : Nat) : BlockInv (sourceLost s port) := by
  unfold sourceLost
  dsimp only
  exact keeps_ite (keeps_ite (enterHoldover_keeps (csrSetField_keeps (beside_keeps h (by rfl) (by rfl)) ..)) (csrSetField_keeps (beside_keeps h
      (by rfl) (by rfl)) ..)) h

theorem linkDown_keeps {s : State} (h : BlockInv s) (port : Nat) : BlockInv (linkDown s port) := by
  unfold linkDown
  dsimp only
  exact keeps_ite h (sourceLost_keeps (csrBump_keeps (csrSetField_keeps (csrSetField_keeps h ..) ..) ..) ..)

theorem portUpState_keeps {s : State} (h : BlockInv s) (port lanes : Nat) : BlockInv (portUpState port lanes s) := by
  unfold portUpState
  dsimp only
  exact keeps_ite h (keeps_ite (keeps_ite (csrSetField_keeps h ..) (csrSetField_keeps (csrSetField_keeps h ..) ..)) (keeps_ite (csrSetField_keeps
      (linkDown_keeps h ..) ..) (sourceLost_keeps (csrSetField_keeps (linkDown_keeps h ..) ..) ..)))

theorem portDownState_keeps {s : State} (h : BlockInv s) (port : Nat) : BlockInv (portDownState port s) := by
  unfold portDownState
  dsimp only
  exact keeps_ite h (keeps_ite (linkDown_keeps h ..) (decideEvent_keeps (linkDown_keeps h ..) ..))

theorem clockStep_keeps {s : State} (h : BlockInv s) (d : Nat) : BlockInv (clockStep s d) := by
  unfold clockStep
  dsimp only
  exact csrSetField_keeps h ..

theorem clockAsk_keeps {s : State} (h : BlockInv s) (bit v : Nat) : BlockInv (clockAsk s bit v) :=
  keeps_foldl _ (fun _ _ ht => clockStep_keeps (csrSetField_keeps ht ..) ..) _ h

theorem powerRecord_keeps {s : State} (h : BlockInv s) (unit cause : Nat) (ret : Bool) (level sensor : Nat) (reading : Int)
    (severity : Nat) : BlockInv (powerRecord s unit cause ret level sensor reading severity) := by
  unfold powerRecord
  dsimp only
  exact snagRecord_keeps h ..

theorem noteHold_keeps {s : State} (h : BlockInv s) : BlockInv (noteHold s) := by
  unfold noteHold
  dsimp only
  exact keeps_ite (keeps_ite h (upd_keeps h)) (upd_keeps h)

theorem countShed_keeps {s : State} (h : BlockInv s) (n : Nat) : BlockInv (countShed s n) :=
  keeps_ite h (csrBump_keeps h ..)

theorem enterLevels_keeps {s : State} (h : BlockInv s) (unit cause n sensor : Nat) (reading : Int) (warning : Bool) : BlockInv
    (enterLevels s unit cause n sensor reading warning) := by
  unfold enterLevels
  dsimp only
  exact keeps_ite h (keeps_ite (holdClocks_keeps (keeps_ite (clockAsk_keeps (upd_keeps (keeps_foldl _ (fun _ _ ht => powerRecord_keeps
      (countShed_keeps ht ..) ..) _ (csrSetField_keeps h ..))) ..) (upd_keeps (keeps_foldl _ (fun _ _ ht => powerRecord_keeps
      (countShed_keeps ht ..) ..) _ (csrSetField_keeps h ..))))) (keeps_ite (clockAsk_keeps (upd_keeps (keeps_foldl _
      (fun _ _ ht => powerRecord_keeps (countShed_keeps ht ..) ..) _ (csrSetField_keeps h ..))) ..) (upd_keeps (keeps_foldl _
      (fun _ _ ht => powerRecord_keeps (countShed_keeps ht ..) ..) _ (csrSetField_keeps h ..)))))

theorem saveHeader_keeps {s : State} (h : BlockInv s) : BlockInv (saveHeader s) := by
  unfold saveHeader
  dsimp only
  exact keeps_ite h (copyLedger_keeps (writeMem_keeps h ..) ..)

theorem shedPlaced_keeps {s : State} (h : BlockInv s) : BlockInv (shedPlaced s) := by
  unfold shedPlaced
  dsimp only
  exact keeps_foldl _ (fun _ _ ht => keeps_foldl _ (fun _ _ hu => finish_keeps (markBegun_keeps hu ..) ..) _ ht) _ (upd_keeps h)

theorem enterS5_keeps {s : State} (h : BlockInv s) (unit cause sensor : Nat) (reading : Int) : BlockInv (enterS5 s unit cause sensor reading) := by
  unfold enterS5
  dsimp only
  exact keeps_ite h (abortOpen_keeps (shedPlaced_keeps (saveHeader_keeps (holdClocks_keeps (clockAsk_keeps (upd_keeps (powerRecord_keeps
      (csrSetField_keeps h ..) ..)) ..)))))

theorem sagSampleState_keeps {s : State} (h : BlockInv s) (mv : Nat) : BlockInv (sagSampleState mv s) := by
  unfold sagSampleState
  dsimp only
  exact keeps_ite h (noteHold_keeps (keeps_ite (enterS5_keeps (enterLevels_keeps (upd_keeps (csrSetField_keeps
      (csrSetField_keeps h ..) ..)) ..) ..) (enterLevels_keeps (upd_keeps (csrSetField_keeps (csrSetField_keeps h ..) ..)) ..)))

theorem droopNState_keeps {s : State} (h : BlockInv s) : BlockInv (droopNState s) := by
  unfold droopNState
  dsimp only
  exact keeps_ite (upd_keeps h) (noteHold_keeps (enterLevels_keeps (csrSetField_keeps (upd_keeps h) ..) ..))

theorem droopNDeassertedState_keeps {s : State} (h : BlockInv s) : BlockInv (droopNDeassertedState s) := by
  unfold droopNDeassertedState
  dsimp only
  exact noteHold_keeps (csrSetField_keeps (upd_keeps h) ..)

theorem droopComparatorState_keeps {s : State} (h : BlockInv s) (die : Nat) : BlockInv (droopComparatorState die s) :=
  keeps_ite h (noteHold_keeps (enterLevels_keeps h ..))

theorem leaveS4_keeps {s : State} (h : BlockInv s) : BlockInv (leaveS4 s) := by
  unfold leaveS4
  dsimp only
  exact permuteAdvance_keeps (collAdvanceAll_keeps (holdClocks_keeps (upd_keeps h)))

theorem leaveS2_keeps {s : State} (h : BlockInv s) : BlockInv (leaveS2 s) :=
  mirrorPump_keeps (upd_keeps h)

theorem leaveLevel_keeps {s : State} (h : BlockInv s) (n : Nat) : BlockInv (leaveLevel s n) := by
  unfold leaveLevel
  dsimp only
  exact noteHold_keeps (by
    split
    · exact pumpOps_keeps (topResume_keeps (leaveS4_keeps (powerRecord_keeps (upd_keeps (csrSetField_keeps h ..)) ..)))
    · exact clockAsk_keeps (powerRecord_keeps (upd_keeps (csrSetField_keeps h ..)) ..) ..
    · exact pumpOps_keeps (leaveS2_keeps (powerRecord_keeps (upd_keeps (csrSetField_keeps h ..)) ..))
    · exact powerRecord_keeps (upd_keeps (csrSetField_keeps h ..)) ..)

theorem shedReturnState_keeps {s : State} (h : BlockInv s) : BlockInv (shedReturnState s) := by
  unfold shedReturnState
  dsimp only
  split
  · exact h
  · exact keeps_ite h (keeps_ite (leaveLevel_keeps h ..) (upd_keeps h))

theorem plumbAlignedPointState_keeps {s : State} (h : BlockInv s) : BlockInv (plumbAlignedPointState s) := by
  unfold plumbAlignedPointState
  dsimp only
  exact keeps_ite h (by
    split
    · exact upd_keeps h
    · exact leaveLevel_keeps (upd_keeps h) ..)

theorem s5QuiesceEndState_keeps {s : State} (h : BlockInv s) : BlockInv (s5QuiesceEndState s) := by
  unfold s5QuiesceEndState
  dsimp only
  split
  · exact h
  · exact keeps_ite h (upd_keeps (keeps_foldl _ (fun _ _ ht => linkDown_keeps ht ..) _ (snagRecord_keeps (abortOpen_keeps (shedPlaced_keeps h)) ..)))

theorem railOutOfWindowState_keeps {s : State} (h : BlockInv s) (rail mv : Nat) (below : Bool) : BlockInv (railOutOfWindowState rail mv below s) := by
  unfold railOutOfWindowState
  dsimp only
  exact keeps_ite h (keeps_ite (enterS5_keeps (powerRecord_keeps h ..) ..) (powerRecord_keeps h ..))

theorem regulatorPollState_keeps {s : State} (h : BlockInv s) (reply : Option RegPoll) : BlockInv (regulatorPollState reply s) := by
  unfold regulatorPollState
  dsimp only
  exact keeps_ite h (by
    split
    · exact csrSetField_keeps (csrPut_keeps (upd_keeps h) ..) ..
    · exact keeps_ite (powerRecord_keeps (csrSetField_keeps (upd_keeps h) ..) ..) (upd_keeps h))

theorem moveSetpoint_keeps {s : State} (h : BlockInv s) (v : Nat) : BlockInv (moveSetpoint s v) := by
  unfold moveSetpoint
  dsimp only
  exact csrSetField_keeps (upd_keeps h) ..

theorem avsSetpointMoveState_keeps {s : State} (h : BlockInv s) (want : Nat) : BlockInv (avsSetpointMoveState want s) := by
  unfold avsSetpointMoveState
  dsimp only
  exact keeps_ite h (moveSetpoint_keeps h ..)

theorem powerCapState_keeps {s : State} (h : BlockInv s) (watts : Nat) : BlockInv (powerCapState watts s) := by
  unfold powerCapState
  dsimp only
  exact keeps_ite h (keeps_ite (csrSetField_keeps h ..) (keeps_ite (keeps_ite (upd_keeps (csrSetField_keeps h ..)) (powerRecord_keeps
      (clockAsk_keeps (upd_keeps (csrSetField_keeps h ..)) ..) ..)) (keeps_ite (by
    split
    · exact upd_keeps (csrSetField_keeps h ..)
    · exact keeps_ite (powerRecord_keeps (clockAsk_keeps (csrSetField_keeps h ..) ..) ..) (csrSetField_keeps h ..)) (upd_keeps
        (csrSetField_keeps h ..)))))

theorem bodyPowerCfg_keeps {s : State} (h : BlockInv s) (c : Cmd) : KeepsOpt (bodyPowerCfg c s) := by
  unfold bodyPowerCfg
  dsimp only
  exact keepsOpt_ite (keepsOpt_some (finish_keeps h ..)) (keepsOpt_ite (keepsOpt_some (finish_keeps h ..)) (keepsOpt_some (finish_keeps (keeps_ite
      (clockAsk_keeps (csrSetField_keeps (upd_keeps (keeps_ite (moveSetpoint_keeps (csrSetField_keeps h ..) ..) (csrSetField_keeps h ..))) ..) ..)
      (csrSetField_keeps (upd_keeps (keeps_ite (moveSetpoint_keeps (csrSetField_keeps h ..) ..) (csrSetField_keeps h ..))) ..)) ..)))

theorem powerCfgState_keeps {s : State} (h : BlockInv s) (q qseq : Nat) : BlockInv (powerCfgState q qseq s) :=
  hostRow_keeps h _ _ _ _ (fun _ _ t ht => bodyPowerCfg_keeps ht _ t)

end Sys2Proof.Machine
end

section
/-! SUPPORT. The invariant through start-up and clocks. -/

namespace Sys2Proof.Machine

theorem inReset_keeps (s : State) (pwrgd resetN : Bool) : BlockInv (inReset s pwrgd resetN) := by
  unfold inReset
  exact upd_keeps reset_keeps

theorem powerGoodState_keeps {s : State} (h : BlockInv s) : BlockInv (powerGoodState s) :=
  keeps_ite h (inReset_keeps ..)

theorem resetState_keeps (s : State) (pin : Bool) : BlockInv (resetState pin s) :=
  inReset_keeps ..

theorem setPhaseOf_keeps {s : State} (h : BlockInv s) (p : Nat) : BlockInv (setPhaseOf s p) :=
  csrSetField_keeps h ..

theorem writeBootRec_keeps {s : State} (h : BlockInv s) (pref valid : Nat) : BlockInv (writeBootRec s pref valid) := by
  unfold writeBootRec
  dsimp only
  exact flashWrite_keeps h ..

theorem bootEvent_keeps {s : State} (h : BlockInv s) (severity : Nat) : BlockInv (bootEvent s severity) := by
  unfold bootEvent
  dsimp only
  exact snagRecord_keeps h ..

theorem csr0_wf : Store.wf 0 csr0 = true := by
  have hwf := wf_setAll resetRegs (m := []) rfl
  rwa [setAll, ← csr0] at hwf

theorem keptCsr_wf (s : State) : Store.wf 0 (keptCsr s) = true := by
  unfold keptCsr
  generalize [rHubGrade, rHubClusterMap, rHubClusterMap + 4, rHubClusterMap + 8, rHubClusterMap + 12, rSngStatus, rBootStatus, rBootTime,
    rSecStage] ++ _ = l
  have hstart := csr0_wf
  revert hstart
  generalize csr0 = m
  induction l generalizing m with
  | nil => exact id
  | cons a l ih => exact fun hm => ih _ (wf_set a _ hm)

/-- A state built on the reset state, with registers in canonical form and the reset state's memory, queues and child table. -/
theorem overReset_keeps {t : State} (hcsr : Store.wf 0 t.csr = true) (hmem : t.mem = State.reset.mem)
    (hqueues : t.queues = State.reset.queues) (htime : t.time = State.reset.time) : BlockInv t :=
  ⟨hmem ▸ reset_keeps.bytes, hcsr, hqueues ▸ reset_keeps.queues, htime ▸ reset_keeps.children⟩

theorem toSafe_keeps (s : State) (cause : Nat) : BlockInv (toSafe s cause) := by
  unfold toSafe
  exact bootEvent_keeps (overReset_keeps (keptCsr_wf _) (by rfl) (by rfl) (by rfl)) 3

theorem phaseLimitState_keeps {s : State} (h : BlockInv s) : BlockInv (phaseLimitState s) :=
  keeps_ite (toSafe_keeps ..) h

theorem fuseLoadEndState_keeps {s : State} (h : BlockInv s) (railsOk : Bool) : BlockInv (fuseLoadEndState railsOk s) := by
  unfold fuseLoadEndState
  dsimp only
  exact keeps_ite h (keeps_ite (toSafe_keeps ..) (keeps_ite (setPhaseOf_keeps (upd_keeps (keeps_foldl _ (fun _ _ ht => csrPut_keeps ht ..) _
      (csrSetField_keeps (keeps_foldl _ (fun _ _ ht => csrPut_keeps ht ..) _ (csrPut_keeps h ..)) ..))) ..) (upd_keeps (keeps_foldl _
      (fun _ _ ht => csrPut_keeps ht ..) _ (csrSetField_keeps (keeps_foldl _ (fun _ _ ht => csrPut_keeps ht ..) _ (csrPut_keeps h ..)) ..)))))

theorem fixedRailInWindowState_keeps {s : State} (h : BlockInv s) (rail : Nat) : BlockInv (fixedRailInWindowState rail s) := by
  unfold fixedRailInWindowState
  dsimp only
  exact keeps_ite h (keeps_ite (toSafe_keeps ..) (setPhaseOf_keeps (upd_keeps h) ..))

theorem applyConfig_keeps {s : State} (h : BlockInv s) (r : Nat × List Byte) : KeepsOpt (applyConfig s r) := by
  unfold applyConfig
  dsimp only
  split
  · exact keepsOpt_ite keepsOpt_none (keepsOpt_some (keeps_foldl _ (fun _ _ ht => keeps_ite ht (csrPut_keeps ht ..)) _ h))
  · exact keepsOpt_ite keepsOpt_none (keepsOpt_some (upd_keeps h))
  · exact keepsOpt_some (upd_keeps h)
  · exact keepsOpt_ite (keepsOpt_some (upd_keeps h)) keepsOpt_none
  · exact keepsOpt_some h
  · exact keepsOpt_none

theorem applyConfigs_keeps {s : State} (h : BlockInv s) (b : List Byte) : KeepsOpt (applyConfigs s b) := by
  have hrun (rs : List (Nat × List Byte)) (o : Option State) (ho : KeepsOpt o) :
      KeepsOpt (rs.foldl (fun o r => o.bind (fun s => applyConfig s r)) o) := by
    induction rs generalizing o with
    | nil => exact ho
    | cons r rs ih =>
      refine ih _ fun t e => ?_
      obtain ⟨u, hu, e⟩ := Option.bind_eq_some_iff.mp e
      exact applyConfig_keeps (ho u hu) r t e
  unfold applyConfigs
  split
  · exact keepsOpt_none
  · intro t e
    obtain ⟨u, hu, e⟩ := Option.bind_eq_some_iff.mp e
    have happlied := hrun _ _ (keepsOpt_some h) u hu
    exact keepsOpt_ite (keepsOpt_some happlied) keepsOpt_none t e

theorem loadSnag_keeps {s : State} (h : BlockInv s) (base : Nat) : BlockInv (loadSnag s base) := by
  unfold loadSnag
  dsimp only
  exact upd_keeps h

theorem readSnag_keeps {s : State} (h : BlockInv s) : BlockInv (readSnag s) := by
  unfold readSnag
  dsimp only
  split
  · exact keeps_ite (csrSetField_keeps (loadSnag_keeps h ..) ..) (commitSnag_keeps (keeps_foldl _ (fun _ _ ht => snagPush_keeps ht ..) _
      (csrSetField_keeps (loadSnag_keeps h ..) ..)))
  · exact keeps_ite h (commitSnag_keeps h)

theorem mapClusters_keeps {s : State} (h : BlockInv s) : BlockInv (mapClusters s) := by
  unfold mapClusters
  dsimp only
  exact syncAvail_keeps (keeps_foldl _ (fun _ _ ht => csrPut_keeps ht ..) _ h)

theorem applyRetired_keeps {s : State} (h : BlockInv s) (c : SnagCounter) : BlockInv (applyRetired s c) := by
  unfold applyRetired
  dsimp only
  exact keeps_ite h (by
    split
    · exact retireUnit_keeps h ..
    · exact retireUnit_keeps h ..
    · exact keeps_ite (retireUnit_keeps h ..) h
    · exact keeps_ite (retirePc_keeps h ..) h
    · exact retireUnit_keeps h ..
    · exact retireUnit_keeps h ..
    · exact h)

theorem repairRows_keeps {s : State} (h : BlockInv s) (c : SnagCounter) : BlockInv (repairRows s c) := by
  unfold repairRows
  dsimp only
  exact keeps_ite h (keeps_ite (upd_keeps h) (upd_keeps h))

theorem applySnag_keeps {s : State} (h : BlockInv s) : BlockInv (applySnag s) := by
  unfold applySnag
  dsimp only
  exact keeps_ite (toSafe_keeps ..) (setPhaseOf_keeps (mapClusters_keeps (keeps_foldl _ (fun _ _ ht => applyRetired_keeps ht ..) _ (keeps_foldl _
      (fun _ _ ht => repairRows_keeps ht ..) _ (readSnag_keeps (csrPut_keeps h ..))))) ..)

theorem setResult_keeps {s : State} (h : BlockInv s) (slot v : Nat) : BlockInv (setResult s slot v) :=
  keeps_ite (csrSetField_keeps h ..) (csrSetField_keeps h ..)

theorem bootSlot_keeps {s : State} (h : BlockInv s) (slot : Nat) (fallback : Bool) : BlockInv (bootSlot s slot fallback) := by
  unfold bootSlot
  dsimp only
  split
  · exact toSafe_keeps ..
  · split
    · exact toSafe_keeps ..
    next t e0 =>
      have ht : BlockInv t := (applyConfigs_keeps (setPhaseOf_keeps (keeps_ite (bootEvent_keeps (csrSetField_keeps (csrSetField_keeps
          (csrSetField_keeps h ..) ..) ..) ..) (csrSetField_keeps (csrSetField_keeps (csrSetField_keeps h ..) ..) ..)) ..) _) _ e0
      exact applySnag_keeps ht

theorem imageVerifiedState_keeps {s : State} (h : BlockInv s) : BlockInv (imageVerifiedState s) := by
  unfold imageVerifiedState
  dsimp only
  exact keeps_ite h (keeps_ite (toSafe_keeps ..) (by
    split
    · exact toSafe_keeps ..
    · exact keeps_ite (bootSlot_keeps (setResult_keeps h ..) ..) (keeps_ite (toSafe_keeps ..) (keeps_ite (bootSlot_keeps (setResult_keeps
        (setResult_keeps h ..) ..) ..) (toSafe_keeps ..)))))

theorem burnSvn_keeps {s : State} (h : BlockInv s) : BlockInv (burnSvn s) := by
  unfold burnSvn
  dsimp only
  exact keeps_ite (csrSetField_keeps (upd_keeps h) ..) h

theorem startupFail_keeps {s : State} (h : BlockInv s) (c : Nat) : BlockInv (startupFail s c) := by
  unfold startupFail
  dsimp only
  exact retireCore_keeps (snagRecord_keeps (upd_keeps h) ..) ..

theorem startupUnitFail_keeps {s : State} (h : BlockInv s) (u : Nat) : BlockInv (startupUnitFail s u) := by
  unfold startupUnitFail
  dsimp only
  exact keeps_ite h (keeps_ite (retirePc_keeps (markRetired_keeps (snagRecord_keeps (upd_keeps h) ..) ..) ..) (retireUnit_keeps (snagRecord_keeps
      (upd_keeps h) ..) ..))

/-- Release empties memory and the queues. -/
theorem emptied_keeps {s : State} (h : BlockInv s) {snag : SnagSt} {boot : BootSt} :
    BlockInv { s with mem := mem0, queues := List.replicate 8 queue0, snag := snag, boot := boot } :=
  ⟨rfl, h.csr, List.length_replicate, h.children⟩

theorem releaseState_keeps {s : State} (h : BlockInv s) (rep : BootReport) : BlockInv (releaseState rep s) := by
  unfold releaseState
  refine keeps_ite h (keeps_ite (toSafe_keeps ..) ?_)
  extract_lets trained failed mapped snag boot released
  have htrained : BlockInv trained := keeps_foldl _ (fun _ _ ht => csrSetField_keeps ht ..) _ h
  have hmapped : BlockInv mapped := mapClusters_keeps (keeps_foldl _ (fun _ _ ht => startupUnitFail_keeps ht ..) _
    (keeps_foldl _ (fun _ _ ht => startupFail_keeps ht ..) _ htrained))
  have hreleased : BlockInv released := emptied_keeps hmapped
  exact keeps_ite (toSafe_keeps ..)
    (burnSvn_keeps (csrPut_keeps (setPhaseOf_keeps (syncAvail_keeps (setStepState_keeps hreleased _)) _) ..))

theorem bodyClockSelect_keeps {s : State} (h : BlockInv s) (c : Cmd) : KeepsOpt (bodyClockSelect c s) := by
  unfold bodyClockSelect
  dsimp only
  exact keepsOpt_ite (keepsOpt_some (finish_keeps h ..)) (keepsOpt_ite (keepsOpt_some (finish_keeps h ..)) (keepsOpt_ite (keepsOpt_some
      (finish_keeps h ..)) (keepsOpt_some (finish_keeps (csrSetField_keeps h ..) ..))))

theorem clockSelectState_keeps {s : State} (h : BlockInv s) (q qseq : Nat) : BlockInv (clockSelectState q qseq s) :=
  hostRow_keeps h _ _ _ _ (fun _ _ t ht => bodyClockSelect_keeps ht _ t)

theorem bodyClkoutCfg_keeps {s : State} (h : BlockInv s) (c : Cmd) : KeepsOpt (bodyClkoutCfg c s) := by
  unfold bodyClkoutCfg
  dsimp only
  exact keepsOpt_ite (keepsOpt_some (finish_keeps h ..)) (keepsOpt_ite (keepsOpt_some (finish_keeps h ..)) (keepsOpt_some (finish_keeps
      (csrPut_keeps (upd_keeps h) ..) ..)))

theorem clkoutCfgState_keeps {s : State} (h : BlockInv s) (q qseq : Nat) : BlockInv (clkoutCfgState q qseq s) :=
  hostRow_keeps h _ _ _ _ (fun _ _ t ht => bodyClkoutCfg_keeps ht _ t)

theorem oscLossState_keeps {s : State} (h : BlockInv s) : BlockInv (oscLossState s) :=
  keeps_ite h (enterS5_keeps (csrSetField_keeps h ..) ..)

theorem bodyGate_keeps {s : State} (h : BlockInv s) (c : Cmd) : KeepsOpt (bodyGate c s) := by
  unfold bodyGate
  dsimp only
  split
  · exact keepsOpt_some (finish_keeps h ..)
  · exact keepsOpt_ite (keepsOpt_some (finish_keeps h ..)) (keepsOpt_ite (keepsOpt_some (finish_keeps h ..)) (keepsOpt_ite (keepsOpt_some
      (finish_keeps h ..)) (keepsOpt_ite (keepsOpt_some (finish_keeps h ..)) (keepsOpt_some (finish_keeps (keeps_ite (linkDown_keeps
      (upd_keeps h) ..) (upd_keeps h)) ..)))))

theorem gateState_keeps {s : State} (h : BlockInv s) (q qseq : Nat) : BlockInv (gateState q qseq s) :=
  hostRow_keeps h _ _ _ _ (fun _ _ t ht => bodyGate_keeps ht _ t)

theorem setDieStep_keeps {s : State} (h : BlockInv s) (k v : Nat) : BlockInv (setDieStep s k v) := by
  unfold setDieStep
  dsimp only
  exact keeps_ite (clockStep_keeps (csrSetField_keeps (csrSetField_keeps (csrSetField_keeps (upd_keeps h) ..) ..) ..) ..) (csrSetField_keeps
      (csrSetField_keeps (upd_keeps h) ..) ..)

theorem dieSample_keeps {s : State} (h : BlockInv s) (k : Nat) (t : Int) : BlockInv (dieSample s k t) := by
  unfold dieSample
  dsimp only
  exact keeps_ite (enterS5_keeps (keeps_ite (powerRecord_keeps (setDieStep_keeps (keeps_ite (csrSetField_keeps (csrSetField_keeps h ..) ..)
      (csrSetField_keeps h ..)) ..) ..) (upd_keeps (keeps_ite (csrSetField_keeps (csrSetField_keeps h ..) ..) (csrSetField_keeps h ..)))) ..)
      (keeps_ite (powerRecord_keeps (setDieStep_keeps (keeps_ite (csrSetField_keeps (csrSetField_keeps h ..) ..) (csrSetField_keeps h ..)) ..) ..)
      (upd_keeps (keeps_ite (csrSetField_keeps (csrSetField_keeps h ..) ..) (csrSetField_keeps h ..))))

theorem stackAsk_keeps {s : State} (h : BlockInv s) (d : Nat) : BlockInv (stackAsk s d) := by
  unfold stackAsk
  dsimp only
  exact clockStep_keeps (csrSetField_keeps h ..) ..

theorem stackSample_keeps {s : State} (h : BlockInv s) (st : Nat) (t c : Int) : BlockInv (stackSample s st t c) := by
  unfold stackSample
  dsimp only
  exact keeps_ite (keeps_ite (csrSetField_keeps (csrSetField_keeps (csrSetField_keeps h ..) ..) ..) (powerRecord_keeps (stackAsk_keeps
      (csrSetField_keeps (csrSetField_keeps (csrSetField_keeps h ..) ..) ..) ..) ..)) (powerRecord_keeps (keeps_ite (csrSetField_keeps
      (csrSetField_keeps (csrSetField_keeps h ..) ..) ..) (powerRecord_keeps (stackAsk_keeps (csrSetField_keeps (csrSetField_keeps
      (csrSetField_keeps h ..) ..) ..) ..) ..)) ..)

theorem thermalSampleState_keeps {s : State} (h : BlockInv s) (t : TempSample) : BlockInv (thermalSampleState t s) := by
  unfold thermalSampleState
  dsimp only
  exact keeps_ite h (keeps_foldl _ (fun _ _ hu => dieSample_keeps hu ..) _ (mirrorPump_keeps (telFlush_keeps (keeps_foldl _
      (fun _ _ hu => stackSample_keeps hu ..) _ h))))

theorem thermalStepDownState_keeps {s : State} (h : BlockInv s) (die : Nat) : BlockInv (thermalStepDownState die s) :=
  keeps_ite h (powerRecord_keeps (setDieStep_keeps h ..) ..)

theorem thermalStepUpState_keeps {s : State} (h : BlockInv s) (die : Nat) : BlockInv (thermalStepUpState die s) := by
  unfold thermalStepUpState
  dsimp only
  split
  · exact h
  · exact keeps_ite h (upd_keeps (powerRecord_keeps (setDieStep_keeps h ..) ..))

end Sys2Proof.Machine
end

section
/-! SUPPORT. The invariant through the stages of a tile. -/

namespace Sys2Proof.Machine

theorem floatCounts_keeps {s : State} (h : BlockInv s) (pc : Nat) (c : QCounts) : BlockInv (floatCounts s pc c) := by
  unfold floatCounts
  dsimp only
  exact csrPut64_keeps (keeps_foldl _ (fun _ _ ht => coreBump_keeps ht ..) _ h) ..

theorem addCounts_keeps {s : State} (h : BlockInv s) (op core : Nat) (c : QCounts) : BlockInv (addCounts s op core c) := by
  unfold addCounts
  dsimp only
  exact coreUpd_keeps h ..

theorem writeQuant_keeps {s : State} (h : BlockInv s) (io : IoCtx) (d : Desc) (o : QOut) : BlockInv (writeQuant s io d o).1 := by
  have hwrite {t : State} (ht : BlockInv t) {q : Prop} [Decidable q] (a : Nat) (bs : List Byte) :
      BlockInv (if q then (t, true) else spaceWrite t io d.space a bs).1 := keeps_ite_fst ht (spaceWrite_keeps ht ..)
  unfold writeQuant
  extract_lets a b c e
  exact hwrite (hwrite (spaceWrite_keeps (spaceWrite_keeps h ..) ..) ..) ..

theorem quantiseBody_keeps {s : State} (h : BlockInv s) (x : StCtx) : BlockInv (quantiseBody x s) := by
  unfold quantiseBody
  dsimp only
  split
  · split
    · exact StCtx.fail_keeps (readVals_keeps h ..) ..
    · exact keeps_ite (StCtx.done_keeps (addCounts_keeps (floatCounts_keeps (writeQuant_keeps (readVals_keeps h ..) ..) ..) ..) ..)
        (StCtx.fail_keeps (addCounts_keeps (floatCounts_keeps (writeQuant_keeps (readVals_keeps h ..) ..) ..) ..) ..)
  · exact StCtx.fail_keeps h ..

theorem quantiseState_keeps {s : State} (h : BlockInv s) (op core : Nat) (ev : StageEvents) : BlockInv (quantiseState op core ev s) :=
  stageRow_keeps h _ _ _ _ _ (fun _ _ ht => StCtx.checked_keeps ht _ _ _ _ (fun _ _ hu => quantiseBody_keeps hu ..))

theorem readRecs_keeps {s : State} (h : BlockInv s) (io : IoCtx) (d : Desc) : BlockInv (readRecs s io d).1 := by
  unfold readRecs
  dsimp only
  exact keeps_ite_pair h (spaceRead_keeps h ..)

theorem readFbs_keeps {s : State} (h : BlockInv s) (io : IoCtx) (d : Desc) : BlockInv (readFbs s io d).1 := by
  unfold readFbs
  dsimp only
  exact keeps_ite_pair h (spaceRead_keeps h ..)

theorem reportSide_keeps {s : State} (h : BlockInv s) (x : StCtx) (ds : List Desc) : BlockInv (reportSide x s ds) :=
  keeps_ite (decideEvent_keeps h ..) h

theorem readStash_keeps {s : State} (h : BlockInv s) (io : IoCtx) (d : Desc) : BlockInv (readStash s io d).1 := by
  unfold readStash
  dsimp only
  exact readFbs_keeps (readRecs_keeps (readExps_keeps (readVals_keeps h ..) ..) ..) ..

theorem sgradPart_keeps {s : State} (h : BlockInv s) (x : StCtx) (n : Nat) (c : FloatCtl) (a : List FV) (w : Nat) (dxs : List
    (List FV)) : BlockInv (sgradPart x s n c a w dxs).1 := by
  unfold sgradPart
  dsimp only
  split
  · split
    · exact corePutFloats_keeps (readVals_keeps (readStash_keeps h ..) ..) ..
    · exact readVals_keeps (readStash_keeps h ..) ..
  · exact h

theorem returnBody_keeps {s : State} (h : BlockInv s) (x : StCtx) : BlockInv (returnBody x s) := by
  unfold returnBody
  extract_lets rc
  split
  · extract_lets r _ _
    have hr : BlockInv r.1 := readVals_keeps h ..
    split
    · exact StCtx.fail_keeps hr ..
    · extract_lets out w g
      have hw : BlockInv w.1 := writeFloats_keeps hr ..
      have hg : BlockInv g.1 := keeps_ite_fst (sgradPart_keeps hw ..) hw
      exact keeps_ite (StCtx.done_keeps hg ..) (StCtx.fail_keeps (keeps_ite (reportSide_keeps hg ..) hg) ..)
  · exact StCtx.fail_keeps h ..

theorem returnStageState_keeps {s : State} (h : BlockInv s) (op core : Nat) (ev : StageEvents) : BlockInv (returnStageState op core ev s) :=
  stageRow_keeps h _ _ _ _ _ (fun _ _ ht => StCtx.checked_keeps ht _ _ _ _ (fun _ _ hu => returnBody_keeps hu ..))

theorem feedLevel_keeps {s : State} (h : BlockInv s) (x : StCtx) (d : Desc) (t : Tensor) (j floor : Nat) : BlockInv
    (feedLevel s x d t j floor).1 := by
  unfold feedLevel
  dsimp only
  exact levelWeights_keeps h ..

theorem feedOperand_keeps {s : State} (h : BlockInv s) (x : StCtx) (d : Desc) (mask floor : Nat) : BlockInv (feedOperand s x d mask floor).1 := by
  unfold feedOperand
  dsimp only
  split
  · exact feedLevel_keeps h ..
  · exact h
  · exact readFbs_keeps (readRecs_keeps (readExps_keeps (readCodes_keeps h ..) ..) ..) ..

theorem feedCount_keeps {s : State} (h : BlockInv s) (x : StCtx) (c : FeedCounts) : BlockInv (feedCount s x c) := by
  unfold feedCount
  dsimp only
  exact coreUpd_keeps (coreBump_keeps (coreBump_keeps (keeps_foldl _ (fun _ _ ht => coreBump_keeps ht ..) _ h) ..) ..) ..

theorem putSpill_keeps {s : State} (h : BlockInv s) (pc : Nat) (t : Tile) (ws : List (List Int)) : BlockInv (putSpill s pc t ws) :=
  keeps_ite h (coreWrite_keeps h ..)

theorem openTile_keeps {s : State} (h : BlockInv s) (pc e : Nat) (c : TileCtl) (t : Tile) : BlockInv (openTile s pc e c t).1 := by
  unfold openTile
  dsimp only
  split
  · exact keeps_ite (coreWrite_keeps h ..) h
  · exact h
  · exact h

theorem failRegs_keeps {s : State} (h : BlockInv s) (pe tile observed predicted vec digit : Nat) (hs hv : Bool) (kind block : Nat) : BlockInv
    (failRegs s pe tile observed predicted vec digit hs hv kind block) := by
  unfold failRegs
  dsimp only
  exact keeps_ite h (csrPut_keeps (csrPut_keeps h ..) ..)

theorem holdPass_keeps {s : State} (hs : BlockInv s) (pe : Nat) (h : PassHold) : BlockInv (holdPass s pe h) := by
  unfold holdPass
  dsimp only
  exact upd_keeps hs

theorem engineStop_keeps {s : State} (h : BlockInv s) (pe tile : Nat) (x : EngStop) : BlockInv (engineStop s pe tile x) := by
  unfold engineStop
  dsimp only
  exact holdPass_keeps (keeps_ite (csrBump_keeps (failRegs_keeps h ..) ..) (csrBump_keeps (failRegs_keeps h ..) ..)) ..

theorem latchRegs_keeps {s : State} (h : BlockInv s) (pe : Nat) (reg : Nat × Pass → List LaneReg) (loads : List (Nat × Pass)) (now : Option
    (Nat × Pass)) : BlockInv (latchRegs s pe reg loads now) := by
  unfold latchRegs
  dsimp only
  split
  · exact h
  · exact upd_keeps h

theorem fillBanks_keeps {s : State} (h : BlockInv s) (pe : Nat) (codes : List Byte) : BlockInv (fillBanks s pe codes) := by
  unfold fillBanks
  dsimp only
  exact keeps_foldl _ (fun _ _ ht => upd_keeps ht) _ h

theorem engineWork_keeps {s : State} (h : BlockInv s) (x : StCtx) (c : TileCtl) (mask : Nat) (stat strm : OpMat) (descs : List Nat)
    (base step nb e : Nat) (faults : List ArrayFault) : BlockInv (engineWork s x c mask stat strm descs base step nb e faults).1 := by
  unfold engineWork
  dsimp only
  split
  · exact keeps_ite_fst (openTile_keeps h ..) h
  · split
    · exact latchRegs_keeps (csrBump_keeps (csrBump_keeps (csrBump_keeps (putSpill_keeps (tilePut_keeps (keeps_ite_fst
        (openTile_keeps h ..) h) ..) ..) ..) ..) ..) ..
    · exact engineStop_keeps (latchRegs_keeps (csrBump_keeps (csrBump_keeps (csrBump_keeps (putSpill_keeps (tilePut_keeps (keeps_ite_fst
        (openTile_keeps h ..) h) ..) ..) ..) ..) ..) ..) ..

theorem enginesWork_keeps {s : State} (h : BlockInv s) (x : StCtx) (c : TileCtl) (mask : Nat) (stat strm : OpMat) (descs : List Nat)
    (base step nb : Nat) (faults : List ArrayFault) (l : List Nat) :
    BlockInv (enginesWork x c mask stat strm descs base step nb faults l s).1 := by
  induction l generalizing s with
  | nil => exact h
  | cons e r ih =>
    have ha := engineWork_keeps h x c mask stat strm descs base step nb e faults
    unfold enginesWork
    dsimp only
    split
    · exact ha
    · exact ih ha

theorem multiplyBody_keeps {s : State} (h : BlockInv s) (faults : List ArrayFault) (x : StCtx) : BlockInv (multiplyBody faults x s) := by
  unfold multiplyBody
  dsimp only
  split
  · split
    · split
      · exact StCtx.fail_keeps (enginesWork_keeps (keeps_ite (keeps_foldl _ (fun _ _ ht => fillBanks_keeps ht ..) _ (feedOperand_keeps
          (feedOperand_keeps h ..) ..)) (feedOperand_keeps (feedOperand_keeps h ..) ..)) ..) ..
      · exact keeps_ite (holdClocks_keeps (syncRecovering_keeps (coreUpd_keeps (keeps_ite (feedCount_keeps (feedCount_keeps (enginesWork_keeps
          (keeps_ite (keeps_foldl _ (fun _ _ ht => fillBanks_keeps ht ..) _ (feedOperand_keeps (feedOperand_keeps h ..) ..)) (feedOperand_keeps
          (feedOperand_keeps h ..) ..)) ..) ..) ..) (enginesWork_keeps (keeps_ite (keeps_foldl _ (fun _ _ ht => fillBanks_keeps ht ..) _
          (feedOperand_keeps (feedOperand_keeps h ..) ..)) (feedOperand_keeps (feedOperand_keeps h ..) ..)) ..)) ..))) (StCtx.done_keeps
          (keeps_ite (feedCount_keeps (feedCount_keeps (enginesWork_keeps (keeps_ite (keeps_foldl _ (fun _ _ ht => fillBanks_keeps ht ..) _
          (feedOperand_keeps (feedOperand_keeps h ..) ..)) (feedOperand_keeps (feedOperand_keeps h ..) ..)) ..) ..) ..) (enginesWork_keeps
          (keeps_ite (keeps_foldl _ (fun _ _ ht => fillBanks_keeps ht ..) _ (feedOperand_keeps (feedOperand_keeps h ..) ..)) (feedOperand_keeps
          (feedOperand_keeps h ..) ..)) ..)) ..)
    · exact StCtx.fail_keeps (reportSide_keeps (feedOperand_keeps (feedOperand_keeps h ..) ..) ..) ..
  · exact StCtx.fail_keeps h ..

theorem multiplyState_keeps {s : State} (h : BlockInv s) (op core : Nat) (ev : StageEvents) : BlockInv (multiplyState op core ev s) :=
  stageRow_keeps h _ _ _ _ _ (fun _ _ ht => multiplyBody_keeps ht ..)

theorem putRow_keeps {s : State} (h : BlockInv s) (x : StCtx) (j : ScreedJob) (o : RowOut) : BlockInv (putRow s x j o).1 := by
  unfold putRow
  extract_lets w t
  have hw : BlockInv w.1 := keeps_foldl_pair (fun _ _ hr => spaceWrite_keeps hr ..) h
  have ht : BlockInv t := coreBump_keeps (coreBump_keeps (coreBump_keeps (coreBump_keeps hw ..) ..) ..) ..
  exact StCtx.propagated_keeps (StCtx.origins_keeps ht ..) ..

theorem drainStop_keeps {s : State} (h : BlockInv s) (x : StCtx) (j : ScreedJob) (f : Option ArrayFault) (t : Tile) (p e i kind observed : Nat)
    (es : List Int) : BlockInv (drainStop s x j f t p e i kind observed es) := by
  unfold drainStop
  dsimp only
  exact holdClocks_keeps (syncRecovering_keeps (coreUpd_keeps (holdPass_keeps (keeps_ite (tilePut_keeps h ..) (keeps_ite (csrBump_keeps
      (failRegs_keeps (tilePut_keeps h ..) ..) ..) (csrBump_keeps (failRegs_keeps (tilePut_keeps h ..) ..) ..))) ..) ..))

theorem drainPlace_keeps {s : State} (h : BlockInv s) (x : StCtx) (j : ScreedJob) (faults : List ArrayFault) (p : Nat) : BlockInv
    (drainPlace x j faults p s).1 := by
  unfold drainPlace
  dsimp only
  exact keeps_ite_fst h (keeps_ite_fst (drainStop_keeps h ..) (keeps_ite_fst (drainStop_keeps h ..) (keeps_ite_pair (drainStop_keeps h ..)
      (putRow_keeps (csrBump_keeps h ..) ..))))

theorem drainFrom_keeps {s : State} (h : BlockInv s) (x : StCtx) (j : ScreedJob) (faults : List ArrayFault) (left p : Nat) :
    BlockInv (drainFrom x j faults left p s).1 := by
  induction left generalizing s p with
  | zero => exact h
  | succ left ih => exact keeps_ite_fst (ih (drainPlace_keeps h ..) ..) (drainPlace_keeps h ..)

theorem screedBody_keeps {s : State} (h : BlockInv s) (faults : List ArrayFault) (x : StCtx) : BlockInv (screedBody faults x s) := by
  unfold screedBody
  dsimp only
  split
  · exact keeps_ite (drainFrom_keeps h ..) (keeps_ite (StCtx.fail_keeps (drainFrom_keeps h ..) ..) (StCtx.done_keeps (drainFrom_keeps h ..) ..))
  · exact StCtx.fail_keeps h ..

theorem screedState_keeps {s : State} (h : BlockInv s) (op core : Nat) (ev : StageEvents) (writes : List ArrayFault) : BlockInv
    (screedState op core ev writes s) :=
  stageRow_keeps h _ _ _ _ _ (fun _ _ ht => StCtx.checked_keeps ht _ _ _ _ (fun _ _ hu => screedBody_keeps hu ..))

theorem vecRowStep_keeps {a : State × VecOut × Bool} (h : BlockInv a.1) (f : VecIn → VecRow) (x : StCtx) (c : VecCtl) (seg : Option Desc)
    (p : Nat × List FV × List FV) : BlockInv (vecRowStep f x c seg a p).1 := by
  unfold vecRowStep
  dsimp only
  refine keeps_foldl_pair (fun r q hr => ?_) (keeps_ite (coreWrite_keeps h ..) h)
  split
  · exact spaceWrite_keeps hr ..
  · exact coreWrite_keeps hr ..

theorem StCtx.trapped_keeps {s : State} (h : BlockInv s) (x : StCtx) (c : VecCtl) (rs : List (Nat × FV × Nat)) : BlockInv (StCtx.trapped x s c rs) :=
  StCtx.propagated_keeps (StCtx.origins_keeps h ..) ..

theorem putFloatOut_keeps {s : State} (h : BlockInv s) (x : StCtx) (c : VecCtl) (d : Desc) (f : Fmt) (o : VecOut) : BlockInv
    (putFloatOut s x c d f o).1 := by
  unfold putFloatOut
  dsimp only
  exact StCtx.trapped_keeps (writeFloats_keeps h ..) ..

theorem putBlockOut_keeps {s : State} (h : BlockInv s) (x : StCtx) (c : VecCtl) (d : Desc) (o : VecOut) : BlockInv (putBlockOut s x c d o).1 := by
  unfold putBlockOut
  dsimp only
  exact StCtx.trapped_keeps (coreBump_keeps (coreBump_keeps (writeBlocks_keeps h ..) ..) ..) ..

theorem putNoOut_keeps {s : State} (h : BlockInv s) (x : StCtx) (c : VecCtl) (width : Nat) (o : VecOut) : BlockInv (putNoOut s x c width o).1 := by
  unfold putNoOut
  dsimp only
  exact StCtx.trapped_keeps h ..

theorem vecBody_keeps {s : State} (h : BlockInv s) (f : VecIn → VecRow) (x : StCtx) : BlockInv (vecBody f x s) := by
  unfold vecBody
  dsimp only
  split
  · split
    · exact keeps_ite (StCtx.done_keeps (by
        split
        · exact keeps_ite_fst (putNoOut_keeps (keeps_foldl_pair (fun _ _ hr => vecRowStep_keeps hr ..) (by
            split
            · exact keeps_ite_fst (readVals_keeps (readVals_keeps h ..) ..) (readVals_keeps h ..)
            · exact readVals_keeps h ..)) ..) (by
            split
            · exact putFloatOut_keeps (keeps_foldl_pair (fun _ _ hr => vecRowStep_keeps hr ..) (by
                split
                · exact keeps_ite_fst (readVals_keeps (readVals_keeps h ..) ..) (readVals_keeps h ..)
                · exact readVals_keeps h ..)) ..
            · exact putBlockOut_keeps (keeps_foldl_pair (fun _ _ hr => vecRowStep_keeps hr ..) (by
                split
                · exact keeps_ite_fst (readVals_keeps (readVals_keeps h ..) ..) (readVals_keeps h ..)
                · exact readVals_keeps h ..)) ..)
        · exact putNoOut_keeps (keeps_foldl_pair (fun _ _ hr => vecRowStep_keeps hr ..) (by
            split
            · exact keeps_ite_fst (readVals_keeps (readVals_keeps h ..) ..) (readVals_keeps h ..)
            · exact readVals_keeps h ..)) ..) ..) (StCtx.fail_keeps (by
        split
        · exact keeps_ite_fst (putNoOut_keeps (keeps_foldl_pair (fun _ _ hr => vecRowStep_keeps hr ..) (by
            split
            · exact keeps_ite_fst (readVals_keeps (readVals_keeps h ..) ..) (readVals_keeps h ..)
            · exact readVals_keeps h ..)) ..) (by
            split
            · exact putFloatOut_keeps (keeps_foldl_pair (fun _ _ hr => vecRowStep_keeps hr ..) (by
                split
                · exact keeps_ite_fst (readVals_keeps (readVals_keeps h ..) ..) (readVals_keeps h ..)
                · exact readVals_keeps h ..)) ..
            · exact putBlockOut_keeps (keeps_foldl_pair (fun _ _ hr => vecRowStep_keeps hr ..) (by
                split
                · exact keeps_ite_fst (readVals_keeps (readVals_keeps h ..) ..) (readVals_keeps h ..)
                · exact readVals_keeps h ..)) ..)
        · exact putNoOut_keeps (keeps_foldl_pair (fun _ _ hr => vecRowStep_keeps hr ..) (by
            split
            · exact keeps_ite_fst (readVals_keeps (readVals_keeps h ..) ..) (readVals_keeps h ..)
            · exact readVals_keeps h ..)) ..) ..)
    · exact StCtx.fail_keeps (by
        split
        · exact keeps_ite_fst (readVals_keeps (readVals_keeps h ..) ..) (readVals_keeps h ..)
        · exact readVals_keeps h ..) ..
  · exact StCtx.fail_keeps h ..

theorem vecRow_keeps {s : State} (h : BlockInv s) (num : Nat) (f : VecIn → VecRow) (op core : Nat) (ev : StageEvents) : BlockInv
    (vecRow num f op core ev s) :=
  stageRow_keeps h _ _ _ _ _ (fun _ _ ht => StCtx.checked_keeps ht _ _ _ _ (fun _ _ hu => vecBody_keeps hu ..))

theorem vecCopyState_keeps {s : State} (h : BlockInv s) (op core : Nat) (ev : StageEvents) : BlockInv (vecCopyState op core ev s) :=
  vecRow_keeps h ..

theorem vecAddState_keeps {s : State} (h : BlockInv s) (op core : Nat) (ev : StageEvents) : BlockInv (vecAddState op core ev s) :=
  vecRow_keeps h ..

theorem vecSubState_keeps {s : State} (h : BlockInv s) (op core : Nat) (ev : StageEvents) : BlockInv (vecSubState op core ev s) :=
  vecRow_keeps h ..

theorem vecMulState_keeps {s : State} (h : BlockInv s) (op core : Nat) (ev : StageEvents) : BlockInv (vecMulState op core ev s) :=
  vecRow_keeps h ..

theorem actBwdState_keeps {s : State} (h : BlockInv s) (op core : Nat) (ev : StageEvents) : BlockInv (actBwdState op core ev s) :=
  vecRow_keeps h ..

theorem smStatsState_keeps {s : State} (h : BlockInv s) (op core : Nat) (ev : StageEvents) : BlockInv (smStatsState op core ev s) :=
  vecRow_keeps h ..

theorem smNormState_keeps {s : State} (h : BlockInv s) (op core : Nat) (ev : StageEvents) : BlockInv (smNormState op core ev s) :=
  vecRow_keeps h ..

theorem smBwdSumState_keeps {s : State} (h : BlockInv s) (op core : Nat) (ev : StageEvents) : BlockInv (smBwdSumState op core ev s) :=
  vecRow_keeps h ..

theorem smBwdState_keeps {s : State} (h : BlockInv s) (op core : Nat) (ev : StageEvents) : BlockInv (smBwdState op core ev s) :=
  vecRow_keeps h ..

theorem lnStatsState_keeps {s : State} (h : BlockInv s) (op core : Nat) (ev : StageEvents) : BlockInv (lnStatsState op core ev s) :=
  vecRow_keeps h ..

theorem normApplyState_keeps {s : State} (h : BlockInv s) (op core : Nat) (ev : StageEvents) : BlockInv (normApplyState op core ev s) :=
  vecRow_keeps h ..

theorem normBwdSumState_keeps {s : State} (h : BlockInv s) (op core : Nat) (ev : StageEvents) : BlockInv (normBwdSumState op core ev s) :=
  vecRow_keeps h ..

theorem normBwdState_keeps {s : State} (h : BlockInv s) (op core : Nat) (ev : StageEvents) : BlockInv (normBwdState op core ev s) :=
  vecRow_keeps h ..

theorem rmsStatsState_keeps {s : State} (h : BlockInv s) (op core : Nat) (ev : StageEvents) : BlockInv (rmsStatsState op core ev s) :=
  vecRow_keeps h ..

theorem topkState_keeps {s : State} (h : BlockInv s) (op core : Nat) (ev : StageEvents) : BlockInv (topkState op core ev s) :=
  vecRow_keeps h ..

theorem segsumState_keeps {s : State} (h : BlockInv s) (op core : Nat) (ev : StageEvents) : BlockInv (segsumState op core ev s) :=
  vecRow_keeps h ..

theorem actState_keeps {s : State} (h : BlockInv s) (op core : Nat) (ev : StageEvents) : BlockInv (actState op core ev s) :=
  vecRow_keeps h ..

theorem addHeld_keeps {s : State} (hs : BlockInv s) (pe : Nat) (h : PassHold) (sums : List Int) : BlockInv (addHeld s pe h sums) := by
  unfold addHeld
  dsimp only
  exact csrBump_keeps (csrBump_keeps (csrBump_keeps (putSpill_keeps (tilePut_keeps hs ..) ..) ..) ..) ..

theorem resumeEngine_keeps {s : State} (h : BlockInv s) (c : Cmd) (lc pe tile : Nat) (pos : Option Nat) : BlockInv
    (resumeEngine s c lc pe tile pos) := by
  unfold resumeEngine
  dsimp only
  exact coreUpd_keeps (upd_keeps (tilePut_keeps h ..)) ..

theorem passMismatchDecisionState_keeps {s : State} (h : BlockInv s) (eng : Nat) (runA runB : ReRun) : BlockInv
    (passMismatchDecisionState eng runA runB s) := by
  unfold passMismatchDecisionState
  dsimp only
  split
  · exact keeps_ite h (holdClocks_keeps (syncRecovering_keeps (keeps_ite (orderReplay_keeps (decideEvent_keeps (resumeEngine_keeps (by
      split
      · exact addHeld_keeps h ..
      · exact h) ..) ..) ..) (decideEvent_keeps (resumeEngine_keeps (by
      split
      · exact addHeld_keeps h ..
      · exact h) ..) ..))))
  · exact h

theorem hardAgain_keeps {s : State} (hs : BlockInv s) (eng unit check : Nat) (h : PassHold) (c : Cmd) (lc : Nat) (r : ReRun) : BlockInv
    (hardAgain s eng unit check h c lc r) := by
  unfold hardAgain
  dsimp only
  exact keeps_ite (decideEvent_keeps (resumeEngine_keeps (addHeld_keeps hs ..) ..) ..) (decideEvent_keeps (resumeEngine_keeps hs ..) ..)

theorem arrayEventDecisionState_keeps {s : State} (h : BlockInv s) (eng : Nat) (again : List ReRun) : BlockInv
    (arrayEventDecisionState eng again s) := by
  unfold arrayEventDecisionState
  dsimp only
  split
  · exact holdClocks_keeps (syncRecovering_keeps (keeps_ite (keeps_ite (decideEvent_keeps (resumeEngine_keeps h ..) ..) (orderReplay_keeps
      (decideEvent_keeps (resumeEngine_keeps h ..) ..) ..)) (keeps_ite (hardAgain_keeps h ..) (keeps_ite (hardAgain_keeps h ..) (keeps_ite
      (orderReplay_keeps (decideEvent_keeps (coreUpd_keeps (resumeEngine_keeps h ..) ..) ..) ..) (keeps_ite (decideEvent_keeps
      (resumeEngine_keeps h ..) ..) h))))))
  · exact h

end Sys2Proof.Machine
end

section
/-! SUPPORT. The invariant through memory cells, jobs, RoCE and security. -/

namespace Sys2Proof.Machine

theorem grantReq_keeps {s : State} (h : BlockInv s) (base n : Nat) (port : MemReq → Nat) (ok : MemReq → Bool) (q : List MemReq) {r : MemReq}
    {l : List MemReq} {t : State} (e : grantReq s base n port ok q = some (r, l, t)) : BlockInv t := by
  unfold grantReq at e
  dsimp only at e
  split at e
  · exact nomatch e
  next j u granted =>
    split at e
    · exact nomatch e
    · obtain ⟨-, rest⟩ := Prod.mk.inj (Option.some.inj e)
      obtain ⟨-, rfl⟩ := Prod.mk.inj rest
      exact grant_keeps h _ _ _ granted

theorem sectorGrantState_keeps {s : State} (h : BlockInv s) (stack pc : Nat) : BlockInv (sectorGrantState stack pc s) := by
  unfold sectorGrantState
  dsimp only
  exact keeps_ite h (by
    split
    · exact h
    next t e0 =>
      have ht : BlockInv t := grantReq_keeps h _ _ _ _ _ e0
      exact memServed_keeps (beside_keeps ht (by rfl) (by rfl)) ..)

theorem capacityAccessState_keeps {s : State} (h : BlockInv s) (ctl : Nat) : BlockInv (capacityAccessState ctl s) := by
  unfold capacityAccessState
  dsimp only
  exact keeps_ite h (by
    split
    · exact h
    next t e0 =>
      have ht : BlockInv t := grantReq_keeps h _ _ _ _ _ e0
      exact memServed_keeps (beside_keeps ht (by rfl) (by rfl)) ..)

theorem refreshState_keeps {s : State} (h : BlockInv s) (stack pc bank : Nat) : BlockInv (refreshState stack pc bank s) := by
  refine keeps_ite h (upd_keeps (keeps_getD (fun t e => ?_) h))
  obtain ⟨g, granted, rfl⟩ := Option.map_eq_some_iff.mp e
  exact grant_keeps h _ _ _ granted

theorem cellFlips_keeps {s : State} (h : BlockInv s) (k : Nat) (flips : List (Nat × Nat)) : BlockInv (cellFlips s k flips) := by
  unfold cellFlips
  dsimp only
  split
  · exact setErrs_keeps h ..
  · exact beside_keeps (setErrs_keeps h ..) (by rfl) (by rfl)

theorem patrolScrubState_keeps {s : State} (h : BlockInv s) (stack pc : Nat) (flips : List (Nat × Nat)) : BlockInv
    (patrolScrubState stack pc flips s) := by
  unfold patrolScrubState
  dsimp only
  exact keeps_ite h (by
    split
    · exact beside_keeps h (by rfl) (by rfl)
    · exact keeps_ite (cellFlips_keeps (beside_keeps h (by rfl) (by rfl)) ..) (meetSector_keeps (cellFlips_keeps (beside_keeps h (by rfl)
        (by rfl)) ..) ..))

theorem pseudoChannelRetirementState_keeps {s : State} (h : BlockInv s) (stack pc : Nat) : BlockInv (pseudoChannelRetirementState stack pc s) := by
  unfold pseudoChannelRetirementState
  dsimp only
  exact keeps_ite h (keeps_ite (orderReplay_keeps (retirePc_keeps (markRetired_keeps (upd_keeps h) ..) ..) ..) (retirePc_keeps (markRetired_keeps
      (upd_keeps h) ..) ..))

theorem hawkMigrationState_keeps {s : State} (h : BlockInv s) (mb unit staging : Nat) : BlockInv (hawkMigrationState mb unit staging s) := by
  unfold hawkMigrationState
  dsimp only
  exact keeps_ite h (by
    split
    · exact readMem_keeps (portGrant_keeps h ..) ..
    · exact hawkPut_keeps (writeMem_keeps (readMem_keeps (portGrant_keeps h ..) ..) ..) ..)

theorem moveQueue_keeps {s : State} (h : BlockInv s) (q d ring cq : Nat) : BlockInv (moveQueue s q d ring cq) := by
  unfold moveQueue
  dsimp only
  exact writeMem_keeps (queuePut_keeps h ..) ..

theorem bodyQueueSetup_keeps {s : State} (h : BlockInv s) (c : Cmd) : KeepsOpt (bodyQueueSetup c s) :=
  refuseOr_keeps h (finish_keeps (moveQueue_keeps h ..) ..) _ _

theorem bodyQueueSetupQp_keeps {s : State} (h : BlockInv s) (c : Cmd) : KeepsOpt (bodyQueueSetupQp c s) := by
  unfold bodyQueueSetupQp
  dsimp only
  exact refuseOr_keeps h (finish_keeps (upd_keeps h) ..) _ _

theorem queueSetupState_keeps {s : State} (h : BlockInv s) (q qseq : Nat) : BlockInv (queueSetupState q qseq s) :=
  hostRow_keeps h _ _ _ _ (fun _ _ t ht => bodyQueueSetup_keeps ht _ t)

theorem queueSetupQpState_keeps {s : State} (h : BlockInv s) (q qseq : Nat) : BlockInv (queueSetupQpState q qseq s) :=
  hostRow_keeps h _ _ _ _ (fun _ _ t ht => bodyQueueSetupQp_keeps ht _ t)

theorem openJob_keeps {s : State} (h : BlockInv s) (b : List Byte) (ts : List Tensor) : BlockInv (openJob s b ts) := by
  unfold openJob
  dsimp only
  exact upd_keeps (csrSetField_keeps (csrSetField_keeps (csrPut64_keeps (csrPut_keeps h ..) ..) ..) ..)

theorem bodyJobOpen_keeps {s : State} (h : BlockInv s) (c : Cmd) : KeepsOpt (bodyJobOpen c s) := by
  unfold bodyJobOpen
  dsimp only
  split
  · exact keepsOpt_some (finish_keeps h ..)
  · split
    · exact keepsOpt_some (finish_keeps (readTable_keeps h ..) ..)
    · exact keepsOpt_some (finish_keeps (openJob_keeps (readTable_keeps h ..) ..) ..)

theorem closeJob_keeps {s : State} (h : BlockInv s) : BlockInv (closeJob s) := by
  unfold closeJob
  extract_lets remapped written fields
  have hremapped : BlockInv remapped := remapMemory_keeps (keeps_foldl _ (fun _ _ ht => setPreg_keeps ht ..) _ h) s
  have hfields : BlockInv fields := csrSetField_keeps (csrSetField_keeps (csrPut_keeps (csrPut_keeps hremapped ..) ..) ..) ..
  exact upd_keeps hfields

theorem bodyJobClose_keeps {s : State} (h : BlockInv s) (c : Cmd) : KeepsOpt (bodyJobClose c s) :=
  keepsOpt_ite (keepsOpt_some (finish_keeps h ..)) (keepsOpt_ite (keepsOpt_some (finish_keeps h ..)) (keepsOpt_some (finish_keeps
      (closeJob_keeps h) ..)))

theorem jobOpenState_keeps {s : State} (h : BlockInv s) (q qseq : Nat) : BlockInv (jobOpenState q qseq s) :=
  hostRow_keeps h _ _ _ _ (fun _ _ t ht => bodyJobOpen_keeps ht _ t)

theorem jobCloseState_keeps {s : State} (h : BlockInv s) (q qseq : Nat) : BlockInv (jobCloseState q qseq s) :=
  hostRow_keeps h _ _ _ _ (fun _ _ t ht => bodyJobClose_keeps ht _ t)

theorem bodyRegionMap_keeps {s : State} (h : BlockInv s) (c : Cmd) : KeepsOpt (bodyRegionMap c s) := by
  have hr := readMem_keeps h (leAt c.body 0 8) (32 * leAt c.body 8 2)
  unfold bodyRegionMap
  dsimp only
  refine keepsOpt_ite (keepsOpt_some (finish_keeps h ..)) (keepsOpt_ite (keepsOpt_some (finish_keeps h ..)) ?_)
  split
  · exact keepsOpt_some (finish_keeps hr ..)
  · split
    · exact keepsOpt_some (finish_keeps hr ..)
    next t e =>
      have ht : BlockInv t := applyRegions_keeps hr _ t e
      exact keepsOpt_ite (keepsOpt_some (finish_keeps (remapMemory_keeps ht _) ..)) (keepsOpt_some (finish_keeps hr ..))

theorem bodyFill_keeps {s : State} (h : BlockInv s) (c : Cmd) : KeepsOpt (bodyFill c s) := by
  unfold bodyFill
  dsimp only
  exact keepsOpt_ite (keepsOpt_some (finish_keeps h ..)) (keepsOpt_ite keepsOpt_none (keepsOpt_some (finish_keeps (writeMem_keeps h ..) ..)))

theorem bodyCopy_keeps {s : State} (h : BlockInv s) (c : Cmd) : KeepsOpt (bodyCopy c s) := by
  unfold bodyCopy
  dsimp only
  exact keepsOpt_ite (keepsOpt_some (finish_keeps h ..)) (keepsOpt_ite keepsOpt_none (by
    split
    · exact keepsOpt_some (finish_keeps (readMem_keeps h ..) ..)
    · exact keepsOpt_ite (keepsOpt_some (finish_keeps (tallyBump_keeps (writeMem_keeps (readMem_keeps h ..) ..) ..) ..)) (keepsOpt_some
        (finish_keeps (writeMem_keeps (readMem_keeps h ..) ..) ..))))

theorem bodyWindowMap_keeps {s : State} (h : BlockInv s) (c : Cmd) : KeepsOpt (bodyWindowMap c s) := by
  unfold bodyWindowMap
  dsimp only
  exact keepsOpt_ite (keepsOpt_some (finish_keeps h ..)) (by
    split
    · exact keepsOpt_some (finish_keeps (readMem_keeps h ..) ..)
    · exact keepsOpt_ite (keepsOpt_some (finish_keeps (upd_keeps (readMem_keeps h ..)) ..)) (keepsOpt_some (finish_keeps (readMem_keeps h ..) ..)))

theorem laneRecords_keeps {s : State} (h : BlockInv s) (k : Nat) : BlockInv (laneRecords k s).1 := by
  induction k generalizing s with
  | zero => exact h
  | succ k ih => exact ih (takeFree_keeps h)

theorem clearPc_keeps {s : State} (h : BlockInv s) (st pc : Nat) : BlockInv (clearPc s st pc) :=
  ⟨wf_filter _ h.bytes, h.csr, h.queues, h.children⟩

theorem bodyMargin_keeps {s : State} (h : BlockInv s) (c : Cmd) : KeepsOpt (bodyMargin c s) := by
  unfold bodyMargin
  dsimp only
  exact keepsOpt_ite (keepsOpt_some (finish_keeps h ..)) (keepsOpt_ite (keepsOpt_some (finish_keeps h ..)) (keepsOpt_ite keepsOpt_none
      (keepsOpt_some (complete_keeps (writeMem_keeps (laneRecords_keeps (keeps_ite (clearPc_keeps h ..) h) ..) ..) ..))))

theorem regionMapState_keeps {s : State} (h : BlockInv s) (q qseq : Nat) : BlockInv (regionMapState q qseq s) :=
  hostRow_keeps h _ _ _ _ (fun _ _ t ht => bodyRegionMap_keeps ht _ t)

theorem fillState_keeps {s : State} (h : BlockInv s) (q qseq : Nat) : BlockInv (fillState q qseq s) :=
  hostRow_keeps h _ _ _ _ (fun _ _ t ht => bodyFill_keeps ht _ t)

theorem copyState_keeps {s : State} (h : BlockInv s) (q qseq : Nat) : BlockInv (copyState q qseq s) :=
  hostRow_keeps h _ _ _ _ (fun _ _ t ht => bodyCopy_keeps ht _ t)

theorem windowMapState_keeps {s : State} (h : BlockInv s) (q qseq : Nat) : BlockInv (windowMapState q qseq s) :=
  hostRow_keeps h _ _ _ _ (fun _ _ t ht => bodyWindowMap_keeps ht _ t)

theorem marginState_keeps {s : State} (h : BlockInv s) (q qseq : Nat) : BlockInv (marginState q qseq s) :=
  hostRow_keeps h _ _ _ _ (fun _ _ t ht => bodyMargin_keeps ht _ t)

theorem qpPut_keeps {s : State} (h : BlockInv s) (qpn : Nat) (q : Qp) : BlockInv (qpPut s qpn q) := by
  unfold qpPut
  dsimp only
  exact upd_keeps h

theorem sendRoce_keeps {s : State} (h : BlockInv s) (p : Packet) (q : Qp) (op psn flags : Nat) (body : List Byte) : BlockInv
    (sendRoce s p q op psn flags body) := by
  unfold sendRoce
  dsimp only
  split
  · exact h
  · exact upd_keeps h

theorem sendAeth_keeps {s : State} (h : BlockInv s) (p : Packet) (q : Qp) (psn syn : Nat) : BlockInv (sendAeth s p q psn syn) :=
  sendRoce_keeps h ..

theorem congest_keeps {s : State} (h : BlockInv s) (p : Packet) (qpn : Nat) (q : Qp) : BlockInv (congest s p qpn q).1 := by
  unfold congest
  dsimp only
  exact keeps_ite_pair (sendRoce_keeps (qpPut_keeps h ..) ..) h

theorem roceRow_keeps {s : State} (h : BlockInv s) (ops : List Nat) (p : Packet) (run : Bth → List Byte → Qp → State → State × Qp × Nat × Option Nat)
    (again : Bth → List Byte → Qp → State → State) (hrun : ∀ b l q t, BlockInv t → BlockInv (run b l q t).1)
    (hagain : ∀ b l q t, BlockInv t → BlockInv (again b l q t)) : BlockInv (roceRow ops p s run again) := by
  unfold roceRow
  split
  · exact keeps_ite (scrCount_keeps (linkErrors_keeps h ..) ..) h
  next b q body _ =>
    have hc : BlockInv (congest (linkErrors s p.port p.link) p b.qpn q).1 := congest_keeps (linkErrors_keeps h ..) ..
    dsimp only
    split
    · have hr := qpPut_keeps (hrun b body (congest (linkErrors s p.port p.link) p b.qpn q).2 _ hc) b.qpn
      split
      · exact sendAeth_keeps (hr _) ..
      · exact hr _
    · exact keeps_ite (hagain _ _ _ _ hc) (sendAeth_keeps hc ..)

theorem ackAgain_keeps {s : State} (h : BlockInv s) (p : Packet) (_h : Bth) (_b : List Byte) (q : Qp) : BlockInv (ackAgain p _h _b q s) :=
  sendAeth_keeps h ..

theorem sendRun_keeps {s : State} (hs : BlockInv s) (p : Packet) (h : Bth) (body : List Byte) (q : Qp) : BlockInv (sendRun p h body q s).1 := by
  unfold sendRun
  dsimp only
  exact keeps_ite_fst hs (keeps_ite_fst hs (keeps_ite_pair hs (keeps_foldl _ (fun _ _ ht => placeEntry_keeps ht ..) _ hs)))

theorem sendState_keeps {s : State} (h : BlockInv s) (p : Packet) : BlockInv (sendState p s) :=
  roceRow_keeps h _ _ _ _ (fun _ _ _ _ ht => sendRun_keeps ht ..) (fun _ _ _ _ ht => ackAgain_keeps ht ..)

theorem writeRun_keeps {s : State} (hs : BlockInv s) (h : Bth) (body : List Byte) (q : Qp) : BlockInv (writeRun h body q s).1 := by
  unfold writeRun
  dsimp only
  exact keeps_ite_fst hs (keeps_ite_fst hs (keeps_ite_fst (writeMem_keeps hs ..) (keeps_ite_pair (writeMem_keeps hs ..) (writeMem_keeps hs ..))))

theorem rdmaWriteState_keeps {s : State} (h : BlockInv s) (p : Packet) : BlockInv (rdmaWriteState p s) :=
  roceRow_keeps h _ _ _ _ (fun _ _ _ _ ht => writeRun_keeps ht ..) (fun _ _ _ _ ht => ackAgain_keeps ht ..)

theorem readResponses_keeps {s : State} (h : BlockInv s) (p : Packet) (q : Qp) (psn : Nat) (b : List Byte) : BlockInv
    (readResponses p q psn b s).1 := by
  unfold readResponses
  dsimp only
  exact keeps_foldl _ (fun _ _ ht => sendRoce_keeps ht ..) _ h

theorem readRun_keeps {s : State} (hs : BlockInv s) (p : Packet) (h : Bth) (body : List Byte) (q : Qp) : BlockInv (readRun p h body q s).1 := by
  unfold readRun
  dsimp only
  exact keeps_ite_fst hs (keeps_ite_fst hs (by
    split
    · exact readMem_keeps hs ..
    · exact readResponses_keeps (readMem_keeps hs ..) ..))

theorem readAgain_keeps {s : State} (hs : BlockInv s) (p : Packet) (h : Bth) (body : List Byte) (q : Qp) : BlockInv (readAgain p h body q s) := by
  unfold readAgain
  dsimp only
  exact keeps_ite hs (by
    split
    · exact sendAeth_keeps (readMem_keeps hs ..) ..
    · exact readResponses_keeps (readMem_keeps hs ..) ..)

theorem rdmaReadRequestState_keeps {s : State} (h : BlockInv s) (p : Packet) : BlockInv (rdmaReadRequestState p s) :=
  roceRow_keeps h _ _ _ _ (fun _ _ _ _ ht => readRun_keeps ht ..) (fun _ _ _ _ ht => readAgain_keeps ht ..)

theorem atomicOperationState_keeps {s : State} (h : BlockInv s) (p : Packet) : BlockInv (atomicOperationState p s) :=
  roceRow_keeps h _ _ _ _ (fun _ _ _ _ ht => ht) (fun _ _ _ _ ht => sendAeth_keeps ht ..)

theorem bodyIdentityRead_keeps {s : State} (h : BlockInv s) (c : Cmd) : KeepsOpt (bodyIdentityRead c s) := by
  unfold bodyIdentityRead
  dsimp only
  split
  · exact keepsOpt_some (finish_keeps h ..)
  · exact keepsOpt_ite (keepsOpt_some (finish_keeps h ..)) (keepsOpt_some (cmdAnswer_keeps h ..))

theorem identityReadState_keeps {s : State} (h : BlockInv s) (q qseq : Nat) : BlockInv (identityReadState q qseq s) :=
  hostRow_keeps h _ _ _ _ (fun _ _ t ht => bodyIdentityRead_keeps ht _ t)

theorem bodyAttest_keeps {s : State} (h : BlockInv s) (c : Cmd) : KeepsOpt (bodyAttest c s) := by
  unfold bodyAttest
  split
  · exact keepsOpt_some (finish_keeps h ..)
  · exact keepsOpt_ite (keepsOpt_some (finish_keeps h ..)) (keepsOpt_some (cmdAnswer_keeps h ..))

theorem attestState_keeps {s : State} (h : BlockInv s) (q qseq : Nat) : BlockInv (attestState q qseq s) :=
  hostRow_keeps h _ _ _ _ (fun _ _ t ht => bodyAttest_keeps ht _ t)

theorem stageMark_keeps {s : State} (h : BlockInv s) (o : Option Nat) : BlockInv (stageMark s o) := by
  unfold stageMark
  split
  · exact csrSetField_keeps (csrSetField_keeps h ..) ..
  · exact csrSetField_keeps (csrSetField_keeps h ..) ..

theorem closeStaging_keeps {s : State} (h : BlockInv s) : BlockInv (closeStaging s) := by
  unfold closeStaging
  dsimp only
  exact stageMark_keeps (upd_keeps h) ..

theorem bodyStageBegin_keeps {s : State} (h : BlockInv s) (c : Cmd) : KeepsOpt (bodyStageBegin c s) := by
  unfold bodyStageBegin
  dsimp only
  exact keepsOpt_ite (keepsOpt_some (finish_keeps h ..)) (keepsOpt_ite (keepsOpt_some (finish_keeps h ..)) (keepsOpt_ite (keepsOpt_some
      (finish_keeps h ..)) (keepsOpt_some (finish_keeps (stageMark_keeps (upd_keeps (keeps_ite (writeBootRec_keeps h ..) h)) ..) ..))))

theorem bodyStageData_keeps {s : State} (h : BlockInv s) (c : Cmd) : KeepsOpt (bodyStageData c s) := by
  unfold bodyStageData
  dsimp only
  exact keepsOpt_ite (keepsOpt_some (finish_keeps h ..)) (keepsOpt_ite (keepsOpt_some (finish_keeps h ..)) (by
    split
    · exact keepsOpt_some (finish_keeps (cmdRead_keeps h ..) ..)
    · exact keepsOpt_some (finish_keeps (upd_keeps (flashWrite_keeps (cmdRead_keeps h ..) ..)) ..)))

theorem reboot_keeps (s : State) : BlockInv (reboot s) := by
  unfold reboot
  exact overReset_keeps (wf_set _ _ (inReset_keeps s true true).csr) (by rfl) (by rfl) (by rfl)

theorem bodyStageFinish_keeps {s : State} (h : BlockInv s) (c : Cmd) : KeepsOpt (bodyStageFinish c s) := by
  unfold bodyStageFinish
  dsimp only
  exact keepsOpt_ite (keepsOpt_some (finish_keeps h ..)) (keepsOpt_ite (keepsOpt_some (finish_keeps h ..)) (keepsOpt_ite (keepsOpt_some
      (finish_keeps (closeStaging_keeps h) ..)) (keepsOpt_some (keeps_ite (reboot_keeps _) (finish_keeps (writeBootRec_keeps
      (closeStaging_keeps h) ..) ..)))))

theorem bodyStageAbort_keeps {s : State} (h : BlockInv s) (c : Cmd) : KeepsOpt (bodyStageAbort c s) :=
  keepsOpt_ite (keepsOpt_some (finish_keeps h ..)) (keepsOpt_ite (keepsOpt_some (finish_keeps h ..)) (keepsOpt_some (finish_keeps
      (closeStaging_keeps h) ..)))

theorem imageStageBeginState_keeps {s : State} (h : BlockInv s) (q qseq : Nat) : BlockInv (imageStageBeginState q qseq s) :=
  hostRow_keeps h _ _ _ _ (fun _ _ t ht => bodyStageBegin_keeps ht _ t)

theorem imageStageDataState_keeps {s : State} (h : BlockInv s) (q qseq : Nat) : BlockInv (imageStageDataState q qseq s) :=
  hostRow_keeps h _ _ _ _ (fun _ _ t ht => bodyStageData_keeps ht _ t)

theorem imageStageFinishState_keeps {s : State} (h : BlockInv s) (q qseq : Nat) : BlockInv (imageStageFinishState q qseq s) :=
  hostRow_keeps h _ _ _ _ (fun _ _ t ht => bodyStageFinish_keeps ht _ t)

theorem imageStageAbortState_keeps {s : State} (h : BlockInv s) (q qseq : Nat) : BlockInv (imageStageAbortState q qseq s) :=
  hostRow_keeps h _ _ _ _ (fun _ _ t ht => bodyStageAbort_keeps ht _ t)

theorem smbusAnswer_keeps {s : State} (h : BlockInv s) (r : Option (List Byte)) : BlockInv (smbusAnswer s r) := by
  unfold smbusAnswer
  dsimp only
  exact upd_keeps h

theorem smbusReadState_keeps {s : State} (h : BlockInv s) (code : Nat) : BlockInv (smbusReadState code s) :=
  smbusAnswer_keeps h ..

theorem smbusWriteState_keeps {s : State} (h : BlockInv s) (_code : Nat) (_data : List Byte) : BlockInv (smbusWriteState _code _data s) :=
  smbusAnswer_keeps h ..

theorem tapInstructionState_keeps {s : State} (h : BlockInv s) (ir : Nat) : BlockInv (tapInstructionState ir s) := by
  unfold tapInstructionState
  dsimp only
  exact upd_keeps h

theorem lockstepDivergenceState_keeps {s : State} (h : BlockInv s) (pc : Nat) : BlockInv (lockstepDivergenceState pc s) := by
  unfold lockstepDivergenceState
  dsimp only
  exact keeps_ite h (upd_keeps (snagRecord_keeps h ..))

end Sys2Proof.Machine
end

section
/-! PROOF. Every step keeps the invariant. -/

namespace Sys2Proof.Machine

/-- An outcome that goes on does so in a state that has the invariant. -/
def KeepsNext (o : Host.Outcome State Fault Refusal) : Prop := ∀ t, o = .next t → BlockInv t

theorem keepsNext_next {s : State} (h : BlockInv s) : KeepsNext (.next s) := fun _ e => Host.Outcome.next.inj e ▸ h

theorem exec_keeps {s : State} (h : BlockInv s) (i : Instr) : KeepsNext (exec i s) :=
  match i with
  | .identify .. => keepsNext_next (identifyState_keeps h ..)
  | .readCsr .. => keepsNext_next (readCsrState_keeps h ..)
  | .writeCsr .. => keepsNext_next (writeCsrState_keeps h ..)
  | .queueSetup .. => keepsNext_next (queueSetupState_keeps h ..)
  | .queueSetupQp .. => keepsNext_next (queueSetupQpState_keeps h ..)
  | .jobOpen .. => keepsNext_next (jobOpenState_keeps h ..)
  | .jobClose .. => keepsNext_next (jobCloseState_keeps h ..)
  | .regionMap .. => keepsNext_next (regionMapState_keeps h ..)
  | .fill .. => keepsNext_next (fillState_keeps h ..)
  | .copy .. => keepsNext_next (copyState_keeps h ..)
  | .windowMap .. => keepsNext_next (windowMapState_keeps h ..)
  | .stencilLoad .. => keepsNext_next (stencilLoadState_keeps h ..)
  | .streamStart .. => keepsNext_next (streamStartState_keeps h ..)
  | .streamStop .. => keepsNext_next (streamStopState_keeps h ..)
  | .streamResume .. => keepsNext_next (streamResumeState_keeps h ..)
  | .run .. => keepsNext_next (runState_keeps h ..)
  | .runLevel .. => keepsNext_next (runLevelState_keeps h ..)
  | .stepBegin .. => keepsNext_next (stepBeginState_keeps h ..)
  | .stepSeam .. => keepsNext_next (stepSeamState_keeps h ..)
  | .stepCommit .. => keepsNext_next (stepCommitState_keeps h ..)
  | .stepSkip .. => keepsNext_next (stepSkipState_keeps h ..)
  | .fenceReached .. => keepsNext_next (fenceReachedState_keeps h ..)
  | .commitVote .. => keepsNext_next (commitVoteState_keeps h ..)
  | .topcoatLoad .. => keepsNext_next (topcoatLoadState_keeps h ..)
  | .update .. => keepsNext_next (updateState_keeps h ..)
  | .updateTakesTensor .. => keepsNext_next (updateTakesTensorState_keeps h ..)
  | .updateComplete .. => keepsNext_next (updateCompleteState_keeps h ..)
  | .topcoatAdd .. => keepsNext_next (topcoatAddState_keeps h ..)
  | .topcoatSub .. => keepsNext_next (topcoatSubState_keeps h ..)
  | .topcoatMul .. => keepsNext_next (topcoatMulState_keeps h ..)
  | .topcoatFma .. => keepsNext_next (topcoatFmaState_keeps h ..)
  | .topcoatDiv .. => keepsNext_next (topcoatDivState_keeps h ..)
  | .topcoatSqrt .. => keepsNext_next (topcoatSqrtState_keeps h ..)
  | .topcoatRsqrt .. => keepsNext_next (topcoatRsqrtState_keeps h ..)
  | .topcoatMax .. => keepsNext_next (topcoatMaxState_keeps h ..)
  | .topcoatMin .. => keepsNext_next (topcoatMinState_keeps h ..)
  | .topcoatAbs .. => keepsNext_next (topcoatAbsState_keeps h ..)
  | .topcoatNeg .. => keepsNext_next (topcoatNegState_keeps h ..)
  | .topcoatSign .. => keepsNext_next (topcoatSignState_keeps h ..)
  | .topcoatClamp .. => keepsNext_next (topcoatClampState_keeps h ..)
  | .topcoatLdk .. => keepsNext_next (topcoatLdkState_keeps h ..)
  | .topcoatMulk .. => keepsNext_next (topcoatMulkState_keeps h ..)
  | .topcoatAddk .. => keepsNext_next (topcoatAddkState_keeps h ..)
  | .topcoatFmak .. => keepsNext_next (topcoatFmakState_keeps h ..)
  | .topcoatRowacc .. => keepsNext_next (topcoatRowaccState_keeps h ..)
  | .topcoatColacc .. => keepsNext_next (topcoatColaccState_keeps h ..)
  | .topcoatLdrow .. => keepsNext_next (topcoatLdrowState_keeps h ..)
  | .topcoatLdcol .. => keepsNext_next (topcoatLdcolState_keeps h ..)
  | .topcoatLdrsum .. => keepsNext_next (topcoatLdrsumState_keeps h ..)
  | .topcoatPhase .. => keepsNext_next (topcoatPhaseState_keeps h ..)
  | .topcoatEnd .. => keepsNext_next (topcoatEndState_keeps h ..)
  | .reduceScatter .. => keepsNext_next (reduceScatterState_keeps h ..)
  | .allGather .. => keepsNext_next (allGatherState_keeps h ..)
  | .allReduce .. => keepsNext_next (allReduceState_keeps h ..)
  | .broadcast .. => keepsNext_next (broadcastState_keeps h ..)
  | .allToAll .. => keepsNext_next (allToAllState_keeps h ..)
  | .permute .. => keepsNext_next (permuteState_keeps h ..)
  | .permuteVote .. => keepsNext_next (permuteVoteState_keeps h ..)
  | .mapSet .. => keepsNext_next (mapSetState_keeps h ..)
  | .mapSetRemap .. => keepsNext_next (mapSetRemapState_keeps h ..)
  | .acquire .. => keepsNext_next (acquireState_keeps h ..)
  | .reparent .. => keepsNext_next (reparentState_keeps h ..)
  | .root .. => keepsNext_next (rootState_keeps h ..)
  | .launchAt .. => keepsNext_next (launchAtState_keeps h ..)
  | .plumbRead .. => keepsNext_next (plumbReadState_keeps h ..)
  | .patchTest .. => keepsNext_next (patchTestState_keeps h ..)
  | .snagRead .. => keepsNext_next (snagReadState_keeps h ..)
  | .retire .. => keepsNext_next (retireState_keeps h ..)
  | .replay .. => keepsNext_next (replayState_keeps h ..)
  | .takeover .. => keepsNext_next (takeoverState_keeps h ..)
  | .mirrorCfg .. => keepsNext_next (mirrorCfgState_keeps h ..)
  | .telSample .. => keepsNext_next (telSampleState_keeps h ..)
  | .clockSelect .. => keepsNext_next (clockSelectState_keeps h ..)
  | .gate .. => keepsNext_next (gateState_keeps h ..)
  | .clkoutCfg .. => keepsNext_next (clkoutCfgState_keeps h ..)
  | .powerCfg .. => keepsNext_next (powerCfgState_keeps h ..)
  | .margin .. => keepsNext_next (marginState_keeps h ..)
  | .attest .. => keepsNext_next (attestState_keeps h ..)
  | .identityRead .. => keepsNext_next (identityReadState_keeps h ..)
  | .imageStageBegin .. => keepsNext_next (imageStageBeginState_keeps h ..)
  | .imageStageData .. => keepsNext_next (imageStageDataState_keeps h ..)
  | .imageStageFinish .. => keepsNext_next (imageStageFinishState_keeps h ..)
  | .imageStageAbort .. => keepsNext_next (imageStageAbortState_keeps h ..)
  | .cmd .. => keepsNext_next (cmdState_keeps h ..)
  | .send .. => keepsNext_next (sendState_keeps h ..)
  | .put .. => keepsNext_next (putState_keeps h ..)
  | .get .. => keepsNext_next (getState_keeps h ..)
  | .acc .. => keepsNext_next (accState_keeps h ..)
  | .getReply .. => keepsNext_next (getReplyState_keeps h ..)
  | .ack .. => keepsNext_next (ackState_keeps h ..)
  | .nack .. => keepsNext_next (nackState_keeps h ..)
  | .syncRequest .. => keepsNext_next (syncRequestState_keeps h ..)
  | .syncResponse .. => keepsNext_next (syncResponseState_keeps h ..)
  | .rdmaWrite .. => keepsNext_next (rdmaWriteState_keeps h ..)
  | .rdmaReadRequest .. => keepsNext_next (rdmaReadRequestState_keeps h ..)
  | .arpRequest .. => keepsNext_next (arpRequestState_keeps h ..)
  | .neighbourSolicitation .. => keepsNext_next (neighbourSolicitationState_keeps h ..)
  | .icmpEchoRequest .. => keepsNext_next (icmpEchoRequestState_keeps h ..)
  | .pauseFrame .. => keepsNext_next (pauseFrameState_keeps h ..)
  | .portUp .. => keepsNext_next (portUpState_keeps h ..)
  | .portDown .. => keepsNext_next (portDownState_keeps h ..)
  | .packetRetry .. => keepsNext_next (packetRetryState_keeps h ..)
  | .operationTimeout .. => keepsNext_next (operationTimeoutState_keeps h ..)
  | .channelEviction .. => keepsNext_next (channelEvictionState_keeps h ..)
  | .ready .. => keepsNext_next (readyState_keeps h ..)
  | .go .. => keepsNext_next (goState_keeps h ..)
  | .done .. => keepsNext_next (doneState_keeps h ..)
  | .collectiveData .. => keepsNext_next (collectiveDataState_keeps h ..)
  | .collectiveTimeout .. => keepsNext_next (collectiveTimeoutState_keeps h ..)
  | .lathCellArrival .. => keepsNext_next (lathCellArrivalState_keeps h ..)
  | .addAssemblyTimeout .. => keepsNext_next (addAssemblyTimeoutState_keeps h ..)
  | .cellAck .. => keepsNext_next (cellAckState_keeps h ..)
  | .cellReply .. => keepsNext_next (cellReplyState_keeps h ..)
  | .cellNack .. => keepsNext_next (cellNackState_keeps h ..)
  | .lathParcelRetry .. => keepsNext_next (lathParcelRetryState_keeps h ..)
  | .allStop .. => keepsNext_next (allStopState_keeps h ..)
  | .mergeHoldExpiry .. => keepsNext_next (mergeHoldExpiryState_keeps h ..)
  | .sectorGrant .. => keepsNext_next (sectorGrantState_keeps h ..)
  | .capacityAccess .. => keepsNext_next (capacityAccessState_keeps h ..)
  | .refresh .. => keepsNext_next (refreshState_keeps h ..)
  | .patrolScrub .. => keepsNext_next (patrolScrubState_keeps h ..)
  | .pseudoChannelRetirement .. => keepsNext_next (pseudoChannelRetirementState_keeps h ..)
  | .hawkMigration .. => keepsNext_next (hawkMigrationState_keeps h ..)
  | .baseOp .. => keepsNext_next (baseOpState_keeps h ..)
  | .stride .. => keepsNext_next (strideState_keeps h ..)
  | .loopOp .. => keepsNext_next (loopOpState_keeps h ..)
  | .endl .. => keepsNext_next (endlState_keeps h ..)
  | .move .. => keepsNext_next (moveState_keeps h ..)
  | .scatterAdd .. => keepsNext_next (scatterAddState_keeps h ..)
  | .waitp .. => keepsNext_next (waitpState_keeps h ..)
  | .waitt .. => keepsNext_next (waittState_keeps h ..)
  | .waitc .. => keepsNext_next (waitcState_keeps h ..)
  | .signal .. => keepsNext_next (signalState_keeps h ..)
  | .sett .. => keepsNext_next (settState_keeps h ..)
  | .peer .. => keepsNext_next (peerState_keeps h ..)
  | .endChan .. => keepsNext_next (endChanState_keeps h ..)
  | .waitpDue .. => keepsNext_next (waitpDueState_keeps h ..)
  | .waitSatisfied .. => keepsNext_next (waitSatisfiedState_keeps h ..)
  | .waitTimeout .. => keepsNext_next (waitTimeoutState_keeps h ..)
  | .loadStage .. => keepsNext_next (loadStageState_keeps h ..)
  | .quantise .. => keepsNext_next (quantiseState_keeps h ..)
  | .multiply .. => keepsNext_next (multiplyState_keeps h ..)
  | .screed .. => keepsNext_next (screedState_keeps h ..)
  | .returnStage .. => keepsNext_next (returnStageState_keeps h ..)
  | .storeStage .. => keepsNext_next (storeStageState_keeps h ..)
  | .stash .. => keepsNext_next (stashState_keeps h ..)
  | .unstash .. => keepsNext_next (unstashState_keeps h ..)
  | .vecCopy .. => keepsNext_next (vecCopyState_keeps h ..)
  | .vecAdd .. => keepsNext_next (vecAddState_keeps h ..)
  | .vecSub .. => keepsNext_next (vecSubState_keeps h ..)
  | .vecMul .. => keepsNext_next (vecMulState_keeps h ..)
  | .act .. => keepsNext_next (actState_keeps h ..)
  | .actBwd .. => keepsNext_next (actBwdState_keeps h ..)
  | .smStats .. => keepsNext_next (smStatsState_keeps h ..)
  | .smNorm .. => keepsNext_next (smNormState_keeps h ..)
  | .smBwdSum .. => keepsNext_next (smBwdSumState_keeps h ..)
  | .smBwd .. => keepsNext_next (smBwdState_keeps h ..)
  | .lnStats .. => keepsNext_next (lnStatsState_keeps h ..)
  | .rmsStats .. => keepsNext_next (rmsStatsState_keeps h ..)
  | .normApply .. => keepsNext_next (normApplyState_keeps h ..)
  | .normBwdSum .. => keepsNext_next (normBwdSumState_keeps h ..)
  | .normBwd .. => keepsNext_next (normBwdState_keeps h ..)
  | .topk .. => keepsNext_next (topkState_keeps h ..)
  | .segsum .. => keepsNext_next (segsumState_keeps h ..)
  | .takeTiles .. => keepsNext_next (takeTilesState_keeps h ..)
  | .tileConflict .. => keepsNext_next (tileConflictState_keeps h ..)
  | .runComplete .. => keepsNext_next (runCompleteState_keeps h ..)
  | .passMismatchDecision .. => keepsNext_next (passMismatchDecisionState_keeps h ..)
  | .arrayEventDecision .. => keepsNext_next (arrayEventDecisionState_keeps h ..)
  | .patchTestDue .. => keepsNext_next (patchTestDueState_keeps h ..)
  | .patchTestComplete .. => keepsNext_next (patchTestCompleteState_keeps h ..)
  | .mirrorComplete .. => keepsNext_next (mirrorCompleteState_keeps h ..)
  | .snagFlashCommit .. => keepsNext_next (snagFlashCommitState_keeps h ..)
  | .sendSyncRequest .. => keepsNext_next (sendSyncRequestState_keeps h ..)
  | .childEntryExpiry .. => keepsNext_next (childEntryExpiryState_keeps h ..)
  | .holdoverEntry .. => keepsNext_next (holdoverEntryState_keeps h ..)
  | .unlockedEntry .. => keepsNext_next (unlockedEntryState_keeps h ..)
  | .launch .. => keepsNext_next (launchState_keeps h ..)
  | .launchAtDue .. => keepsNext_next (launchAtDueState_keeps h ..)
  | .windowStart .. => keepsNext_next (windowStartState_keeps h ..)
  | .windowEnd .. => keepsNext_next (windowEndState_keeps h ..)
  | .plumbAlignedPoint .. => keepsNext_next (plumbAlignedPointState_keeps h ..)
  | .sagSample .. => keepsNext_next (sagSampleState_keeps h ..)
  | .s5QuiesceEnd .. => keepsNext_next (s5QuiesceEndState_keeps h ..)
  | .droopN .. => keepsNext_next (droopNState_keeps h ..)
  | .shedReturn .. => keepsNext_next (shedReturnState_keeps h ..)
  | .railOutOfWindow .. => keepsNext_next (railOutOfWindowState_keeps h ..)
  | .regulatorPoll .. => keepsNext_next (regulatorPollState_keeps h ..)
  | .avsSetpointMove .. => keepsNext_next (avsSetpointMoveState_keeps h ..)
  | .powerCap .. => keepsNext_next (powerCapState_keeps h ..)
  | .oscLoss .. => keepsNext_next (oscLossState_keeps h ..)
  | .thermalSample .. => keepsNext_next (thermalSampleState_keeps h ..)
  | .thermalStepDown .. => keepsNext_next (thermalStepDownState_keeps h ..)
  | .thermalStepUp .. => keepsNext_next (thermalStepUpState_keeps h ..)
  | .powerGood .. => keepsNext_next (powerGoodState_keeps h ..)
  | .reset .. => keepsNext_next (resetState_keeps ..)
  | .imageVerified .. => keepsNext_next (imageVerifiedState_keeps h ..)
  | .phaseLimit .. => keepsNext_next (phaseLimitState_keeps h ..)
  | .release .. => keepsNext_next (releaseState_keeps h ..)
  | .smbusRead .. => keepsNext_next (smbusReadState_keeps h ..)
  | .smbusWrite .. => keepsNext_next (smbusWriteState_keeps h ..)
  | .tapInstruction .. => keepsNext_next (tapInstructionState_keeps h ..)
  | .lockstepDivergence .. => keepsNext_next (lockstepDivergenceState_keeps h ..)
  | .droopComparator .. => keepsNext_next (droopComparatorState_keeps h ..)
  | .droopNDeasserted .. => keepsNext_next (droopNDeassertedState_keeps h ..)
  | .fuseLoadEnd .. => keepsNext_next (fuseLoadEndState_keeps h ..)
  | .fixedRailInWindow .. => keepsNext_next (fixedRailInWindowState_keeps h ..)
  | .atomicOperation .. => keepsNext_next (atomicOperationState_keeps h ..)

/-- Settles O4: a tick keeps the invariant, and so does each command, by the lemma on what its row does. -/
theorem stepKeepsInv : Obligations.StepKeepsInv := by
  intro s t h e
  unfold step at e
  split at e
  · exact keepsNext_next (tick_keeps h) t e
  · exact exec_keeps (upd_keeps h) _ t e

end Sys2Proof.Machine
end

section
/-! PROOF. IDENTIFY, READ_CSR and WRITE_CSR. -/

namespace Sys2Proof.Machine

/-! What a run of register reads answers. -/

theorem csrReads_one {s : State} {a : Nat} {f : RegFam} (hf : regAt a = some f) :
    csrReads s a 1 = ([(csrRead s f a).1], (csrRead s f a).2) := by
  simp [csrReads, hf]

/-- The answer of READ_CSR whose operands and address range are in order. -/
theorem bodyReadCsr_answers {s : State} {c : Cmd} {dst : Nat} (hdst : addrField c.body 8 = some dst) (hn : leAt c.body 4 2 ≠ 0)
    (hmax : leAt c.body 4 2 ≤ 256) (hzero : zeroAt c.body 6 2 = true) (halign : leAt c.body 0 4 % 4 = 0)
    (hreg : ∀ i, i < leAt c.body 4 2 → (regAt (leAt c.body 0 4 + 4 * i)).isSome = true) (hsafe : inSafe s = false)
    (hrange : 2 < leAt c.body 4 2 → rangeOk s dst (4 * leAt c.body 4 2) = true) :
    bodyReadCsr c s = some
      (let r := csrReads s (leAt c.body 0 4) (leAt c.body 4 2)
       if leAt c.body 4 2 ≤ 2 then complete r.2 c stOk 0 (r.1.flatMap (leBytes 4))
       else cmdAnswer r.2 c dst (r.1.flatMap (leBytes 4)) []) := by
  have hnamed : (List.range (leAt c.body 4 2)).all (fun i => (regAt (leAt c.body 0 4 + 4 * i)).isSome) = true :=
    List.all_eq_true.mpr fun i hi => hreg i (List.mem_range.mp hi)
  have hallowed : ¬ (leAt c.body 4 2 = 0 ∨ 256 < leAt c.body 4 2 ∨ (!zeroAt c.body 6 2) = true ∨ leAt c.body 0 4 % 4 ≠ 0 ∨
      (!(List.range (leAt c.body 4 2)).all (fun i => (regAt (leAt c.body 0 4 + 4 * i)).isSome)) = true) := by
    simp [hzero, hnamed, halign, hn, hmax]
  have hcovered : ¬ (2 < leAt c.body 4 2 ∧ (!cmdRangeOk s dst (4 * leAt c.body 4 2)) = true) := by
    rintro ⟨hlong, hout⟩
    simp [cmdRangeOk, hsafe, hrange hlong] at hout
  unfold bodyReadCsr
  simp only [hdst, if_neg hallowed, if_neg hcovered, hsafe, Bool.not_false, Bool.true_or, Bool.not_true, Bool.false_eq_true, if_false]
  split <;> rfl

/-- Settles O13: IDENTIFY answers without reading anything that changes, and READ_CSR by the number of registers it names. -/
theorem identifyAndReadCsrAnswer : Obligations.IdentifyAndReadCsrAnswer := by
  refine ⟨fun s q qseq c h => ?_, fun s q qseq c dst h hzero halign hn hmax hsafe hreg hdst => ?_⟩
  · have ⟨_, hop, _⟩ := h
    exact congrArg Host.Outcome.next (by rw [identifyState, hostRow_begins h (by simp [hop])]; rfl)
  have hanswers {t : State} (hrange : 2 < leAt c.body 4 2 → rangeOk (markBegun s q qseq) dst (4 * leAt c.body 4 2) = true)
      (ht : (let r := csrReads (markBegun s q qseq) (leAt c.body 0 4) (leAt c.body 4 2)
        if leAt c.body 4 2 ≤ 2 then complete r.2 c stOk 0 (r.1.flatMap (leBytes 4))
        else cmdAnswer r.2 c dst (r.1.flatMap (leBytes 4)) []) = t) : exec (.readCsr q qseq) s = .next t :=
    congrArg Host.Outcome.next (hostRow_of_body h rfl (ht ▸ bodyReadCsr_answers hdst hn hmax hzero halign hreg hsafe hrange))
  refine ⟨fun f hone hf => hanswers (by omega) ?_, fun htwo => hanswers (by omega) ?_, fun hlong hrange => hanswers (fun _ => hrange) ?_⟩
  · rw [hone, csrReads_one hf]
    simp [csrRead]
  · rw [htwo]
    rfl
  · simp [hlong]

/-! What a write leaves of a register's word (R8). -/

theorem fieldOf_and (a b hi lo : Nat) : fieldOf (a &&& b) hi lo = fieldOf a hi lo &&& fieldOf b hi lo := by
  rw [fieldOf, fieldOf, fieldOf, Nat.shiftRight_and_distrib, Nat.and_mod_two_pow]

theorem fieldOf_or (a b hi lo : Nat) : fieldOf (a ||| b) hi lo = fieldOf a hi lo ||| fieldOf b hi lo := by
  rw [fieldOf, fieldOf, fieldOf, Nat.shiftRight_or_distrib, Nat.or_mod_two_pow]

/-- A field of a word's complement is the complement of the field. -/
theorem fieldOf_complement {m hi lo : Nat} (hm : m < 2 ^ 32) (hlo : lo ≤ hi) (hhi : hi < 32) :
    fieldOf (2 ^ 32 - 1 - m) hi lo = 2 ^ (hi + 1 - lo) - 1 - fieldOf m hi lo := by
  refine Nat.eq_of_testBit_eq fun i => ?_
  have hlt := fieldOf_lt m hi lo
  rw [show 2 ^ 32 - 1 - m = 2 ^ 32 - (m + 1) by omega, show 2 ^ (hi + 1 - lo) - 1 - fieldOf m hi lo = 2 ^ (hi + 1 - lo) - (fieldOf m hi lo + 1) by omega,
    Nat.testBit_two_pow_sub_succ hlt]
  simp only [fieldOf, Nat.testBit_mod_two_pow, Nat.testBit_shiftRight]
  rw [Nat.testBit_two_pow_sub_succ hm]
  by_cases hi' : i < hi + 1 - lo
  · simp [hi', show lo + i < 32 by omega]
  · simp [hi']

theorem fieldOf_mod_width (a hi lo : Nat) : fieldOf a hi lo % 2 ^ (hi + 1 - lo) = fieldOf a hi lo :=
  Nat.mod_eq_of_lt (fieldOf_lt ..)

/-- The bits a write sets. -/
def setMask (f : RegFam) : Nat := accMask f .rw + accMask f .wo

/-- Whether each field lies in the word, alone in the mask of its access. -/
def fieldsApart (f : RegFam) : Bool :=
  decide (setMask f < 2 ^ 32) && decide (accMask f .w1c < 2 ^ 32) && f.fields.all fun x =>
    decide (x.lo ≤ x.hi) && decide (x.hi < 32)
      && fieldOf (setMask f) x.hi x.lo == (if x.acc = .rw ∨ x.acc = .wo then 2 ^ (x.hi + 1 - x.lo) - 1 else 0)
      && fieldOf (accMask f .w1c) x.hi x.lo == (if x.acc = .w1c then 2 ^ (x.hi + 1 - x.lo) - 1 else 0)

theorem regFams_apart : regFams.all fieldsApart = true := by decide +kernel

theorem fieldOf_writeWord {f : RegFam} (hf : f ∈ regFams) {x : RegField} (hx : x ∈ f.fields) (old v : Nat) :
    fieldOf (writeWord f old v) x.hi x.lo =
      (if x.acc = .rw ∨ x.acc = .wo then fieldOf v x.hi x.lo else fieldOf old x.hi x.lo) &&&
        (2 ^ (x.hi + 1 - x.lo) - 1 - if x.acc = .w1c then fieldOf v x.hi x.lo else 0) := by
  have hapart := List.all_eq_true.mp regFams_apart f hf
  simp only [fieldsApart, Bool.and_eq_true, decide_eq_true_eq, List.all_eq_true, beq_iff_eq] at hapart
  obtain ⟨⟨hset, hclear⟩, hfields⟩ := hapart
  obtain ⟨⟨⟨hlo, hhi⟩, hsetField⟩, hclearField⟩ := hfields x hx
  have hcleared : v &&& accMask f .w1c < 2 ^ 32 := Nat.and_lt_two_pow v hclear
  rw [writeWord, ← setMask]
  simp only [fieldOf_and, fieldOf_or, fieldOf_complement hset hlo hhi, fieldOf_complement hcleared hlo hhi, hsetField, hclearField]
  cases x.acc <;> simp [fieldOf_mod_width]

/-- Settles O14: the checks a write passes give its outcome, and the masks of a register's fields lie apart. -/
theorem writeCsrByField : Obligations.WriteCsrByField := by
  refine ⟨fun s q qseq c h => ?_, fun f hf x hx old v _ _ => ?_⟩
  · have hwrites {st : Nat} {t : State} (hr : csrWrite (markBegun s q qseq) (leAt c.body 0 4) (leAt c.body 4 4) = (st, t)) :
        exec (.writeCsr q qseq) s = .next (finish t c st) :=
      congrArg Host.Outcome.next (hostRow_of_body h rfl (by rw [bodyWriteCsr, hr]))
    refine ⟨fun f hreg hw hring hcheck => hwrites ?_, fun f hreg hw => hwrites ?_, fun hreg => hwrites ?_⟩
    · simp only [csrWrite, hreg, hw, hcheck, hring, Bool.not_true, Bool.false_eq_true, if_false]
    · simp only [csrWrite, hreg, hw, Bool.not_false, if_true]
    · simp only [csrWrite, hreg]
  · rw [fieldOf_writeWord hf hx]
    refine ⟨fun hacc => ?_, fun hacc => ?_, fun hacc => ?_⟩
    · simp [hacc, fieldOf_mod_width]
    · obtain hacc | hacc := hacc <;> simp [hacc, fieldOf_mod_width]
    · simp [hacc]

end Sys2Proof.Machine
end

section
/-! PROOF. QUEUE_SETUP. -/

namespace Sys2Proof.Machine

theorem queueSetupCheck_queue {s : State} {c : Cmd} (h : queueSetupCheck s c = none) : leAt c.body 1 1 ≤ 7 := by
  have hgood := not_of_ite_some_eq_none h
  push Not at hgood
  obtain ⟨-, hqueue, -⟩ := hgood
  exact hqueue

/-- The rings of the queue moved, and no other queue's. -/
theorem queueAt_moveQueue {s : State} {q : Nat} (hq : q < s.queues.length) (d ring cq p : Nat) :
    queueAt (moveQueue s q d ring cq) p =
      if p = q then { queue0 with depthLog2 := d, inHub := false, ring := ring, cq := cq, launchHold := (queueAt s q).launchHold }
      else queueAt s p := by
  rw [moveQueue, queueAt_of_queues (writeMem_queues ..), queueAt_put]
  simp [hq]

theorem moveQueue_clean {s : State} (h : CleanMem s) (q d ring cq a : Nat) :
    memByte (moveQueue s q d ring cq) a = if cq ≤ a ∧ a < cq + 8 then 0 else memByte s a := by
  have hput (x : Queue) : CleanMem (queuePut s q x) := h
  rw [moveQueue, writeMem_clean (hput _)]
  dsimp only
  rw [memByte_store, List.length_replicate]
  split
  · next hin => rw [List.getElem?_replicate_of_lt (by omega), Option.getD_some]
  · rfl

/-- Settles O15: a queue's rings are moved by one write of its record, and a context by one of the queue pairs' table. -/
theorem queueSetupMovesRingsAndContexts : Obligations.QueueSetupMovesRingsAndContexts := by
  refine ⟨fun s q qseq c h hkind hcheck hlength => ?_, fun s q qseq c h hkind hcheck => ?_⟩
  · have hqueue : leAt c.body 1 1 < (markBegun s q qseq).queues.length := by have := queueSetupCheck_queue hcheck; omega
    have hat := queueAt_moveQueue hqueue (leAt c.body 2 1) (leAt c.body 8 8) (leAt c.body 16 8)
    have hself := (hat (leAt c.body 1 1)).trans (if_pos rfl)
    have ⟨_, hop, _⟩ := h
    refine ⟨_, congrArg Host.Outcome.next (hostRow_of_selected h (by simp [hop, hkind]) (refuseOr_passed _ c _ hcheck)),
      by rw [hself], by rw [hself], by rw [hself], by rw [hself], by rw [hself]; rfl, by rw [hself]; rfl, by rw [hself]; rfl,
      by rw [hself]; rfl, fun p hp => (hat p).trans (if_neg hp), (queuePut_units (.refl _) ..).write .., fun hclean => ?_⟩
    have hbyte := moveQueue_clean hclean (leAt c.body 1 1) (leAt c.body 2 1) (leAt c.body 8 8) (leAt c.body 16 8)
    refine ⟨List.eq_replicate_iff.mpr ⟨memBytes_length .., fun b hb => ?_⟩, fun a ha => ?_⟩
    · obtain ⟨i, hi, rfl⟩ := List.mem_map.mp hb
      rw [hbyte, if_pos (by have := List.mem_range.mp hi; omega)]
    · rw [hbyte, if_neg (by omega)]
  · have ⟨_, hop, _⟩ := h
    refine ⟨_, congrArg Host.Outcome.next (hostRow_of_selected h (by simp [hop, hkind]) (refuseOr_passed _ c _ hcheck)), rfl, ?_⟩
    refine ⟨fun d k hk => ?_, fun hoff d => ?_, fun hon d => ?_⟩
    · dsimp only
      split
      · rw [stGet_put, if_neg hk]
      · rw [stGet_erase, if_neg hk]
    · simp [hoff, stGet_erase]
    · simp [hon, stGet_put]

end Sys2Proof.Machine
end

section
/-! PROOF. JOB_OPEN and JOB_CLOSE. -/

namespace Sys2Proof.Machine

/-! Registers of states that share a register file. -/

theorem csrGet_of_csr {s t : State} (h : t.csr = s.csr) (a : Nat) : csrGet t a = csrGet s a := by rw [csrGet, csrGet, h]

theorem csrField_of_csr {s t : State} (h : t.csr = s.csr) (a hi lo : Nat) : csrField t a hi lo = csrField s a hi lo :=
  csrField_congr (csrGet_of_csr h a) hi lo

/-! What opening a job puts into the registers. -/

/-- The registers opening a job writes. -/
def openRegs (s : State) (b : List Byte) : State :=
  csrSetField (csrSetField (csrPut64 (csrPut s rHubJob (1 <<< 31 + leAt b 2 1 <<< 16 + leAt b 0 2)) rHubStepCountLo (leAt b 8 8))
    rHubStepState 2 0 sCommitted) rHubStepState 11 8 0

theorem openJob_csr (s : State) (b : List Byte) (ts : List Tensor) : (openJob s b ts).csr = (openRegs s b).csr := by
  simp only [openJob, openRegs]

/-- HUB_JOB of an open job: its bit 31, its count of clusters and its ID. -/
theorem hubJob_openJob (s : State) (b : List Byte) (ts : List Tensor) :
    csrGet (openJob s b ts) rHubJob = (1 <<< 31 + leAt b 2 1 <<< 16 + leAt b 0 2) % 2 ^ 32 := by
  rw [csrGet_of_csr (openJob_csr s b ts), openRegs, csrGet_setField_other _ _ _ _ (by decide), csrGet_setField_other _ _ _ _ (by decide),
    csrPut64, csrGet_put_other _ _ _ _ (by decide), csrGet_put_other _ _ _ _ (by decide), csrGet_put_self]

theorem stepsOf_openJob (s : State) (b : List Byte) (ts : List Tensor) : stepsOf (openJob s b ts) = leAt b 8 8 := by
  have hsteps := leAt_lt b 8 8
  rw [stepsOf, csrGet64, csrGet_of_csr (openJob_csr s b ts), csrGet_of_csr (openJob_csr s b ts), openRegs,
    csrGet_setField_other _ _ _ _ (by decide), csrGet_setField_other _ _ _ _ (by decide),
    csrGet_setField_other _ _ _ _ (by decide), csrGet_setField_other _ _ _ _ (by decide), ← csrGet64, csrGet64_put64]
  exact Nat.mod_eq_of_lt hsteps

theorem stepState_openJob (s : State) (b : List Byte) (ts : List Tensor) : stepState (openJob s b ts) = sCommitted := by
  rw [stepState, csrField_of_csr (openJob_csr s b ts), openRegs, csrField_setField_disjoint _ _ _ _ _ _ _ (by decide) (by decide) (by decide),
    csrField_setField_self _ _ _ _ _ (by decide) (by decide)]
  rfl

theorem lastOutcome_openJob (s : State) (b : List Byte) (ts : List Tensor) : csrField (openJob s b ts) rHubStepState 11 8 = 0 := by
  rw [csrField_of_csr (openJob_csr s b ts), openRegs, csrField_setField_self _ _ _ _ _ (by decide) (by decide), Nat.zero_mod]

theorem openJob_tiles (s : State) (b : List Byte) (ts : List Tensor) : (openJob s b ts).chip.tiles = s.chip.tiles := by
  simp only [openJob, csrPut_chip, csrPut64_chip, csrSetField_chip]

theorem openJob_mem (s : State) (b : List Byte) (ts : List Tensor) : (openJob s b ts).mem = s.mem := by
  simp only [openJob, csrPut_mem, csrPut64_mem, csrSetField_mem]

theorem openJob_queues (s : State) (b : List Byte) (ts : List Tensor) : (openJob s b ts).queues = s.queues := by
  simp only [openJob, csrPut_queues, csrPut64_queues, csrSetField_queues]

theorem openJob_loaded (s : State) (b : List Byte) (ts : List Tensor) :
    (openJob s b ts).job.tensors = ts ∧ (openJob s b ts).chip.recipes = [] := by
  simp only [openJob, and_self]

/-- A job has no more clusters than a die has. -/
theorem jobOpenCheck_clusters {s : State} {c : Cmd} (h : jobOpenCheck s c = none) : leAt c.body 2 1 ≤ 8 := by
  have hgood := not_of_ite_some_eq_none h
  push Not at hgood
  obtain ⟨-, -, hclusters, -⟩ := hgood
  unfold gradeClusters at hclusters
  split at hclusters <;> omega

theorem readTable_units (s : State) (a n : Nat) : SameUnits s (readTable s a n).1 := (SameUnits.refl s).read ..

theorem readTable_queues (s : State) (a n : Nat) : (readTable s a n).1.queues = s.queues := by
  obtain ⟨-, hqueues, -⟩ := readMem_books s a (64 * n)
  exact hqueues

/-! What closing a job leaves. -/

theorem remapMemory_of_unmoved {old new : State} (h : movedGranules old new = []) : remapMemory old new = new := by
  simp [remapMemory, h]

/-- Moving cells changes memory's bytes and errors and nothing else. -/
theorem remapMemory_beside (old new : State) : remapMemory old new = { new with mem := (remapMemory old new).mem } := by
  unfold remapMemory
  dsimp only
  split <;> rfl

/-- The map with every parameter region taken out. -/
def noRegions (s : State) : State := (List.range 64).foldl (fun t n => setPreg t n 0 0 0 0) s

theorem csrGet_clearedPregs (l : List Nat) (s : State) (n : Nat) :
    csrGet (l.foldl (fun t n => setPreg t n 0 0 0 0) s) (rMemPregionLo + 8 * n) = if n ∈ l then 0 else csrGet s (rMemPregionLo + 8 * n) := by
  induction l generalizing s with
  | nil => rfl
  | cons m l ih =>
    have hhi : rMemPregionLo + 8 * n ≠ rMemPregionHi + 8 * m := by unfold rMemPregionLo rMemPregionHi; omega
    rw [List.foldl_cons, ih, setPreg, csrGet_put_other _ _ _ _ hhi, csrGet_put]
    by_cases hn : n = m
    · simp [hn]
    · simp [hn]

/-- Clearing the regions changes registers alone. -/
theorem clearedPregs_beside (l : List Nat) (s : State) :
    l.foldl (fun t n => setPreg t n 0 0 0 0) s = { s with csr := (l.foldl (fun t n => setPreg t n 0 0 0 0) s).csr } := by
  induction l generalizing s with
  | nil => rfl
  | cons m l ih =>
    rw [List.foldl_cons, ih]
    rfl

theorem remapMemory_csr (old new : State) : (remapMemory old new).csr = new.csr := by
  rw [remapMemory_beside]

theorem remapMemory_queues (old new : State) : (remapMemory old new).queues = new.queues := by
  rw [remapMemory_beside]

theorem noRegions_mem (s : State) : (noRegions s).mem = s.mem := by
  rw [noRegions, clearedPregs_beside]

theorem noRegions_queues (s : State) : (noRegions s).queues = s.queues := by
  rw [noRegions, clearedPregs_beside]

/-- The registers closing a job writes after the regions' own. -/
def closeRegs (s : State) : State :=
  csrSetField (csrSetField (csrPut (csrPut s rHubJob 0) rTelRingWrite 0) rHubStepState 2 0 sIdle) rHubStepState 11 6 0

theorem closeRegs_csr {s t : State} (h : t.csr = s.csr) : (closeRegs t).csr = (closeRegs s).csr := by
  simp only [closeRegs, csrSetField, csrPut, csrGet, h]

theorem closeJob_csr (s : State) : (closeJob s).csr = (closeRegs (noRegions s)).csr :=
  have hremapped : (closeJob s).csr = (closeRegs (remapMemory s (noRegions s))).csr := by
    simp only [closeJob, closeRegs, noRegions]
  hremapped.trans (closeRegs_csr (remapMemory_csr ..))

theorem hubJob_closeJob (s : State) : csrGet (closeJob s) rHubJob = 0 := by
  rw [csrGet_of_csr (closeJob_csr s), closeRegs, csrGet_setField_other _ _ _ _ (by decide), csrGet_setField_other _ _ _ _ (by decide),
    csrGet_put_other _ _ _ _ (by decide), csrGet_put_self, Nat.zero_mod]

theorem stepState_closeJob (s : State) : stepState (closeJob s) = sIdle := by
  rw [stepState, csrField_of_csr (closeJob_csr s), closeRegs, csrField_setField_disjoint _ _ _ _ _ _ _ (by decide) (by decide) (by decide),
    csrField_setField_self _ _ _ _ _ (by decide) (by decide)]
  rfl

theorem pregValid_closeJob (s : State) {n : Nat} (hn : n < 64) : pregValid (closeJob s) n = false := by
  have hother {a : Nat} (ha : a < rMemPregionLo ∨ rTelRingWrite ≤ a) : rMemPregionLo + 8 * n ≠ a := by
    unfold rMemPregionLo rTelRingWrite at *
    omega
  have hcleared : csrGet (closeJob s) (rMemPregionLo + 8 * n) = 0 := by
    rw [csrGet_of_csr (closeJob_csr s), closeRegs, csrGet_setField_other _ _ _ _ (hother (by decide)),
      csrGet_setField_other _ _ _ _ (hother (by decide)), csrGet_put_other _ _ _ _ (hother (by decide)),
      csrGet_put_other _ _ _ _ (hother (by decide)), noRegions, csrGet_clearedPregs, if_pos (List.mem_range.mpr hn)]
  rw [pregValid, csrField, hcleared]
  rfl

theorem closeJob_queues (s : State) : (closeJob s).queues = s.queues :=
  have hremapped : (closeJob s).queues = (remapMemory s (noRegions s)).queues := by
    simp only [closeJob, noRegions, csrPut_queues, csrSetField_queues]
  hremapped.trans ((remapMemory_queues ..).trans (noRegions_queues s))

theorem closeJob_emptied (s : State) : (closeJob s).chip.tiles = [] ∧ (closeJob s).job = job0 ∧ (closeJob s).hawk = [] := by
  simp only [closeJob, and_self]

theorem closeJob_mem (s : State) : (closeJob s).mem = { (remapMemory s (noRegions s)).mem with bgHeld := [] } := by
  simp only [closeJob, noRegions, csrPut_mem, csrSetField_mem]

theorem closeJob_qps {s : State} {p : Nat × Qp} (hp : p ∈ (closeJob s).net.qps) : p.2.byJob = false := by
  obtain ⟨-, hkept⟩ := List.mem_filter.mp hp
  simpa using hkept

/-- Settles O16: what a job's opening and closing put into registers is read back field by field, and the rest stands in the records they set. -/
theorem jobOpensAndCloses : Obligations.JobOpensAndCloses := by
  refine ⟨fun s q qseq c ts h hcheck htable => ?_, fun s q qseq c h hjob hzero hbetween hbusy hpermute => ?_⟩
  · have hbody : bodyJobOpen c (markBegun s q qseq) =
        some (finish (openJob (readTable (markBegun s q qseq) (leAt c.body 16 8) (leAt c.body 24 2)).1 c.body ts) c stOk) := by
      simp only [bodyJobOpen, hcheck, htable]
    have hword := hubJob_openJob (readTable (markBegun s q qseq) (leAt c.body 16 8) (leAt c.body 24 2)).1 c.body ts
    have hid := leAt_lt c.body 0 2
    have hclusters := jobOpenCheck_clusters hcheck
    have ⟨_, _, _, hchip, _⟩ := readTable_units (markBegun s q qseq) (leAt c.body 16 8) (leAt c.body 24 2)
    have ⟨hts, hrecipes⟩ := openJob_loaded (readTable (markBegun s q qseq) (leAt c.body 16 8) (leAt c.body 24 2)).1 c.body ts
    refine ⟨_, congrArg Host.Outcome.next (hostRow_of_body h rfl hbody), ?_, ?_, ?_, stepsOf_openJob .., stepState_openJob ..,
      lastOutcome_openJob .., hts, hrecipes,
      (openJob_tiles ..).trans (congrArg _ hchip), openJob_mem .., (openJob_queues ..).trans (readTable_queues ..)⟩
    · rw [jobOpen?, csrField, hword, fieldOf]
      simp only [Nat.shiftLeft_eq, Nat.shiftRight_eq_div_pow, beq_iff_eq]
      omega
    · rw [jobId, csrField, hword, fieldOf]
      simp only [Nat.shiftLeft_eq, Nat.shiftRight_eq_div_pow]
      omega
    · rw [csrField, hword, fieldOf]
      simp only [Nat.shiftLeft_eq, Nat.shiftRight_eq_div_pow]
      omega
  · have hbody : bodyJobClose c (markBegun s q qseq) = some (finish (closeJob (markBegun s q qseq)) c stOk) := by
      simp [bodyJobClose, hjob, hzero, hbetween, hbusy, hpermute]
    have ⟨htiles, hjob0, hhawk⟩ := closeJob_emptied (markBegun s q qseq)
    refine ⟨_, congrArg Host.Outcome.next (hostRow_of_body h rfl hbody), ?_, stepState_closeJob .., htiles, hjob0, hhawk,
      fun n hn => pregValid_closeJob _ hn, fun p hp => closeJob_qps hp, closeJob_queues .., ?_⟩
    · rw [jobOpen?, csrField, hubJob_closeJob]
      rfl
    · rintro r rfl
      refine ⟨closeJob_mem .., fun hunmoved a => ?_⟩
      rw [memByte, closeJob_mem, noRegions, remapMemory_of_unmoved hunmoved, ← noRegions, noRegions_mem]
      rfl

end Sys2Proof.Machine
end

section
/-! PROOF. The map commands, FILL and COPY. -/

namespace Sys2Proof.Machine

/-! What the map commands come to once their operands are in order. -/

/-- The entries of a list of `n` records of 32 bytes. -/
def mapEntries (bytes : List Byte) (n : Nat) : List (List Byte) := (List.range n).map (fun i => sliceB bytes (32 * i) 32)

theorem bodyRegionMap_reads {s r : State} {c : Cmd} {bytes : List Byte} (hbetween : betweenSteps s = true) (ha : leAt c.body 0 8 < 2 ^ 42)
    (hn : leAt c.body 8 2 ≠ 0) (hmax : leAt c.body 8 2 ≤ 256) (hzero : zeroAt c.body 10 6 = true)
    (hrange : rangeOk s (leAt c.body 0 8) (32 * leAt c.body 8 2) = true)
    (hread : readMem s (leAt c.body 0 8) (32 * leAt c.body 8 2) = (r, some bytes)) :
    bodyRegionMap c s = match applyRegions (mapEntries bytes (leAt c.body 8 2)) r with
      | .error st => some (finish r c st)
      | .ok t => if regionsOk t then some (finish (remapMemory r t) c stOk) else some (finish r c stBadParam) := by
  have hallowed : ¬ (2 ^ 42 ≤ leAt c.body 0 8 ∨ leAt c.body 8 2 = 0 ∨ 256 < leAt c.body 8 2 ∨ (!zeroAt c.body 10 6) = true
      ∨ (!rangeOk s (leAt c.body 0 8) (32 * leAt c.body 8 2)) = true) := by
    simp only [hzero, hrange, Bool.not_true, Bool.false_eq_true, or_false]
    omega
  simp only [bodyRegionMap, hbetween, Bool.not_true, Bool.false_eq_true, if_false, if_neg hallowed, hread]
  rfl

theorem bodyWindowMap_reads {s r : State} {c : Cmd} {bytes : List Byte} (ha : leAt c.body 0 8 < 2 ^ 42) (hn : leAt c.body 8 1 ≠ 0)
    (hmax : leAt c.body 8 1 ≤ 64) (hreplace : leAt c.body 9 1 ≤ 1) (hzero : zeroAt c.body 10 6 = true)
    (hrange : rangeOk s (leAt c.body 0 8) (32 * leAt c.body 8 1) = true)
    (hread : readMem s (leAt c.body 0 8) (32 * leAt c.body 8 1) = (r, some bytes)) :
    bodyWindowMap c s =
      let ws := (mapEntries bytes (leAt c.body 8 1)).foldl applyWindow (if leAt c.body 9 1 = 1 then [] else s.job.windows)
      if ((mapEntries bytes (leAt c.body 8 1)).all windowEntryOk && windowsOk ws) = true then
        some (finish { r with job := { r.job with windows := ws } } c stOk)
      else some (finish r c stBadParam) := by
  have hallowed : ¬ (2 ^ 42 ≤ leAt c.body 0 8 ∨ leAt c.body 8 1 = 0 ∨ 64 < leAt c.body 8 1 ∨ 1 < leAt c.body 9 1
      ∨ (!zeroAt c.body 10 6) = true ∨ (!rangeOk s (leAt c.body 0 8) (32 * leAt c.body 8 1)) = true) := by
    simp only [hzero, hrange, Bool.not_true, Bool.false_eq_true, or_false]
    omega
  simp only [bodyWindowMap, if_neg hallowed, hread, Bool.and_eq_true]
  rfl

/-- Settles O17: the whole list is applied to a copy, and the copy is taken or left. -/
theorem mapsWholeOrNothing : Obligations.MapsWholeOrNothing := by
  refine ⟨fun s r q qseq c bytes h hbetween ha hn hmax hzero hrange hread => ?_,
    fun s r q qseq c bytes h ha hn hmax hreplace hzero hrange hread => ?_⟩
  · have hbody := bodyRegionMap_reads hbetween ha hn hmax hzero hrange hread
    have hrow {t : State} (ht : bodyRegionMap c (markBegun s q qseq) = some t) : exec (.regionMap q qseq) s = .next t :=
      congrArg Host.Outcome.next (hostRow_of_body h rfl ht)
    refine ⟨fun t happlied hok => ⟨hrow ?_, remapMemory_of_unmoved⟩, fun t happlied hok => hrow ?_, fun e happlied => hrow ?_⟩
    · rw [hbody, mapEntries, happlied]
      exact if_pos hok
    · rw [hbody, mapEntries, happlied]
      exact if_neg (by simp [hok])
    · rw [hbody, mapEntries, happlied]
  · have hbody := bodyWindowMap_reads ha hn hmax hreplace hzero hrange hread
    have hrow {t : State} (ht : bodyWindowMap c (markBegun s q qseq) = some t) : exec (.windowMap q qseq) s = .next t :=
      congrArg Host.Outcome.next (hostRow_of_body h rfl ht)
    refine ⟨_, _, rfl, fun hok => ⟨hrow (hbody.trans (if_pos hok)), rfl⟩, fun hok => hrow (hbody.trans (if_neg ?_))⟩
    exact fun hyes => Bool.false_ne_true (hok.symm.trans hyes)

/-! FILL and COPY. -/

/-- A list repeated whole is read modulo its length. -/
theorem getElem?_repeated {α : Type} {l : List α} {k n i : Nat} (hl : l.length = n) (hi : i < k * n) :
    (List.replicate k l).flatten[i]? = l[i % n]? := by
  induction k generalizing i with
  | zero => omega
  | succ k ih =>
    rw [List.replicate_succ, List.flatten_cons]
    by_cases hin : i < n
    · rw [List.getElem?_append_left (hl ▸ hin), Nat.mod_eq_of_lt hin]
    · rw [List.getElem?_append_right (by omega), hl, ih (by rw [Nat.add_one_mul] at hi; omega), Nat.mod_eq_sub_mod (a := i) (by omega)]

/-- The bytes FILL writes. -/
def fillBytes (c : Cmd) : List Byte := (List.replicate (leAt c.body 8 8 / 32) (sliceB c.body 16 32)).flatten

theorem fillBytes_length {c : Cmd} (h : leAt c.body 8 8 % 32 = 0) : (fillBytes c).length = leAt c.body 8 8 := by
  simp only [fillBytes, List.length_flatten, List.map_replicate, List.sum_replicate, sliceB_length, smul_eq_mul]
  omega

theorem bodyFill_writes {s : State} {c : Cmd} (ha : leAt c.body 0 8 < 2 ^ 42) (halign : leAt c.body 8 8 % 32 = 0)
    (hmax : leAt c.body 8 8 ≤ 2 ^ 42) (hrange : rangeOk s (leAt c.body 0 8) (leAt c.body 8 8) = true) (hwait : lowerWaits s 2 = false) :
    bodyFill c s = some (finish (writeMem s (leAt c.body 0 8) (fillBytes c)).1 c
      (if (writeMem s (leAt c.body 0 8) (fillBytes c)).2 then stOk else stFault)) := by
  have hallowed : ¬ (2 ^ 42 ≤ leAt c.body 0 8 ∨ leAt c.body 8 8 % 32 ≠ 0 ∨ 2 ^ 42 < leAt c.body 8 8
      ∨ (!rangeOk s (leAt c.body 0 8) (leAt c.body 8 8)) = true) := by
    simp only [hrange, Bool.not_true, Bool.false_eq_true, or_false]
    omega
  simp only [bodyFill, if_neg hallowed, hwait, Bool.false_eq_true, if_false]
  rfl

/-- What COPY comes to once its operands are in order. -/
theorem bodyCopy_moves {s : State} {c : Cmd} (ha : leAt c.body 0 8 < 2 ^ 42) (hd : leAt c.body 8 8 < 2 ^ 42) (hmax : leAt c.body 16 8 ≤ 2 ^ 42)
    (hzero : zeroAt c.body 25 7 = true) (hsource : rangeOk s (leAt c.body 0 8) (leAt c.body 16 8) = true)
    (hdest : rangeOk s (leAt c.body 8 8) (leAt c.body 16 8) = true) :
    bodyCopy c s =
      if lowerWaits s 2 then none
      else
        let r := readMem s (leAt c.body 0 8) (leAt c.body 16 8)
        match r.2 with
        | none => some (finish r.1 c stFault)
        | some b =>
          let w := writeMem r.1 (leAt c.body 8 8) b
          if w.2 then some (finish (tallyBump w.1 32 (leAt c.body 24 1) (leAt c.body 16 8)) c stOk) else some (finish w.1 c stFault) := by
  have hallowed : ¬ (2 ^ 42 ≤ leAt c.body 0 8 ∨ 2 ^ 42 ≤ leAt c.body 8 8 ∨ 2 ^ 42 < leAt c.body 16 8 ∨ (!zeroAt c.body 25 7) = true
      ∨ (!rangeOk s (leAt c.body 0 8) (leAt c.body 16 8)) = true ∨ (!rangeOk s (leAt c.body 8 8) (leAt c.body 16 8)) = true) := by
    simp only [hsource, hdest, hzero, Bool.not_true, Bool.false_eq_true, or_false]
    omega
  simp only [bodyCopy, if_neg hallowed] <;> rfl

/-- Settles O18: one checked read or write of the range decides the status, and on memory without errors it moves the bytes as they stand. -/
theorem fillAndCopyMoveBytes : Obligations.FillAndCopyMoveBytes := by
  refine ⟨fun s q qseq c h ha halign hmax hrange hwait => ?_, fun s q qseq c h ha hd hmax hzero hsource hdest => ?_⟩
  · have hrow : exec (.fill q qseq) s = .next _ := congrArg Host.Outcome.next (hostRow_of_body h rfl (bodyFill_writes ha halign hmax hrange hwait))
    refine ⟨_, hrow, (SameUnits.refl _).write .., fun hclean => ?_⟩
    have hlength := fillBytes_length halign
    have hwritten := writeMem_clean hclean (leAt c.body 0 8) (fillBytes c)
    rw [hwritten]
    rw [hwritten] at hrow
    refine ⟨hrow, fun i hi => ?_, fun a hout => memByte_store_outside _ (by omega)⟩
    rw [memByte_store, if_pos (by omega), Nat.add_sub_cancel_left, fillBytes, getElem?_repeated (sliceB_length ..) (by omega)]
    simp [List.getD_eq_getElem?_getD]
  · have hbody := bodyCopy_moves ha hd hmax hzero hsource hdest
    refine ⟨fun hwait => ?_, fun hwait => ?_⟩
    · have ⟨_, hop, _⟩ := h
      refine congrArg Host.Outcome.next ?_
      rw [copyState, hostRow_begins h (by simp [hop]), hbody, if_pos hwait]
      rfl
    rw [if_neg (by simp [hwait])] at hbody
    have hrow {t : State} (ht : bodyCopy c (markBegun s q qseq) = some t) : exec (.copy q qseq) s = .next t :=
      congrArg Host.Outcome.next (hostRow_of_body h rfl ht)
    refine ⟨fun hclean => ?_, fun hpoisoned => hrow ?_⟩
    · have hlength := memBytes_length (markBegun s q qseq) (leAt c.body 0 8) (leAt c.body 16 8)
      have hstored := memBytes_store (markBegun s q qseq) (leAt c.body 8 8) (memBytes (markBegun s q qseq) (leAt c.body 0 8) (leAt c.body 16 8))
      rw [hlength] at hstored
      simp only [readMem_clean hclean, writeMem_clean hclean, if_true] at hbody
      refine ⟨_, hrow hbody, ?_, hstored, fun a hout => memByte_store_outside _ (by omega)⟩
      have hunits := (SameUnits.refl (markBegun s q qseq)).write (leAt c.body 8 8) (memBytes (markBegun s q qseq) (leAt c.body 0 8) (leAt c.body 16 8))
      rwa [writeMem_clean hclean] at hunits
    · rw [hbody]
      simp only [hpoisoned]

end Sys2Proof.Machine
end

section
/-! SUPPORT. The registers a command's beginning leaves, and memory read back in parts of what was stored. -/

namespace Sys2Proof.Machine

/-- What a command's beginning leaves: no count of a checked access and nothing of HUB_LEDGER_CTRL. -/
def BeginField (a lo : Nat) : Prop := Uncounted a lo ∧ a ≠ rHubLedgerCtrl

theorem logEntry_fields (s : State) (q : Nat) (e : List Byte) : FieldsKept BeginField s (logEntry s q e) := by
  unfold logEntry
  dsimp only
  split
  · exact ((writeMem_fields ..).mono fun _ _ hF => hF.1).after rfl
  · exact (csrSetField_fieldsKept _ _ (by decide) fun l hl => absurd rfl hl.2).after rfl

theorem markBegun_fields (s : State) (q qseq : Nat) : FieldsKept BeginField s (markBegun s q qseq) := by
  unfold markBegun
  dsimp only
  split
  · exact .refl s
  · exact .ite ((logEntry_fields ..).after rfl) (.of_csr rfl)

theorem inSafe_markBegun (s : State) (q qseq : Nat) : inSafe (markBegun s q qseq) = inSafe s := by
  have hkept := (markBegun_fields s q qseq).field rBootStatus 31 28 (by decide) (by unfold BeginField Uncounted Counts; decide)
  rw [inSafe, inSafe, hkept]

theorem cmdWrite_clean {s : State} (hsafe : inSafe s = false) (hclean : CleanMem s) (a : Nat) (bs : List Byte) :
    cmdWrite s a bs = (memStore s a bs, true) := by
  rw [cmdWrite, hsafe, if_neg Bool.false_ne_true, writeMem_clean hclean]

theorem memBytes_getElem? (s : State) (a n i : Nat) : (memBytes s a n)[i]? = if i < n then some (memByte s (a + i)) else none := by
  rw [memBytes, List.getElem?_map]
  split
  · next h => rw [List.getElem?_range h]; rfl
  · next h => rw [List.getElem?_eq_none (by simpa using h)]; rfl

/-- A part of what was stored is read back as that part. -/
theorem memBytes_store_part (s : State) {a o n : Nat} {bs : List Byte} (h : o + n ≤ bs.length) :
    memBytes (memStore s a bs) (a + o) n = (bs.drop o).take n := by
  refine List.ext_getElem? fun i => ?_
  rw [memBytes_getElem?, List.getElem?_take, List.getElem?_drop]
  split
  · next hi => rw [memByte_store, if_pos (by omega), show a + o + i - a = o + i by omega, List.getElem?_eq_getElem (by omega)]; rfl
  · rfl

theorem csrFlag_set (s : State) (a : Nat) {i : Nat} (hi : i < 32) : csrField (csrSetField s a i i 1) a i i = 1 := by
  rw [csrField_setField_self s a i i 1 (Nat.le_refl i) hi, Nat.add_sub_cancel_left]
  rfl

/-- The parts of lists of one length joined are those lists. -/
theorem take_drop_flatten {α : Type} {l : List (List α)} {n : Nat} (hl : ∀ x ∈ l, x.length = n) {i : Nat} (hi : i < l.length) :
    (l.flatten.drop (n * i)).take n = l[i] := by
  induction l generalizing i with
  | nil => exact absurd hi (Nat.not_lt_zero _)
  | cons x l ih =>
    have hx : x.length = n := hl x (List.mem_cons_self ..)
    cases i with
    | zero => simp [← hx]
    | succ i =>
      rw [List.flatten_cons, List.drop_append, hx, List.drop_eq_nil_of_le (by rw [hx, Nat.mul_succ]; omega), List.nil_append,
        show n * (i + 1) - n = n * i by rw [Nat.mul_succ]; omega]
      exact ih (fun y hy => hl y (List.mem_cons_of_mem _ hy)) (Nat.lt_of_succ_lt_succ hi)

theorem length_flatten_of_length {α : Type} {l : List (List α)} {n : Nat} (hl : ∀ x ∈ l, x.length = n) : l.flatten.length = n * l.length := by
  induction l with
  | nil => rfl
  | cons x l ih =>
    rw [List.flatten_cons, List.length_append, hl x (List.mem_cons_self ..), ih fun y hy => hl y (List.mem_cons_of_mem _ hy), List.length_cons,
      Nat.mul_succ, Nat.add_comm]

end Sys2Proof.Machine
end

section
/-! PROOF. The Snag list's commands. -/

namespace Sys2Proof.Machine

/-- The ring records from `start` on. -/
def ringRecords (s : State) (start count : Nat) : List (List Byte) := snagEntries s 1 start count

theorem ringRecords_length (s : State) (start count : Nat) : (ringRecords s start count).length = count := by
  simp [ringRecords, snagEntries]

theorem ringRecords_each {s : State} {start count : Nat} {x : List Byte} (h : x ∈ ringRecords s start count) : x.length = 64 := by
  obtain ⟨i, -, rfl⟩ := List.mem_map.mp h
  exact sliceB_length ..

theorem ringRecords_flatten_length (s : State) (start count : Nat) : (ringRecords s start count).flatten.length = 64 * count := by
  rw [length_flatten_of_length fun _ => ringRecords_each, ringRecords_length]

theorem bodySnagRead_ring {s : State} {c : Cmd} (hwhat : leAt c.body 0 1 = 1) (hzero : zeroAt c.body 1 3 = true) (hzero' : zeroAt c.body 12 4 = true)
    (hcount : leAt c.body 8 4 ≠ 0) (hmax : leAt c.body 8 4 ≤ 16384) (hstart : leAt c.body 4 4 < 16384) (hdst : leAt c.body 16 8 < 2 ^ 42)
    (halign : leAt c.body 16 8 % 64 = 0) (hrange : cmdRangeOk s (leAt c.body 16 8) (64 * leAt c.body 8 4) = true) :
    bodySnagRead c s = some (cmdAnswer s c (leAt c.body 16 8) (ringRecords s (leAt c.body 4 4) (leAt c.body 8 4)).flatten
      (leBytes 4 s.snag.index ++ leBytes 4 (leAt c.body 8 4))) := by
  have hallowed : ¬ (leAt c.body 0 1 = 0 ∨ 3 < leAt c.body 0 1 ∨ (!zeroAt c.body 1 3) = true ∨ (!zeroAt c.body 12 4) = true ∨ leAt c.body 8 4 = 0
      ∨ 16384 < leAt c.body 8 4 ∨ 2 ^ 42 ≤ leAt c.body 16 8 ∨ leAt c.body 16 8 % 64 ≠ 0 ∨ (leAt c.body 0 1 = 1 ∧ 16384 ≤ leAt c.body 4 4)
      ∨ (leAt c.body 0 1 = 2 ∧ 4096 ≤ leAt c.body 4 4)) := by
    simp only [hzero, hzero', Bool.not_true, Bool.false_eq_true, false_or]
    omega
  have hentries : snagEntries s (leAt c.body 0 1) (leAt c.body 4 4) (leAt c.body 8 4) = ringRecords s (leAt c.body 4 4) (leAt c.body 8 4) := by
    rw [hwhat, ringRecords]
  simp only [bodySnagRead, if_neg hallowed, hentries, ringRecords_flatten_length, hrange, Bool.not_true, Bool.false_eq_true, if_false, ringRecords_length]

/-- Recording an event beside the list itself. -/
theorem snagRecord_lists (s : State) (r : ErrRec) : (snagRecord s r).snag.retires = s.snag.retires ∧ (snagRecord s r).snag.counters = s.snag.counters := by
  unfold snagRecord
  dsimp only
  split
  · obtain ⟨f, hf⟩ := commitSnag_flash (snagAppend s r)
    rw [hf]
    exact ⟨rfl, rfl⟩
  · exact ⟨rfl, rfl⟩

/-- The units kept for the seam, with one more. -/
def withRetire (l : List Nat) (u : Nat) : List Nat := if l.contains u then l else l ++ [u]

theorem mem_withRetire_self (l : List Nat) (u : Nat) : u ∈ withRetire l u := by
  unfold withRetire
  split
  · next h => exact List.contains_iff_mem.mp h
  · exact List.mem_append_right _ (List.mem_singleton_self u)

theorem mem_withRetire {l : List Nat} {r : Nat} (u : Nat) (h : r ∈ l) : r ∈ withRetire l u := by
  unfold withRetire
  split
  · exact h
  · exact List.mem_append_left _ h

/-- The state with RETIRE's record written and its unit kept for the seam. -/
def retireKept (s : State) (c : Cmd) : State :=
  let t := snagRecord s { errRec (leAt c.body 0 4) 0 0 2 5 with opcode := c.opcode, op := c.op }
  { t with snag := { t.snag with retires := withRetire t.snag.retires (leAt c.body 0 4) } }

theorem bodyRetire_keeps_unit {s : State} {c : Cmd} (hkind : fieldOf (leAt c.body 0 4) 31 28 ∈ [1, 2, 3, 6, 7]) (hzero : zeroAt c.body 4 4 = true) :
    bodyRetire c s = some (finish (retireKept s c) c stOk) := by
  have hallowed : (!(fieldOf (leAt c.body 0 4) 31 28 == 1 || fieldOf (leAt c.body 0 4) 31 28 == 2 || fieldOf (leAt c.body 0 4) 31 28 == 3
      || fieldOf (leAt c.body 0 4) 31 28 == 6 || fieldOf (leAt c.body 0 4) 31 28 == 7) || !zeroAt c.body 4 4) = false := by
    simp only [List.mem_cons, List.not_mem_nil, or_false] at hkind
    obtain hk | hk | hk | hk | hk := hkind <;> simp [hk, hzero]
  simp only [bodyRetire, hallowed, Bool.false_eq_true, if_false]
  rfl

/-- A register put beside a change of the Snag unit leaves the rest. -/
theorem csrSetField_beside (s : State) (g : SnagSt) (a hi lo v : Nat) :
    { csrSetField { s with snag := g } a hi lo v with snag := s.snag, csr := s.csr } = s := rfl

/-- Settles O47: the records go out as one write, RETIRE's is pushed once, and a commit either empties the pending list or puts off the next. -/
theorem snagListReadRetiredAndCommitted : Obligations.SnagListReadRetiredAndCommitted := by
  refine ⟨fun s q qseq c h hwhat hzero hzero' hcount hmax hstart hdst halign hrange hclean => ?_, fun s q qseq c h hkind hzero => ?_,
    fun s hpending hretry hopen => ?_, fun s ok hretry => ?_⟩
  · have hbody := bodySnagRead_ring hwhat hzero hzero' hcount hmax hstart hdst halign hrange
    have ⟨_, _, _, hsafe, _⟩ := h
    have hwritten := cmdWrite_clean ((inSafe_markBegun s q qseq).trans hsafe) hclean
    simp only [cmdAnswer, hwritten, if_true] at hbody
    refine ⟨_, congrArg Host.Outcome.next (hostRow_of_body h rfl hbody), fun i hi => ?_, fun a ha => memByte_store_outside _ ?_, rfl⟩
    · have hi' : i < (ringRecords (markBegun s q qseq) (leAt c.body 4 4) (leAt c.body 8 4)).length := by rwa [ringRecords_length]
      rw [memBytes_store_part _ (by rw [ringRecords_flatten_length]; omega), take_drop_flatten (fun _ => ringRecords_each) hi']
      simp [ringRecords, snagEntries]
    · rwa [ringRecords_flatten_length]
  · have ⟨hretires, hcounters⟩ := snagRecord_lists (markBegun s q qseq) { errRec (leAt c.body 0 4) 0 0 2 5 with opcode := c.opcode, op := c.op }
    have hrecorded := snagRecord_recorded (markBegun s q qseq) { errRec (leAt c.body 0 4) 0 0 2 5 with opcode := c.opcode, op := c.op }
    refine ⟨_, congrArg Host.Outcome.next (hostRow_of_body h rfl (bodyRetire_keeps_unit hkind hzero)), mem_withRetire_self .., fun r hr => ?_,
      hrecorded.written, hrecorded.csrGet_eq, hrecorded.chip, hrecorded.mem, hcounters⟩
    exact mem_withRetire _ (hretires ▸ hr)
  · have hgoes : ¬ (s.snag.pending.isEmpty = true ∨ s.plumb < s.snag.retryAt ∨ (!flashOpen s) = true) := by
      simp [hpending, hretry, hopen]
    have hdone : snagFlashCommitState true s = commitSnag s := (if_neg hgoes).trans (if_pos rfl)
    have hfailed : snagFlashCommitState false s = csrSetField { s with snag := { s.snag with retryAt := s.plumb + 10 ^ 9 } } rSngStatus 31 31 1 :=
      (if_neg hgoes).trans (if_neg Bool.false_ne_true)
    obtain ⟨f, hf⟩ := commitSnag_flash s
    exact ⟨⟨_, congrArg Host.Outcome.next (hdone.trans hf), rfl, csrField_setField_zero _ _ (by decide) (by decide), rfl⟩,
      ⟨_, congrArg Host.Outcome.next hfailed, rfl, csrFlag_set _ _ (by decide),
        csrSetField_beside ..⟩⟩
  · exact congrArg Host.Outcome.next (if_pos (.inr (.inl hretry)))

end Sys2Proof.Machine
end

section
/-! PROOF. The votes of the fault manager. -/

namespace Sys2Proof.Machine

/-! What a held pass and its two re-runs vote. -/

theorem passVote_allAlike (o : List Int) : passVote o ⟨true, o⟩ ⟨true, o⟩ = (1, some o) := by simp [passVote]

theorem passVote_reRunsAlike {o x : List Int} (h : x ≠ o) : passVote o ⟨true, x⟩ ⟨true, x⟩ = (2, some x) := by simp [passVote, h]

/-- A re-run that is not the given one passed without those sums, or did not pass. -/
theorem reRun_differs {r : ReRun} {o : List Int} (h : r ≠ ⟨true, o⟩) : (r.passed && r.sums == o) = false := by
  obtain ⟨passed, sums⟩ := r
  cases passed
  · rfl
  · simpa using h

theorem passVote_firstAlike {o : List Int} {b : ReRun} (h : b ≠ ⟨true, o⟩) : passVote o ⟨true, o⟩ b = (3, some o) := by
  have hb := reRun_differs h
  rw [Bool.beq_comm] at hb
  simp [passVote, hb]

theorem passVote_secondAlike {o : List Int} {a : ReRun} (h : a ≠ ⟨true, o⟩) : passVote o a ⟨true, o⟩ = (4, some o) := by
  have ha := reRun_differs h
  simp [passVote, ha]

theorem passVote_noneAlike {o : List Int} {a b : ReRun} (ha : a ≠ ⟨true, o⟩) (hb : b ≠ ⟨true, o⟩)
    (hab : a.passed = false ∨ b.passed = false ∨ a.sums ≠ b.sums) : passVote o a b = (5, none) := by
  have hpair : (a.passed && b.passed && a.sums == b.sums) = false := by
    obtain h | h | h := hab <;> simp [h]
  simp [passVote, reRun_differs ha, reRun_differs hb, hpair]

/-- Whether either of two reads shows the row of a held drain whole. -/
def rowWhole (s : State) (eng : Nat) (h : PassHold) (again : List ReRun) : Bool :=
  (again.take 2).any (fun x => res255 (x.sums.foldl (· + ·) 0) == nthD (tileGet s eng h.tile).rowres h.vec 0)

section Decided
variable {s : State} {eng lc : Nat} {c : Cmd} {h : PassHold} (hhold : holdGet s eng = some h) (hstopped : stoppedOn s (eng / 4) = some (c, lc))
include hhold hstopped

/-- A held pass of which two agree: their sums are added and the unit of the minority counted. -/
theorem passMismatchDecision_agreed {a b : ReRun} {k : Nat} {x : List Int} (hkind : h.kind = 0) (hvote : passVote h.sums a b = (k, some x))
    (hk : k ≠ 5) {t : State} (ht : t = resumeEngine (addHeld s eng h x) c lc eng h.tile (some (h.block * 2 ^ 20 + h.num + 1))) :
    passMismatchDecisionState eng a b s = holdClocks (syncRecovering (decideEvent t (arrayRec t c h
      (if k = 1 then unitEngine eng 0x021 else if k = 3 then unitEngine (engineB s lc eng) 0x020 else unitEngine eng 0x020) 0x02 k eng)
      (k == 1))) := by
  subst ht
  have hk' : (k == 5) = false := by simpa using hk
  simp [passMismatchDecisionState, hhold, hstopped, hkind, hvote, hk, hk']

/-- A held pass of which no two agree: nothing is added and the step is replayed. -/
theorem passMismatchDecision_split {a b : ReRun} (hkind : h.kind = 0) (hvote : passVote h.sums a b = (5, none)) :
    passMismatchDecisionState eng a b s =
      let t := resumeEngine s c lc eng h.tile (some (h.block * 2 ^ 20 + h.num + 1))
      holdClocks (syncRecovering (orderReplay (decideEvent t (arrayRec t c h (unitEngine eng 0x020) 0x02 5 eng) true)
        (unitEngine eng 0x020) 0x02)) := by
  simp [passMismatchDecisionState, hhold, hstopped, hkind, hvote]

theorem arrayEventDecision_row {again : List ReRun} (hkind : h.kind = 1) :
    arrayEventDecisionState eng again s =
      let t := resumeEngine s c lc eng h.tile none
      let u := decideEvent t (arrayRec t c h (unitEngine eng h.tile) 0x03 0 eng) false
      holdClocks (syncRecovering
        (if rowWhole s eng h again then u else orderReplay u (unitEngine eng h.tile) 0x03)) := by
  simp [arrayEventDecisionState, hhold, hstopped, hkind, rowWhole]

theorem arrayEventDecision_again {r : ReRun} {rest : List ReRun} {unit check : Nat}
    (hkind : h.kind = 2 ∧ unit = unitEngine eng 0x020 ∧ check = 0x01 ∨ h.kind = 3 ∧ unit = unitEngine eng (0x010 + h.block % 2) ∧ check = 0x04) :
    arrayEventDecisionState eng (r :: rest) s = holdClocks (syncRecovering (hardAgain s eng unit check h c lc r)) := by
  obtain ⟨hkind, rfl, rfl⟩ | ⟨hkind, rfl, rfl⟩ := hkind <;> simp [arrayEventDecisionState, hhold, hstopped, hkind, nthD]

theorem arrayEventDecision_accumulator {again : List ReRun} (hkind : h.kind = 4) :
    arrayEventDecisionState eng again s =
      let t := coreUpd (resumeEngine s c lc eng h.tile none) c.op lc (fun k => { k with status := stFault })
      holdClocks (syncRecovering (orderReplay (decideEvent t (arrayRec t c h (unitEngine eng h.tile) 0x04 0 eng) false)
        (unitEngine eng h.tile) 0x04)) := by
  simp [arrayEventDecisionState, hhold, hstopped, hkind]

theorem arrayEventDecision_screed {r : ReRun} {rest : List ReRun} (hkind : h.kind = 5) :
    arrayEventDecisionState eng (r :: rest) s =
      let t := resumeEngine s c lc eng h.tile none
      holdClocks (syncRecovering (decideEvent t (arrayRec t c h (unitCore (eng / 4) 0x103) 0x05 0 eng) (!r.passed))) := by
  simp [arrayEventDecisionState, hhold, hstopped, hkind, nthD]

end Decided

theorem hardAgain_passed (s : State) (eng unit check : Nat) (h : PassHold) (c : Cmd) (lc : Nat) {r : ReRun} (hr : r.passed = true) :
    hardAgain s eng unit check h c lc r =
      let t := resumeEngine (addHeld s eng h r.sums) c lc eng h.tile (some (h.block * 2 ^ 20 + h.num + 1))
      decideEvent t (arrayRec t c h unit check 0 eng) false := if_pos hr

theorem hardAgain_failed (s : State) (eng unit check : Nat) (h : PassHold) (c : Cmd) (lc : Nat) {r : ReRun} (hr : r.passed = false) :
    hardAgain s eng unit check h c lc r =
      let t := resumeEngine s c lc eng h.tile (some (h.block * 2 ^ 20 + h.num))
      decideEvent t (arrayRec t c h unit check 0 eng) true := if_neg (by simp [hr])

/-- Settles O48: the vote of the three runs is taken case by case, and each kind of array event has its own decision. -/
theorem votesDecideArrayEvents : Obligations.VotesDecideArrayEvents := by
  intro s eng lc c h hhold hstopped
  refine ⟨fun a b out hkind hout => ?_, fun again t u hkind ht hu => ?_, fun r rest unit check hkind => ?_, fun again t u hkind ht hu => ?_,
    fun r rest t hkind ht => ?_⟩
  · have hagreed {k : Nat} {x : List Int} (hvote : passVote h.sums a b = (k, some x)) (hk : k ≠ 5) :=
      congrArg (Host.Outcome.next (φ := Fault) (ρ := Refusal))
        ((passMismatchDecision_agreed hhold hstopped hkind hvote hk rfl).trans (hout x _ k _ _ rfl).symm)
    refine ⟨fun ha hb => ?_, fun x hx ha hb => ?_, fun ha hb => ?_, fun ha hb => ?_, fun ha hb hab t u ht hu => ?_⟩
    · subst ha hb
      exact hagreed (passVote_allAlike _) (by decide)
    · subst ha hb
      exact hagreed (passVote_reRunsAlike hx) (by decide)
    · subst ha
      exact hagreed (passVote_firstAlike hb) (by decide)
    · subst hb
      exact hagreed (passVote_secondAlike ha) (by decide)
    · subst ht hu
      exact congrArg Host.Outcome.next (passMismatchDecision_split hhold hstopped hkind (passVote_noneAlike ha hb hab))
  · subst ht hu
    have hrow := arrayEventDecision_row hhold hstopped (again := again) hkind
    refine ⟨fun hgood => congrArg Host.Outcome.next (hrow.trans ?_), fun hbad => congrArg Host.Outcome.next (hrow.trans ?_)⟩
    · have hwhole : rowWhole s eng h again = true := by simpa [rowWhole] using hgood
      simp only [hwhole, if_true]
    · have hbroken : rowWhole s eng h again = false := by simpa [rowWhole] using hbad
      simp only [hbroken, Bool.false_eq_true, if_false]
  · have hrow := arrayEventDecision_again hhold hstopped (r := r) (rest := rest) hkind
    refine ⟨fun hr t ht => congrArg Host.Outcome.next (hrow.trans ?_), fun hr t ht => congrArg Host.Outcome.next (hrow.trans ?_)⟩
    · subst ht
      rw [hardAgain_passed _ _ _ _ _ _ _ hr]
    · subst ht
      rw [hardAgain_failed _ _ _ _ _ _ _ hr]
  · subst ht hu
    exact congrArg Host.Outcome.next (arrayEventDecision_accumulator hhold hstopped hkind)
  · subst ht
    exact congrArg Host.Outcome.next (arrayEventDecision_screed hhold hstopped hkind)

end Sys2Proof.Machine
end

section
/-! SUPPORT. What forming copies anew leaves (R367), and what every open operation's end leaves. -/

namespace Sys2Proof.Machine

/-- From `s` to `t` the job, the Hawk stacks, the runs, the held commands, the collectives running and the step state stay. -/
structure WorkKept (s t : State) : Prop where
  job : t.job = s.job
  hawk : t.hawk = s.hawk
  runs : t.runs = s.runs
  held : t.held = s.held
  coll : t.coll.running = s.coll.running
  step : stepState t = stepState s

theorem WorkKept.refl (s : State) : WorkKept s s := ⟨rfl, rfl, rfl, rfl, rfl, rfl⟩

theorem WorkKept.trans {s t u : State} (h : WorkKept s t) (k : WorkKept t u) : WorkKept s u :=
  ⟨k.job.trans h.job, k.hawk.trans h.hawk, k.runs.trans h.runs, k.held.trans h.held, k.coll.trans h.coll, k.step.trans h.step⟩

theorem WorkKept.foldl {α : Type} {f : State → α → State} {l : List α} (h : ∀ s a, WorkKept s (f s a)) (s : State) :
    WorkKept s (l.foldl f s) := foldl_related .refl .trans (fun s a _ => h s a) s

theorem WorkKept.of_units {s t : State} (h : SameUnits s t) (hs : StepKept s t) : WorkKept s t := by
  obtain ⟨-, hjob, hhawk, -, hruns, hheld, -, -, -, -, hcoll, -⟩ := h
  obtain ⟨-, -, hcsr⟩ := hs
  exact ⟨hjob, hhawk, hruns, hheld, congrArg _ hcoll, csrField_congr hcsr 2 0⟩

theorem readMem_workKept (s : State) (a n : Nat) : WorkKept s (readMem s a n).1 := .of_units ((SameUnits.refl s).read ..) (readMem_stepKept ..)

theorem writeMem_workKept (s : State) (a : Nat) (bs : List Byte) : WorkKept s (writeMem s a bs).1 :=
  .of_units ((SameUnits.refl s).write ..) (writeMem_stepKept ..)

theorem portGrant_workKept (s : State) (a port tport cls : Nat) : WorkKept s (portGrant s a port tport cls) := by
  obtain ⟨p, hp⟩ := portGrant_ptrs s a port tport cls
  rw [hp]
  exact ⟨rfl, rfl, rfl, rfl, rfl, rfl⟩

theorem planeWrite_workKept (s : State) (t : Tensor) (i off : Nat) (bs : List Byte) : WorkKept s (planeWrite s t i off bs).1 := by
  unfold planeWrite
  split
  · exact .refl s
  · exact (portGrant_workKept ..).trans (writeMem_workKept ..)

theorem readScales_workKept (s : State) (t j k : Nat) : WorkKept s (readScales s t j k).1 := by
  unfold readScales
  split
  · exact .refl s
  · exact readMem_workKept ..

theorem readHi_workKept (s : State) (t : Tensor) (j g : Nat) : WorkKept s (readHi s t j g).1 := by
  unfold readHi
  split
  · exact .refl s
  · exact readMem_workKept ..

theorem orNone_workKept (en : Bool) (s : State) {r : State → State × Option (List FV)} (h : ∀ t, WorkKept t (r t).1) :
    WorkKept s (orNone en s r).1 := by
  unfold orNone
  split
  · exact h s
  · exact .refl s

theorem formCopy_workKept (s : State) (t : Tensor) (j g : Nat) (rc : Recipe) (floor offMax : Nat) (fold : Option Nat) (scale : Option (Nat × Nat)) :
    WorkKept s (formCopy s t j g rc floor offMax fold scale).1 := by
  unfold formCopy
  extract_lets k a f x
  have hx : WorkKept s x.1 := ((orNone_workKept _ s fun _ => readScales_workKept ..).trans
    (orNone_workKept _ _ fun _ => readMem_workKept ..)).trans (readHi_workKept ..)
  split
  · exact (hx.trans (planeWrite_workKept ..)).trans (planeWrite_workKept ..)
  · exact hx

theorem copyRecipe_workKept (s : State) (r : List Byte) : WorkKept s (copyRecipe s r).2 := by
  unfold copyRecipe
  dsimp only
  split
  · exact .refl s
  · exact ⟨rfl, rfl, rfl, rfl, rfl, rfl⟩

theorem regenCopy_workKept (s : State) (t : Tensor) (j : Nat) : WorkKept s (regenCopy s t j) :=
  (copyRecipe_workKept s (t.slotRec j)).trans (.foldl (fun _ _ => formCopy_workKept ..) _)

theorem regenCopies_workKept (s : State) (prev : Bool) : WorkKept s (regenCopies s prev) := by
  refine .foldl (fun s t => ?_) s
  dsimp only
  split
  · exact .refl s
  · split
    · exact (regenCopy_workKept ..).trans (regenCopy_workKept ..)
    · exact regenCopy_workKept ..

theorem clearVotes_workKept (s : State) : WorkKept s (clearVotes s) := ⟨rfl, rfl, rfl, rfl, rfl, rfl⟩

theorem abortOpen_units (s : State) : SameUnits (workDropped s) (abortOpen s) := by
  have hended (t : State) (c : Cmd) (q qseq : Nat) : SameUnits t (finish (markBegun t q qseq) c stFault) :=
    complete_units (markBegun_units (.refl t) ..) ..
  unfold abortOpen
  dsimp only
  refine ((SameUnits.foldl _ (fun t _ => complete_units (.refl t) ..) _ (workDropped s)).trans (.foldl _ (fun t k => ?_) _ _)).trans
    (.foldl _ (fun t h => ?_) _ _)
  · split
    · exact hended ..
    · exact .refl t
  · split
    · exact hended ..
    · exact .refl t

/-- No run, no held command and no collective is open once every open operation has ended. -/
theorem abortOpen_ended (s : State) : (abortOpen s).runs = [] ∧ (abortOpen s).held = [] ∧ (abortOpen s).coll.running = [] := by
  obtain ⟨-, -, -, -, hruns, hheld, -, -, -, -, hcoll, -⟩ := abortOpen_units s
  exact ⟨hruns, hheld, congrArg CollSt.running hcoll⟩

end Sys2Proof.Machine
end

section
/-! PROOF. The mirror, REPLAY and TAKEOVER. -/

namespace Sys2Proof.Machine

/-! MIRROR_CFG (R361). -/

/-- SNG_MIRROR as MIRROR_CFG leaves it. -/
def mirrorSet (s : State) (en flags n : Nat) : State := csrSetField (csrSetField s rSngMirror 31 29 (4 * en + flags)) rSngMirror 27 20 n

theorem csrField_mirrorSet_below (s : State) (en flags n : Nat) {hi lo : Nat} (h : hi < 20 ∨ 27 < lo ∧ hi < 29) (hhi : hi < 32) :
    csrField (mirrorSet s en flags n) rSngMirror hi lo = csrField s rSngMirror hi lo := by
  rw [mirrorSet, csrField_setField_disjoint _ _ _ _ _ _ _ (by decide) (by omega) hhi,
    csrField_setField_disjoint _ _ _ _ _ _ _ (by decide) (by omega) hhi]

theorem mirrorSet_top (s : State) (en flags n : Nat) : csrField (mirrorSet s en flags n) rSngMirror 31 29 = (4 * en + flags) % 8 := by
  rw [mirrorSet, csrField_setField_disjoint _ _ _ _ _ _ _ (by decide) (by decide) (by decide),
    csrField_setField_self _ _ _ _ _ (by decide) (by decide)]
  rfl

/-- EN and the planes are the upper bit and the lower two of the three bits put together. -/
theorem fieldOf_top_split (w : Nat) : fieldOf w 31 31 = fieldOf w 31 29 / 4 ∧ fieldOf w 30 29 = fieldOf w 31 29 % 4 := by
  simp only [fieldOf, Nat.shiftRight_eq_div_pow]
  omega

theorem mirrorSet_fields (s : State) {en flags n : Nat} (hen : en ≤ 1) (hflags : flags ≤ 3) (hn : n < 256) :
    csrField (mirrorSet s en flags n) rSngMirror 31 31 = en ∧ csrField (mirrorSet s en flags n) rSngMirror 30 29 = flags
      ∧ csrField (mirrorSet s en flags n) rSngMirror 27 20 = n := by
  have htop := mirrorSet_top s en flags n
  have ⟨hen', hflags'⟩ := fieldOf_top_split (csrGet (mirrorSet s en flags n) rSngMirror)
  rw [csrField] at htop
  rw [htop] at hen' hflags'
  refine ⟨hen'.trans (by omega), hflags'.trans (by omega), ?_⟩
  rw [mirrorSet, csrField_setField_self _ _ _ _ _ (by decide) (by decide)]
  exact Nat.mod_eq_of_lt hn

theorem csrGet_mirrorSet_other (s : State) (en flags n : Nat) {a : Nat} (ha : a ≠ rSngMirror) : csrGet (mirrorSet s en flags n) a = csrGet s a := by
  rw [mirrorSet, csrGet_setField_other _ _ _ _ ha, csrGet_setField_other _ _ _ _ ha]

theorem mirrorSet_beside (s : State) (en flags n : Nat) : { mirrorSet s en flags n with csr := s.csr } = s := by
  simp only [mirrorSet, csrSetField, csrPut]

theorem bodyMirrorCfg_sets {s : State} {c : Cmd} (hbetween : betweenSteps s = true) (hen : leAt c.body 0 1 ≤ 1) (hn : leAt c.body 1 1 ≠ 0)
    (hflags : leAt c.body 2 1 ≤ 3) (hzero : zeroAt c.body 3 5 = true) (haxis : axisSize s 2 ≠ 1) (hfits : mirrorFits s (leAt c.body 2 1) = true) :
    bodyMirrorCfg c s = some (finish (mirrorSet s (leAt c.body 0 1) (leAt c.body 2 1) (leAt c.body 1 1)) c stOk) := by
  have hallowed : ¬ (1 < leAt c.body 0 1 ∨ leAt c.body 1 1 = 0 ∨ 3 < leAt c.body 2 1 ∨ (!zeroAt c.body 3 5) = true ∨ axisSize s 2 = 1
      ∨ (!mirrorFits s (leAt c.body 2 1)) = true) := by
    simp only [hzero, hfits, haxis, Bool.not_true, Bool.false_eq_true, or_false]
    omega
  simp only [bodyMirrorCfg, hbetween, Bool.not_true, Bool.false_eq_true, if_false, if_neg hallowed, mirrorSet]

/-! The header of a half whose pieces have all come (R362). -/

theorem mirrorComplete_issues {s t : State} {buddy : Nat} (hbuddy : buddyOf s = some buddy) (hacks : s.snag.mirrorAcks = 1) (hpush : s.snag.push = [])
    (hopen : opOpen s (fun o => o == .mirror || o == .ledger) = false) (hshed : shedLevel s < 2) (hbusy : csrField s rSngMirror 28 28 = 1)
    (hissue : issueOp { s with snag := { s.snag with mirrorAcks := 2 } } .mirror 0 1 buddy 0x60 (bgClass s 0) (halfBase s s.snag.mirrorHalf)
        (sliceB s.snag.mirrorHdr 0 10 ++ [2] ++ sliceB s.snag.mirrorHdr 11 13 ++ leBytes 8 s.plumb) 0 = (t, none)) :
    mirrorCompleteState s = t := by
  have hbit : bitOf (csrGet s rSngMirror) 28 = true := by
    rw [csrField, fieldOf, Nat.shiftRight_eq_div_pow] at hbusy
    simpa [bitOf, Nat.testBit_eq_decide_div_mod_eq] using hbusy
  have hgoes : ¬ (s.snag.mirrorAcks ≠ 1 ∨ (!s.snag.push.isEmpty) = true ∨ opOpen s (fun o => o == .mirror || o == .ledger) = true ∨ 2 ≤ shedLevel s) := by
    simp [hacks, hpush, hopen, hshed]
  simp only [mirrorCompleteState, hbuddy, if_neg hgoes, hissue, hbit, if_true]

theorem csrGet_put64_other (s : State) {a b : Nat} (v : Nat) (h : b ≠ a ∧ b ≠ a + 4) : csrGet (csrPut64 s a v) b = csrGet s b := by
  obtain ⟨hlow, hhigh⟩ := h
  rw [csrPut64, csrGet_put_other _ _ _ _ hhigh, csrGet_put_other _ _ _ _ hlow]

/-! REPLAY from the device's own slots (R365, R366). -/

/-- The state in which REPLAY completes. -/
def replayed (s : State) (c : Cmd) : State :=
  let t := regenCopies (enterReplay s c (replayEnd s)) false
  let u := csrPut64 (csrSetField (clearVotes t) rHubStepState 6 6 0) rHubStepCountLo (leAt c.body 0 8)
  { u with step := { u.step with phase := sIdle, startSteps := leAt c.body 0 8 }, snag := { u.snag with pull := none } }

theorem bodyReplay_own {s : State} {c : Cmd} (hzero : zeroAt c.body 9 7 = true) (hsource : leAt c.body 8 1 = 1) (hsteps : stepsOf s = leAt c.body 0 8) :
    bodyReplay c s = some (resetQueues (finish (replayed s c) c stOk) c.body) := by
  simp [bodyReplay, hzero, hsource, hsteps, endReplay, replayed]

theorem bodyReplay_otherStep {s : State} {c : Cmd} (hzero : zeroAt c.body 9 7 = true) (hsource : leAt c.body 8 1 = 1) (hsteps : stepsOf s ≠ leAt c.body 0 8) :
    bodyReplay c s = some (finish s c stNotReady) := by
  simp [bodyReplay, hzero, hsource, hsteps]

theorem discardPending_none {s : State} {t : Tensor} (h : t ∈ (discardPending s).job.tensors) : t.pending = false := by
  obtain ⟨x, -, rfl⟩ := List.mem_map.mp h
  rfl

/-- A replay begins with every open operation ended, no slot pending and the step REPLAYING. -/
theorem enterReplay_begun (s : State) (c : Cmd) (last : Nat × Nat) :
    stepState (enterReplay s c last) = sReplaying ∧ (enterReplay s c last).runs = [] ∧ (enterReplay s c last).held = []
      ∧ (enterReplay s c last).coll.running = [] ∧ (enterReplay s c last).hawk = []
      ∧ ∀ t ∈ (enterReplay s c last).job.tensors, t.pending = false := by
  have ⟨hruns, hheld, hcoll⟩ := abortOpen_ended { s with flights := s.flights.filter (fun f => f.cmd != c) }
  unfold enterReplay
  extract_lets was own pull aborted stopped _ entered
  have hstate : stepState entered = sReplaying := stepState_set _ (by decide)
  have hjob : entered.job = (discardPending aborted).job := by
    simp only [entered, stopped, setStepState, mirrorStop, csrSetField_job]
  refine ⟨hstate, ?_, ?_, ?_, ?_, fun t ht => discardPending_none (hjob ▸ ht)⟩
  · simp only [entered, stopped, setStepState, mirrorStop, discardPending, csrSetField_runs, aborted, hruns]
  · simp only [entered, stopped, setStepState, mirrorStop, discardPending, csrSetField_held, aborted, hheld]
  · simp only [entered, stopped, setStepState, mirrorStop, discardPending, csrSetField_coll, aborted, hcoll]
  · simp only [entered, setStepState, csrSetField_hawk]

theorem csrSetField_workKept (s : State) (a hi lo v : Nat) (h : stepState (csrSetField s a hi lo v) = stepState s) :
    WorkKept s (csrSetField s a hi lo v) := ⟨rfl, rfl, rfl, rfl, rfl, h⟩

theorem csrPut64_workKept (s : State) (a v : Nat) (h : stepState (csrPut64 s a v) = stepState s) : WorkKept s (csrPut64 s a v) :=
  ⟨rfl, rfl, rfl, rfl, rfl, h⟩

theorem stepSnag_workKept (s : State) (x : StepSt) (g : SnagSt) : WorkKept s { s with step := x, snag := g } := ⟨rfl, rfl, rfl, rfl, rfl, rfl⟩

theorem replayed_workKept (s : State) (c : Cmd) : WorkKept (enterReplay s c (replayEnd s)) (replayed s c) := by
  unfold replayed
  extract_lets t u
  have ht : WorkKept (enterReplay s c (replayEnd s)) t := regenCopies_workKept ..
  clear_value t
  have hsealed : stepState (csrSetField (clearVotes t) rHubStepState 6 6 0) = stepState (clearVotes t) :=
    csrField_setField_disjoint _ _ _ _ _ _ _ (by decide) (by decide) (by decide)
  have hcounted (x : State) : stepState (csrPut64 x rHubStepCountLo (leAt c.body 0 8)) = stepState x :=
    csrField_congr (csrGet_put64_other _ _ (by decide)) 2 0
  exact (((ht.trans (clearVotes_workKept t)).trans (csrSetField_workKept _ _ _ _ _ hsealed)).trans
    (csrPut64_workKept _ _ _ (hcounted _))).trans (stepSnag_workKept ..)

theorem stepsOf_of_csr {s t : State} (h : t.csr = s.csr) : stepsOf t = stepsOf s := by
  rw [stepsOf, stepsOf, csrGet64, csrGet64, csrGet_of_csr h, csrGet_of_csr h]

theorem stepsOf_replayed (s : State) (c : Cmd) : stepsOf (replayed s c) = leAt c.body 0 8 := by
  have hlt := leAt_lt c.body 0 8
  unfold replayed
  extract_lets t u
  have hu : stepsOf u = leAt c.body 0 8 % 2 ^ 64 := csrGet64_put64 ..
  exact (stepsOf_of_csr (s := u) rfl).trans (hu.trans (Nat.mod_eq_of_lt hlt))

theorem queueAt_resetQueues {s : State} {k : Nat} (b : List Byte) (hk : k < s.queues.length) :
    queueAt (resetQueues s b) k =
      { queueAt s k with n := leAt b (16 + 4 * k) 4, slots := [], history := [], reserved := 0, launchHold := none } := by
  simp [queueAt, resetQueues, nthD, hk]

/-! REPLAY from the mirror, and TAKEOVER (R363, R365). -/

/-- The state in which a fetch from the buddy's mirror begins. -/
def pullStart (s : State) (c : Cmd) : State :=
  let t := fly s c
  { t with net := { t.net with ops := t.net.ops.filter (fun o => o.owner != .firmware)
                               waiting := t.net.waiting.filter (fun o => o.owner != .firmware) } }

/-- The fetch of the first half's header. -/
def firstPull (s : State) (c : Cmd) (peer : Nat) : Pull :=
  headerPull s { cmd := c, peer := peer, half := 0, stage := 0, pieces := [], buf := [] } 0

theorem startPull_fetches (s : State) (c : Cmd) (peer : Nat) : startPull s c peer = pullNext (pullStart s c) (firstPull s c peer) := rfl

theorem pullStart_leaves (s : State) (c : Cmd) :
    (pullStart s c).flights = s.flights ++ [{ cmd := c, started := s.plumb }] ∧ (pullStart s c).job = s.job ∧ (pullStart s c).mem = s.mem
      ∧ stepState (pullStart s c) = stepState s := ⟨rfl, rfl, rfl, rfl⟩

theorem firstPull_pieces (s : State) (c : Cmd) (peer : Nat) : (firstPull s c peer).pieces = [(s.job.mirror.base, 0, 32)] := by
  simp [firstPull, headerPull, halfBase]

theorem bodyReplay_mirror {s : State} {c : Cmd} {peer : Nat} (hzero : zeroAt c.body 9 7 = true) (hsource : leAt c.body 8 1 = 2)
    (hbuddy : buddyOf s = some peer) (hmirror : s.job.mirror.len ≠ 0) (hpull : s.snag.pull = none) :
    bodyReplay c s = some (startPull s c peer) := by
  simp [bodyReplay, hzero, hsource, hbuddy, hmirror, hpull]

theorem bodyTakeover_fetches {s : State} {c : Cmd} (hsource : leAt c.body 8 1 = 2) (hzero : zeroAt c.body 9 1 = true) (hfailed : leAt c.body 10 2 < 4096)
    (hbuddy : leAt c.body 12 2 < 4096) (hzero' : zeroAt c.body 14 2 = true) (hplaced : placed? s = true) (hsteps : stepsOf s = leAt c.body 0 8)
    (hmirror : s.job.mirror.len ≠ 0) (hpull : s.snag.pull = none) : bodyTakeover c s = some (startPull s c (leAt c.body 12 2)) := by
  simp [bodyTakeover, hsource, hzero, hfailed, hbuddy, hzero', hplaced, hsteps, hmirror, hpull]

/-- Settles O49: MIRROR_CFG is two fields of one register, a replay from the own slots enters, forms copies and ends, and the others start a fetch. -/
theorem mirrorAndReplay : Obligations.MirrorAndReplay := by
  refine ⟨fun s q qseq c h => ⟨fun hopen => ?_, fun hbetween hen hn hflags hzero haxis hfits => ?_⟩,
    fun s t buddy hbuddy hacks hpush hopen hshed hbusy hissue =>
      congrArg Host.Outcome.next (mirrorComplete_issues hbuddy hacks hpush hopen hshed hbusy hissue),
    fun s q qseq c h hzero => ⟨fun hsource hsteps => ?_, fun hsource hsteps => ?_, fun hsource peer hbuddy hmirror hpull => ?_⟩,
    fun s q qseq c h hsource hzero hfailed hbuddy hzero' hplaced hsteps hmirror hpull => ?_⟩
  · exact congrArg Host.Outcome.next (hostRow_of_body h rfl (by simp [bodyMirrorCfg, hopen]))
  · have hbody := bodyMirrorCfg_sets hbetween hen hn hflags hzero haxis hfits
    have ⟨hen', hflags', hn'⟩ := mirrorSet_fields (markBegun s q qseq) hen hflags (leAt_lt c.body 1 1)
    exact ⟨_, congrArg Host.Outcome.next (hostRow_of_body h rfl hbody), hen', hflags', hn',
      csrField_mirrorSet_below _ _ _ _ (.inr (by decide)) (by decide), csrField_mirrorSet_below _ _ _ _ (.inl (by decide)) (by decide),
      fun a ha => csrGet_mirrorSet_other _ _ _ _ ha, mirrorSet_beside ..⟩
  · exact congrArg Host.Outcome.next (hostRow_of_body h rfl (bodyReplay_otherStep hzero hsource hsteps))
  · have hkept := replayed_workKept (markBegun s q qseq) c
    have ⟨hstate, hruns, hheld, hcoll, hhawk, htensors⟩ := enterReplay_begun (markBegun s q qseq) c (replayEnd (markBegun s q qseq))
    refine ⟨_, congrArg Host.Outcome.next (hostRow_of_body h rfl (bodyReplay_own hzero hsource hsteps)), hkept.step.trans hstate, ?_,
      hkept.runs.trans hruns, hkept.held.trans hheld, hkept.coll.trans hcoll, hkept.hawk.trans hhawk, fun t ht => htensors t (hkept.job ▸ ht), ?_⟩
    · exact stepsOf_replayed ..
    · intro k hk hlength
      have hk' : k < (finish (replayed (markBegun s q qseq) c) c stOk).queues.length := by
        rw [resetQueues, List.length_mapIdx] at hlength
        omega
      rw [queueAt_resetQueues _ hk']
      exact ⟨rfl, rfl, rfl⟩
  · have ⟨hflights, hjob, hmem, hstate⟩ := pullStart_leaves (markBegun s q qseq) c
    exact ⟨_, _, congrArg Host.Outcome.next (hostRow_of_body h rfl ((bodyReplay_mirror hzero hsource hbuddy hmirror hpull).trans
      (congrArg some (startPull_fetches ..)))), rfl, rfl, firstPull_pieces .., hflights, hjob, hmem, hstate⟩
  · have ⟨hflights, hjob, hmem, _⟩ := pullStart_leaves (markBegun s q qseq) c
    exact ⟨_, _, congrArg Host.Outcome.next (hostRow_of_body h rfl ((bodyTakeover_fetches hsource hzero hfailed hbuddy hzero' hplaced hsteps hmirror
      hpull).trans (congrArg some (startPull_fetches ..)))), rfl, rfl, firstPull_pieces .., hflights, hjob, hmem⟩

end Sys2Proof.Machine
end

section
/-! PROOF. Shed levels. -/

namespace Sys2Proof.Machine

/-- A device under watch whose PWR_STATUS holds 6 in the level's bits, with the last sample beyond S5. -/
def levelSix : State :=
  { csrPut State.reset rPwrStatus (6 * 2 ^ 29 + 750) with
    boot := { boot0 with pwrgd := true, resetN := true, loaded := true }, power := { power0 with lastSag := 5 } }

theorem levelSix_sags : watched levelSix = true ∧ sagSetpoint levelSix ≠ 0 ∧ min (sagLevel levelSix 0) levelSix.power.lastSag.toNat = 5
    ∧ levelOfPower levelSix = 6 := by decide +kernel

/-- A sample beyond S5 enters S5 from any level but S5, so from the number 6 too. -/
theorem sagSample_levelSix : levelOfPower (sagSampleState 0 levelSix) = 5 := by decide +kernel

/-- Refutes O50: the level's three bits can hold 6, which no level of the device has. Two samples beyond S5 are then not beyond the level that stands,
and yet the sample enters S5, so the level does not stay. -/
theorem not_shedLevelsEnterAndReturn : ¬ Obligations.ShedLevelsEnterAndReturn := by
  rintro ⟨hsample, -⟩
  obtain ⟨hwatched, hsetpoint, hboth, hlevel⟩ := levelSix_sags
  obtain ⟨hstays, -⟩ := hsample levelSix 0 5 hwatched hsetpoint hboth.symm
  obtain ⟨u, hu, hkept, -⟩ := hstays (by rw [hlevel]; decide)
  have hentered : u = sagSampleState 0 levelSix := (Host.Outcome.next.inj hu).symm
  rw [hentered, sagSample_levelSix, hlevel] at hkept
  exact absurd hkept (by decide)

end Sys2Proof.Machine
end

section
/-! SUPPORT. A step asked of every die's clock (R383). -/

namespace Sys2Proof.Machine

/-- One die's ask and the clock's step after it. -/
def dieAsked (bit v : Nat) (s : State) (d : Nat) : State := clockStep (csrSetField s (rClkArray + 4 * d) bit bit v) d

theorem clockAsk_run (s : State) (bit v : Nat) : clockAsk s bit v = (List.range 4).foldl (dieAsked bit v) s := rfl

theorem csrGet_dieAsked_other (bit v : Nat) (s : State) (d : Nat) {a : Nat} (ha : a ≠ rClkArray + 4 * d) :
    csrGet (dieAsked bit v s d) a = csrGet s a := by
  rw [dieAsked, clockStep, csrGet_setField_other _ _ _ _ ha, csrGet_setField_other _ _ _ _ ha]

theorem csrField_dieAsked (v : Nat) (s : State) (d e : Nat) {bit : Nat} (hbit : 2 ≤ bit) (hbit' : bit < 32) :
    csrField (dieAsked bit v s d) (rClkArray + 4 * e) bit bit = if e = d then v % 2 else csrField s (rClkArray + 4 * e) bit bit := by
  split
  · next h =>
    subst h
    rw [dieAsked, clockStep, csrField_setField_disjoint _ _ _ _ _ _ _ (by decide) (.inr (by omega)) hbit', csrField_setField_self _ _ _ _ _ (Nat.le_refl bit) hbit',
      Nat.add_sub_cancel_left, pow_one]
  · next h => exact csrField_congr (csrGet_dieAsked_other bit v s d (by omega)) bit bit

theorem csrField_diesAsked (v : Nat) (l : List Nat) (s : State) (e : Nat) {bit : Nat} (hbit : 2 ≤ bit) (hbit' : bit < 32) :
    csrField (l.foldl (dieAsked bit v) s) (rClkArray + 4 * e) bit bit = if e ∈ l then v % 2 else csrField s (rClkArray + 4 * e) bit bit := by
  induction l generalizing s with
  | nil => rfl
  | cons d l ih =>
    rw [List.foldl_cons, ih, csrField_dieAsked v s d e hbit hbit']
    by_cases h : e = d
    · simp [h]
    · simp [h]

/-- Every die's clock shows what was asked. -/
theorem csrField_clockAsk (s : State) (v : Nat) {bit d : Nat} (hbit : 2 ≤ bit) (hbit' : bit < 32) (hd : d < 4) :
    csrField (clockAsk s bit v) (rClkArray + 4 * d) bit bit = v % 2 := by
  rw [clockAsk_run, csrField_diesAsked v _ s d hbit hbit', if_pos (List.mem_range.mpr hd)]

/-- No register but the dies' clocks is written. -/
theorem csrGet_clockAsk_other (s : State) (bit v : Nat) {a : Nat} (ha : a < rClkArray ∨ rClkArray + 16 ≤ a) :
    csrGet (clockAsk s bit v) a = csrGet s a := by
  have hrun (l : List Nat) (hl : ∀ d ∈ l, d < 4) (t : State) : csrGet (l.foldl (dieAsked bit v) t) a = csrGet t a := by
    induction l generalizing t with
    | nil => rfl
    | cons d l ih =>
      have hd := hl d (List.mem_cons_self ..)
      rw [List.foldl_cons, ih fun e he => hl e (List.mem_cons_of_mem _ he), csrGet_dieAsked_other _ _ _ _ (by omega)]
  rw [clockAsk_run]
  exact hrun _ (fun _ => List.mem_range.mp) s

/-- An ask changes registers alone. -/
theorem clockAsk_beside (s : State) (bit v : Nat) : clockAsk s bit v = { s with csr := (clockAsk s bit v).csr } := by
  have hrun (l : List Nat) (t : State) : l.foldl (dieAsked bit v) t = { t with csr := (l.foldl (dieAsked bit v) t).csr } := by
    induction l generalizing t with
    | nil => rfl
    | cons d l ih =>
      rw [List.foldl_cons, ih]
      simp only [dieAsked, clockStep, csrSetField, csrPut]
  exact hrun _ s

theorem clockAsk_mem (s : State) (bit v : Nat) : (clockAsk s bit v).mem = s.mem := by rw [clockAsk_beside]

theorem clockAsk_power (s : State) (bit v : Nat) : (clockAsk s bit v).power = s.power := by rw [clockAsk_beside]

theorem clockAsk_snag (s : State) (bit v : Nat) : (clockAsk s bit v).snag = s.snag := by rw [clockAsk_beside]

theorem powerRecord_power (s : State) (unit cause : Nat) (ret : Bool) (level sensor : Nat) (reading : Int) (severity : Nat) :
    (powerRecord s unit cause ret level sensor reading severity).power = s.power := (powerRecord_books ..).1.power_eq

theorem powerRecord_queues (s : State) (unit cause : Nat) (ret : Bool) (level sensor : Nat) (reading : Int) (severity : Nat) :
    (powerRecord s unit cause ret level sensor reading severity).queues = s.queues := by
  obtain ⟨-, hqueues, -⟩ := powerRecord_books s unit cause ret level sensor reading severity
  exact hqueues

end Sys2Proof.Machine
end

section
/-! PROOF. Rails, the regulator, the setpoint and the cap. -/

namespace Sys2Proof.Machine

/-! Rails (R416). -/

theorem railNominal_of_mem {rail n : Nat}
    (h : (rail, n) ∈ [(1, 1050), (2, 750), (3, 1800), (4, 750), (5, 1200), (6, 500), (7, 900), (8, 1800)]) : nthD railNominal rail 0 = n ∧ n ≠ 0 := by
  have hall : ∀ p ∈ [(1, 1050), (2, 750), (3, 1800), (4, 750), (5, 1200), (6, 500), (7, 900), (8, 1800)],
      nthD railNominal p.1 0 = p.2 ∧ p.2 ≠ 0 := by decide
  exact hall _ h

/-- The record of a rail outside its window. -/
def railNoted (s : State) (rail mv : Nat) : State := powerRecord s (unitPackage 0) 7 false (levelOfPower s) rail mv 1

section Rail
variable {s : State} {rail n mv : Nat} (below : Bool)

theorem railOutOfWindow_inside (hnominal : nthD railNominal rail 0 = n) (hlow : 95 * n ≤ 100 * mv) (hhigh : 100 * mv ≤ 105 * n) : railOutOfWindowState rail mv below s = s := by
  unfold railOutOfWindowState
  rw [hnominal]
  exact if_pos (.inr (.inr ⟨hlow, hhigh⟩))

theorem railOutOfWindow_outside (hwatched : watched s = true) (hnominal : nthD railNominal rail 0 = n) (hn : n ≠ 0) (hout : 100 * mv < 95 * n ∨ 105 * n < 100 * mv) :
    railOutOfWindowState rail mv below s =
      if below = true ∧ 100 * mv < 90 * n then enterS5 (railNoted s rail mv) (unitPackage 0) 7 rail mv else railNoted s rail mv := by
  unfold railOutOfWindowState
  rw [hnominal]
  refine (if_neg ?_).trans rfl
  rw [hwatched]
  simp only [Bool.not_true, Bool.false_eq_true, hn, false_or]
  omega

end Rail

/-! The regulator (R370). -/

/-- What an answered poll leaves. -/
def pollRead (s : State) (r : RegPoll) : State :=
  csrSetField (csrPut { s with power := { s.power with polls := 0, temp := r.temp, status := r.status % 65536 } } rPwrReg
    (r.iout % 65536 * 65536 + r.vout % 65536)) rPwrStatus 27 27 0

theorem regReading_pollRead (s : State) (r : RegPoll) : csrGet (pollRead s r) rPwrReg = r.iout % 65536 * 65536 + r.vout % 65536 := by
  rw [pollRead, csrGet_setField_other _ _ _ _ (by decide), csrGet_put_self]
  omega

theorem csrGet_pollRead_other (s : State) (r : RegPoll) {a : Nat} (ha : a ≠ rPwrReg) (ha' : a ≠ rPwrStatus) : csrGet (pollRead s r) a = csrGet s a := by
  rw [pollRead, csrGet_setField_other _ _ _ _ ha', csrGet_put_other _ _ _ _ ha]
  rfl

/-- One more poll without an answer. -/
def pollMissed (s : State) : State := { s with power := { s.power with polls := s.power.polls + 1 } }

/-- The regulator noted as lost with the poll. -/
def regLost (s : State) : State := csrSetField (pollMissed s) rPwrStatus 27 27 1

theorem regLost_sets {s : State} (h : s.power.polls = 2) : csrField (regLost s) rPwrStatus 27 27 = 1 ∧ (regLost s).snag = s.snag
    ∧ (regLost s).power = { s.power with polls := 3 } ∧ (regLost s).mem = s.mem := by
  refine ⟨csrFlag_set _ _ (by decide), csrSetField_snag .., ?_, csrSetField_mem ..⟩
  rw [regLost, csrSetField_power, pollMissed, h]

section Poll
variable {s : State} (hwatched : watched s = true)
include hwatched

theorem regulatorPoll_reads (r : RegPoll) : ∃ u, exec (.regulatorPoll (some r)) s = .next u ∧ csrField u rPwrReg 15 0 = r.vout % 65536
    ∧ csrField u rPwrReg 31 16 = r.iout % 65536 ∧ csrField u rPwrStatus 27 27 = 0
    ∧ u.power = { s.power with polls := 0, temp := r.temp, status := r.status % 65536 }
    ∧ (∀ a, a ≠ rPwrReg → a ≠ rPwrStatus → csrGet u a = csrGet s a) ∧ u.mem = s.mem := by
  have hrow : regulatorPollState (some r) s = pollRead s r := if_neg (by simp [hwatched])
  refine ⟨_, congrArg Host.Outcome.next hrow, ?_, ?_, csrField_setField_zero _ _ (by decide) (by decide), ?_, fun a => csrGet_pollRead_other s r, ?_⟩
  · rw [csrField, regReading_pollRead, fieldOf]
    simp only [Nat.shiftRight_eq_div_pow]
    omega
  · rw [csrField, regReading_pollRead, fieldOf]
    simp only [Nat.shiftRight_eq_div_pow]
    omega
  · rw [pollRead, csrSetField_power, csrPut_power]
  · rw [pollRead, csrSetField_mem, csrPut_mem]

theorem regulatorPoll_misses (h : s.power.polls ≠ 2) :
    exec (.regulatorPoll none) s = .next { s with power := { s.power with polls := s.power.polls + 1 } } :=
  congrArg Host.Outcome.next ((if_neg (by simp [hwatched])).trans (if_neg (by omega)))

theorem regulatorPoll_loses (h : s.power.polls = 2) : ∃ u, exec (.regulatorPoll none) s = .next u ∧ csrField u rPwrStatus 27 27 = 1
    ∧ u.snag.written = s.snag.written + 1 ∧ u.power = { s.power with polls := 3 } ∧ u.mem = s.mem := by
  have hrow : regulatorPollState none s = powerRecord (regLost s) (unitHub 0x414) 8 false (levelOfPower (pollMissed s)) 0 0 1 := by
    unfold regulatorPollState
    rw [if_neg (by simp [hwatched])]
    exact if_pos (by omega)
  have hrecorded := powerRecord_recorded (regLost s) (unitHub 0x414) 8 false (levelOfPower (pollMissed s)) 0 0 1
  have hpower := powerRecord_power (regLost s) (unitHub 0x414) 8 false (levelOfPower (pollMissed s)) 0 0 1
  obtain ⟨hflag, hsnag, hpolls, hmem⟩ := regLost_sets h
  exact ⟨_, congrArg Host.Outcome.next hrow, (csrField_congr (hrecorded.csrGet_eq _ (by decide)) _ _).trans hflag,
    hrecorded.written.trans (by rw [hsnag]), hpower.trans hpolls, hrecorded.mem.trans hmem⟩

end Poll

/-! The setpoint (R371). -/

theorem moveSetpoint_beside (s : State) (v : Nat) : { moveSetpoint s v with csr := s.csr, power := s.power } = s := by
  simp only [moveSetpoint, csrSetField, csrPut]

/-- Firmware's choice is neared by one step once the setpoint may move. -/
theorem avsSetpointMove_moves {s : State} {want : Nat} (hreleased : released s = true) (hfixed : csrField s rPwrStatus 26 26 = 0)
    (hlevel : levelOfPower s = 0) (hlost : csrField s rPwrStatus 27 27 = 0) (hthermal : thermalStep s = false) (hlow : 600 ≤ want) (hhigh : want ≤ 850)
    (halign : want % 5 = 0) (hother : want ≠ setpoint s) (hready : ¬ (s.power.movedAt ≠ 0 ∧ s.plumb < s.power.movedAt + 10 ^ 6)) :
    avsSetpointMoveState want s = moveSetpoint s (if want < setpoint s then max want (setpoint s - 5) else min want (setpoint s + 5)) := by
  refine if_neg ?_
  simp only [hreleased, hfixed, hlevel, hlost, hthermal, Bool.not_true, Bool.false_eq_true, halign, hother, hready, or_false, false_or, zero_ne_one, ne_eq, not_true_eq_false]
  omega

/-- Within a millisecond of its last move the setpoint stays. -/
theorem avsSetpointMove_waits {s : State} {want : Nat} (hearly : s.power.movedAt ≠ 0 ∧ s.plumb < s.power.movedAt + 10 ^ 6) :
    avsSetpointMoveState want s = s :=
  if_pos (.inr (.inr (.inr (.inr (.inr (.inr (.inr (.inr (.inr hearly)))))))))

theorem setpoint_lt (s : State) : setpoint s < 1024 := fieldOf_lt ..

theorem setpoint_moveSetpoint (s : State) {v : Nat} (hv : v < 1024) : setpoint (moveSetpoint s v) = v := by
  rw [setpoint, moveSetpoint, csrField_setField_self _ _ _ _ _ (by decide) (by decide)]
  exact Nat.mod_eq_of_lt hv

/-! The cap (R373). -/

theorem dieClock_apart {d : Nat} (hd : d < 4) : rClkArray + 4 * d ≠ rSngStatus := by
  unfold rClkArray rSngStatus
  omega

/-- The package power read. -/
def capRead (s : State) (watts : Nat) : State := csrSetField s rPwrPkg 15 0 watts

/-- Since when the power lies below the cap's return limit. -/
def capNoted (s : State) (since : Option Nat) : State := { s with power := { s.power with capBelow := since } }

/-- The cap's choice, on a state with the power read. -/
def capChosen (t : State) (watts : Nat) : State :=
  if csrField t rPwrPkg 31 16 = 0 then t
  else if csrField t rPwrPkg 31 16 < watts then
    if csrField t rClkArray 28 28 = 1 then capNoted t none else powerRecord (clockAsk (capNoted t none) 28 1) (unitPackage 0) 0xA false 1 0 0 0
  else if 100 * watts < 95 * csrField t rPwrPkg 31 16 then
    match t.power.capBelow with
    | none => capNoted t (some t.plumb)
    | some b => if csrField t rClkArray 28 28 = 1 ∧ b + 10 ^ 7 ≤ t.plumb then powerRecord (clockAsk t 28 0) (unitPackage 0) 0xA true 0 0 0 0 else t
  else capNoted t none

theorem powerCap_chooses {s : State} (hreleased : released s = true) (watts : Nat) : powerCapState watts s = capChosen (capRead s watts) watts := by
  unfold powerCapState
  rw [if_neg (by simp [hreleased])]
  unfold capChosen
  simp only [beq_iff_eq]
  rfl

theorem capRead_reading (s : State) (watts : Nat) : csrField (capRead s watts) rPwrPkg 15 0 = watts % 65536 :=
  csrField_setField_self _ _ _ _ _ (by decide) (by decide)

theorem capRead_cap (s : State) (watts : Nat) : csrField (capRead s watts) rPwrPkg 31 16 = csrField s rPwrPkg 31 16 :=
  csrField_setField_disjoint _ _ _ _ _ _ _ (by decide) (.inr (by decide)) (by decide)

theorem capRead_asked (s : State) (watts : Nat) : csrField (capRead s watts) rClkArray 28 28 = csrField s rClkArray 28 28 :=
  csrField_congr (csrGet_setField_other _ _ _ _ (by decide)) _ _

section Cap
variable {t : State} {watts : Nat}

/-- Above the cap every die is asked for the next step down, once. -/
theorem capChosen_above (hcap : csrField t rPwrPkg 31 16 ≠ 0) (habove : csrField t rPwrPkg 31 16 < watts) (hasked : csrField t rClkArray 28 28 = 0) :
    capChosen t watts = powerRecord (clockAsk (capNoted t none) 28 1) (unitPackage 0) 0xA false 1 0 0 0 := by
  rw [capChosen, if_neg hcap, if_pos habove, if_neg (by omega)]

theorem capChosen_starts (hbelow : 100 * watts < 95 * csrField t rPwrPkg 31 16) (hsince : t.power.capBelow = none) :
    capChosen t watts = capNoted t (some t.plumb) := by
  rw [capChosen, if_neg (by omega), if_neg (by omega), if_pos hbelow, hsince]

/-- Ten milliseconds below the return limit take the ask back. -/
theorem capChosen_returns {b : Nat} (hbelow : 100 * watts < 95 * csrField t rPwrPkg 31 16) (hsince : t.power.capBelow = some b) (hlong : b + 10 ^ 7 ≤ t.plumb)
    (hasked : csrField t rClkArray 28 28 = 1) : capChosen t watts = powerRecord (clockAsk t 28 0) (unitPackage 0) 0xA true 0 0 0 0 := by
  rw [capChosen, if_neg (by omega), if_neg (by omega), if_pos hbelow, hsince]
  exact if_pos ⟨hasked, hlong⟩

end Cap

/-! POWER_CFG (R371, R373). -/

/-- POWER_CFG's mode set. -/
def modeSet (s : State) (mode : Nat) : State := csrSetField s rPwrStatus 26 26 (boolNat (mode == 2))

/-- The setpoint a mode of 2 names is taken at once while the regulator answers. -/
def setpointSet (s : State) (mode sp : Nat) : State :=
  if mode = 2 ∧ csrField s rPwrStatus 27 27 = 0 ∧ setpoint s ≠ sp then moveSetpoint s sp else s

/-- The cap put, and without one the step it asked for taken back. -/
def capSet (s : State) (cap : Nat) : State :=
  let t := csrSetField { s with power := { s.power with capBelow := none } } rPwrPkg 31 16 cap
  if cap = 0 then clockAsk t 28 0 else t

/-- What POWER_CFG leaves set. -/
def powerSet (s : State) (mode sp cap : Nat) : State := capSet (setpointSet (modeSet s mode) mode sp) cap

theorem bodyPowerCfg_sets {s : State} {c : Cmd} (hbetween : betweenSteps s = true) (hmode : leAt c.body 0 1 = 1 ∨ leAt c.body 0 1 = 2
      ∧ 600 ≤ leAt c.body 2 2 ∧ leAt c.body 2 2 ≤ 850 ∧ leAt c.body 2 2 % 5 = 0)
    (hzero : zeroAt c.body 1 1 = true) (hzero' : zeroAt c.body 6 10 = true) (hcap : leAt c.body 4 2 = 0 ∨ (800 ≤ leAt c.body 4 2 ∧ leAt c.body 4 2 ≤ 1900)) :
    bodyPowerCfg c s = some (finish (powerSet s (leAt c.body 0 1) (leAt c.body 2 2) (leAt c.body 4 2)) c stOk) := by
  have hallowed : ¬ (leAt c.body 0 1 = 0 ∨ 2 < leAt c.body 0 1 ∨ (!zeroAt c.body 1 1) = true ∨ (!zeroAt c.body 6 10) = true
      ∨ (leAt c.body 0 1 = 2 ∧ (leAt c.body 2 2 < 600 ∨ 850 < leAt c.body 2 2 ∨ leAt c.body 2 2 % 5 ≠ 0))
      ∨ (leAt c.body 4 2 ≠ 0 ∧ (leAt c.body 4 2 < 800 ∨ 1900 < leAt c.body 4 2))) := by
    simp only [hzero, hzero', Bool.not_true, Bool.false_eq_true, false_or]
    omega
  simp only [bodyPowerCfg, hbetween, Bool.not_true, Bool.false_eq_true, if_false, if_neg hallowed]
  rfl

theorem csrGet_capSet_other (s : State) (cap : Nat) {a : Nat} (ha : a < rClkArray ∨ rClkArray + 16 ≤ a) (ha' : a ≠ rPwrPkg) :
    csrGet (capSet s cap) a = csrGet s a := by
  have hput : csrGet (csrSetField { s with power := { s.power with capBelow := none } } rPwrPkg 31 16 cap) a = csrGet s a :=
    csrGet_setField_other _ _ _ _ ha'
  unfold capSet
  dsimp only
  split
  · exact (csrGet_clockAsk_other _ _ _ ha).trans hput
  · exact hput

theorem cap_capSet (s : State) {cap : Nat} (hcap : cap < 65536) : csrField (capSet s cap) rPwrPkg 31 16 = cap := by
  have hput : csrField (csrSetField { s with power := { s.power with capBelow := none } } rPwrPkg 31 16 cap) rPwrPkg 31 16 = cap :=
    (csrField_setField_self _ _ _ _ _ (by decide) (by decide)).trans (Nat.mod_eq_of_lt hcap)
  unfold capSet
  dsimp only
  split
  · exact (csrField_congr (csrGet_clockAsk_other _ _ _ (by decide)) _ _).trans hput
  · exact hput

theorem capSet_mem (s : State) (cap : Nat) : (capSet s cap).mem = s.mem := by
  unfold capSet
  dsimp only
  split
  · exact clockAsk_mem ..
  · rfl

theorem setpointSet_mem (s : State) (mode sp : Nat) : (setpointSet s mode sp).mem = s.mem := by
  unfold setpointSet
  split
  · rfl
  · rfl

theorem modeSet_beside (s : State) (mode : Nat) : csrField (modeSet s mode) rPwrStatus 26 26 = boolNat (mode == 2)
    ∧ csrField (modeSet s mode) rPwrStatus 27 27 = csrField s rPwrStatus 27 27 ∧ setpoint (modeSet s mode) = setpoint s ∧ (modeSet s mode).mem = s.mem := by
  refine ⟨?_, csrField_setField_disjoint _ _ _ _ _ _ _ (by decide) (.inr (by decide)) (by decide),
    csrField_setField_disjoint _ _ _ _ _ _ _ (by decide) (.inl (by decide)) (by decide), rfl⟩
  rw [modeSet, csrField_setField_self _ _ _ _ _ (by decide) (by decide)]
  cases mode == 2 <;> rfl

theorem setpointSet_mode (s : State) (mode sp : Nat) : csrField (setpointSet s mode sp) rPwrStatus 26 26 = csrField s rPwrStatus 26 26 := by
  unfold setpointSet
  split
  · exact csrField_setField_disjoint _ _ _ _ _ _ _ (by decide) (.inr (by decide)) (by decide)
  · rfl

theorem setpoint_setpointSet {s : State} {sp : Nat} (hsp : sp < 1024) (hanswers : csrField s rPwrStatus 27 27 = 0) : setpoint (setpointSet s 2 sp) = sp := by
  unfold setpointSet
  split
  · exact setpoint_moveSetpoint s hsp
  · next h => exact not_not.mp fun hne => h ⟨rfl, hanswers, hne⟩

section PowerSet
variable (s : State) (mode sp cap : Nat)

theorem powerSet_status : csrGet (powerSet s mode sp cap) rPwrStatus = csrGet (setpointSet (modeSet s mode) mode sp) rPwrStatus :=
  csrGet_capSet_other _ _ (by decide) (by decide)

theorem powerSet_mode : csrField (powerSet s mode sp cap) rPwrStatus 26 26 = boolNat (mode == 2) := by
  rw [csrField_congr (powerSet_status ..), setpointSet_mode]
  exact (modeSet_beside s mode).1

theorem powerSet_mem : (powerSet s mode sp cap).mem = s.mem := by
  rw [powerSet, capSet_mem, setpointSet_mem]
  rfl

theorem setpoint_powerSet_one : setpoint (powerSet s 1 sp cap) = setpoint s := by
  obtain ⟨-, -, hkept, -⟩ := modeSet_beside s 1
  rw [setpoint, csrField_congr (powerSet_status ..), setpointSet, if_neg (by omega)]
  exact hkept

theorem setpoint_powerSet_two (hsp : sp < 1024) (hanswers : csrField s rPwrStatus 27 27 = 0) : setpoint (powerSet s 2 sp cap) = sp := by
  obtain ⟨-, hkept, -⟩ := modeSet_beside s 2
  rw [setpoint, csrField_congr (powerSet_status ..)]
  exact setpoint_setpointSet hsp (hkept.trans hanswers)

end PowerSet

/-- Settles O51: each clause is one branch of its row, read back from the fields it writes. -/
theorem railsRegulatorAndCap : Obligations.RailsRegulatorAndCap := by
  refine ⟨fun s rail n mv below hwatched hrail => ?_, fun s hwatched => ?_, fun s want hreleased hfixed hlevel hlost hthermal hlow hhigh halign hother => ?_,
    fun s watts hreleased hcap => ?_, fun s q qseq c h hbetween hzero hzero' hcap => ?_⟩
  · obtain ⟨hnominal, hn⟩ := railNominal_of_mem hrail
    refine ⟨fun hl hh => congrArg Host.Outcome.next (railOutOfWindow_inside below hnominal hl hh), fun hout => ?_⟩
    have hrow := railOutOfWindow_outside below hwatched hnominal hn hout
    refine ⟨railNoted s rail mv, (powerRecord_recorded ..).written, powerRecord_level .., (powerRecord_recorded ..).mem, powerRecord_queues ..,
      fun hbelow hdeep => congrArg Host.Outcome.next (hrow.trans (if_pos ⟨hbelow, hdeep⟩)),
      fun hshallow => congrArg Host.Outcome.next (hrow.trans (if_neg ?_))⟩
    rintro ⟨hbelow, hdeep⟩
    obtain hb | hm := hshallow
    · exact Bool.false_ne_true (hb.symm.trans hbelow)
    · omega
  · exact ⟨regulatorPoll_reads hwatched, regulatorPoll_misses hwatched, regulatorPoll_loses hwatched⟩
  · refine ⟨fun hready => ⟨_, congrArg Host.Outcome.next (avsSetpointMove_moves hreleased hfixed hlevel hlost hthermal hlow hhigh halign hother (by omega)),
      setpoint_moveSetpoint _ ?_, rfl, moveSetpoint_beside ..⟩, fun hmoved hearly => ?_⟩
    · have := setpoint_lt s
      split <;> omega
    · exact congrArg Host.Outcome.next (avsSetpointMove_waits ⟨hmoved, hearly⟩)
  · have hchooses := powerCap_chooses hreleased watts
    have hread : { capRead s watts with csr := s.csr } = s := by simp only [capRead, csrSetField, csrPut]
    refine ⟨fun habove hasked => ?_, fun hbelow hsince => ?_, fun b hbelow hsince hlong hasked => ?_⟩
    · have hrow := hchooses.trans (capChosen_above (by rwa [capRead_cap]) (by rwa [capRead_cap]) (by rwa [capRead_asked]))
      have hrecorded := powerRecord_recorded (clockAsk (capNoted (capRead s watts) none) 28 1) (unitPackage 0) 0xA false 1 0 0 0
      refine ⟨_, congrArg Host.Outcome.next hrow, ?_, fun d hd => ?_, ?_, ?_, ?_⟩
      · rw [csrField_congr (hrecorded.csrGet_eq _ (by decide)), csrField_congr (csrGet_clockAsk_other _ _ _ (by decide))]
        exact capRead_reading s watts
      · rw [csrField_congr (hrecorded.csrGet_eq _ (dieClock_apart hd)), csrField_clockAsk _ _ (by decide) (by decide) hd]
      · rw [powerRecord_power, clockAsk_power]
        rfl
      · rw [hrecorded.written, clockAsk_snag]
        rfl
      · rw [hrecorded.mem, clockAsk_mem]
        rfl
    · have hrow := hchooses.trans (capChosen_starts (by rwa [capRead_cap]) hsince)
      exact ⟨_, congrArg Host.Outcome.next hrow, rfl, capRead_reading s watts, hread⟩
    · have hrow := hchooses.trans (capChosen_returns (by rwa [capRead_cap]) hsince hlong (by rwa [capRead_asked]))
      have hrecorded := powerRecord_recorded (clockAsk (capRead s watts) 28 0) (unitPackage 0) 0xA true 0 0 0 0
      refine ⟨_, congrArg Host.Outcome.next hrow, fun d hd => ?_, ?_, ?_⟩
      · rw [csrField_congr (hrecorded.csrGet_eq _ (dieClock_apart hd)), csrField_clockAsk _ _ (by decide) (by decide) hd]
      · rw [hrecorded.written, clockAsk_snag]
        rfl
      · rw [hrecorded.mem, clockAsk_mem]
        rfl
  · have hcap' := cap_capSet (setpointSet (modeSet (markBegun s q qseq) (leAt c.body 0 1)) (leAt c.body 0 1) (leAt c.body 2 2)) (leAt_lt c.body 4 2)
    have hmode := powerSet_mode (markBegun s q qseq) (leAt c.body 0 1) (leAt c.body 2 2) (leAt c.body 4 2)
    have hmem := powerSet_mem (markBegun s q qseq) (leAt c.body 0 1) (leAt c.body 2 2) (leAt c.body 4 2)
    refine ⟨fun hone => ?_, fun htwo hlow hhigh halign => ?_⟩
    · have hbody := bodyPowerCfg_sets hbetween (.inl hone) hzero hzero' hcap
      refine ⟨_, congrArg Host.Outcome.next (hostRow_of_body h rfl hbody), hmode.trans (by rw [hone]; rfl), ?_, hcap', hmem⟩
      rw [hone, setpoint_powerSet_one]
    · have hbody := bodyPowerCfg_sets hbetween (.inr ⟨htwo, hlow, hhigh, halign⟩) hzero hzero' hcap
      refine ⟨_, congrArg Host.Outcome.next (hostRow_of_body h rfl hbody), hmode.trans (by rw [htwo]; rfl), fun hanswers => ?_, hcap', hmem⟩
      rw [htwo, setpoint_powerSet_two _ _ _ (by omega) hanswers]

end Sys2Proof.Machine
end

section
/-! PROOF. Clock sources, gates, the clock output and the oscillator. -/

namespace Sys2Proof.Machine

/-! CLOCK_SELECT (R384). -/

theorem csrGet_lt (s : State) (a : Nat) : csrGet s a < 2 ^ 32 := (stGet 0 s.csr a).isLt

/-- One bit put into a register leaves the others. -/
theorem bitOf_setField_other (s : State) (a : Nat) {i k v : Nat} (hk : k ≠ i) :
    bitOf (csrGet (csrSetField s a i i v) a) k = bitOf (csrGet s a) k := by
  rw [bitOf, bitOf, csrSetField, csrGet_put_self, Nat.testBit_mod_two_pow, putField_testBit _ _ _ _ _ (Nat.le_refl i)]
  by_cases hin : k < 32
  · have hout : (if k < i then (csrGet s a).testBit k else if k ≤ i then v.testBit (k - i) else (csrGet s a).testBit k) = (csrGet s a).testBit k := by
      split_ifs
      · rfl
      · omega
      · rfl
    simp [hin, hout]
  · have hbound : csrGet s a < 2 ^ k := (csrGet_lt s a).trans_le (Nat.pow_le_pow_right (by decide) (by omega))
    simp [hin, Nat.testBit_lt_two_pow hbound]

theorem csrSetField_csr (s : State) (a hi lo v : Nat) : { csrSetField s a hi lo v with csr := s.csr } = s := by
  simp only [csrSetField, csrPut]

section ClockSelect
variable {s : State} {c : Cmd}

theorem bodyClockSelect_job (h : jobOpen? s = true) : bodyClockSelect c s = some (finish s c stNotReady) := if_pos h

theorem bodyClockSelect_invalid (hjob : jobOpen? s = false) (h : 6 < leAt c.body 0 1 ∨ 1 < leAt c.body 1 1 ∨ zeroAt c.body 2 6 = false) :
    bodyClockSelect c s = some (finish s c stBadParam) := by
  simp only [bodyClockSelect, hjob, Bool.false_eq_true, if_false]
  exact if_pos (by simpa using h)

theorem bodyClockSelect_selects (hjob : jobOpen? s = false) (hd : leAt c.body 0 1 ≤ 6) (hsrc : leAt c.body 1 1 ≤ 1) (hzero : zeroAt c.body 2 6 = true) :
    bodyClockSelect c s = if (if leAt c.body 1 1 = 1 then bitOf (csrGet s rClkStatus) (leAt c.body 0 1) else oscOk s) = true
      then some (finish (csrSetField s rClkSel (leAt c.body 0 1) (leAt c.body 0 1) (leAt c.body 1 1)) c stOk) else some (finish s c stSourceNotReady) := by
  have hvalid : ¬ (6 < leAt c.body 0 1 ∨ 1 < leAt c.body 1 1 ∨ (!zeroAt c.body 2 6) = true) := by
    simp only [hzero, Bool.not_true, Bool.false_eq_true, or_false]
    omega
  unfold bodyClockSelect
  dsimp only
  rw [if_neg (by simp [hjob]), if_neg hvalid]
  by_cases hthere : (if leAt c.body 1 1 = 1 then bitOf (csrGet s rClkStatus) (leAt c.body 0 1) else oscOk s) = true
  · rw [if_pos hthere, if_neg (by simp only [hthere, Bool.not_true, Bool.false_eq_true, not_false_eq_true])]
  · rw [if_neg hthere, if_pos (by simpa only [Bool.not_eq_true', Bool.not_eq_true] using hthere)]

end ClockSelect

/-! GATE (R385). -/

/-- Only the ports there are can be gated. -/
theorem port_of_gateParent {s : State} {u : Nat} {up : Option Nat} (h : gateParent s u = some up) (hport : fieldOf u 31 28 = 7) : fieldOf u 3 0 < 7 := by
  simp only [gateParent, hport] at h
  split at h
  · next hu => exact hu.2
  · exact absurd h (by simp)

/-- The gates that are off. -/
def gateSet (s : State) (off : List Nat) : State := { s with power := { s.power with gatesOff := off } }

/-- A node turned off. -/
def gatedOff (s : State) (u : Nat) : State :=
  let t := gateSet s (s.power.gatesOff.filter (· != u) ++ [u])
  if fieldOf u 31 28 = 7 then linkDown t (fieldOf u 3 0) else t

section Gate
variable {s : State} {c : Cmd} {up : Option Nat} (hparent : gateParent s (leAt c.body 0 4) = some up)
include hparent

theorem bodyGate_active (hoff : leAt c.body 4 1 = 0) (hchild : ∃ k ∈ gateChildren s (leAt c.body 0 4), k ∉ s.power.gatesOff) :
    bodyGate c s = some (finish s c stChildActive) := by
  simp only [bodyGate, hparent]
  exact if_pos ⟨hoff, by simpa using hchild⟩

theorem bodyGate_parentOff {p : Nat} (hon : leAt c.body 4 1 = 1) (hup : up = some p) (hp : p ∈ s.power.gatesOff) :
    bodyGate c s = some (finish s c stNotReady) := by
  simp only [bodyGate, hparent]
  rw [if_neg (by omega)]
  exact if_pos ⟨hon, by simpa [hup] using hp⟩

variable (hjob : jobOpen? s = false) (hzero : zeroAt c.body 5 3 = true)
include hjob hzero

theorem bodyGate_off (hoff : leAt c.body 4 1 = 0) (hchildren : ∀ k ∈ gateChildren s (leAt c.body 0 4), k ∈ s.power.gatesOff) :
    bodyGate c s = some (finish (gatedOff s (leAt c.body 0 4)) c stOk) := by
  have hnone : ¬ (leAt c.body 4 1 = 0 ∧ (gateChildren s (leAt c.body 0 4)).any (fun k => !s.power.gatesOff.contains k) = true) := by
    simpa [hoff] using hchildren
  have hvalid : ¬ (1 < leAt c.body 4 1 ∨ (!zeroAt c.body 5 3) = true) := by simp [hoff, hzero]
  simp only [bodyGate, hparent, if_neg hnone, hjob, if_neg hvalid]
  simp [hoff, gatedOff, gateSet]

theorem bodyGate_on (hon : leAt c.body 4 1 = 1) (hup : ∀ p, up = some p → p ∉ s.power.gatesOff) :
    bodyGate c s = some (finish (gateSet s (s.power.gatesOff.filter (· != leAt c.body 0 4))) c stOk) := by
  have hnone : ¬ (leAt c.body 4 1 = 1 ∧ up.any s.power.gatesOff.contains = true) := by
    cases up with
    | none => simp
    | some p => simp [hup p rfl]
  have hvalid : ¬ (1 < leAt c.body 4 1 ∨ (!zeroAt c.body 5 3) = true) := by simp [hon, hzero]
  simp only [bodyGate, hparent, if_neg hnone, hjob, if_neg hvalid]
  simp [hon, gateSet]

end Gate

theorem enterHoldover_memPower (s : State) : (enterHoldover s).mem = s.mem ∧ (enterHoldover s).power = s.power := by
  refine ⟨(enterHoldover_recorded s).mem.trans (csrSetField_mem ..), ?_⟩
  rw [enterHoldover, (snagRecord_books ..).1.power_eq]
  exact csrSetField_power ..

theorem sourceLost_memPower (s : State) (port : Nat) : (sourceLost s port).mem = s.mem ∧ (sourceLost s port).power = s.power := by
  unfold sourceLost
  dsimp only
  split
  · split
    · exact enterHoldover_memPower _
    · exact ⟨rfl, rfl⟩
  · exact ⟨rfl, rfl⟩

theorem linkDown_memPower (s : State) (port : Nat) : (linkDown s port).mem = s.mem ∧ (linkDown s port).power = s.power := by
  unfold linkDown
  dsimp only
  split
  · exact ⟨rfl, rfl⟩
  · exact sourceLost_memPower ..

/-- A link taken down is not up. -/
theorem linkDown_notUp (s : State) {port : Nat} (hport : port < 7) : csrField (linkDown s port) (portReg port) 31 31 = 0 := by
  by_cases h : csrField s (portReg port) 31 31 = 0
  · rw [linkDown_down h, h]
  · have hlt : csrField s (portReg port) 31 31 < 2 := fieldOf_lt ..
    rw [linkDown_up hport (by omega), csrField_congr (sourceLost_csrGet _ _ (portReg_ne hport (Nat.le_refl _)).symm ?_)]
    · exact (portDropped_fields s port).1
    · unfold portReg rScrPortStatus rSngStatus
      omega

theorem gatedOff_gates (s : State) (u x : Nat) : x ∈ (gatedOff s u).power.gatesOff ↔ x = u ∨ x ∈ s.power.gatesOff := by
  have hgates : (gatedOff s u).power.gatesOff = s.power.gatesOff.filter (· != u) ++ [u] := by
    unfold gatedOff
    dsimp only
    split
    · rw [(linkDown_memPower ..).2]
      rfl
    · rfl
  rw [hgates]
  by_cases h : x = u
  · simp [h]
  · simp [h]

theorem gatedOff_mem (s : State) (u : Nat) : (gatedOff s u).mem = s.mem := by
  unfold gatedOff
  dsimp only
  split
  · exact (linkDown_memPower ..).1
  · rfl

/-! CLKOUT_CFG (R386, R421). -/

section Clkout
variable {s : State} {c : Cmd} (hen : leAt c.body 0 1 ≤ 1) (hsrc : leAt c.body 1 1 ≤ 9) (hzero : zeroAt c.body 4 4 = true)
  (hfreq : domainFreq s (leAt c.body 1 1) ≤ 3200 * (leAt c.body 2 2 + 1))
include hen hsrc hzero hfreq

/-- The clock output set. -/
def clkoutSet (s : State) (en src div : Nat) : State :=
  csrPut { s with power := { s.power with clkPair := if en = 1 then .running src (div + 1) else .held false true } } rClkOut (en <<< 31 + src <<< 16 + div)

theorem bodyClkoutCfg_sets : bodyClkoutCfg c s = if leAt c.body 0 1 = 1 ∧ domainOk s (leAt c.body 1 1) = false then some (finish s c stSourceNotReady)
    else some (finish (clkoutSet s (leAt c.body 0 1) (leAt c.body 1 1) (leAt c.body 2 2)) c stOk) := by
  have hvalid : ¬ (1 < leAt c.body 0 1 ∨ 9 < leAt c.body 1 1 ∨ (!zeroAt c.body 4 4) = true
      ∨ 3200 * (leAt c.body 2 2 + 1) < domainFreq s (leAt c.body 1 1)) := by
    simp only [hzero, Bool.not_true, Bool.false_eq_true, false_or]
    omega
  unfold bodyClkoutCfg
  dsimp only
  rw [if_neg hvalid]
  simp only [Bool.not_eq_true']
  rfl

end Clkout

theorem clkoutSet_fields (s : State) {en src div : Nat} (hen : en ≤ 1) (hsrc : src ≤ 9) (hdiv : div < 65536) :
    csrField (clkoutSet s en src div) rClkOut 31 31 = en ∧ csrField (clkoutSet s en src div) rClkOut 19 16 = src
      ∧ csrField (clkoutSet s en src div) rClkOut 15 0 = div := by
  simp only [csrField, clkoutSet, csrGet_put_self, fieldOf, Nat.shiftLeft_eq, Nat.shiftRight_eq_div_pow]
  omega

theorem clkoutSet_beside (s : State) (en src div : Nat) :
    { clkoutSet s en src div with csr := s.csr, power := { (clkoutSet s en src div).power with clkPair := s.power.clkPair } } = s := by
  simp only [clkoutSet, csrPut]

/-- Settles O52: each clause is one branch of its body; the link of a gated port goes down with it. -/
theorem clocksAndGates : Obligations.ClocksAndGates := by
  refine ⟨fun s q qseq c h hd hsrc hzero => ⟨fun hjob => ?_, ?_⟩, fun s q qseq c h hjob hinvalid => ?_,
    fun s q qseq c up h hparent => ⟨fun hoff hchild => ?_, fun p hon hup hp => ?_, fun hoff hchildren hjob hzero => ?_, fun hon hup hjob hzero => ?_⟩,
    fun s q qseq c h hen hsrc hzero hfreq => ?_, fun s hwatched => ?_⟩
  · exact congrArg Host.Outcome.next (hostRow_of_body h rfl (bodyClockSelect_job hjob))
  · rintro _ rfl hjob
    have hbody := bodyClockSelect_selects hjob hd hsrc hzero
    refine ⟨fun hthere => ?_, fun hthere => ?_⟩
    · rw [hthere] at hbody
      exact congrArg Host.Outcome.next (hostRow_of_body h rfl hbody)
    · rw [hthere] at hbody
      refine ⟨_, congrArg Host.Outcome.next (hostRow_of_body h rfl hbody), ?_, fun k hk => bitOf_setField_other _ _ hk,
        fun a ha => csrGet_setField_other _ _ _ _ ha, csrSetField_csr ..⟩
      rw [csrField_setField_self _ _ _ _ _ (Nat.le_refl _) (by omega), Nat.add_sub_cancel_left]
      omega
  · exact congrArg Host.Outcome.next (hostRow_of_body h rfl (bodyClockSelect_invalid hjob hinvalid))
  · exact congrArg Host.Outcome.next (hostRow_of_body h rfl (bodyGate_active hparent hoff hchild))
  · exact congrArg Host.Outcome.next (hostRow_of_body h rfl (bodyGate_parentOff hparent hon hup hp))
  · refine ⟨_, congrArg Host.Outcome.next (hostRow_of_body h rfl (bodyGate_off hparent hjob hzero hoff hchildren)), gatedOff_gates _ _,
      fun hport => ?_, fun hport => ?_, gatedOff_mem ..⟩
    · rw [gatedOff, if_pos hport]
      exact linkDown_notUp _ (port_of_gateParent hparent hport)
    · rw [gatedOff, if_neg hport]
      rfl
  · exact ⟨_, congrArg Host.Outcome.next (hostRow_of_body h rfl (bodyGate_on hparent hjob hzero hon hup)), fun x => by simp [gateSet, and_comm], rfl, rfl⟩
  · have hbody := bodyClkoutCfg_sets hen hsrc hzero hfreq
    refine ⟨fun hone hbad => ?_, fun hgood => ?_⟩
    · rw [if_pos ⟨hone, hbad⟩] at hbody
      exact congrArg Host.Outcome.next (hostRow_of_body h rfl hbody)
    · rw [if_neg (by rintro ⟨hone, hbad⟩; rw [hone, hbad] at hgood; simp at hgood)] at hbody
      obtain ⟨hrun, hsource, hdivider⟩ := clkoutSet_fields (markBegun s q qseq) hen hsrc (leAt_lt c.body 2 2)
      exact ⟨_, congrArg Host.Outcome.next (hostRow_of_body h rfl hbody), hrun, hsource, hdivider, rfl,
        fun a ha => csrGet_put_other _ _ _ _ ha, clkoutSet_beside ..⟩
  · have hrow : oscLossState s = enterS5 (csrSetField s rClkStatus 31 31 0) (unitPackage 0) 9 0 0 := if_neg (by simp [hwatched])
    exact ⟨_, congrArg Host.Outcome.next hrow, csrField_setField_zero _ _ (by decide) (by decide),
      fun a ha => csrGet_setField_other _ _ _ _ ha, csrSetField_csr ..⟩

end Sys2Proof.Machine
end

section
/-! PROOF. SMBus, the TAP and the lockstep cores. -/

namespace Sys2Proof.Machine

/-- One of a run of two-byte readings. -/
theorem leAt_readings (f : Nat → Nat) {n d : Nat} (hd : d < n) : leAt ((List.range n).flatMap fun k => leBytes 2 (f k)) (2 * d) 2 = f d % 65536 := by
  have heach : ∀ x ∈ (List.range n).map fun k => leBytes 2 (f k), x.length = 2 := by
    intro x hx
    obtain ⟨k, -, rfl⟩ := List.mem_map.mp hx
    exact leBytes_length ..
  have hpart := take_drop_flatten heach (i := d) (by simpa using hd)
  simp only [List.getElem_map, List.getElem_range] at hpart
  rw [leAt, sliceB, List.flatMap_def, hpart, leBytes_length]
  simp [leNat_leBytes]

theorem readings_length (f : Nat → Nat) (n : Nat) : ((List.range n).flatMap fun k => leBytes 2 (f k)).length = 2 * n := by
  simp [List.length_flatMap, leBytes_length, Nat.mul_comm]

section Smbus
variable {s : State} {code : Nat}

/-- Off, or asked for a code past the seventh, the target does not answer. -/
theorem smbusRead_nacks (h : smbusOn s = false ∨ 6 < code) : smbusReadState code s = smbusAnswer s none := by
  rw [smbusReadState]
  obtain hoff | hcode := h
  · rw [if_neg (by simp [hoff])]
  · obtain ⟨k, rfl⟩ := Nat.exists_eq_add_of_lt hcode
    have hvalue : smbusValue s (6 + k + 1) = none := by
      rw [show 6 + k + 1 = k + 7 by omega]
      rfl
    rw [hvalue, ite_self]

theorem smbusRead_answers (hon : smbusOn s = true) : smbusReadState code s = smbusAnswer s (smbusValue s code) := by rw [smbusReadState, if_pos hon]

theorem smbusValue_isSome (hcode : code ≤ 6) : (smbusValue s code).isNone = false := by
  interval_cases code <;> rfl

end Smbus

theorem smbusAnswer_beside (s : State) (r : Option (List Byte)) :
    { smbusAnswer s r with boot := { (smbusAnswer s r).boot with smbus := s.boot.smbus, smbusNack := s.boot.smbusNack } } = s := rfl

/-! The lockstep cores (R344). -/

/-- The record of two cores that differ. -/
def divergenceRecord (s : State) (pc : Nat) : State := snagRecord s { errRec (unitHub 0x400) 0x11 0 3 0 with syndrome := leBytes 8 pc }

theorem lockstepDivergence_stops {s : State} (h : released s = true) (pc : Nat) : lockstepDivergenceState pc s
    = { divergenceRecord s pc with boot := { (divergenceRecord s pc).boot with ready := false, faultN := false } } :=
  if_neg (by simp [h])

theorem divergenceRecord_keeps (s : State) (pc : Nat) : (divergenceRecord s pc).snag.written = s.snag.written + 1
    ∧ (divergenceRecord s pc).mem = s.mem ∧ (divergenceRecord s pc).queues = s.queues := by
  have hrecorded := snagRecord_recorded s { errRec (unitHub 0x400) 0x11 0 3 0 with syndrome := leBytes 8 pc }
  obtain ⟨-, hqueues, -⟩ := snagRecord_books s { errRec (unitHub 0x400) 0x11 0 3 0 with syndrome := leBytes 8 pc }
  exact ⟨hrecorded.written, hrecorded.mem, hqueues⟩

/-- Settles O56: the target's answer by its command code, the TAP's by the instruction, and the record of a divergence before READY falls. -/
theorem smbusTapAndLockstep : Obligations.SmbusTapAndLockstep := by
  refine ⟨fun s code => ⟨_, rfl, smbusAnswer_beside .., fun h => ?nacks, fun hon hcode => ?acks, fun hon h => ?boot, fun hon h => ?power, fun hon h => ?pkg,
    fun hon h => ?dies, fun hon h => ?memory, fun hon h => ?summary, fun hon h => ?fuses⟩, fun s code data => rfl,
    fun s ir => ⟨tapActsBypass s ir, rfl, fun h => if_pos h, fun h => ?bypass⟩, fun s pc => ⟨fun h => ?early, fun h => ?stops⟩⟩
  case nacks =>
    rw [smbusRead_nacks h]
    exact ⟨rfl, rfl⟩
  case acks =>
    rw [smbusRead_answers hon]
    exact smbusValue_isSome hcode
  case boot | power | pkg | summary | fuses =>
    rw [smbusRead_answers hon, h]
    rfl
  case dies =>
    rw [smbusRead_answers hon, h]
    refine ⟨_, rfl, readings_length _ 5, fun d hd => (leAt_readings _ hd).trans (Nat.mod_eq_of_lt (fieldOf_lt ..))⟩
  case memory =>
    rw [smbusRead_answers hon, h]
    exact ⟨_, rfl, readings_length _ 8, fun k hk => (leAt_readings _ hk).trans (Nat.mod_eq_of_lt (fieldOf_lt ..))⟩
  case bypass => simp [tapActsBypass, h]
  case early => exact congrArg Host.Outcome.next (if_pos (by simp [h]))
  case stops =>
    obtain ⟨hwritten, hmem, hqueues⟩ := divergenceRecord_keeps s pc
    exact ⟨_, congrArg Host.Outcome.next (lockstepDivergence_stops h pc), rfl, rfl, hwritten, hmem, hqueues⟩

end Sys2Proof.Machine
end

section
/-! SUPPORT. The lengths of digests, reports and the flash's slots (R397, R408). -/

namespace Sys2Proof.Machine

/-! SHA3's digests. -/

theorem keccakRound_lanes (a : List Nat) (rc : Nat) : (keccakRound a rc).length = 25 := by simp [keccakRound, keccakChi, planes]

theorem keccakRounds_lanes (rcs : List Nat) (a : List Nat) (h : a.length = 25) : (rcs.foldl keccakRound a).length = 25 := by
  induction rcs generalizing a with
  | nil => exact h
  | cons rc rcs ih => exact ih _ (keccakRound_lanes a rc)

theorem keccakAbsorb_lanes {a : List Nat} (h : a.length = 25) (blk : List Byte) : (keccakAbsorb a blk).length = 25 :=
  keccakRounds_lanes _ _ (by rw [List.length_mapIdx, h])

theorem absorbed_lanes (blocks : List (List Byte)) (a : List Nat) (h : a.length = 25) : (blocks.foldl keccakAbsorb a).length = 25 := by
  induction blocks generalizing a with
  | nil => exact h
  | cons blk blocks ih => exact ih _ (keccakAbsorb_lanes h blk)

/-- A digest has the bytes asked for. -/
theorem sha3_length {n : Nat} (hn : n ≤ 200) (m : List Byte) : (sha3 n m).length = n := by
  simp only [sha3, List.length_take, List.length_flatMap, leBytes_length, List.map_const', List.sum_replicate, absorbed_lanes _ _ List.length_replicate]
  simpa using hn

theorem stGetMany_length {α : Type} (d : α) (m : Store α) (a n : Nat) : (stGetMany d m a n).length = n := by simp [stGetMany]

/-! The report (R408). -/

theorem digestOf_length (m : List Byte) (kind : Nat) : (digestOf m kind).length = 64 := by
  unfold digestOf imageEntry
  split
  · next e he =>
    obtain ⟨i, -, rfl⟩ := List.mem_map.mp (List.mem_of_find?_eq_some he)
    exact sliceB_length ..
  · exact List.length_replicate

theorem slotDigests_length (s : State) : (slotDigests s).length = 192 := by
  unfold slotDigests
  split
  · exact List.length_replicate
  · dsimp only
    rw [List.length_append, List.length_append, sha3_512, sha3_length (by decide), digestOf_length, digestOf_length]

theorem summaryBytes_length (g : SnagSt) : (summaryBytes g).length = 64 := by
  simp only [summaryBytes, List.length_append, leBytes_length, List.length_replicate]

theorem idFingerprint_length (s : State) : (idFingerprint s).length = 32 := by
  simp [idFingerprint, List.length_flatMap, leBytes_length]

/-- The report before the nonce. -/
def reportHead (s : State) : List Byte :=
  [0x47, 0x58, 0x41, 0x52] ++ leBytes 2 1 ++ [byteOf (if inSafe s then 2 else 1)]
    ++ [byteOf (if inSafe s then 0 else csrField s rSecStage 15 8)]
    ++ leBytes 8 s.plumb ++ leBytes 8 s.snag.time ++ leBytes 2 (idWord s) ++ [byteOf (minSvn s)]
    ++ [byteOf (csrField s rBootStatus 15 12)] ++ leBytes 4 (csrGet s rBootStatus)

/-- The report behind the nonce. -/
def reportTail (s : State) : List Byte :=
  sha3_512 (publicFuses s) ++ stGetMany 0 s.boot.fuses 448 64 ++ slotDigests s ++ summaryBytes s.snag ++ idFingerprint s ++ List.replicate 32 0

theorem attestReport_split (s : State) (nonce : List Byte) : attestReport s nonce = reportHead s ++ (sliceB nonce 0 32 ++ reportTail s) := by
  simp only [attestReport, reportHead, reportTail, List.append_assoc]

theorem reportHead_length (s : State) : (reportHead s).length = 32 := by
  simp only [reportHead, List.length_append, leBytes_length, List.length_cons, List.length_nil]

theorem reportTail_length (s : State) : (reportTail s).length = 448 := by
  simp only [reportTail, sha3_512, List.length_append, sha3_length (show 64 ≤ 200 by decide), stGetMany_length, slotDigests_length, summaryBytes_length,
    idFingerprint_length, List.length_replicate]

theorem attestReport_length (s : State) (nonce : List Byte) : (attestReport s nonce).length = 512 := by
  rw [attestReport_split, List.length_append, List.length_append, reportHead_length, sliceB_length, reportTail_length]

theorem attestation_length (s : State) (nonce : List Byte) : (attestation s nonce).length = 5139 := by
  simp only [attestation, List.length_append, attestReport_length, sliceB_length]

theorem sliceB_whole {l : List Byte} {n : Nat} (h : l.length = n) : sliceB l 0 n = l := by
  subst h
  simp [sliceB]

/-- The report carries the nonce. -/
theorem attestation_nonce (s : State) {nonce : List Byte} (h : nonce.length = 32) : ((attestation s nonce).drop 32).take 32 = nonce := by
  simp only [attestation, attestReport_split, List.append_assoc, sliceB_whole h]
  rw [← reportHead_length s, List.drop_left, reportHead_length s, ← h, List.take_left]

/-! The flash. -/

theorem stGet_clear {α : Type} (d : α) (m : Store α) {lo hi a : Nat} (hlo : lo ≤ a) (hhi : a < hi) : stGet d (stClear m lo hi) a = d := by
  induction m with
  | nil => rfl
  | cons p m ih =>
    obtain ⟨k, v⟩ := p
    by_cases hk : k < lo ∨ hi ≤ k
    · rw [stClear, List.filter_cons_of_pos (by simpa using hk), stGet, if_neg (by omega)]
      exact ih
    · rw [stClear, List.filter_cons_of_neg (by simpa using hk)]
      exact ih

theorem flashWrite_inside (s : State) {a i : Nat} {bs : List Byte} (hi : i < bs.length) :
    stGet 0xFF (flashWrite s a bs).boot.flash (a + i) = bs[i] := by
  refine (stGet_setMany ..).trans ?_
  rw [if_pos (by omega), Nat.add_sub_cancel_left, List.getElem?_eq_getElem hi, Option.getD_some]

theorem flashWrite_outside (s : State) {a x : Nat} {bs : List Byte} (h : x < a ∨ a + bs.length ≤ x) :
    stGet 0xFF (flashWrite s a bs).boot.flash x = stGet 0xFF s.boot.flash x :=
  (stGet_setMany ..).trans (if_neg (by omega))

/-! What the fuses alone decide. -/

section Fuses
variable {s t : State} (hfuses : t.boot.fuses = s.boot.fuses)
include hfuses

theorem fuseBits_congr : fuseBits t = fuseBits s := by
  funext hi lo
  rw [fuseBits, fuseBits, hfuses]

theorem clusterEnabled_congr : clusterEnabled t = clusterEnabled s := by
  funext n
  rw [clusterEnabled, clusterEnabled, fuseBits_congr hfuses]

theorem fuseMap_congr : fuseMap t = fuseMap s := by
  funext d
  rw [fuseMap, fuseMap, clusterEnabled_congr hfuses]

theorem minSvn_congr : minSvn t = minSvn s := by rw [minSvn, minSvn, fuseBits_congr hfuses]

theorem identityKey_congr : identityKey t = identityKey s := by rw [identityKey, identityKey, identityXi, identityXi, hfuses]

end Fuses

end Sys2Proof.Machine
end

section
/-! PROOF. Attestation, identity and staging. -/

namespace Sys2Proof.Machine

section Written
variable {s : State} {c : Cmd} {d : Nat} (hsafe : inSafe s = false) (hclean : CleanMem s)
include hsafe

theorem cmdRangeOk_released (a n : Nat) : cmdRangeOk s a n = rangeOk s a n := by rw [cmdRangeOk, hsafe, if_neg Bool.false_ne_true]

include hclean

theorem cmdAnswer_clean (c : Cmd) (a : Nat) (bs result : List Byte) : cmdAnswer s c a bs result = complete (memStore s a bs) c stOk 0 result := by
  simp only [cmdAnswer, cmdWrite_clean hsafe hclean, if_true]

theorem cmdRead_clean (a n : Nat) : cmdRead s a n = (s, some (memBytes s a n)) := by
  rw [cmdRead, hsafe, if_neg Bool.false_ne_true, readMem_clean hclean]

/-- ATTEST (R408). -/
theorem bodyAttest_reports (haddr : addrField c.body 32 = some d) (halign : d % 64 = 0) (hrange : rangeOk s d 5139 = true) :
    bodyAttest c s = some (complete (memStore s d (attestation s (sliceB c.body 0 32))) c stOk 0 (leBytes 4 5139)) := by
  have hvalid : ¬ (d % 64 ≠ 0 ∨ (!cmdRangeOk s d 5139) = true) := by simp [halign, cmdRangeOk_released hsafe, hrange]
  simp only [bodyAttest, haddr, if_neg hvalid, cmdAnswer_clean hsafe hclean]

/-- What IDENTITY_READ answers (R407). -/
def identityBytes (s : State) : List Byte :=
  identityKey s ++ leBytes 4 ((Config.kilulareCert (identityKey s)).take 8192).length ++ (Config.kilulareCert (identityKey s)).take 8192

omit hsafe hclean in
theorem identityBytes_length (s : State) : (identityBytes s).length = 2596 + ((Config.kilulareCert (identityKey s)).take 8192).length := by
  simp only [identityBytes, identityKey, List.length_append, sliceB_length, leBytes_length]

theorem bodyIdentityRead_answers (haddr : addrField c.body 0 = some d) (hrange : rangeOk s d (identityBytes s).length = true) :
    bodyIdentityRead c s = some (complete (memStore s d (identityBytes s)) c stOk 0 (leBytes 4 (identityBytes s).length)) := by
  have hvalid : ¬ (!cmdRangeOk s d (identityBytes s).length) = true := by simp [cmdRangeOk_released hsafe, hrange]
  have hbody : bodyIdentityRead c s = if (!cmdRangeOk s d (identityBytes s).length) = true then some (finish s c stBadParam)
      else some (cmdAnswer s c d (identityBytes s) (leBytes 4 (identityBytes s).length)) := by
    simp only [bodyIdentityRead, haddr]
    rfl
  rw [hbody, if_neg hvalid, cmdAnswer_clean hsafe hclean]

end Written

/-! The parts of what IDENTITY_READ answers. -/

section IdentityParts
variable (s : State)

theorem identityBytes_key : ((identityBytes s).drop 0).take 2592 = identityKey s := by
  have hkey : (identityKey s).length = 2592 := sliceB_length ..
  rw [List.drop_zero, identityBytes, List.append_assoc, ← hkey, List.take_left]

theorem identityBytes_count : ((identityBytes s).drop 2592).take 4 = leBytes 4 ((Config.kilulareCert (identityKey s)).take 8192).length := by
  have hkey : (identityKey s).length = 2592 := sliceB_length ..
  rw [identityBytes, List.append_assoc, ← hkey, List.drop_left]
  exact List.take_left' (leBytes_length ..)

theorem identityBytes_cert : (identityBytes s).drop 2596 = (Config.kilulareCert (identityKey s)).take 8192 := by
  have hhead : (identityKey s ++ leBytes 4 ((Config.kilulareCert (identityKey s)).take 8192).length).length = 2596 := by
    rw [List.length_append, leBytes_length, identityKey, sliceB_length]
  rw [identityBytes, ← hhead, List.drop_left]

end IdentityParts

/-! IMAGE_STAGE (R403). -/

theorem stageTarget_le (s : State) : stageTarget s ≤ 1 := by
  unfold stageTarget
  split <;> omega

theorem stageMark_boot (s : State) (o : Option Nat) : (stageMark s o).boot = s.boot ∧ (stageMark s o).mem = s.mem := by
  cases o with
  | none => exact ⟨(csrSetField_boot ..).trans (csrSetField_boot ..), (csrSetField_mem ..).trans (csrSetField_mem ..)⟩
  | some t => exact ⟨(csrSetField_boot ..).trans (csrSetField_boot ..), (csrSetField_mem ..).trans (csrSetField_mem ..)⟩

/-- SEC_STAGE names the open staging's slot. -/
theorem stageMark_open (s : State) {t : Nat} (ht : t ≤ 1) :
    csrField (stageMark s (some t)) rSecStage 31 30 = 2 ∧ csrField (stageMark s (some t)) rSecStage 29 29 = t := by
  refine ⟨?_, (csrField_setField_self _ _ _ _ _ (by decide) (by decide)).trans (Nat.mod_eq_of_lt (by omega))⟩
  exact (csrField_setField_disjoint _ _ _ _ _ _ _ (by decide) (.inr (by decide)) (by decide)).trans (csrField_setField_self _ _ _ _ _ (by decide) (by decide))

theorem stageMark_closed (s : State) : csrField (stageMark s none) rSecStage 31 30 = 0 :=
  (csrField_setField_disjoint _ _ _ _ _ _ _ (by decide) (.inr (by decide)) (by decide)).trans (csrField_setField_zero _ _ (by decide) (by decide))

/-- The slot's VALID bit cleared before it is erased. -/
def unvalidated (s : State) (t : Nat) : State :=
  if bitOf (bootRecOf s).2.valid t then writeBootRec s (bootRecOf s).2.pref ((bootRecOf s).2.valid - 2 ^ t) else s

theorem unvalidated_mem (s : State) (t : Nat) : (unvalidated s t).mem = s.mem := by
  unfold unvalidated
  split <;> rfl

/-- A slot erased and staging opened. -/
def stageErased (s : State) (t : Nat) : State :=
  { unvalidated s t with boot := { (unvalidated s t).boot with
      flash := stClear (unvalidated s t).boot.flash (slotBase t) (slotBase t + slotSize), staging := true, staged := [] } }

theorem stageErased_mem (s : State) (t : Nat) : (stageErased s t).mem = s.mem := unvalidated_mem s t

/-- DATA's bytes programmed. -/
def stageProgrammed (s : State) (off len : Nat) (bs : List Byte) : State :=
  let t := flashWrite s (slotBase (stageTarget s) + off) bs
  { t with boot := { t.boot with staged := (off, len) :: t.boot.staged } }

section Stage
variable {s : State} {c : Cmd}

theorem bodyStageBegin_open (hop : stageOp c = 1) (hopen : s.boot.staging = true) : bodyStageBegin c s = some (finish s c stNotReady) := by
  rw [bodyStageBegin, if_neg (by omega), if_pos hopen]

theorem bodyStageBegin_opens (hop : stageOp c = 1) (hclosed : s.boot.staging = false) (hclean : stageClean s c = true) :
    bodyStageBegin c s = some (finish (stageMark (stageErased s (stageTarget s)) (some (stageTarget s))) c stOk) := by
  rw [bodyStageBegin, if_neg (by omega), if_neg (by simp [hclosed]), if_neg (by simp [hclean])]
  rfl

theorem bodyStageData_closed (h : s.boot.staging = false) : bodyStageData c s = some (finish s c stNotReady) := if_pos (by simp [h])

theorem bodyStageFinish_closed (h : s.boot.staging = false) : bodyStageFinish c s = some (finish s c stNotReady) := if_pos (by simp [h])

theorem bodyStageAbort_closed (h : s.boot.staging = false) : bodyStageAbort c s = some (finish s c stNotReady) := if_pos (by simp [h])

variable (hopen : s.boot.staging = true) (hclean : stageClean s c = true)
include hopen hclean

theorem bodyStageData_programs {off len src : Nat} (hoff : off = leAt c.body 4 4) (hlen : len = leAt c.body 8 4) (hsrc : src = leAt c.body 16 8)
    (halign : off % 256 = 0) (halign' : len % 256 = 0) (hmin : 256 ≤ len) (hmax : len ≤ 65536) (hfits : off + len ≤ slotSize)
    (hfree : stageOverlaps s off len = false) (hrange : rangeOk s src len = true) (hsafe : inSafe s = false) (hmem : CleanMem s) :
    bodyStageData c s = some (finish (stageProgrammed s off len (memBytes s src len)) c stOk) := by
  subst hoff hlen hsrc
  have hvalid : ¬ ((!stageClean s c) = true ∨ leAt c.body 4 4 % 256 ≠ 0 ∨ leAt c.body 8 4 % 256 ≠ 0 ∨ leAt c.body 8 4 < 256 ∨ 65536 < leAt c.body 8 4
      ∨ slotSize < leAt c.body 4 4 + leAt c.body 8 4 ∨ stageOverlaps s (leAt c.body 4 4) (leAt c.body 8 4) = true
      ∨ (!cmdRangeOk s (leAt c.body 16 8) (leAt c.body 8 4)) = true) := by
    simp only [hclean, hfree, cmdRangeOk_released hsafe, hrange, Bool.not_true, Bool.false_eq_true, false_or, or_false]
    omega
  unfold bodyStageData
  dsimp only
  rw [if_neg (by simp [hopen]), if_neg hvalid, cmdRead_clean hsafe hmem]
  rfl

theorem bodyStageFinish_verifies : bodyStageFinish c s = if verifySlot (closeStaging s) (stageTarget s) ≠ 1 then some (finish (closeStaging s) c stAuthFail)
    else
      let t := finish (writeBootRec (closeStaging s) (stageTarget s) ((bootRecOf (closeStaging s)).2.valid ||| 2 ^ stageTarget s)) c stOk
      some (if leAt c.body 1 1 = 1 then reboot t else t) := by
  rw [bodyStageFinish, if_neg (by simp [hopen]), if_neg (by simp [hclean])]

theorem bodyStageAbort_closes : bodyStageAbort c s = some (finish (closeStaging s) c stOk) := by
  rw [bodyStageAbort, if_neg (by simp [hopen]), if_neg (by simp [hclean])]

end Stage

/-- Staging closed leaves the flash, the fuses and memory. -/
theorem closeStaging_boot (s : State) : (closeStaging s).boot = { s.boot with staging := false, staged := [] } ∧ (closeStaging s).mem = s.mem :=
  stageMark_boot _ none

theorem flashRead_congr {s t : State} (hflash : t.boot.flash = s.boot.flash) : flashRead t = flashRead s := by
  funext a n
  rw [flashRead, flashRead, hflash]

/-- What a slot's verification turns on. -/
theorem verifySlot_congr {s t : State} (hflash : t.boot.flash = s.boot.flash) (hfuses : t.boot.fuses = s.boot.fuses) (slot : Nat) :
    verifySlot t slot = verifySlot s slot := by
  rw [verifySlot, verifySlot, manifestOf, manifestOf, flashRead_congr hflash, minSvn_congr hfuses, hfuses]

theorem bootRecord_congr {s t : State} (hflash : t.boot.flash = s.boot.flash) : bootRecord t = bootRecord s := by
  have hcopy : bootCopy t = bootCopy s := by
    funext k
    rw [bootCopy, bootCopy, flashRead_congr hflash]
  rw [bootRecord, bootRecord, hcopy]

theorem verifySlot_closeStaging (s : State) (slot : Nat) : verifySlot (closeStaging s) slot = verifySlot s slot := by
  obtain ⟨hboot, -⟩ := closeStaging_boot s
  exact verifySlot_congr (by rw [hboot]) (by rw [hboot]) slot

theorem bootRecOf_closeStaging (s : State) : bootRecOf (closeStaging s) = bootRecOf s := by
  obtain ⟨hboot, -⟩ := closeStaging_boot s
  rw [bootRecOf, bootRecOf, bootRecord_congr (show (closeStaging s).boot.flash = s.boot.flash by rw [hboot])]

/-- A part of what was stored, read back. -/
theorem memBytes_stored_part (s : State) {a o n : Nat} {bs part : List Byte} (h : o + n ≤ bs.length) (hpart : (bs.drop o).take n = part) :
    memBytes (memStore s a bs) (a + o) n = part := (memBytes_store_part s h).trans hpart

section
variable {s : State} {q qseq : Nat} {c : Cmd} (hsafe : inSafe (markBegun s q qseq) = false)
include hsafe

theorem attest_reports {d : Nat} (h : Begins s q qseq 0x0C01 c) (haddr : addrField c.body 32 = some d) (halign : d % 64 = 0)
    (hrange : rangeOk (markBegun s q qseq) d 5139 = true) (hclean : CleanMem (markBegun s q qseq)) :
    ∃ u, exec (.attest q qseq) s = .next (complete u c stOk 0 (leBytes 4 5139))
      ∧ memBytes u d 5139 = attestation (markBegun s q qseq) (sliceB c.body 0 32) ∧ memBytes u (d + 32) 32 = sliceB c.body 0 32
      ∧ (∀ a, a < d ∨ d + 5139 ≤ a → memByte u a = memByte (markBegun s q qseq) a) ∧ u.boot = (markBegun s q qseq).boot := by
  have hlength := attestation_length (markBegun s q qseq) (sliceB c.body 0 32)
  have hstored := memBytes_store (markBegun s q qseq) d (attestation (markBegun s q qseq) (sliceB c.body 0 32))
  rw [hlength] at hstored
  have hnonce := attestation_nonce (markBegun s q qseq) (sliceB_length c.body 0 32)
  have hbody := bodyAttest_reports hsafe hclean haddr halign hrange
  revert hlength hstored hnonce hbody
  generalize attestation (markBegun s q qseq) (sliceB c.body 0 32) = report
  intro hlength hstored hnonce hbody
  refine ⟨_, congrArg Host.Outcome.next (hostRow_of_body h rfl hbody), hstored, memBytes_stored_part _ (by omega) hnonce,
    fun a ha => memByte_store_outside _ (by omega), rfl⟩

theorem identityRead_answers {d n : Nat} (h : Begins s q qseq 0x0C02 c) (haddr : addrField c.body 0 = some d)
    (hn : n = ((Config.kilulareCert (identityKey (markBegun s q qseq))).take 8192).length)
    (hrange : rangeOk (markBegun s q qseq) d (2596 + n) = true) (hclean : CleanMem (markBegun s q qseq)) :
    ∃ u, exec (.identityRead q qseq) s = .next (complete u c stOk 0 (leBytes 4 (2596 + n)))
      ∧ memBytes u d 2592 = identityKey (markBegun s q qseq) ∧ memBytes u (d + 2592) 4 = leBytes 4 n
      ∧ memBytes u (d + 2596) n = (Config.kilulareCert (identityKey (markBegun s q qseq))).take 8192
      ∧ (∀ a, a < d ∨ d + 2596 + n ≤ a → memByte u a = memByte (markBegun s q qseq) a) := by
  have hlength := identityBytes_length (markBegun s q qseq)
  have hcert := identityBytes_cert (markBegun s q qseq)
  rw [← hn] at hlength
  have hbody := bodyIdentityRead_answers (c := c) hsafe hclean haddr (by rwa [hlength])
  rw [hlength] at hbody
  refine ⟨_, congrArg Host.Outcome.next (hostRow_of_body h rfl hbody), memBytes_stored_part _ (o := 0) (by omega) (identityBytes_key _),
    memBytes_stored_part _ (by omega) ((identityBytes_count _).trans (by rw [hn])), memBytes_stored_part _ (by omega) ?_,
    fun a ha => memByte_store_outside _ (by omega)⟩
  rw [hcert, hn, List.take_length]

end

section
variable {s : State} {q qseq : Nat} {c : Cmd} (h : Begins s q qseq 0x0C03 c)
include h

/-- A row of IMAGE_STAGE by its body. -/
theorem stageRow_of_body {sel : Nat → Bool} (hsel : sel (stageOp c) = true) {body : Cmd → State → Option State} {t : State}
    (hbody : body c (markBegun s q qseq) = some t) : hostRow s q qseq (fun c => c.opcode == 0x0C03 && sel (stageOp c)) body = t := by
  have ⟨_, hop, _⟩ := h
  exact hostRow_of_selected h (by simp [hop, hsel]) hbody

theorem imageStageBegin_of_body {t : State} (hop : stageOp c = 1) (hbody : bodyStageBegin c (markBegun s q qseq) = some t) :
    exec (.imageStageBegin q qseq) s = .next t :=
  congrArg Host.Outcome.next (stageRow_of_body h (sel := fun op => !(op == 2 || op == 3 || op == 4)) (by rw [hop]; decide) hbody)

theorem imageStageData_of_body {t : State} (hop : stageOp c = 2) (hbody : bodyStageData c (markBegun s q qseq) = some t) :
    exec (.imageStageData q qseq) s = .next t :=
  congrArg Host.Outcome.next (stageRow_of_body h (sel := fun op => op == 2) (by rw [hop]; decide) hbody)

theorem imageStageFinish_of_body {t : State} (hop : stageOp c = 3) (hbody : bodyStageFinish c (markBegun s q qseq) = some t) :
    exec (.imageStageFinish q qseq) s = .next t :=
  congrArg Host.Outcome.next (stageRow_of_body h (sel := fun op => op == 3) (by rw [hop]; decide) hbody)

theorem imageStageAbort_of_body {t : State} (hop : stageOp c = 4) (hbody : bodyStageAbort c (markBegun s q qseq) = some t) :
    exec (.imageStageAbort q qseq) s = .next t :=
  congrArg Host.Outcome.next (stageRow_of_body h (sel := fun op => op == 4) (by rw [hop]; decide) hbody)

end

/-- What DATA leaves: the slot's bytes at the offset, the range noted, and the rest of the flash and memory. -/
theorem stageProgrammed_flash (s : State) {off len src : Nat} : (∀ i, i < len → stGet 0xFF (stageProgrammed s off len (memBytes s src len)).boot.flash
      (slotBase (stageTarget s) + off + i) = memByte s (src + i))
    ∧ (∀ a, a < slotBase (stageTarget s) + off ∨ slotBase (stageTarget s) + off + len ≤ a →
      stGet 0xFF (stageProgrammed s off len (memBytes s src len)).boot.flash a = stGet 0xFF s.boot.flash a) := by
  have hlength := memBytes_length s src len
  refine ⟨fun i hi => ?_, fun a ha => flashWrite_outside s (by rwa [hlength])⟩
  refine (flashWrite_inside s (by rwa [hlength])).trans ?_
  simp [memBytes]

/-- Settles O55: each row by its body, and what the flash and memory then hold byte by byte. -/
theorem attestationAndStaging : Obligations.AttestationAndStaging := by
  rintro s q qseq c _ rfl hsafe
  refine ⟨fun d h haddr halign hrange hclean => attest_reports hsafe h haddr halign hrange hclean,
    fun d n h haddr hn hrange hclean => identityRead_answers hsafe h haddr hn hrange hclean,
    fun h => ⟨fun hop hopen => ?_, fun hop hclosed hclean => ?_, fun op => ⟨fun _ hop hclosed => ?_, fun _ hop hclosed => ?_, fun _ hop hclosed => ?_⟩,
      fun off len src hop hoff hlen hsrc hopen hclean halign halign' hmin hmax hfits hfree hrange hmem => ?_, fun hop hopen hclean => ?_, fun hop hopen hclean => ?_⟩⟩
  · exact imageStageBegin_of_body h hop (bodyStageBegin_open hop hopen)
  · obtain ⟨hstate, htarget⟩ := stageMark_open (stageErased (markBegun s q qseq) (stageTarget (markBegun s q qseq))) (stageTarget_le (markBegun s q qseq))
    obtain ⟨hboot, hmem⟩ := stageMark_boot (stageErased (markBegun s q qseq) (stageTarget (markBegun s q qseq))) (some (stageTarget (markBegun s q qseq)))
    refine ⟨_, imageStageBegin_of_body h hop (bodyStageBegin_opens hop hclosed hclean), ?_, ?_, hstate, htarget, fun a hlow hhigh => ?_,
      hmem.trans (stageErased_mem ..)⟩
    · rw [hboot]
      rfl
    · rw [hboot]
      rfl
    · rw [hboot]
      exact stGet_clear _ _ hlow hhigh
  · exact imageStageData_of_body h hop (bodyStageData_closed hclosed)
  · exact imageStageFinish_of_body h hop (bodyStageFinish_closed hclosed)
  · exact imageStageAbort_of_body h hop (bodyStageAbort_closed hclosed)
  · have hbody := bodyStageData_programs hopen hclean hoff hlen hsrc halign halign' hmin hmax hfits hfree hrange hsafe hmem
    obtain ⟨hinside, houtside⟩ := stageProgrammed_flash (markBegun s q qseq) (off := off) (len := len) (src := src)
    exact ⟨_, imageStageData_of_body h hop hbody, rfl, hinside, houtside, rfl, hopen⟩
  · have hbody := bodyStageFinish_verifies hopen hclean
    rw [verifySlot_closeStaging] at hbody
    obtain ⟨hboot, hmem⟩ := closeStaging_boot (markBegun s q qseq)
    refine ⟨closeStaging (markBegun s q qseq), by rw [hboot], stageMark_closed _, by rw [hboot], hmem, fun hverified hstay => ?_, fun hrefused => ?_⟩
    · rw [if_neg (not_not.mpr hverified), bootRecOf_closeStaging] at hbody
      refine imageStageFinish_of_body h hop (hbody.trans ?_)
      dsimp only
      rw [if_neg (by omega)]
    · rw [if_pos hrefused] at hbody
      exact imageStageFinish_of_body h hop hbody
  · obtain ⟨hboot, hmem⟩ := closeStaging_boot (markBegun s q qseq)
    exact ⟨_, imageStageAbort_of_body h hop (bodyStageAbort_closes hopen hclean), by rw [hboot], by rw [hboot], stageMark_closed _, by rw [hboot], hmem⟩

end Sys2Proof.Machine
end

section
/-! SUPPORT. Runs of register writes (R8), and the widths of what the fuses hold (R393). -/

namespace Sys2Proof.Machine

/-- Registers alone are written between two states, and of them none outside `P`. -/
def Wrote (P : Nat → Prop) (s t : State) : Prop := t = { s with csr := t.csr } ∧ ∀ a, ¬ P a → csrGet t a = csrGet s a

section Wrote
variable {P : Nat → Prop} {s t : State}

theorem Wrote.refl (s : State) : Wrote P s s := ⟨rfl, fun _ _ => rfl⟩

theorem Wrote.put (h : Wrote P s t) {a : Nat} (ha : P a) (v : Nat) : Wrote P s (csrPut t a v) := by
  obtain ⟨hbeside, hkept⟩ := h
  refine ⟨?_, fun b hb => (csrGet_put_other _ _ _ _ (by rintro rfl; exact hb ha)).trans (hkept b hb)⟩
  rw [csrPut, hbeside]

theorem Wrote.setField (h : Wrote P s t) {a : Nat} (ha : P a) (hi lo v : Nat) : Wrote P s (csrSetField t a hi lo v) := h.put ha _

theorem Wrote.foldl {f : State → Nat → State} (l : List Nat) (hf : ∀ u, ∀ d ∈ l, Wrote P s u → Wrote P s (f u d)) (h : Wrote P s t) : Wrote P s (l.foldl f t) := by
  induction l generalizing t with
  | nil => exact h
  | cons d l ih => exact ih (fun u e he => hf u e (List.mem_cons_of_mem _ he)) (hf t d (List.mem_cons_self ..) h)

theorem Wrote.field (h : Wrote P s t) {a : Nat} (ha : ¬ P a) (hi lo : Nat) : csrField t a hi lo = csrField s a hi lo := csrField_congr (h.2 a ha) hi lo

theorem Wrote.boot (h : Wrote P s t) : t.boot = s.boot := by rw [h.1]

theorem Wrote.mem (h : Wrote P s t) : t.mem = s.mem := by rw [h.1]

theorem Wrote.snag (h : Wrote P s t) : t.snag = s.snag := by rw [h.1]

theorem Wrote.plumb (h : Wrote P s t) : t.plumb = s.plumb := by rw [h.1]

theorem Wrote.queues (h : Wrote P s t) : t.queues = s.queues := by rw [h.1]

end Wrote

/-- A row of registers, each put to its own value. -/
def putWords (base : Nat) (one : Nat → Nat) (n : Nat) (s : State) : State := (List.range n).foldl (fun t d => csrPut t (base + 4 * d) (one d)) s

theorem putWords_wrote {P : Nat → Prop} {s t : State} (h : Wrote P s t) {base n : Nat} (hP : ∀ d, d < n → P (base + 4 * d)) (one : Nat → Nat) :
    Wrote P s (putWords base one n t) :=
  h.foldl _ fun _ d hd hu => hu.put (hP d (List.mem_range.mp hd)) _

theorem csrGet_putWords (base : Nat) (one : Nat → Nat) {n d : Nat} (hd : d < n) (s : State) : csrGet (putWords base one n s) (base + 4 * d) = one d % 2 ^ 32 := by
  induction n with
  | zero => exact absurd hd (Nat.not_lt_zero d)
  | succ n ih =>
    rw [putWords, List.range_succ, List.foldl_append, List.foldl_cons, List.foldl_nil]
    by_cases h : d = n
    · rw [h, csrGet_put_self]
    · rw [csrGet_put_other _ _ _ _ (by omega)]
      exact ih (by omega)

/-! The widths of what the fuses hold (R393). -/

theorem minSvn_le (s : State) : minSvn s ≤ 64 := by
  unfold minSvn
  exact (List.takeWhile_sublist _).length_le

theorem fuseBits_lt (s : State) (hi lo : Nat) : fuseBits s hi lo < 2 ^ (hi - lo / 8 * 8 + 1 - (lo - lo / 8 * 8)) := fieldOf_lt ..

/-- Nibbles side by side stay within their width. -/
theorem nibbles_lt {l : List Nat} (hl : ∀ x ∈ l, x < 16) (n : Nat) : (List.range n).foldl (fun w i => w + nthD l i 15 <<< (4 * i)) 0 < 2 ^ (4 * n) := by
  induction n with
  | zero => simp
  | succ n ih =>
    have hnibble : nthD l n 15 < 16 := by
      unfold nthD
      cases h : l[n]? with
      | none => decide
      | some x => exact hl x (List.mem_of_getElem? h)
    rw [List.range_succ, List.foldl_append, List.foldl_cons, List.foldl_nil, Nat.shiftLeft_eq, show 4 * (n + 1) = 4 * n + 4 by omega, pow_add]
    nlinarith

theorem fuseMap_lt (s : State) (d : Nat) : fuseMap s d < 2 ^ 32 := by
  have hplaces : ∀ x ∈ (List.range 8).filter (fun p => clusterEnabled s (d * 8 + p)), x < 16 := fun x hx => by
    have := List.mem_range.mp (List.mem_filter.mp hx).1
    omega
  rw [fuseMap]
  exact (nibbles_lt hplaces 8).trans_eq (by norm_num)

end Sys2Proof.Machine
end

section
/-! PROOF. Start-up, from power good to release, and the safe state. -/

namespace Sys2Proof.Machine

/-! The pins (R391). -/

theorem powerGood_ignored {s : State} (h : (s.boot.pwrgd && s.boot.resetN) = true) : powerGoodState s = s := if_pos h

theorem powerGood_starts {s : State} (h : (s.boot.pwrgd && s.boot.resetN) = false) : powerGoodState s = inReset s true true := if_neg (by simp [h])

theorem inReset_csr (s : State) (pwrgd resetN : Bool) : (inReset s pwrgd resetN).csr = State.reset.csr := by simp only [inReset]

theorem pinFallen (p r pin : Bool) : ((p && !pin) && (r && pin)) = false := by cases pin <;> simp

/-! The safe state (R401, R410). -/

/-- The start-up registers as the safe state is entered. -/
def safeMarked (s : State) (cause : Nat) : State := setPhaseOf (csrSetField (csrPut s rBootTime (bootMillis s)) rBootStatus 27 24 cause) 0xE

/-- What the safe state leaves powered. -/
def safeKept (s : State) : State :=
  { State.reset with
    pending := s.pending, free := s.free, plumb := s.plumb, snag := s.snag, csr := keptCsr s
    power := { power0 with droopN := s.power.droopN }
    net := { net0 with ports := (List.replicate 6 port0) ++ [{ port0 with present := true, mac := spMac s }], spIp6 := linkLocal (spMac s), tx := s.net.tx }
    boot := { s.boot with ready := false, faultN := false, staged := [], staging := false, recovery := [] } }

theorem toSafe_records (s : State) (cause : Nat) : toSafe s cause = bootEvent (safeKept (safeMarked s cause)) 3 := rfl

theorem csrGet_safeKept_status (s : State) : csrGet (safeKept s) rBootStatus = csrGet s rBootStatus := by
  have hkept : stGet 0 (keptCsr s) rBootStatus = stGet 0 s.csr rBootStatus := by
    rw [keptCsr, stGet_foldl_set, if_pos (by simp)]
  exact congrArg BitVec.toNat hkept

theorem safeMarked_fields (s : State) {cause : Nat} (h : cause < 16) : csrField (safeMarked s cause) rBootStatus 31 28 = 0xE
    ∧ csrField (safeMarked s cause) rBootStatus 27 24 = cause ∧ (safeMarked s cause).snag = s.snag := by
  refine ⟨csrField_setField_self _ _ _ _ _ (by decide) (by decide), ?_, (csrSetField_snag ..).trans ((csrSetField_snag ..).trans (csrPut_snag ..))⟩
  refine (csrField_setField_disjoint _ _ _ _ _ _ _ (by decide) (.inl (by decide)) (by decide)).trans ?_
  exact (csrField_setField_self _ _ _ _ _ (by decide) (by decide)).trans (Nat.mod_eq_of_lt h)

theorem bootEvent_recorded (s : State) (severity : Nat) : Recorded s (bootEvent s severity) := snagRecord_recorded ..

theorem bootEvent_books (s : State) (severity : Nat) : ErrOnly s (bootEvent s severity) := snagRecord_books ..

theorem SameUnits.faultN_eq {s t : State} (h : SameUnits s t) : t.boot.faultN = s.boot.faultN := by
  obtain ⟨-, -, -, -, -, -, -, -, -, -, -, -, -, hboot, -⟩ := h
  rw [hboot]

theorem safeState_entered (s : State) {cause : Nat} (h : cause < 16) : inSafe (toSafe s cause) = true ∧ csrField (toSafe s cause) rBootStatus 27 24 = cause
    ∧ (toSafe s cause).boot.ready = false ∧ (toSafe s cause).boot.faultN = false ∧ (toSafe s cause).mem = State.reset.mem
    ∧ (toSafe s cause).queues = State.reset.queues ∧ (toSafe s cause).snag.written = s.snag.written + 1 := by
  rw [toSafe_records]
  obtain ⟨hphase, hcause, hsnag⟩ := safeMarked_fields s h
  revert hphase hcause hsnag
  generalize safeMarked s cause = m
  intro hphase hcause hsnag
  have hrecorded := bootEvent_recorded (safeKept m) 3
  obtain ⟨hunits, hqueues, -⟩ := bootEvent_books (safeKept m) 3
  have hstatus : csrGet (bootEvent (safeKept m) 3) rBootStatus = csrGet m rBootStatus :=
    (hrecorded.csrGet_eq _ (by decide)).trans (csrGet_safeKept_status m)
  refine ⟨?_, (csrField_congr hstatus _ _).trans hcause, hunits.ready_eq, hunits.faultN_eq, hrecorded.mem, hqueues, hrecorded.written.trans ?_⟩
  · rw [inSafe, csrField_congr hstatus, hphase]
    decide
  · exact congrArg (fun g => SnagSt.written g + 1) hsnag

/-! Fuse load (R392, R393, R406, R417). -/

/-- The grade put. -/
def gradePut (s : State) : State := csrPut s rHubGrade (fuseBits s 3131 3124 <<< 8 + fuseBits s 3135 3132)

/-- The cluster maps put. -/
def mapsPut (s : State) : State := putWords rHubClusterMap (fuseMap s) 4 s

/-- The least version put. -/
def svnPut (s : State) : State := csrSetField s rSecStage 7 0 (minSvn s)

/-- The identity key's fingerprint put. -/
def fingerprintPut (s : State) : State := putWords rSecIdFp (fun i => leAt (sha3_256 (identityKey s)) (4 * i) 4) 8 s

/-- The registers that fuse load sets. -/
def fusesPut (s : State) : State := fingerprintPut (svnPut (mapsPut (gradePut s)))

/-- The state after fuse load. -/
def fusesLoaded (ok : Bool) (s : State) : State :=
  { s with boot := { s.boot with loaded := true, identity := true, railWait := if ok then [] else [0] } }

theorem fuseLoadEnd_past {s : State} (hstart : starting s = true) (hphase : bootPhase s = 1) (hloaded : s.boot.loaded = false) (hpast : pastLimit s = true) (ok : Bool) :
    fuseLoadEndState ok s = toSafe s 3 := by
  unfold fuseLoadEndState
  rw [if_neg (by simp [hstart, hphase, hloaded]), if_pos hpast]

theorem fuseLoadEnd_loads {s : State} (hstart : starting s = true) (hphase : bootPhase s = 1) (hloaded : s.boot.loaded = false) (hpast : pastLimit s = false) (ok : Bool) :
    fuseLoadEndState ok s = if ok = true then setPhaseOf (fusesLoaded ok (fusesPut s)) 3 else fusesLoaded ok (fusesPut s) := by
  unfold fuseLoadEndState
  rw [if_neg (by simp [hstart, hphase, hloaded]), if_neg (by simp [hpast])]
  rfl

/-! A register apart from those that fuse load puts last. -/

theorem gradePut_wrote (s : State) : Wrote (· = rHubGrade) s (gradePut s) := (Wrote.refl s).put (P := (· = rHubGrade)) rfl _

theorem mapsPut_wrote (s : State) : Wrote (fun a => rHubClusterMap ≤ a ∧ a < rHubClusterMap + 16) s (mapsPut s) :=
  putWords_wrote (.refl s) (fun d hd => by omega) _

theorem svnPut_wrote (s : State) : Wrote (· = rSecStage) s (svnPut s) := (Wrote.refl s).setField (P := (· = rSecStage)) rfl ..

theorem fingerprintPut_wrote (s : State) : Wrote (fun a => rSecIdFp ≤ a ∧ a < rSecIdFp + 32) s (fingerprintPut s) :=
  putWords_wrote (.refl s) (fun d hd => by omega) _

theorem gradePut_fields (s : State) : csrField (gradePut s) rHubGrade 15 8 = fuseBits s 3131 3124 ∧ csrField (gradePut s) rHubGrade 3 0 = fuseBits s 3135 3132 := by
  have hgrade : fuseBits s 3131 3124 < 256 := fuseBits_lt s 3131 3124
  have hbin : fuseBits s 3135 3132 < 16 := fuseBits_lt s 3135 3132
  rw [gradePut, csrField, csrField, csrGet_put_self]
  revert hgrade hbin
  generalize fuseBits s 3131 3124 = x
  generalize fuseBits s 3135 3132 = y
  intro hgrade hbin
  simp only [fieldOf, Nat.shiftLeft_eq, Nat.shiftRight_eq_div_pow]
  omega

theorem fusesPut_mem (s : State) : (fusesPut s).mem = s.mem := by
  rw [fusesPut, (fingerprintPut_wrote _).mem, (svnPut_wrote _).mem, (mapsPut_wrote _).mem, (gradePut_wrote _).mem]

theorem fusesPut_status (s : State) : csrGet (fusesPut s) rBootStatus = csrGet s rBootStatus := by
  rw [fusesPut, (fingerprintPut_wrote _).2 _ (by decide), (svnPut_wrote _).2 _ (by decide), (mapsPut_wrote _).2 _ (by decide), (gradePut_wrote _).2 _ (by decide)]

/-- What fuse load leaves in the registers. -/
structure FusesRead (s t : State) : Prop where
  grade : csrField t rHubGrade 15 8 = fuseBits s 3131 3124
  bin : csrField t rHubGrade 3 0 = fuseBits s 3135 3132
  maps : ∀ d, d < 4 → csrGet t (rHubClusterMap + 4 * d) = fuseMap s d
  svn : csrField t rSecStage 7 0 = minSvn s
  fingerprint : ∀ i, i < 8 → csrGet t (rSecIdFp + 4 * i) = leAt (sha3_256 (identityKey s)) (4 * i) 4

theorem fusesPut_reads (s : State) : FusesRead s (fusesPut s) := by
  have hboot₁ := (gradePut_wrote s).boot
  have hboot₂ := (mapsPut_wrote (gradePut s)).boot.trans hboot₁
  have hboot₃ := (svnPut_wrote (mapsPut (gradePut s))).boot.trans hboot₂
  obtain ⟨hgrade, hbin⟩ := gradePut_fields s
  have hgradeKept : csrGet (fusesPut s) rHubGrade = csrGet (gradePut s) rHubGrade := by
    rw [fusesPut, (fingerprintPut_wrote _).2 _ (by decide), (svnPut_wrote _).2 _ (by decide), (mapsPut_wrote _).2 _ (by decide)]
  refine ⟨(csrField_congr hgradeKept _ _).trans hgrade, (csrField_congr hgradeKept _ _).trans hbin, fun d hd => ?_, ?_, fun i hi => ?_⟩
  · have hmap := csrGet_putWords rHubClusterMap (fuseMap (gradePut s)) hd (gradePut s)
    rw [fuseMap_congr (congrArg BootSt.fuses hboot₁), Nat.mod_eq_of_lt (fuseMap_lt s d)] at hmap
    rw [fusesPut, (fingerprintPut_wrote _).2 _ ?_, (svnPut_wrote _).2 _ ?_]
    · rw [← hmap, mapsPut, fuseMap_congr (congrArg BootSt.fuses hboot₁)]
    · unfold rHubClusterMap rSecStage
      omega
    · unfold rHubClusterMap rSecIdFp
      omega
  · have hsvn : csrField (svnPut (mapsPut (gradePut s))) rSecStage 7 0 = minSvn (mapsPut (gradePut s)) % 2 ^ 8 :=
      csrField_setField_self _ _ _ _ _ (by decide) (by decide)
    have hle := minSvn_le s
    rw [minSvn_congr (congrArg BootSt.fuses hboot₂), Nat.mod_eq_of_lt (by omega)] at hsvn
    exact ((fingerprintPut_wrote _).field (by decide) ..).trans hsvn
  · have hword := csrGet_putWords rSecIdFp (fun i => leAt (sha3_256 (identityKey (svnPut (mapsPut (gradePut s))))) (4 * i) 4) hi (svnPut (mapsPut (gradePut s)))
    rw [identityKey_congr (congrArg BootSt.fuses hboot₃)] at hword
    rw [fusesPut, fingerprintPut, identityKey_congr (congrArg BootSt.fuses hboot₃), hword]
    exact Nat.mod_eq_of_lt (leAt_lt _ _ 4)

theorem FusesRead.congr {s t u : State} (h : FusesRead s t) (hcsr : ∀ a, a ≠ rBootStatus → csrGet u a = csrGet t a) : FusesRead s u where
  grade := (csrField_congr (hcsr _ (by decide)) ..).trans h.grade
  bin := (csrField_congr (hcsr _ (by decide)) ..).trans h.bin
  maps d hd := (hcsr _ (by unfold rHubClusterMap rBootStatus; omega)).trans (h.maps d hd)
  svn := (csrField_congr (hcsr _ (by decide)) ..).trans h.svn
  fingerprint i hi := (hcsr _ (by unfold rSecIdFp rBootStatus; omega)).trans (h.fingerprint i hi)

theorem csrGet_fusesLoaded (ok : Bool) (s : State) (a : Nat) : csrGet (fusesLoaded ok s) a = csrGet s a := rfl

/-- Phase 3 entered, where the rails let it. -/
theorem phase_wrote (ok : Bool) (s : State) : Wrote (· = rBootStatus) s (if ok = true then setPhaseOf s 3 else s) := by
  split
  · exact (Wrote.refl s).setField (P := (· = rBootStatus)) rfl ..
  · exact .refl s

theorem bootPhase_set (s : State) {p : Nat} (hp : p < 16) : bootPhase (setPhaseOf s p) = p :=
  (csrField_setField_self _ _ _ _ _ (by decide) (by decide)).trans (Nat.mod_eq_of_lt hp)

theorem fixedRailInWindow_leaves {s : State} {rail : Nat} (hstart : starting s = true) (hphase : bootPhase s = 1) (hwait : s.boot.railWait ≠ [])
    (hlow : 1 ≤ rail) (hhigh : rail ≤ 8) (hpast : pastLimit s = false) :
    fixedRailInWindowState rail s = setPhaseOf { s with boot := { s.boot with railWait := [] } } 3 := by
  have hgo : ¬ ((!starting s) = true ∨ bootPhase s ≠ 1 ∨ s.boot.railWait.isEmpty = true ∨ rail = 0 ∨ 8 < rail) := by
    simp only [hstart, hphase, List.isEmpty_iff, hwait, Bool.not_true, Bool.false_eq_true, ne_eq, not_true_eq_false, false_or]
    omega
  unfold fixedRailInWindowState
  rw [if_neg hgo, if_neg (by simp [hpast])]

/-! The image (R395, R397). -/

theorem setResult_boot (s : State) (slot v : Nat) : (setResult s slot v).boot = s.boot := by
  unfold setResult
  split
  · exact csrSetField_boot ..
  · exact csrSetField_boot ..

theorem verifySlot_setResult (s : State) (slot v other : Nat) : verifySlot (setResult s slot v) other = verifySlot s other :=
  have hboot := setResult_boot s slot v
  verifySlot_congr (congrArg BootSt.flash hboot) (congrArg BootSt.fuses hboot) other

section Image
variable {s : State} (hstart : starting s = true) (hphase : bootPhase s = 3) (hpast : pastLimit s = false)
include hstart hphase hpast

theorem imageVerified_unrecorded (h : bootRecord s = none) : imageVerifiedState s = toSafe s 5 := by
  unfold imageVerifiedState
  rw [if_neg (by simp [hstart, hphase]), if_neg (by simp [hpast])]
  simp only [h]

/-- The preferred slot, then the other if it is VALID. -/
theorem imageVerified_recorded {k : Nat} {r : BootRec} {t : State} (h : bootRecord s = some (k, r)) (ht : t = setResult s r.pref (verifySlot s r.pref)) :
    imageVerifiedState s = if verifySlot s r.pref = 1 then bootSlot t r.pref false else if (!bitOf r.valid (1 - r.pref)) = true then toSafe t 1
      else if verifySlot s (1 - r.pref) = 1 then bootSlot (setResult t (1 - r.pref) (verifySlot s (1 - r.pref))) (1 - r.pref) true
        else toSafe (setResult t (1 - r.pref) (verifySlot s (1 - r.pref))) 1 := by
  subst ht
  unfold imageVerifiedState
  rw [if_neg (by simp [hstart, hphase]), if_neg (by simp [hpast])]
  simp only [h, verifySlot_setResult]

end Image

/-! Release (R399, R400, R405). -/

/-- A row of flags, each put to its own value. -/
def flagRow (base bit : Nat) (one : Nat → Nat) (n : Nat) (s : State) : State :=
  (List.range n).foldl (fun t c => csrSetField t (base + 0x20 * c) bit bit (one c)) s

theorem flagRow_wrote {P : Nat → Prop} (s : State) {base n : Nat} (hP : ∀ c, c < n → P (base + 0x20 * c)) (bit : Nat) (one : Nat → Nat) :
    Wrote P s (flagRow base bit one n s) :=
  (Wrote.refl s).foldl _ fun _ c hc hu => hu.setField (hP c (List.mem_range.mp hc)) ..

theorem csrField_flagRow (base : Nat) {bit : Nat} (hbit : bit < 32) (one : Nat → Nat) {n c : Nat} (hc : c < n) (s : State) :
    csrField (flagRow base bit one n s) (base + 0x20 * c) bit bit = one c % 2 := by
  induction n with
  | zero => exact absurd hc (Nat.not_lt_zero c)
  | succ n ih =>
    rw [flagRow, List.range_succ, List.foldl_append, List.foldl_cons, List.foldl_nil]
    by_cases h : c = n
    · rw [h, csrField_setField_self _ _ _ _ _ (Nat.le_refl bit) hbit, Nat.add_sub_cancel_left, pow_one]
    · rw [csrField_congr (csrGet_setField_other _ _ _ _ (by omega))]
      exact ih (by omega)

/-- The capacity controllers' training noted. -/
def trainedPut (r : BootReport) (s : State) : State := flagRow rCapStatus 30 (fun c => boolNat (bitOf r.trained c)) 8 s

/-- The registers that the cluster maps' rewriting touches. -/
def MapReg (a : Nat) : Prop := a = rBootStatus ∨ (rHubClusterMap ≤ a ∧ a < rHubClusterMap + 16)

theorem mapClusters_wrote (s : State) : Wrote MapReg s (mapClusters s) := by
  refine (Wrote.foldl _ (fun u d hd hu => hu.put (.inr ?_) _) (.refl s)).setField (.inl rfl) ..
  have := List.mem_range.mp hd
  omega

/-- Memory and queues as after reset, READY asserted. -/
def opened (r : BootReport) (s : State) : State :=
  { s with
    mem := mem0, queues := List.replicate 8 queue0
    snag := { s.snag with lastPass := if s.snag.time = 0 then [] else ((testedUnits s r.badCores).filter (fun u => !r.badUnits.contains u)).map (fun u => (u, s.snag.time)) }
    boot := { s.boot with ready := true } }

/-- IDLE and phase 8 put. -/
def idlePut (s : State) : State := csrPut (setPhaseOf (syncAvail (setStepState s sIdle)) 8) rBootTime (bootMillis s)

theorem release_goes {s : State} {r : BootReport} (hstart : starting s = true) (hphase : bootPhase s = 6) (htime : s.plumb < s.boot.startAt + 45 * 10 ^ 9)
    (hcores : r.badCores = []) (hunits : r.badUnits = []) :
    releaseState r s = if r.trained % 256 ≠ 255 ∨ csrField (mapClusters (trainedPut r s)) rSngStatus 30 30 = 1 then toSafe (mapClusters (trainedPut r s)) 4
      else burnSvn (idlePut (opened r (mapClusters (trainedPut r s)))) := by
  unfold releaseState
  rw [if_neg (by simp [hstart, hphase]), if_neg (by omega)]
  extract_lets trained failed mapped
  have hmapped : mapped = mapClusters (trainedPut r s) := by
    simp only [mapped, failed, hcores, hunits, List.filter_nil, List.foldl_nil]
    rfl
  rw [← hmapped]
  rfl

theorem csrGet_opened (r : BootReport) (s : State) (a : Nat) : csrGet (opened r s) a = csrGet s a := rfl

theorem idlePut_wrote (s : State) : Wrote (fun a => a = rHubStepState ∨ a = rBootStatus ∨ a = rBootTime) s (idlePut s) :=
  ((((Wrote.refl s).setField (.inl rfl) ..).setField (.inr (.inl rfl)) ..).setField (.inr (.inl rfl)) ..).put (.inr (.inr rfl)) _

theorem idlePut_phase (s : State) : bootPhase (idlePut s) = 8 ∧ stepState (idlePut s) = sIdle := by
  have hafter : Wrote (fun a => a = rBootStatus ∨ a = rBootTime) (setStepState s sIdle) (idlePut s) :=
    (((Wrote.refl _).setField (.inl rfl) ..).setField (.inl rfl) ..).put (.inr rfl) _
  exact ⟨(csrField_congr (csrGet_put_other _ _ _ _ (by decide)) _ _).trans (bootPhase_set _ (by decide)),
    (hafter.field (by decide) ..).trans (stepState_set s (by decide))⟩

/-- What a burn of the least version leaves: the fuses and SEC_STAGE alone change. -/
theorem burnSvn_beside (s : State) : (burnSvn s).boot.ready = s.boot.ready ∧ (burnSvn s).queues = s.queues
    ∧ ∀ a, a ≠ rSecStage → csrGet (burnSvn s) a = csrGet s a := by
  unfold burnSvn
  dsimp only
  split
  · exact ⟨(congrArg BootSt.ready (csrSetField_boot ..)).trans rfl, (csrSetField_queues ..).trans rfl, fun a ha => csrGet_setField_other _ _ _ _ ha⟩
  · exact ⟨rfl, rfl, fun _ _ => rfl⟩

/-- Each of the eight low bits is set where all are. -/
theorem bitOf_trained {n c : Nat} (h : n % 256 = 255) (hc : c < 8) : bitOf n c = true := by
  have hlow : (n % 2 ^ 8).testBit c = true := by
    rw [show n % 2 ^ 8 = 2 ^ 8 - 1 by omega, Nat.testBit_two_pow_sub_one]
    exact decide_eq_true hc
  rw [Nat.testBit_mod_two_pow] at hlow
  exact (Bool.and_eq_true_iff.mp hlow).2

theorem trainedPut_wrote (r : BootReport) (s : State) : Wrote (fun a => rCapStatus ≤ a ∧ a < rCapStatus + 0x100) s (trainedPut r s) :=
  flagRow_wrote s (fun c hc => by omega) ..

theorem mapReg_apart {c : Nat} (hc : c < 8) : ¬ MapReg (rCapStatus + 0x20 * c) := by
  unfold MapReg rCapStatus rBootStatus rHubClusterMap
  omega

section Release
variable {s : State} {r : BootReport} (hstart : starting s = true) (hphase : bootPhase s = 6) (htime : s.plumb < s.boot.startAt + 45 * 10 ^ 9)
  (hcores : r.badCores = []) (hunits : r.badUnits = [])
include hstart hphase htime hcores hunits

theorem release_untrained (h : r.trained % 256 ≠ 255) : releaseState r s = toSafe (mapClusters (trainedPut r s)) 4 :=
  (release_goes hstart hphase htime hcores hunits).trans (if_pos (.inl h))

theorem release_trained (h : r.trained % 256 = 255) (htakeover : csrField s rSngStatus 30 30 = 0) :
    releaseState r s = burnSvn (idlePut (opened r (mapClusters (trainedPut r s)))) := by
  have hkept : csrField (mapClusters (trainedPut r s)) rSngStatus 30 30 = 0 := by
    rw [(mapClusters_wrote _).field (by unfold MapReg; decide), (trainedPut_wrote r s).field (by decide), htakeover]
  exact (release_goes hstart hphase htime hcores hunits).trans (if_neg (by rw [hkept]; omega))

end Release

theorem release_leaves (r : BootReport) (s : State) (h : r.trained % 256 = 255) :
    ∃ u, u = burnSvn (idlePut (opened r (mapClusters (trainedPut r s)))) ∧ u.boot.ready = true ∧ bootPhase u = 8 ∧ stepState u = sIdle
      ∧ u.mem = mem0 ∧ u.queues = List.replicate 8 queue0 ∧ (∀ c, c < 8 → csrField u (rCapStatus + 0x20 * c) 30 30 = 1) := by
  have htrained : ∀ c, c < 8 → csrField (mapClusters (trainedPut r s)) (rCapStatus + 0x20 * c) 30 30 = 1 := fun c hc => by
    rw [(mapClusters_wrote _).field (mapReg_apart hc), trainedPut, csrField_flagRow _ (by decide) _ hc, bitOf_trained h hc]
    rfl
  revert htrained
  generalize mapClusters (trainedPut r s) = m
  intro htrained
  have hidle := idlePut_wrote (opened r m)
  obtain ⟨hphase, hstep⟩ := idlePut_phase (opened r m)
  obtain ⟨hready, hqueues, hcsr⟩ := burnSvn_beside (idlePut (opened r m))
  refine ⟨_, rfl, hready.trans (congrArg BootSt.ready hidle.boot), (csrField_congr (hcsr _ (by decide)) _ _).trans hphase,
    (csrField_congr (hcsr _ (by decide)) _ _).trans hstep, (burnSvn_mem _).trans hidle.mem, hqueues.trans hidle.queues, fun c hc => ?_⟩
  rw [csrField_congr (hcsr _ ?_), hidle.field ?_, csrField_congr (csrGet_opened ..), htrained c hc]
  · unfold rCapStatus rHubStepState rBootStatus rBootTime
    omega
  · unfold rCapStatus rSecStage
    omega

/-- What fuse load leaves, with its rails in their windows or not. -/
theorem fuseLoad_leaves (s : State) (ok : Bool) (hphase : bootPhase s = 1) :
    ∃ u, u = (if ok = true then setPhaseOf (fusesLoaded ok (fusesPut s)) 3 else fusesLoaded ok (fusesPut s)) ∧ u.boot.loaded = true ∧ u.boot.identity = true
      ∧ FusesRead s u ∧ bootPhase u = (if ok then 3 else 1) ∧ u.mem = s.mem := by
  have hreads := fusesPut_reads s
  have hmem := fusesPut_mem s
  have hstatus : bootPhase (fusesPut s) = 1 := (csrField_congr (fusesPut_status s) _ _).trans hphase
  revert hreads hmem hstatus
  generalize fusesPut s = t
  intro hreads hmem hstatus
  have hwrote := phase_wrote ok (fusesLoaded ok t)
  refine ⟨_, rfl, congrArg BootSt.loaded hwrote.boot, congrArg BootSt.identity hwrote.boot, hreads.congr fun a ha => (hwrote.2 a ha).trans (csrGet_fusesLoaded ..), ?_,
    hwrote.mem.trans hmem⟩
  cases ok with
  | false => exact hstatus
  | true => exact bootPhase_set _ (by decide)

/-- Settles O54: each row by its guards; what fuse load, the safe state and release leave is read back register by register. -/
theorem startUpPhases : Obligations.StartUpPhases := by
  refine ⟨fun s => ⟨fun hup => ?_, fun hdown => ?_, fun pin => ?_⟩, fun s hstart hphase => ⟨fun hloaded hpast ok => ?_, fun hloaded hpast ok => ?_, fun rail hwait hlow hhigh hpast => ?_⟩,
    fun s hstart hphase hpast => ⟨fun hrec => ?_, fun k r t hrec ht => ?_⟩, fun s => ⟨fun hstart hpast => ?_, fun hidle => ?_⟩,
    fun s cause hcause => safeState_entered s hcause, fun s r hstart hphase htime hcores hunits htakeover => ⟨fun h => ?_, fun h => ?_⟩⟩
  · exact congrArg Host.Outcome.next (powerGood_ignored hup)
  · exact ⟨_, congrArg Host.Outcome.next (powerGood_starts hdown), rfl, rfl, rfl, rfl, inReset_csr .., rfl, rfl, rfl⟩
  · exact ⟨inReset s (s.boot.pwrgd && !pin) (s.boot.resetN && pin), rfl, pinFallen .., rfl, inReset_csr .., rfl, rfl, rfl, rfl⟩
  · obtain ⟨u, hu, hload, hidentity, hreads, hnext, hmem⟩ := fuseLoad_leaves s ok hphase
    exact ⟨u, congrArg Host.Outcome.next ((fuseLoadEnd_loads hstart hphase hloaded hpast ok).trans hu.symm), hload, hidentity, hreads.grade, hreads.bin, hreads.maps,
      hreads.svn, hreads.fingerprint, hnext, hmem⟩
  · exact congrArg Host.Outcome.next (fuseLoadEnd_past hstart hphase hloaded hpast ok)
  · refine ⟨_, congrArg Host.Outcome.next (fixedRailInWindow_leaves hstart hphase hwait hlow hhigh hpast), bootPhase_set _ (by decide), ?_, ?_⟩
    · exact congrArg BootSt.railWait (csrSetField_boot ..)
    · exact csrSetField_mem ..
  · exact congrArg Host.Outcome.next (imageVerified_unrecorded hstart hphase hpast hrec)
  · have hrow := imageVerified_recorded hstart hphase hpast hrec ht
    refine ⟨fun hgood => ?_, fun hbad hinvalid => ?_, fun hbad hvalid hother => ?_, fun hbad hvalid hother => ?_⟩
    · exact congrArg Host.Outcome.next (hrow.trans (if_pos hgood))
    · rw [if_neg hbad, if_pos (by simp [hinvalid])] at hrow
      exact congrArg Host.Outcome.next hrow
    · rw [if_neg hbad, if_neg (by simp [hvalid]), if_pos hother, hother] at hrow
      exact congrArg Host.Outcome.next hrow
    · rw [if_neg hbad, if_neg (by simp [hvalid]), if_neg hother] at hrow
      exact congrArg Host.Outcome.next hrow
  · exact congrArg Host.Outcome.next (if_pos (by simp [hstart, hpast]))
  · refine congrArg Host.Outcome.next (if_neg ?_)
    rcases hidle with h | h <;> simp [h]
  · obtain ⟨u, hu, hleaves⟩ := release_leaves r s h
    exact ⟨u, congrArg Host.Outcome.next ((release_trained hstart hphase htime hcores hunits h htakeover).trans hu.symm), hleaves⟩
  · exact ⟨_, congrArg Host.Outcome.next (release_untrained hstart hphase htime hcores hunits h), (mapClusters_wrote _).snag.trans (trainedPut_wrote r s).snag,
      (mapClusters_wrote _).plumb.trans (trainedPut_wrote r s).plumb⟩

end Sys2Proof.Machine
end
